-- ==== Sys2Proof/Word.lean ====
section
/-! DEFINITION. The words, byte strings and unit numbers of the module, and their plainest arithmetic (spec/00 R2 to R4, spec/01 R15 to R18). -/
namespace Sys2Proof

/-- One byte. -/
abbrev Byte := BitVec 8
/-- A 16-bit field. -/
abbrev W16 := BitVec 16
/-- A 32-bit register. -/
abbrev W32 := BitVec 32
/-- A 64-bit register. -/
abbrev W64 := BitVec 64

/-- The two host ports (R33): port A on die 0, port B on die 1. -/
inductive Port where
  | a | b
  deriving DecidableEq, Repr

/-- The number of a port: 0 for A, 1 for B (Table MBX-3, this_port). -/
def Port.idx : Port → Fin 2
  | .a => 0
  | .b => 1

/-- The other host port. -/
def Port.other : Port → Port
  | .a => .b
  | .b => .a

/-- The port of a number: 0 A, any other B. -/
def portOfNat (n : Nat) : Port := if n = 0 then .a else .b

/-- A partition, P0 to P15 (R159). -/
abbrev PartId := Fin 16
/-- A queue: 0 Q_COMPUTE, 1 Q_PUMP, 2 Q_STREAM, 3 Q_SERVICE (spec/02, Doorbells). -/
abbrev QueId := Fin 4
/-- A core (R15). -/
abbrev CoreId := Fin 32
/-- A cluster (R15). -/
abbrev ClusId := Fin 8
/-- A die (R15). -/
abbrev Die := Fin 2
/-- A cluster pair (R15). -/
abbrev PairId := Fin 4
/-- A mailbox slot (R42). -/
abbrev SlotId := Fin 32
/-- A hardware semaphore (R51). -/
abbrev SemId := Fin 64
/-- An Ethernet port, E0 to E5 (Table ORG-3). -/
abbrev EthId := Fin 6
/-- A camera port, V0 to V23 (Table ORG-3). -/
abbrev CamId := Fin 24
/-- An input pipeline (R342). -/
abbrev PipeId := Fin 16
/-- A servo axis (R359). -/
abbrev AxisId := Fin 128
/-- A loop-engine station (R358). -/
abbrev StationId := Fin 32
/-- A power domain, PD0 to PD127 (R16). -/
abbrev PdId := Fin 128
/-- A TDM port, T0 to T3 (R339). -/
abbrev TdmId := Fin 4
/-- A mirrored range (R420). -/
abbrev MirId := Fin 16

/-- A half-well (half h of core n is number 2n + h) or a cluster pool: the parts that power down and up (R134, R137). -/
inductive WellPart where
  | half (h : Fin 64)
  | pool (c : Fin 8)
  deriving DecidableEq, Repr

/-- A fault that a core unit meets while it runs a command (R217): a parity fault of the matrix engine, the vector engine or
the infuser, or a fault of the scalar core's microcode store. -/
inductive UnitFault where
  | none | matrix | vector | infuser | microcode
  deriving DecidableEq, Repr

/-- The die of a cluster (R15). -/
def dieOfClus (c : ClusId) : Die := ⟨c.val / 4, by omega⟩
/-- The cluster of a core (R15). -/
def clusOfCore (n : CoreId) : ClusId := ⟨n.val / 4, by omega⟩
/-- The die of a core (R15). -/
def dieOfCore (n : CoreId) : Die := ⟨n.val / 16, by omega⟩
/-- The die of a port (R33). -/
def dieOfPort (p : Port) : Die := p.idx
/-- The pair of a cluster (R15). -/
def pairOfClus (c : ClusId) : PairId := ⟨c.val % 4, by omega⟩
/-- The cluster of a pair on a die (R15). -/
def clusOfPair (r : PairId) (d : Die) : ClusId := ⟨r.val + 4 * d.val, by omega⟩

/-- Every number below `n`, rising. -/
def allFin : (n : Nat) → List (Fin n)
  | 0 => []
  | n + 1 => (allFin n).map (fun i => i.castSucc) ++ [Fin.last n]

/-- Bit `i` of a number. -/
def bitAt (x i : Nat) : Bool := x.testBit i

/-- The bits `[lo + len - 1 : lo]` of a number (R3). -/
def bitsAt (x lo len : Nat) : Nat := (x >>> lo) % 2 ^ len

/-- The number that bytes hold, the lowest byte first (R3). -/
def leNat : List Byte → Nat
  | [] => 0
  | b :: bs => b.toNat + 256 * leNat bs

/-- The `n` bytes of a number, the lowest byte first (R3). -/
def leBytes : (n : Nat) → Nat → List Byte
  | 0, _ => []
  | n + 1, x => BitVec.ofNat 8 x :: leBytes n (x / 256)

/-- `n` copies of a byte. -/
def repByte (n : Nat) (b : Byte) : List Byte := List.replicate n b

/-- The bytes `[off, off + len)` of a string, a missing byte read as 0. -/
def bytesAt (bs : List Byte) (off len : Nat) : List Byte :=
  let t := (bs.drop off).take len
  t ++ repByte (len - t.length) 0

/-- The little-endian number in the bytes `[off, off + len)` of a string (R3). -/
def fieldAt (bs : List Byte) (off len : Nat) : Nat := leNat (bytesAt bs off len)

/-- A string with `data` laid over it at `off`; the length stays. -/
def overlay (bs : List Byte) (off : Nat) (data : List Byte) : List Byte :=
  (bs.take off ++ data ++ bs.drop (off + data.length)).take bs.length

/-- The signed value of the low `w` bits of a number (two's complement). -/
def signed (w x : Nat) : Int :=
  let y := x % 2 ^ w
  if y < 2 ^ (w - 1) then (y : Int) else (y : Int) - (2 ^ w : Nat)

/-- A saturating step of a counter of `w` bits. -/
def satAdd (w x n : Nat) : Nat := min (x + n) (2 ^ w - 1)

/-- The value with `f` applied to entry `i`. -/
def vmod {α : Type} {n : Nat} (v : Vector α n) (i : Fin n) (f : α → α) : Vector α n := v.set i (f v[i])

/-- The first entry that meets a test, with its place. -/
def findIdx? {α : Type} (f : α → Bool) : List α → Option (Nat × α)
  | [] => none
  | x :: xs => if f x then some (0, x) else (findIdx? f xs).map fun (i, y) => (i + 1, y)

/-- Ceiling division. -/
def cdiv (a b : Nat) : Nat := (a + b - 1) / b

end Sys2Proof
end

