-- ==== Sys2Proof/Syntax.lean ====
section
/-! DEFINITION. The commands of the module: one constructor of Instr for each row of spec/opcode_table.json, with the operands that the row's rule gives it. -/
namespace Sys2Proof

/-- A received Siphon message (Table PRG-6): its header fields, whether its CRC holds, and its payload. The type is the row's. -/
structure Msg where
  flags : Byte
  length : W16
  seq : W32
  addr : BitVec 40
  window : Fin 64
  partition : Fin 16
  counter : Fin 64
  reserved : Byte
  arg : W64
  ackSeq : W32
  crcOk : Bool
  payload : List Byte
  deriving DecidableEq, Repr

/-- A JTAG debug action that changes state (R414): halt, single step, resume, or a write to a well or pool byte range. -/
inductive DebugAct where
  | halt
  | step
  | resume
  | write (addr : Nat) (data : List Byte)
  deriving DecidableEq, Repr

/-- A read of the cistern that its host has not answered (R155): that of a pump operation, by its number, or that of a page on its way back, by its
descriptor. -/
inductive CisternRead where
  | op (id : Nat)
  | page (desc : Nat)
  deriving DecidableEq, Repr

/-- The payload of a CSI-2 long packet, and whether the line buffer was full when its line came (R327). -/
structure CsiLine where
  full : Bool
  payload : List Byte
  deriving DecidableEq, Repr

/-- The values of the six signature groups that the main cluster and the checker of a pair drive in a cycle (R404). -/
structure Driven where
  main : List Nat
  chk : List Nat
  deriving DecidableEq, Repr

/-- The commands. -/
inductive Instr where
  /-- PWR_EN_RISE (R478). A rising PWR_EN starts the module converters and power-up. -/
  | pwrEnRise (msSinceFall : Nat)
  /-- PWR_EN_FALL (R480). PWR_EN held low for the 100 µs filter turns every converter off, and nothing is retained. -/
  | pwrEnFall (lowUs : Nat)
  /-- RAILS_IN_REGULATION (R478). The rails reach regulation about 15 ms after PWR_EN rises; FAULT_OUT goes low (latched) and the internal reset is held while RST_N is low. -/
  | railsInRegulation
  /-- RST_N_ASSERT (R479). RST_N low for 1 µs or longer resets the whole module: the counter restarts, the log is emptied and fences are lifted. -/
  | rstNAssert (lowNs : Nat)
  /-- RST_N_RELEASE (R479). Release of RST_N lets die alignment and boot begin. -/
  | rstNRelease
  /-- UNDERVOLTAGE_LOCKOUT (R470). Input below 33 V for 20 µs sends a last gasp and turns every converter off 50 µs later. -/
  | undervoltageLockout
  /-- INPUT_RISE_35V (R470). Input rising through 35 V with PWR_EN high powers the module up as a PWR_EN rising edge would. -/
  | inputRise35V
  /-- INPUT_LOW (R441). Input below 36 V for 100 µs sets input_low, logs event 0x0008 and flags the heartbeats. -/
  | inputLow
  /-- DIE_ALIGNMENT (R30). The dividers are released, the die-to-die link is trained to 12 cycles and the counters are loaded and checked. -/
  | dieAlignment (failedSteps : List Nat)
  /-- BOOT (R446). The boot ROM verifies the configuration and image areas, then starts Goride or waits for a recovery image. -/
  | boot
  /-- GORIDE_READY (R446). Goride finishes key derivation, memory initialisation and domain power-up, and the firmware state becomes 3. -/
  | gorideReady (pufOk : Bool)
  /-- WATCHDOG_EXPIRY (R450). 100 ms without service restarts the management processor at boot step 2 and causes a device reset. -/
  | watchdogExpiry
  /-- FLR (R35). A function-level reset on a port resets the device in state 3, or only that port's function during boot. -/
  | flr (port : Port)
  /-- PCIE_HOT_RESET (R55). A hot reset on a port detaches it. -/
  | pcieHotReset (port : Port)
  /-- PCIE_LINK_DOWN (R55). Loss of a port's data link detaches it and sets link_down. -/
  | pcieLinkDown (port : Port)
  /-- D3HOT_ENTRY (R55). Entry of a port to D3hot detaches it. -/
  | d3hotEntry (port : Port)
  /-- PERST_ASSERT (R475). Assertion of PERST_A_N or PERST_B_N detaches that port as a link-down and holds its link in reset. -/
  | perstAssert (port : Port)
  /-- PERST_RELEASE (R475). Release of PERST lets the port train again within 20 ms. -/
  | perstRelease (port : Port)
  /-- HEARTBEAT_LAPSE (R55). Three heartbeat periods without a HEARTBEAT detach the port. -/
  | heartbeatLapse (port : Port)
  /-- ORPHAN_CLOSE (R56). An orphaned CLOSE-policy partition is closed once its issued commands complete. -/
  | orphanClose (p : PartId)
  /-- POISONED_TLP_WRITE (R36). A write TLP received with the poisoned bit set is dropped and reported by AER. -/
  | poisonedTlpWrite (port : Port)
  /-- BAR0_BAD_ACCESS (R36). A BAR0 access that is not 4 or 8 bytes, or not naturally aligned, completes as an unsupported request. -/
  | bar0BadAccess (port : Port) (off : Nat) (size : Nat)
  /-- BAR2_READ (R28). A host read through BAR2 returns data, zero for an unmapped address, or all ones for an owned range. -/
  | bar2Read (port : Port) (off : Nat) (len : Nat)
  /-- BAR2_WRITE (R40). A host write through BAR2 is carried out, or dropped with a flag when it is unmapped, a partial well word or to a closed half-well. -/
  | bar2Write (port : Port) (off : Nat) (data : List Byte)
  /-- MBX_SLOT_WRITE (R42). A write to a mailbox slot's request area is stored, or dropped while BUSY; a write to the response area is ignored. -/
  | mbxSlotWrite (port : Port) (slot : SlotId) (off : Nat) (data : List Byte)
  /-- MBX_RING (R43). Writing slot bits to MBX_RING submits free slots to Goride; a ring of a slot that is not free is refused. -/
  | mbxRing (port : Port) (mask : W32)
  /-- MBX_DONE_CLEAR (R43). Writing 1 to a DONE bit frees the mailbox slot. -/
  | mbxDoneClear (port : Port) (mask : W32)
  /-- GET_INFO (R48). Goride returns version, serial number, the cores present, the partitions and the counter. -/
  | getInfo (port : Port) (slot : SlotId)
  /-- HOST_ATTACH (R55). The port becomes attached with its heartbeat period and orphan policy, and the response lists orphaned partitions. -/
  | hostAttach (port : Port) (slot : SlotId)
  /-- HOST_DETACH (R55). The host asks for its port to be detached, and the request is answered. -/
  | hostDetach (port : Port) (slot : SlotId)
  /-- HEARTBEAT (R55). The host's heartbeat resets the lapse timer and is answered with the counter. -/
  | heartbeat (port : Port) (slot : SlotId)
  /-- DEVICE_RESET (R50). The mailbox request resets the device: partitions, slots, semaphores, regions and windows are cleared and both ports detached. -/
  | deviceReset (port : Port) (slot : SlotId)
  /-- DEVICE_RESET_DONE (R50). Goride becomes ready after a device reset and the firmware state returns to 3. -/
  | deviceResetDone
  /-- MODE_SET_POWER (R427). MODE_SET with mode set 0 selects the power mode and its cap. -/
  | modeSetPower (port : Port) (slot : SlotId)
  /-- MODE_SET_DETERMINISM (R306). MODE_SET with mode set 1 sets a partition STRICT or RELAXED for commands admitted after the response. -/
  | modeSetDeterminism (port : Port) (slot : SlotId)
  /-- MODE_SET_PAIRED (R406). A request for PAIRED runs the entry sequence with copy and comparator test, or is refused. -/
  | modeSetPaired (port : Port) (slot : SlotId) (testOk : Bool)
  /-- MODE_SET_SPLIT (R408). A request for SPLIT drains the checker, releases the axes, resets the checker and releases the link reservation. -/
  | modeSetSplit (port : Port) (slot : SlotId)
  /-- MODE_SET_AUGMENTATION (R351). MODE_SET with mode set 4 sets a pipeline's augmentation source to SEEDED or HOST from its next job. -/
  | modeSetAugmentation (port : Port) (slot : SlotId)
  /-- MODE_SET_INLINE_ECC (R12). MODE_SET with mode set 5 records a pending inline ECC value for the next device reset. -/
  | modeSetInlineEcc (port : Port) (slot : SlotId)
  /-- MODE_SET_SIPHON_ROLE (R418). MODE_SET with mode set 6 sets the Siphon role and announces it in a ROLE message. -/
  | modeSetSiphonRole (port : Port) (slot : SlotId)
  /-- PART_OPEN (R161). A partition is opened with its cores, pool grants and context area, or refused. -/
  | partOpen (port : Port) (slot : SlotId)
  /-- PART_CLOSE (R163). A partition is set CLOSING, unissued commands end stale, and its resources are released. -/
  | partClose (port : Port) (slot : SlotId)
  /-- PART_RESET (R164). A forced epoch change ends fetched commands, abandons issued ones and drops unfetched descriptors. -/
  | partReset (port : Port) (slot : SlotId)
  /-- PART_ADOPT (R57). An attached port takes ownership of an orphaned HOLD partition. -/
  | partAdopt (port : Port) (slot : SlotId)
  /-- RING_REGISTER (R165). A command or completion ring is registered for a queue of the partition. -/
  | ringRegister (port : Port) (slot : SlotId)
  /-- CISTERN_REGISTER (R153). A host memory region is mapped into the cistern address space. -/
  | cisternRegister (port : Port) (slot : SlotId)
  /-- CISTERN_RELEASE (R154). A cistern region is released by drain or abort. -/
  | cisternRelease (port : Port) (slot : SlotId)
  /-- WINDOW_OPEN (R128). A tracked or untracked remote window onto the Siphon partner is opened. -/
  | windowOpen (port : Port) (slot : SlotId) (partnerMaps : Bool)
  /-- WINDOW_CLOSE (R131). A remote window is unmapped, and its operations are drained or aborted. -/
  | windowClose (port : Port) (slot : SlotId)
  /-- UNIT_FENCE (R462). A unit is fenced and its commands are ended, or memory evacuation begins. -/
  | unitFence (port : Port) (slot : SlotId)
  /-- EVACUATION_GROUP_COPIED (R150). One 4 KiB group of a fenced package lands at its folded place, k_moved advances, and the package becomes FENCED after the last group. -/
  | evacuationGroupCopied
  /-- UNIT_TEST (R462). A fenced unit runs its online test and reports pass or the first failing location. -/
  | unitTest (port : Port) (slot : SlotId) (us : Nat) (failAt : Option (Nat × Nat))
  /-- UNIT_RETURN (R463). A fenced unit that has not failed its test returns to service, or memory restore begins. -/
  | unitReturn (port : Port) (slot : SlotId)
  /-- RESTORE_DONE (R152). The units of a returned package are copied back, the top region is mapped again and the package shows ON. -/
  | restoreDone
  /-- ENGINE_RESET (R464). A core, quantisation unit, first/last-layer engine or strainer stops, ends its commands and clears its internal state. -/
  | engineReset (port : Port) (slot : SlotId)
  /-- FW_WRITE (R451). Image bytes are staged in the update buffer bound to the sending port. -/
  | fwWrite (port : Port) (slot : SlotId)
  /-- FW_VERIFY (R451). The staged image is checked by R448 and its details are reported. -/
  | fwVerify (port : Port) (slot : SlotId)
  /-- FW_COMMIT (R452). The verified image is written to flash and read back, unless its security version is lower. -/
  | fwCommit (port : Port) (slot : SlotId) (ms : Nat) (readBackOk : Bool)
  /-- RECOVERY_IMAGE (R449). The boot ROM takes image bytes from the host and starts the image when the last chunk validates it. -/
  | recoveryImage (port : Port) (slot : SlotId)
  /-- ATTEST_QUOTE (R456). Goride writes a quote signed with the identity key over the nonce and the measurements. -/
  | attestQuote (port : Port) (slot : SlotId)
  /-- CERT_READ (R454). Up to 480 bytes of the identity certificate are returned from an offset. -/
  | certRead (port : Port) (slot : SlotId)
  /-- LOG_READ (R461). Up to 15 event log entries are returned from a wanted sequence number. -/
  | logRead (port : Port) (slot : SlotId)
  /-- SEM_ACQUIRE (R52). An acquire op takes a free semaphore for the writing port and tag; ties alternate by port. -/
  | semAcquire (sem : SemId) (tagA : Option (BitVec 16)) (tagB : Option (BitVec 16))
  /-- SEM_RELEASE (R52). A release op by the holder frees the semaphore; any other release sets sem_misuse. -/
  | semRelease (port : Port) (sem : SemId) (tag : BitVec 16)
  /-- QUEUE_DOORBELL (R58). An MBX_QDB write by the owner advances a queue's producer count, or is ignored as foreign or out of range. -/
  | queueDoorbell (port : Port) (p : PartId) (q : QueId) (value : W32)
  /-- CR_CONSUMER_WRITE (R169). An MBX_CR_CONS write moves a completion ring's consumer count, freeing slots for records. -/
  | crConsumerWrite (port : Port) (p : PartId) (q : QueId) (value : W32)
  /-- DESCRIPTOR_FETCH (R167). The front end fetches a descriptor into the queue window and admits it or refuses it under R173. -/
  | descriptorFetch (p : PartId) (q : QueId)
  /-- COMMAND_ISSUE (R176). The eligible command with the earliest deadline of a partition is issued to its unit in an FCLK cycle. -/
  | commandIssue (p : PartId)
  /-- DEADLINE_MISS (R177). A late_drop command not issued when the counter passes its deadline completes with ST_MISSED. -/
  | deadlineMiss (p : PartId) (q : QueId) (n : Nat)
  /-- LAUNCH_AT (R178). A command with launch_en starts on its unit in the cycle in which the counter equals launch_at. -/
  | launchAt (p : PartId) (q : QueId) (n : Nat)
  /-- PREEMPTION_STOP (R485). An issued command reaches its next pre-emption point and stops for SAVE, PART_RESET, a fence or pairing entry. -/
  | preemptionStop (p : PartId) (q : QueId) (n : Nat)
  /-- COMMAND_COMPLETION (R185). A command ends, its status is chosen and its completion record is queued. -/
  | commandCompletion (p : PartId) (q : QueId) (n : Nat)
  /-- COMPLETION_RECORD_WRITE (R186). A waiting completion record is written to its ring slot when room allows, MBX_CR_PROD advances and the vector may be raised. -/
  | completionRecordWrite (p : PartId) (q : QueId)
  /-- GEMM (R204). The matrix engine forms exact segment sums of A by B and the infuser finishes and converts C. -/
  | gemm (p : PartId) (q : QueId) (n : Nat) (flt : UnitFault)
  /-- VOP (R214). The vector engine runs an element-wise operation or row reduction on well operands. -/
  | vop (p : PartId) (q : QueId) (n : Nat) (flt : UnitFault)
  /-- CONV (R223). A planar convolution is computed as exact segment reductions over taps. -/
  | conv (p : PartId) (q : QueId) (n : Nat) (flt : UnitFault)
  /-- POOL (R232). Max or average pooling folds the included taps on the vector engine. -/
  | pool (p : PartId) (q : QueId) (n : Nat) (flt : UnitFault)
  /-- CROP (R234). Boxes are cut from a planar image and resampled or pooled to a fixed grid. -/
  | crop (p : PartId) (q : QueId) (n : Nat) (flt : UnitFault)
  /-- S2D (R237). Space-to-depth regroups a planar tensor on a core or on the first/last-layer engine. -/
  | s2d (p : PartId) (q : QueId) (n : Nat) (flt : UnitFault)
  /-- D2S (R237). Depth-to-space regroups a planar tensor on a core or on the first/last-layer engine. -/
  | d2s (p : PartId) (q : QueId) (n : Nat) (flt : UnitFault)
  /-- FRC (R242). An INT8 planar feature map is encoded to or decoded from FRC tiles at 2:1 or 4:1. -/
  | frc (p : PartId) (q : QueId) (n : Nat) (flt : UnitFault)
  /-- QSCAN (R92). The quantisation unit plans each block's scale and escapes and writes a scan record. -/
  | qscan (p : PartId) (q : QueId) (n : Nat)
  /-- QCONV (R101). The quantisation unit checks the source against the scan records and writes data, scales, side index and side list. -/
  | qconv (p : PartId) (q : QueId) (n : Nat)
  /-- ADAPT (R107). An adapter gradient is formed and one optimiser step updates W, m and s. -/
  | adapt (p : PartId) (q : QueId) (n : Nat) (flt : UnitFault)
  /-- PUMP (R118). A pump moves strided, gathered or scattered runs between the memory tiers as scoreboarded operations. -/
  | pump (p : PartId) (q : QueId) (n : Nat)
  /-- FILL (R115). A 64-bit pattern is written over a range of a well or pool. -/
  | fill (p : PartId) (q : QueId) (n : Nat)
  /-- COPY (R116). Bytes are moved within one well or pool, with poison moving row by row. -/
  | copy (p : PartId) (q : QueId) (n : Nat)
  /-- PUMP_OPERATION_RETIRE (R120). A pump operation's last byte lands and its scoreboard entry is freed. -/
  | pumpOperationRetire (op : Nat) (srcPoison : Bool)
  /-- FAR_REGISTRATION (R125). An operation's registration arrives in the other die's scoreboard 12 cycles after the near one. -/
  | farRegistration (op : Nat)
  /-- HINT (R184). A HINT completes at admission and informs the power manager of expected load. -/
  | hint (p : PartId) (q : QueId) (n : Nat)
  /-- WAIT (R182). A WAIT completes when its signal counter reaches its value and holds later commands of its queue. -/
  | wait (p : PartId) (q : QueId) (n : Nat)
  /-- SIGNAL_ADD (R182). Once earlier commands of its queue complete, a SIGNAL adds its value to a counter of a partition on this module. -/
  | signalAdd (p : PartId) (q : QueId) (n : Nat)
  /-- SIGNAL_REMOTE (R182). A SIGNAL adds its value to a counter on the Siphon partner over the message layer. -/
  | signalRemote (p : PartId) (q : QueId) (n : Nat)
  /-- SIGNAL_WRITE (R182). A SIGNAL writes a 64-bit value to a module address. -/
  | signalWrite (p : PartId) (q : QueId) (n : Nat)
  /-- FENCE (R183). A FENCE completes when the masked queues' earlier commands, and optionally untracked remote writes, are done. -/
  | fence (p : PartId) (q : QueId) (n : Nat)
  /-- SAVE (R188). The partition stops at pre-emption points and its live well rows and state are written to its context area. -/
  | save (p : PartId) (q : QueId) (n : Nat)
  /-- LOAD (R190). A SAVED partition's rows and state are restored and it returns to OPEN. -/
  | load (p : PartId) (q : QueId) (n : Nat)
  /-- RSTEP (R264). A batch of gated recurrent streams is stepped over F frames. -/
  | rstep (p : PartId) (q : QueId) (n : Nat) (flt : UnitFault)
  /-- LSTEP (R268). A batch of linear recurrences is stepped on the vector engine. -/
  | lstep (p : PartId) (q : QueId) (n : Nat) (flt : UnitFault)
  /-- FEAT (R271). Audio chunks of a batch of streams are turned into stacked log-mel feature frames. -/
  | feat (p : PartId) (q : QueId) (n : Nat) (flt : UnitFault)
  /-- STREAM_GROUP (R251). A stream group of slots and staging in one core's well is defined or deleted. -/
  | streamGroup (p : PartId) (q : QueId) (n : Nat)
  /-- STREAM_OPEN (R262). Closed streams are opened, with the init image written home. -/
  | streamOpen (p : PartId) (q : QueId) (n : Nat)
  /-- STREAM_PAUSE (R262). Streams are paused while intake keeps filling their rings. -/
  | streamPause (p : PartId) (q : QueId) (n : Nat)
  /-- STREAM_RESUME (R262). Paused or parked streams return to RUN, optionally skipping to the newest chunk. -/
  | streamResume (p : PartId) (q : QueId) (n : Nat)
  /-- STREAM_PARK (R262). Streams are parked with their records written home and their slots freed. -/
  | streamPark (p : PartId) (q : QueId) (n : Nat)
  /-- STREAM_RESET (R262). The init image is installed in the streams' slots or homes. -/
  | streamReset (p : PartId) (q : QueId) (n : Nat)
  /-- STREAM_EXPORT (R278). Streams' records are written as blobs, their epochs advance, and they enter EXPORT. -/
  | streamExport (p : PartId) (q : QueId) (n : Nat)
  /-- STREAM_IMPORT (R279). Blobs are checked and installed as parked streams. -/
  | streamImport (p : PartId) (q : QueId) (n : Nat)
  /-- STREAM_CLOSE (R262). Streams are closed, with their slots freed and their homes and rings returned. -/
  | streamClose (p : PartId) (q : QueId) (n : Nat)
  /-- ATTN_STEP_FINISH (R291). An attention step appends keys and values, sweeps pages and writes finished outputs. -/
  | attnStepFinish (p : PartId) (q : QueId) (n : Nat) (flt : UnitFault)
  /-- ATTN_STEP_NODES (R295). An attention step over a page range writes canonical partial-softmax nodes. -/
  | attnStepNodes (p : PartId) (q : QueId) (n : Nat) (flt : UnitFault)
  /-- ATTN_STEP_COMBINE (R296). An attention step combines supplied node records into finished outputs. -/
  | attnStepCombine (p : PartId) (q : QueId) (n : Nat) (flt : UnitFault)
  /-- HEAP (R282). A KV page heap is defined or deleted. -/
  | heap (p : PartId) (q : QueId) (n : Nat)
  /-- SEQ_OPEN (R287). A sequence record and page table are checked and handed to the sequencer. -/
  | seqOpen (p : PartId) (q : QueId) (n : Nat)
  /-- SEQ_CLOSE (R287). Every page and cistern copy of a sequence is freed and the record is returned. -/
  | seqClose (p : PartId) (q : QueId) (n : Nat)
  /-- PIN (R287). Pages holding a position range are pinned against spilling. -/
  | pin (p : PartId) (q : QueId) (n : Nat)
  /-- UNPIN (R287). Pages holding a position range are unpinned. -/
  | unpin (p : PartId) (q : QueId) (n : Nat)
  /-- TRIM (R287). Pages wholly below a position are freed. -/
  | trim (p : PartId) (q : QueId) (n : Nat)
  /-- SPILL_ACKNOWLEDGED (R297). A page's cistern write is acknowledged; the page becomes SPILLED or RETURNING and its slot goes to the waiting allocation. -/
  | spillAcknowledged (desc : Nat)
  /-- RETURN_LANDED (R297). A returning page's read lands and the page becomes RESIDENT. -/
  | returnLanded (desc : Nat) (poisoned : Bool)
  /-- CISTERN_TIMEOUT (R155). A cistern read reaching the 10 ms completion timeout poisons the destination rows it feeds. -/
  | cisternTimeout (read : CisternRead)
  /-- HALF_WELL_POWER_DOWN_DONE (R134). When the in-flight count reaches zero, the half-well or pool is switched off. -/
  | halfWellPowerDownDone (r : WellPart)
  /-- GATE_TIMEOUT (R134). After 2 µs the power-down gate drops the remaining writes with ST_LATE_WRITE and switches the domain off. -/
  | gateTimeout (r : WellPart)
  /-- HALF_WELL_POWER_UP_DONE (R136). 5 µs after the request, a half-well or pool comes up UNFILLED. -/
  | halfWellPowerUpDone (r : WellPart)
  /-- DOMAIN_ON (R443). A PWR_PD_CTL op 0b01 request switches a power domain on, or is refused by Table PWR-4. -/
  | domainOn (port : Port) (pd : PdId)
  /-- DOMAIN_OFF (R443). A PWR_PD_CTL op 0b10 request switches a power domain off, or is refused by Table PWR-4. -/
  | domainOff (port : Port) (pd : PdId)
  /-- DOMAIN_SWITCH_DONE (R442). A domain switch completes and its result is placed in PWR_PD_RESULT of the requesting port. -/
  | domainSwitchDone (pd : PdId)
  /-- MEMORY_INIT_DONE (R148). The controllers finish writing zeros with valid check bits and init_done sets. -/
  | memoryInitDone
  /-- PATROL_SCRUB (R146). The patrol scrub reads check blocks and writes corrected words back, covering memory every 24 hours. -/
  | patrolScrub (word : Nat)
  /-- ONDIE_ECC_POLL (R149). Every 10 s Goride reads the devices' on-die ECC counts into MEM_PKG and checks the threshold. -/
  | ondieEccPoll (counts : List Nat)
  /-- CONTROL_STEP (R429). Every 100 µs the manager forms the basis B and moves the capping skip value. -/
  | controlStep (measured : Option Nat) (volts : Nat) (estimate : Nat)
  /-- TEMP_SENSOR_READ (R438). Every 100 µs the 24 temperature sensors are read and the warning limits applied. -/
  | tempSensorRead (temps : List (Option Int))
  /-- THERMAL_THROTTLE_TICK (R439). Every 1 ms each die's thermal skip value rises or falls by its throttle group. -/
  | thermalThrottleTick
  /-- VOLTAGE_SETTLED (R436). 20 µs after a rail raise the new skip values take effect at the next frame. -/
  | voltageSettled
  /-- ENERGY_INTEGRATE (R437). Every 10 µs module input energy is added to PWR_ENERGY. -/
  | energyIntegrate
  /-- HINT_ACTIVATE (R433). A HINT becomes active 200 µs before its start, adding watts to B and raising the rail. -/
  | hintActivate (p : PartId) (n : Nat)
  /-- HINT_EXPIRE (R433). A HINT stops being active at start plus duration. -/
  | hintExpire (p : PartId) (n : Nat)
  /-- ENERGY_LOW_READ (R437). A read of PWR_ENERGY's low word latches the high word for the reading port. -/
  | energyLowRead (port : Port)
  /-- TB_NOW_READ (R392). A read of TB_NOW_CNT word 0 latches the counter and network time for the reading port. -/
  | tbNowRead (port : Port)
  /-- TB_RATE_OP (R393). TB_CMD op 1 folds the old rate into the offset and applies TB_RATE_SET continuously. -/
  | tbRateOp (port : Port)
  /-- TB_STEP_OP (R393). TB_CMD op 2 adds TB_ADJ to TB_OFFSET, unless it exceeds TB_JUMP_MAX without force. -/
  | tbStepOp (port : Port) (force : Bool)
  /-- PPS_OUT_RISE (R396). PPS_OUT rises at the count where network time reaches the next whole second. -/
  | ppsOutRise
  /-- PPS_OUT_FALL (R396). PPS_OUT falls after its configured width. -/
  | ppsOutFall
  /-- PPS_IN_EDGE (R397). A rising PPS_IN edge is stamped into TB_PPS_IN and counted. -/
  | ppsInEdge (stamp : W64)
  /-- PPS_IN_LOST (R397). 1.5 s without a PPS_IN edge under in_watch sets pps_in_lost. -/
  | ppsInLost
  /-- NET_PORT_ENABLE (R382). NET_P_CTL op 0b01 applies NET_P_CFG and starts link training. -/
  | netPortEnable (port : Port) (e : EthId)
  /-- NET_PORT_DISABLE (R382). NET_P_CTL op 0b10 makes the port OFF and trips its stations' axes. -/
  | netPortDisable (port : Port) (e : EthId)
  /-- ETH_LINK_UP (R382). An Ethernet port's link comes up and the port becomes UP. -/
  | ethLinkUp (e : EthId) (speed : Nat)
  /-- ETH_LINK_DOWN (R382). An Ethernet port loses its link, becomes DOWN, completes its queued host frames unsent and retrains. -/
  | ethLinkDown (e : EthId)
  /-- ETH_FRAME_RECEIVE (R384). A received frame is stamped and delivered to the loop engine, audio intake or host ring, or dropped. -/
  | ethFrameReceive (e : EthId) (stamp : Nat) (fcsOk : Bool) (frame : List Byte)
  /-- NET_TX_PRODUCER_WRITE (R386). Advancing a transmit ring producer queues host transmit descriptors on the port. -/
  | netTxProducerWrite (port : Port) (e : EthId) (timed : Bool) (value : W32)
  /-- NET_RX_PRODUCER_WRITE (R387). Advancing the receive producer posts receive buffers. -/
  | netRxProducerWrite (port : Port) (e : EthId) (value : W32)
  /-- TRANSMIT_START (R388). An idle port starts a drive, timed or general frame by priority and launch count, with one-step insertion. -/
  | transmitStart (e : EthId)
  /-- LAUNCH_LATE (R389). A drive or timed frame that misses its launch count is dropped or sent late and flagged. -/
  | launchLate (e : EthId)
  /-- STATION_LOAD (R358). LPE_ST_CTL op 0b01 loads a station's configuration block. -/
  | stationLoad (port : Port) (st : StationId)
  /-- STATION_DISABLE (R358). LPE_ST_CTL op 0b10 disables a station whose axes are all OFF or NOT_READY. -/
  | stationDisable (port : Port) (st : StationId)
  /-- AXIS_LOAD (R359). LPE_AX_CTL op 0b01 loads or reloads an axis configuration. -/
  | axisLoad (port : Port) (ax : AxisId)
  /-- AXIS_DISABLE (R361). LPE_AX_CTL op 0b10 makes an ARMED or faulted axis OFF. -/
  | axisDisable (port : Port) (ax : AxisId)
  /-- AXIS_TRIP (R361). LPE_AX_CTL op 0b11 puts an axis in FAULT with cause SOFTWARE. -/
  | axisTrip (port : Port) (ax : AxisId)
  /-- FEEDBACK_FRAME (R364). A feedback frame from a drive is checked and accepted for its sample, or refused. -/
  | feedbackFrame (e : EthId)
  /-- FEEDBACK_DUE (R363). At fb_due the feedback is snapshotted and the station's axes are updated in index order. -/
  | feedbackDue (st : StationId)
  /-- FRAME_ASSEMBLY (R363). At launch minus the assembly lead the drive frame is built and unfinished axes count as misses. -/
  | frameAssembly (st : StationId)
  /-- DRIVE_FRAME_COMPARE (R377). A paired station's drive frame is released when main and checker bytes agree, or the station is HALTED. -/
  | driveFrameCompare (st : StationId) (equal : Bool)
  /-- FAULT_LATCH_CLEAR (R378). Writing 1 to LPE_FAULT.latched clears it only while no cause persists. -/
  | faultLatchClear (port : Port)
  /-- AXIS_SELFTEST_DONE (R413). After a drive-frame mismatch the loop engines finish their 4 ms datapath test and record the outcome. -/
  | axisSelftestDone (pr : PairId) (pass0 : Bool) (pass1 : Bool)
  /-- CAMERA_LOAD (R324). INT_V_CTL op 0b01 copies a camera port's configuration block and starts link training. -/
  | cameraLoad (port : Port) (v : CamId)
  /-- CAMERA_DISABLE (R324). INT_V_CTL op 0b10 disables a camera port and ends its frame. -/
  | cameraDisable (port : Port) (v : CamId)
  /-- APHY_LINK_UP (R322). A camera port's A-PHY link comes up and the port runs. -/
  | aphyLinkUp (v : CamId)
  /-- APHY_LINK_LOST (R332). Loss of an A-PHY link truncates the frame in progress and the port retrains. -/
  | aphyLinkLost (v : CamId)
  /-- FRAME_START (R329). A CSI-2 Frame Start is stamped and begins a frame in the next buffer, or the frame is dropped. -/
  | frameStart (v : CamId) (vc : Nat) (number : Nat) (stamp : Nat)
  /-- FRAME_END (R332). A CSI-2 Frame End is stamped and ends the frame, concealing any missing rows. -/
  | frameEnd (v : CamId) (vc : Nat) (stamp : Nat)
  /-- CSI_LINE_PACKET (R326). A CSI-2 long packet is unpacked and its pixels pass through the pixel front end. -/
  | csiLinePacket (v : CamId) (vc : Nat) (dtype : Nat) (headerOk : Bool) (crcOk : Bool) (line : CsiLine)
  /-- FRAME_RECORD_WRITE (R330). The frame record is written and the partition's signal counter is incremented. -/
  | frameRecordWrite (v : CamId)
  /-- TRIGGER_PULSE (R331). At each trigger count the port drives the uplink GPIO high. -/
  | triggerPulse (v : CamId)
  /-- TRIGGER_END (R331). 64 µs after a trigger count the GPIO is driven low. -/
  | triggerEnd (v : CamId)
  /-- CCI_TRANSACTION (R333). A write of INT_V_CCI starts a one-byte CCI read or write on the uplink. -/
  | cciTransaction (port : Port) (v : CamId) (value : W32)
  /-- CCI_DONE (R333). A CCI transaction ends with data or a NACK and cci_busy clears. -/
  | cciDone (v : CamId) (ack : Bool) (data : Byte)
  /-- BINDING_LOAD (R335). INT_AUD_CTL op 0b01 copies a binding entry into the intake. -/
  | bindingLoad (port : Port) (index : Nat)
  /-- BINDING_CLEAR (R335). INT_AUD_CTL op 0b10 clears a binding entry. -/
  | bindingClear (port : Port) (index : Nat)
  /-- FIR_LOAD (R337). A write of INT_AUD_FIR copies the 72 resampling coefficients. -/
  | firLoad (port : Port) (addr : Nat)
  /-- AUDIO_PACKET (R334). An AES67 RTP packet is checked and its samples are placed in their streams' chunks. -/
  | audioPacket (e : EthId)
  /-- TDM_FRAME (R339). A TDM frame's 16 slots are received as samples for their bound streams. -/
  | tdmFrame (t : TdmId) (samples : List Nat)
  /-- TDM_FSYNC_LOSS (R339). Two frame periods without FSYNC on a TDM slave start zero-filled chunk completion. -/
  | tdmFsyncLoss (t : TdmId)
  /-- AUDIO_CHUNK_DUE (R336). At its due count a chunk completes, arrived advances and last_stamp is set, with missing samples concealed. -/
  | audioChunkDue (stream : Nat)
  /-- PIPELINE_LOAD (R342). REC_P_CTL op 0b01 copies a pipeline's configuration block. -/
  | pipelineLoad (port : Port) (pl : PipeId)
  /-- PIPELINE_STOP (R342). REC_P_CTL op 0b10 stops a pipeline and ends the sample in progress without a report. -/
  | pipelineStop (port : Port) (pl : PipeId)
  /-- JOB_TAKE (R343). A pipeline takes its next job from the ring and loads its rolling average. -/
  | jobTake (pl : PipeId)
  /-- SAMPLE_START (R345). A lane starts decoding a sample position once its slot is free. -/
  | sampleStart (pl : PipeId)
  /-- BUDGET_EXCEEDED (R352). A sample whose work passes its budget is abandoned and its slot filled by policy. -/
  | budgetExceeded (pl : PipeId) (pos : Nat) (cycles : Nat)
  /-- SAMPLE_DONE (R353). A sample ends with its outcome, augmented slot and updated average. -/
  | sampleDone (pl : PipeId) (pos : Nat) (cycles : Nat)
  /-- SAMPLE_REPORT_RELEASE (R345). Reports, labels and signals are released in ascending position once earlier ones are out. -/
  | sampleReportRelease (pl : PipeId)
  /-- SIPHON_LINK_UP (R314). The Siphon link comes up, the reference is chosen and counter alignment begins. -/
  | siphonLinkUp (serial : W64) (count : W64) (role : Nat)
  /-- SIPHON_LINK_DOWN (R320). The Siphon link goes down, windows close as by abort and holds stop. -/
  | siphonLinkDown
  /-- SIPHON_RETRANSMIT (R416). A message not acknowledged within 8 µs is resent from the replay buffer. -/
  | siphonRetransmit
  /-- SIPHON_WRITE (R416). A received WRITE message writes its data at the receiver address. -/
  | siphonWrite (m : Msg)
  /-- SIPHON_READ_REQ (R416). A received READ_REQ is answered with READ_DATA. -/
  | siphonReadReq (m : Msg)
  /-- SIPHON_READ_DATA (R416). A received READ_DATA delivers remote read data, with poison when flagged. -/
  | siphonReadData (m : Msg)
  /-- SIPHON_REGISTER (R129). A REGISTER message enters a tracked-window range in the receiver's scoreboard. -/
  | siphonRegister (m : Msg)
  /-- SIPHON_REG_DONE (R129). A REG_DONE lets a tracked-window operation move data. -/
  | siphonRegDone (m : Msg)
  /-- SIPHON_RELEASE (R416). A RELEASE retires a tracked range from the receiver's scoreboard. -/
  | siphonRelease (m : Msg)
  /-- SIPHON_SIGNAL (R417). A received SIGNAL adds to a partition counter and is acknowledged. -/
  | siphonSignal (m : Msg)
  /-- SIPHON_ACK (R417). A received ACK completes a remote operation or signal. -/
  | siphonAck (m : Msg)
  /-- SIPHON_TIME (R315). A TIME message exchange stamps arrival for offset measurement. -/
  | siphonTime (m : Msg) (stamp : Nat) (path : Int)
  /-- SIPHON_TIMEBASE (R422). A following standby sets its timebase registers from a TIMEBASE message. -/
  | siphonTimebase (m : Msg)
  /-- SIPHON_HEARTBEAT (R423). A received HEARTBEAT updates the partner's status. -/
  | siphonHeartbeat (m : Msg)
  /-- SIPHON_MIRROR (R420). A standby applies a MIRROR write in order and updates PRG_SPH_MIR_AT. -/
  | siphonMirror (m : Msg)
  /-- SIPHON_ROLE (R418). A received ROLE message records the partner's role, a last gasp or a fence notice. -/
  | siphonRole (m : Msg)
  /-- HEARTBEAT_SEND (R423). Every 100 µs the module sends a HEARTBEAT. -/
  | heartbeatSend
  /-- PARTNER_SILENT (R423). No message for hb_timeout sets heartbeat_lost and may trigger takeover. -/
  | partnerSilent
  /-- ALIGNMENT_RETRY (R316). A loader that is not quiet repeats the offset measurement every 10 ms. -/
  | alignmentRetry
  /-- COUNTER_LOAD (R316). At count L the loader sets its counter to L + O and adjusts its timebase. -/
  | counterLoad
  /-- PAIR_OFFSET_MEASURE (R318). Every millisecond the pair offset is measured and a hold or slew decided. -/
  | pairOffsetMeasure (offsets : List Int)
  /-- COUNTER_HOLD (R318). The module that is ahead holds its counter for one cycle at the chosen count. -/
  | counterHold
  /-- PAIR_MISMATCH (R409). A comparator mismatch stops the pair, ends in-flight commands and poisons their writes. -/
  | pairMismatch (pr : PairId) (t : Nat) (driven : Driven)
  /-- PAIR_SELFTEST_DONE (R410). The saved clusters finish LBIST and the march and the outcome decides fencing, resync or remap. -/
  | pairSelftestDone (pr : PairId) (pass0 : Bool) (pass1 : Bool) (testOk : Bool)
  /-- MIRROR_ENABLE (R420). Enabling a mirror region starts sending its whole contents and then its writes. -/
  | mirrorEnable (port : Port) (r : MirId) (partnerMaps : Bool)
  /-- MIRROR_SYNC_DONE (R420). The initial copy of a mirror region completes and it shows SYNCED. -/
  | mirrorSyncDone (r : MirId)
  /-- DEBUG_ACTION (R414). A state-changing JTAG debug action is applied on the main side and replayed on the checker. -/
  | debugAction (c : ClusId) (act : DebugAct)
  /-- SMBUS_READ (R476). The SMBus target reads a served BAR0 register without side effects. -/
  | smbusRead (off : Nat)
  /-- MEASUREMENT_START (R455). TRB_MEAS_CTL start begins hashing a partition's measurement list. -/
  | measurementStart (port : Port) (p : PartId) (entries : Nat)
  /-- MEASUREMENT_DONE (R455). The measurement finishes and the digest becomes valid or failed. -/
  | measurementDone (p : PartId)
  /-- STICKY_CLEAR (R7). A write of 1 to an RW1C sticky bit clears it, unless hardware sets it in the same cycle. -/
  | stickyClear (port : Port) (off : Nat) (value : W32)
  /-- REGISTER_WRITE (R6). A write to a register with no row of its own stores RW fields, subject to its ownership checks. -/
  | registerWrite (port : Port) (off : Nat) (value : W32)
  /-- PCIE_LINK_UP (R38). A port's PCIe data link comes up and MBX_PORT_STATUS.link_a or link_b becomes 1. -/
  | pcieLinkUp (port : Port)
  /-- INPUT_ABOVE_36V (R441). Module input returns above 36 V and the heartbeats stop carrying the input-low flag. -/
  | inputAbove36V
  /-- DIE0_STOP_FAULT (R423). A fault that stops die 0 makes the module send a last gasp to its Siphon partner. -/
  | die0StopFault
  /-- PWR_EN_RISE_TAKES_EFFECT (R480). A PWR_EN rise that came less than 10 ms after the fall takes effect 10 ms after the falling edge, and power-up begins. -/
  | pwrEnRiseTakesEffect
  deriving DecidableEq, Repr

end Sys2Proof
end

