-- ==== Sys2Proof/Machine/State.lean ====
section
/-! DEFINITION. The state of the module as plain data: every register, queue, buffer, counter, mode and pin the spec gives it,
each field's default being its reset value (INVENTORY.md, State), the faults and refusals of the model, and the state after reset. -/
namespace Sys2Proof.Machine

/-- Faults of the model. There is one, and no meaning raises it: the module answers every error by a status, a sticky bit, poison or
an interrupt (INVENTORY.md, Faults). -/
inductive Fault where
  /-- Raised by nothing: kept so that the type names what a fault would be, an access the spec gives no answer to (safe). -/
  | noAnswer
  deriving DecidableEq, Repr

/-- Refusals of the model. -/
inductive Refusal where
  /-- Raised by an arm of exec whose meaning is not written: the command is rejected by its row's name (safe: nothing is claimed of it). -/
  | notModelled (mnemonic : String)
  deriving DecidableEq, Repr

/-- The shared status codes (Table SCO-4). -/
inductive St where
  | ok | notReady | late | missed | scaleSkew | poisoned | escapeOverflow | staleEpoch | windowClosed | lateWrite
  | pairMismatch | pairRefused | timeBudget | truncated | dimLimit | concealed | preempted | fenced | timeJumpRefused
  | badCommand | noResource | internal
  deriving DecidableEq, Repr

/-- A range of module addresses `[lo, lo + len)`, read or written (R172). -/
structure Rng where
  lo : Nat
  len : Nat
  wr : Bool
  deriving DecidableEq, Repr

/-- The errors that AER reports (Table MBX-1): the correctable ones, then the uncorrectable ones. -/
inductive AerError where
  | receiverError | badTlp | badDllp | replayTimer | replayRollover
  | poisonedTlp | completionTimeout | unexpectedCompletion | unsupportedRequest | malformedTlp | receiverOverflow
  deriving DecidableEq, Repr

/-- What has left the module (the model's own list of observables). -/
inductive Out where
  /-- An MSI-X message of a vector, with the address and data of its table entry (R41). -/
  | msix (port : Port) (vector : Nat) (addr : Nat) (data : Nat)
  /-- The data that a host read or the SMBus target returned. -/
  | readData (port : Option Port) (data : List Byte)
  /-- A BAR0 access that completed as an unsupported request (R36). -/
  | unsupported (port : Port)
  /-- An error that AER reports to the host (R33, R36). -/
  | aer (port : Port) (error : AerError)
  /-- The SMBus target did not acknowledge (R476). -/
  | smbusNack
  /-- A frame put on an Ethernet port, with the count of its first data octet (R388). -/
  | ethFrame (e : EthId) (count : Nat) (frame : List Byte)
  /-- A message sent to the Siphon partner: type, header and payload (R416). -/
  | siphon (type : Nat) (msg : Msg)
  /-- A level of PPS_OUT (R396). -/
  | ppsOut (level : Bool)
  /-- FSYNC of a frame of a TDM port that the module drives, and the rate of the BCLK that it drives, 0 when it drives none (R339). -/
  | tdmSync (t : TdmId) (frame : Nat)
  | tdmClock (t : TdmId) (hz : Nat)
  /-- A level of a camera port's uplink GPIO (R331). -/
  | gpio (v : CamId) (level : Bool)
  /-- A CCI transaction started on a camera port's uplink (R333). -/
  | cci (v : CamId) (value : W32)
  /-- Bytes written to memory of a port's host (R34). -/
  | hostWrite (port : Port) (addr : Nat) (data : List Byte)
  /-- A debug action applied to a cluster, and whether it is the replay on the checker (R414). -/
  | debug (c : ClusId) (act : DebugAct) (replay : Bool)
  deriving DecidableEq, Repr

/-- The rails (Table MOD-9). -/
inductive Rails where
  | off | starting | on
  deriving DecidableEq, Repr

/-- How far the boot has come (R446): in reset, aligned and before the ROM's steps, or past them (MBX_FW_STATE then tells); or stopped by a
fault of die 0 (R423). -/
inductive Boot where
  | held | aligned | booted | stopped
  deriving DecidableEq, Repr

/-- Power, pins, boot and module-wide modes. -/
structure Sys where
  /-- The converters (R478). -/
  rails : Rails := .on
  /-- Level of PWR_EN (Table MOD-7). -/
  pwrEn : Bool := true
  /-- Level of RST_N (Table MOD-7). -/
  rstN : Bool := false
  /-- A rise of PWR_EN waits for the end of its 10 ms (R480). -/
  riseWaits : Bool := false
  /-- Off until PWR_EN has been low for 10 ms (R481). -/
  lockout : Bool := false
  /-- Dividers released: the counter runs (R30). -/
  clocked : Bool := false
  /-- Die 1 aligned and running (R31). -/
  die1 : Bool := false
  /-- Module input below 36 V (R441). -/
  inputLow : Bool := false
  boot : Boot := .held
  /-- MBX_FW_STATE.state (Table MBX-3). -/
  fwState : BitVec 4 := 0
  /-- MBX_FW_STATE.reset_count. -/
  resetCount : W16 := 0
  /-- MBX_PORT_STATUS.detach_count. -/
  detachCount : W16 := 0
  /-- A watchdog restart is in progress (R450). -/
  wdRestart : Bool := false
  /-- Inline ECC in effect (R12, R147). -/
  eccOn : Bool := true
  /-- Inline ECC value pending for the next device reset (R12). -/
  eccPending : Option Bool := none
  /-- MEM_STATUS.init_done (R148). -/
  initDone : Bool := false
  deriving DecidableEq, Repr

/-- An entry of the event log (R460). -/
structure LogEntry where
  count : Nat
  seq : Nat
  code : Nat
  subsystem : Nat
  inst : Nat
  args : List Byte
  deriving DecidableEq, Repr

/-- Bytes of an image that have come in: one canonical list of (offset, byte), with the offsets taken (R449, R451). -/
structure Staged where
  bytes : List (Nat × Byte) := []
  deriving DecidableEq, Repr

/-- The kinds of unit that UNIT_FENCE names, by their number in Table TRB-8, with the index. -/
structure UnitId where
  kind : Nat
  index : Nat
  deriving DecidableEq, Repr

/-- The management subsystem (chapter TRB). -/
structure Trb where
  /-- TRB_STAT.config_ok, identity_ok, boot_source. -/
  configOk : Bool := false
  identityOk : Bool := false
  recoveryBoot : Bool := false
  /-- The image area of the flash after a write: none while it is as it left the factory, some [] when erased or unusable (R452). -/
  flash : Option (List Byte) := none
  /-- The running image (R446). -/
  running : List Byte := []
  /-- Bytes of a recovery image received (R449). -/
  recovery : Staged := {}
  /-- The update buffer, its binding port and its verified state (R451). -/
  staged : Staged := {}
  stagedPort : Option Port := none
  verified : Bool := false
  /-- The image that a commit in progress is programming, the image area being erased (R452). -/
  commit : Option (List Byte) := none
  /-- TRB_ALERT_MASK. -/
  alertMask : BitVec 20 := 0
  /-- The event log, newest first (R460), and the next sequence number. -/
  log : List LogEntry := []
  logNext : Nat := 0
  /-- Fenced units (TRB_FENCE0, TRB_FENCE1). -/
  fenced : List UnitId := []
  /-- Units whose last UNIT_TEST failed (R463). -/
  testFailed : List UnitId := []
  deriving DecidableEq, Repr

/-- One mailbox slot (R42). -/
structure Slot where
  req : List Byte := repByte 512 0
  resp : List Byte := repByte 512 0
  busy : Bool := false
  done : Bool := false
  /-- The request runs to completion with its response discarded (R55). -/
  orphaned : Bool := false
  /-- The request has started and waits (a drain or a switch in progress). -/
  started : Bool := false
  /-- Commands that it has ended so far. -/
  count : Nat := 0
  deriving DecidableEq, Repr

/-- One MSI-X table entry (Table MBX-2). -/
structure MsixEntry where
  addr : W64 := 0
  data : W32 := 0
  masked : Bool := true
  pending : Bool := false
  deriving DecidableEq, Repr

/-- What exists once per host port. -/
structure HostPort where
  /-- MBX_PORT_STATUS.attached and link. -/
  attached : Bool := false
  link : Bool := false
  /-- PERST_N held low (R475). -/
  perst : Bool := false
  /-- The function is in D3hot (Table MBX-1). -/
  d3hot : Bool := false
  /-- Errors that the function's AER registers show (Table MBX-1). -/
  aer : List AerError := []
  /-- Heartbeat period in ms, 0 none, and the count of the last HEARTBEAT or HOST_ATTACH (R55). -/
  hbPeriod : Nat := 0
  hbLast : Nat := 0
  /-- Orphan policy of HOST_ATTACH: true CLOSE (R56). -/
  policyClose : Bool := false
  /-- MBX_BAR2_BASE.base. -/
  bar2Base : BitVec 6 := 0
  /-- log2 of the BAR2 size (R37). -/
  bar2Log2 : Nat := 34
  slots : Vector Slot 32 := .replicate 32 {}
  /-- MBX_IRQ_CTRL.done_irq_en. -/
  doneIrqEn : Bool := false
  msix : Vector MsixEntry 64 := .replicate 64 {}
  /-- TB_ADJ, TB_RATE_SET, TB_RESULT, TB_NOW latches (R392, R393). -/
  tbAdj : BitVec 80 := 0
  tbRateSet : BitVec 40 := 0
  tbResStatus : W16 := 0
  tbResCount : W32 := 0
  nowCnt : W64 := 0
  nowTime : BitVec 80 := 0
  /-- PWR_ENERGY high-word latch (R437). -/
  energyHi : W32 := 0
  /-- PWR_PD_RESULT (Table PWR-6). -/
  pdStatus : W16 := 0
  pdDomain : BitVec 7 := 0
  pdDone : Bool := false
  deriving DecidableEq, Repr

/-- One semaphore (Table MBX-11) and the port its next tie favours (R54). -/
structure Sem where
  held : Bool := false
  owner : Port := .a
  broken : Bool := false
  tag : W16 := 0
  favours : Port := .a
  deriving DecidableEq, Repr

/-- The counters of the per-die and per-cluster subsystems. -/
structure Cnts where
  /-- WEL_CNT.ecc_corrected, late_writes (Table WEL-11). -/
  welEcc : Vector Nat 8 := .replicate 8 0
  welLate : Vector Nat 8 := .replicate 8 0
  /-- PMP_CNT.entry_stalls, index_faults, and the commands held, counted in full (the register shows units of 256) (Table WEL-13). -/
  pmpStalls : Vector Nat 8 := .replicate 8 0
  pmpIdx : Vector Nat 8 := .replicate 8 0
  pmpHolds : Vector Nat 8 := .replicate 8 0
  /-- QNT_CNT.sat_blocks, skew_events, skipped_blocks (Table QNT-11). -/
  qntSat : Vector Nat 8 := .replicate 8 0
  qntSkew : Vector Nat 8 := .replicate 8 0
  qntSkip : Vector Nat 8 := .replicate 8 0
  /-- MEM_CNT.ecc_corrected, link corrections in full, link_retry_fail (Table MEM-8). -/
  memEcc : Vector Nat 2 := .replicate 2 0
  memLink : Vector Nat 2 := .replicate 2 0
  memRetry : Vector Nat 2 := .replicate 2 0
  /-- STR_CNT.swap_ins, overruns, marks (Table STR-16). -/
  strSwap : Vector Nat 2 := .replicate 2 0
  strOver : Vector Nat 2 := .replicate 2 0
  strMarks : Vector Nat 2 := .replicate 2 0
  /-- ATN_CNT.spills, return waits in full, lost_pages (Table ATN-12). -/
  atnSpills : Vector Nat 2 := .replicate 2 0
  atnWaits : Vector Nat 2 := .replicate 2 0
  atnLost : Vector Nat 2 := .replicate 2 0
  /-- CNV_CNT.degenerate, crop_nan, fle_refused; CNV_FLE.completed (Table CNV-9). -/
  cnvDegen : Vector Nat 2 := .replicate 2 0
  cnvNan : Vector Nat 2 := .replicate 2 0
  cnvRefused : Vector Nat 2 := .replicate 2 0
  fleDone : Vector Nat 2 := .replicate 2 0
  /-- INT_AUD_CNT.late_packets, concealed_chunks (Table INT-7). -/
  audLate : Vector Nat 2 := .replicate 2 0
  audConc : Vector Nat 2 := .replicate 2 0
  /-- REC_CNT.abandoned, dim_refused, truncated, concealed (Table REC-9). -/
  recAband : Vector Nat 2 := .replicate 2 0
  recDim : Vector Nat 2 := .replicate 2 0
  recTrunc : Vector Nat 2 := .replicate 2 0
  recConc : Vector Nat 2 := .replicate 2 0
  /-- LPE_CNT.misses, faults, fb_bad (Table LPE-9). -/
  lpeMiss : Vector Nat 2 := .replicate 2 0
  lpeFault : Vector Nat 2 := .replicate 2 0
  lpeFb : Vector Nat 2 := .replicate 2 0
  /-- ENG_MX_BUSY, ENG_VX_BUSY, the two stall counts, completed and preempted of each core (Table ENG-11). -/
  mxBusy : Vector W32 32 := .replicate 32 0
  vxBusy : Vector W32 32 := .replicate 32 0
  stallA : Vector Nat 32 := .replicate 32 0
  stallB : Vector Nat 32 := .replicate 32 0
  completed : Vector Nat 32 := .replicate 32 0
  preempted : Vector Nat 32 := .replicate 32 0
  /-- PMP_OUT.high_water (Table WEL-15). -/
  highWater : Vector Nat 32 := .replicate 32 0
  deriving DecidableEq, Repr

/-- A ring in main memory or host memory (R165, R166). -/
structure Ring where
  host : Bool
  entries : Nat
  base : Nat
  deriving DecidableEq, Repr

/-- A completion record that waits to be written (R185), with the write ranges that its command owns until then (R187). -/
structure Record where
  seq : W32
  launchLate : Bool
  resumed : Bool
  placed : Bool
  opcode : Byte
  status : St
  tag : W16
  epoch : W16
  ndc : Nat
  core : Nat
  badField : Nat
  stamp : Nat
  start : Nat
  irqNow : Bool
  owned : List Rng
  deriving DecidableEq, Repr

/-- One queue of a partition (R165 to R169, Table MBX-13). -/
structure Queue where
  cring : Option Ring := none
  rring : Option Ring := none
  prod : W32 := 0
  fetched : W32 := 0
  crProd : W32 := 0
  crCons : W32 := 0
  irqVec : BitVec 6 := 0
  irqBatch : Byte := 1
  irqEn : Bool := false
  /-- Records written since the ring's last interrupt. -/
  sinceIrq : Nat := 0
  /-- Records waiting to be written, oldest first. -/
  waiting : List Record := []
  /-- Records dropped while orphaned (R56), and whether the rings must be registered again (R57). -/
  dropped : Nat := 0
  rereg : Bool := false
  deriving DecidableEq, Repr

/-- The states of a partition (Table PAR-1). -/
inductive PState where
  | closed | opened | saving | saved | loading | orphaned | resetting | closing
  deriving DecidableEq, Repr

/-- The saved context of a SAVED partition (R188): the admission number of its SAVE, the live mask of each core, and where the bytes went. -/
structure Saved where
  live : List (CoreId × W16)
  /-- Segments written, in order: address, length. -/
  segs : List (Nat × Nat)
  /-- Another partition has held one of the cores since the SAVE (R190). -/
  lent : Bool
  /-- A region that held a segment was lost (R156). -/
  lost : Bool
  deriving DecidableEq, Repr

/-- The measurement of a partition (R455, Table TRB-11). -/
structure Meas where
  addr : BitVec 40 := 0
  entries : BitVec 13 := 0
  /-- 0 NONE, 1 RUNNING, 2 VALID, 3 FAILED. -/
  state : BitVec 2 := 0
  status : W16 := 0
  digest : List Byte := repByte 32 0
  /-- Address and entry count that the running measurement started with. -/
  runAddr : BitVec 40 := 0
  runEntries : BitVec 13 := 0
  deriving DecidableEq, Repr

/-- One partition (chapter PAR). -/
structure Part where
  state : PState := .closed
  owner : Port := .a
  relaxed : Bool := false
  issueDepth : Nat := 0
  epoch : W16 := 0
  /-- Last epoch that this number held since the device reset (R161). -/
  lastEpoch : W16 := 0
  cores : W32 := 0
  grants : Vector W16 8 := .replicate 8 0
  borrow : Bool := false
  ctxBase : Nat := 0
  ctxSize : Nat := 0
  /-- The orphan policy it follows: true CLOSE (R56, R57). -/
  policyClose : Bool := false
  /-- Issues nothing until a doorbell by its new owner (R57). -/
  waitsBell : Bool := false
  /-- The state it had when it was orphaned, so that PART_ADOPT gives it back. -/
  wasState : PState := .opened
  /-- Commands ended so far by a PART_CLOSE or PART_RESET in progress. -/
  ended : Nat := 0
  ndc : W32 := 0
  late : W16 := 0
  missed : W16 := 0
  staleCmds : W16 := 0
  staleResults : W16 := 0
  saves : W16 := 0
  interrupted : W16 := 0
  sigs : Vector W32 64 := .replicate 64 0
  queues : Vector Queue 4 := .replicate 4 {}
  saved : Option Saved := none
  /-- The core that last held each lost key (R180). -/
  lostKeys : List (W16 × CoreId) := []
  /-- Failed main sides whose cores were replaced by those of their checkers (R410). -/
  moved : List ClusId := []
  meas : Meas := {}
  deriving DecidableEq, Repr

/-- The life of a fetched command: admitted; issued and not started (a launch count); running; its effect done; stopped by SAVE; ended, its record
waiting for room among the 64 of its queue (R169). -/
inductive Life where
  | waiting | issued | started | ran | suspended | ended
  deriving DecidableEq, Repr

/-- Why an issued command must stop at its next pre-emption point (R485): the last, for the entry of its cluster into PAIRED (R406). -/
inductive Stop where
  | save | reset | fence | pair
  deriving DecidableEq, Repr

/-- The unit on which a command runs (Table PAR-7). -/
inductive Place where
  | none
  /-- Engines of a core. -/
  | core (n : CoreId)
  /-- Quantisation unit of the cluster of a core. -/
  | quant (n : CoreId)
  /-- Pump of a core. -/
  | corePump (n : CoreId)
  /-- Cluster pump of the cluster of a core, on that core's behalf (R120). -/
  | clusPump (n : CoreId)
  /-- First/last-layer engine. -/
  | fle (d : Die)
  deriving DecidableEq, Repr

/-- What a command does: the commands of Table PAR-7, with SIGNAL, the stream and the attention opcodes split by their kind or operation. -/
inductive CmdKind where
  | gemm | vop | conv | pool | crop | s2d | d2s | frc | qscan | qconv | adapt
  | pump | fill | copy | hint | wait | signalAdd | signalRemote | signalWrite | fence | save | load
  | rstep | lstep | feat | streamGroup | streamOpen | streamPause | streamResume | streamPark | streamReset
  | streamExport | streamImport | streamClose
  | attnFinish | attnNodes | attnCombine | heap | seqOpen | seqClose | pin | unpin | trim
  | unknown
  deriving DecidableEq, Repr

/-- A fetched command. -/
structure Cmd where
  /-- Order of admission over all queues. -/
  adm : Nat
  part : PartId
  que : QueId
  seq : W32
  /-- The 64 descriptor bytes as one word, byte 0 lowest (R170). -/
  desc : BitVec 512
  kind : CmdKind
  /-- 64-bit deadline and launch count (R171). -/
  deadline : Option Nat
  launch : Option Nat
  life : Life := .waiting
  place : Place := .none
  placed : Bool := false
  launchLate : Bool := false
  start : Nat := 0
  epochAt : W16 := 0
  /-- Determinism mode at admission (R306). -/
  relaxed : Bool := false
  /-- Declared ranges (R123, R172), before placement. -/
  ranges : List Rng := []
  /-- Headers and blocks copied at admission: address and bytes. -/
  copies : List (Nat × List Byte) := []
  /-- Numbers fixed at admission or left by an earlier part of its run (each operand chapter says which). -/
  notes : List Nat := []
  ndc : Nat := 0
  /-- Conditions met, each a status of R9. -/
  conds : List St := []
  badField : Nat := 0
  resumed : Bool := false
  stop : Option Stop := none
  /-- Next pump operation to issue, of those the command makes (R120). -/
  nextOp : Nat := 0
  /-- Clusters whose cores its addresses name 16 higher or lower (R410). -/
  moved : List ClusId := []
  /-- Re-issued after a transient mismatch (R411). -/
  rerun : Bool := false
  /-- Number of its issue, over all partitions. -/
  iss : Nat := 0
  /-- The scoreboard has held it (PMP_CNT.issue_holds counts it once). -/
  wasHeld : Bool := false
  /-- The class of a step's group, fixed at its issue (Table ENG-1). -/
  classB : Bool := false
  /-- Everything that its operations still write is to be poisoned (R121, R131, R134). -/
  tint : Bool := false
  /-- Records of it for which its queue has had no room yet, oldest first (R169). -/
  records : List Record := []
  deriving DecidableEq, Repr

/-- A residency key that a core holds for a partition (R180). -/
structure Key where
  part : PartId
  key : W16
  core : CoreId
  deriving DecidableEq, Repr

/-- A unit outside the clusters that issues pump operations of its own: intake for a camera port (R328), or the strainer for a pipeline (R345). -/
inductive IoUnit where
  | cam (v : CamId)
  | pipe (i : PipeId)
  deriving DecidableEq, Repr

/-- What made a pump operation: a command, by its admission number, or such a unit. -/
inductive OpOwner where
  | cmd (adm : Nat)
  | io (u : IoUnit)
  deriving DecidableEq, Repr

/-- What such a unit has still to do, in order (R328, R330, R345): bytes to write for a partition; bytes to write once all that comes before has landed; a
camera frame's record, which waits for its own row and is then signalled; and an increment of a counter once all that comes before has landed. -/
inductive IoJob where
  | put (part : PartId) (addr : Nat) (data : List (Byte × Bool))
  | late (part : PartId) (addr : Nat) (data : List (Byte × Bool))
  | record (part : PartId) (counter : Nat) (addr : Nat) (data : List (Byte × Bool))
  | signal (part : PartId) (counter : Nat)
  deriving DecidableEq, Repr

/-- The partition for which it is done. -/
def IoJob.part : IoJob → PartId
  | .put q _ _ => q
  | .late q _ _ => q
  | .record q _ _ _ => q
  | .signal q _ => q

/-- What a pump operation does: it moves bytes, fetches part of an index list, fetches bytes for the unit that asked, or puts bytes that the unit
gave. -/
inductive OpKind where
  | move | list | fetch | put
  deriving DecidableEq, Repr

/-- A pump operation in flight (R120). -/
structure PumpOp where
  id : Nat
  part : PartId
  owner : OpOwner
  core : CoreId
  die : Die
  kind : OpKind
  src : Nat
  dst : Nat
  len : Nat
  /-- Its ranges on the scoreboard: none in an untracked remote window (Table WEL-5). -/
  reads : List Rng
  writes : List Rng
  /-- It needs a far registration, and has it (R125). -/
  far : Bool
  farDone : Bool
  /-- Count at which the near registration was made. -/
  at_ : Nat
  /-- Operations and commands whose entries were found to hold it as its own were made (R124, R125). -/
  after : List Nat := []
  afterCmds : List Nat := []
  /-- What it moves was chosen by a poisoned entry of its index list (log entry 25). -/
  tint : Bool := false
  /-- Remote windows that it goes through. -/
  windows : List Nat := []
  /-- The REGISTER messages that entered it at the partner, each with its window, and those not answered yet (R129). -/
  regs : List (W32 × Nat) := []
  regWait : List W32 := []
  /-- Its READ_REQs are sent; its WRITEs are sent. -/
  asked : Bool := false
  sent : Bool := false
  /-- The messages it waits on, each with the offset of its piece. -/
  waits : List (W32 × Nat) := []
  /-- Pieces of its source that have come from the partner, by offset. -/
  got : List (Nat × List (Byte × Bool)) := []
  /-- Its source as it was read, or as the unit that made it gave it. -/
  data : Option (List (Byte × Bool)) := none
  deriving DecidableEq, Repr

/-- A BAR2 read through remote windows that waits for the partner's data: the host port, the bytes had so far, those of units that a command owned
(R187), and the READ_REQs not answered yet, each with the offset of its piece. -/
structure Bar2Read where
  port : Port
  data : List Byte
  owned : List Bool
  waits : List (W32 × Nat)
  deriving DecidableEq, Repr

/-- What the completions of a host's memory will report, put there by the environment: 64-byte lines of that memory read as poisoned, and lines whose
reads reach the completion timeout (R155). -/
structure HostErr where
  poison : List Nat := []
  silent : List Nat := []
  deriving DecidableEq, Repr

/-- States of a half-well or pool (Table WEL-14). -/
inductive WState where
  | off | powering | unfilled | on | closing
  deriving DecidableEq, Repr

/-- One half-well or pool: its state, the port that asked for the switch in progress and when, and the writers counted at closure (R134). -/
structure WellCtl where
  st : WState := .off
  port : Option Port := none
  since : Nat := 0
  /-- Pump operations, commands and registrations of the Siphon partner counted at closure. -/
  ops : List Nat := []
  cmds : List Nat := []
  regs : List W32 := []
  deriving DecidableEq, Repr

/-- Errors that wait to be met, put there by the environment: words with a single or a double-bit error stored, main-memory device blocks whose check
burst carries a wrong address tag or nonzero reserved bits (R113, R144), and main-memory bursts whose next transfer over the link is corrected, or fails
with its retry (R149). -/
structure Ecc where
  sbe : List Nat := []
  dbe : List Nat := []
  tag : List Nat := []
  chk : List Nat := []
  linkOne : List Nat := []
  linkFail : List Nat := []
  deriving DecidableEq, Repr

/-- A range of undefined contents, with the number that its free bytes are drawn by (R136, R152, R190). -/
structure Undef where
  lo : Nat
  hi : Nat
  tag : Nat
  deriving DecidableEq, Repr

/-- A memory package (Table MEM-10). -/
inductive PkgState where
  | on | evacuating | fenced | testing | restoring | absent
  deriving DecidableEq, Repr

/-- The package fence (R139, R150 to R152): the package, its state, and k_moved in units of 256 bytes. It shows ON while operations in flight on the
top region, unmapped already, run to their end. -/
structure PkgFence where
  pkg : Fin 16
  state : PkgState
  kMoved : Nat
  deriving DecidableEq, Repr

/-- A registered cistern region (R153, R154). -/
structure Region where
  id : Nat
  port : Port
  part : Option PartId
  cls : Nat
  rd : Bool
  wr : Bool
  host : Nat
  len : Nat
  loc : Nat
  /-- Released by drain and waiting for its operations. -/
  draining : Bool := false
  deriving DecidableEq, Repr

/-- An open remote window (R127). -/
structure Window where
  id : Nat
  part : PartId
  untracked : Bool
  rd : Bool
  wr : Bool
  loc : Nat
  remote : Nat
  len : Nat
  draining : Bool := false
  deriving DecidableEq, Repr

/-- A HINT held by the power manager (R433). -/
structure Hint where
  part : PartId
  seq : W32
  clusters : Byte
  watts : Nat
  start : Nat
  stop : Nat
  active : Bool
  deriving DecidableEq, Repr

/-- The power manager (Table PWR-6). Powers in units of 0.01 W. -/
structure Pm where
  mode : BitVec 2 := 1
  sensorOk : Bool := false
  diverged : Bool := false
  energyEst : Bool := false
  energy : W64 := 0
  /-- Part of a microjoule already integrated, in thousandths (R437). -/
  energyFrac : Nat := 0
  inPower : Nat := 0
  inVolts : Nat := 0
  est : Nat := 0
  basis : Nat := 0
  sCap : Nat := 0
  sTh : Vector Nat 2 := .replicate 2 0
  temp : Vector W16 24 := .replicate 24 0
  tempOk : Vector Bool 24 := .replicate 24 false
  /-- A temperature sensor has failed to read since it was last read well: it counts as at its throttle limit (R439). -/
  tempFail : Vector Bool 24 := .replicate 24 false
  volt : Vector Nat 2 := .replicate 2 0
  /-- Skip values in force, and those of the last three frames, the latest first (R23, R24). -/
  skip : Vector Nat 8 := .replicate 8 0
  skip1 : Vector Nat 8 := .replicate 8 0
  skip2 : Vector Nat 8 := .replicate 8 0
  skip3 : Vector Nat 8 := .replicate 8 0
  /-- Skip values that the clusters are to have (R432), and the count at which a die's rail that is still settling was raised (R436). -/
  skipGoal : Vector Nat 8 := .replicate 8 0
  raised : Vector (Option Nat) 2 := .replicate 2 none
  /-- FCLK cycle within the 16-cycle ACLK frame, 0 to 7 (R22, R23). -/
  phase : Nat := 0
  /-- Switchings of checker clusters that follow those of their main sides: domain, on, and the count at which they act (R402). -/
  pdTwins : List (PdId × Bool × Nat) := []
  /-- A die's voltage table was refused: every entry is 900 mV (R434). -/
  vFallback : Vector Bool 2 := .replicate 2 false
  throttleMs : Nat := 0
  hintsDropped : Nat := 0
  /-- Valid control steps in a row beyond and within 20 % of the cap (R431). -/
  overRun : Nat := 0
  underRun : Nat := 0
  hints : List Hint := []
  /-- Any sensor is at or above its warning limit (R439). -/
  warn : Bool := false
  deriving DecidableEq, Repr

/-- A power-domain switch in progress (R443), of a domain that is no half-well or pool. -/
structure PdMove where
  pd : PdId
  on : Bool
  port : Option Port
  since : Nat
  deriving DecidableEq, Repr

/-- The states of a cluster pair (Table PRG-11). -/
inductive PairState where
  | split | entering | paired | testing | resync | leaving | degraded
  deriving DecidableEq, Repr

/-- One cluster pair. -/
structure Pair where
  main : Bool := false
  policy : BitVec 2 := 0
  rerun : Bool := false
  state : PairState := .split
  mainDie : Fin 2 := 0
  outcome : BitVec 2 := 0
  failD0 : Bool := false
  failD1 : Bool := false
  group : BitVec 4 := 0
  mismatches : Nat := 0
  refusals : Nat := 0
  transients : Nat := 0
  reruns : Nat := 0
  save : BitVec 40 := 0
  evt : W64 := 0
  /-- Commands that the mismatch ended, as they were (R409, R411). -/
  ended : List Cmd := []
  /-- Cores of the pair treated as fenced for these partitions until each closes (Table PRG-5). -/
  barred : List PartId := []
  /-- The loop engines test their axis datapaths after a drive-frame mismatch (R413). -/
  axisTest : Bool := false
  /-- A port whose MODE_SET to SPLIT waits for the mismatch flow (R408). -/
  splitWaits : Option (Port × SlotId) := none
  deriving DecidableEq, Repr

/-- States of a mirrored region. -/
inductive MirState where
  | off | syncing | synced | refused
  deriving DecidableEq, Repr

/-- One mirrored region (Table PRG-11). -/
structure Mirror where
  base : BitVec 40 := 0
  len : W32 := 0
  enable : Bool := false
  state : MirState := .off
  deriving DecidableEq, Repr

/-- A message sent and not yet acknowledged (R416). -/
structure SentMsg where
  type : Nat
  msg : Msg
  sentAt : Nat
  deriving DecidableEq, Repr

/-- The Siphon engine (Table PRG-11, R416, R423, R424). -/
structure Sph where
  lastgasp : Bool := true
  silent : Bool := true
  dark : Bool := false
  tbFollow : Bool := true
  hbTimeout : Byte := 10
  /-- 0 DARK, 1 TRAINING, 2 UP, 3 FENCED. -/
  link : BitVec 2 := 0
  role : BitVec 2 := 0
  partnerRole : BitVec 2 := 0
  partnerKnown : Bool := false
  conflict : Bool := false
  alive : Bool := false
  takenOver : Bool := false
  bad : Nat := 0
  /-- Retransmissions and stalled cycles counted in full (the registers show units of 256). -/
  retries : Nat := 0
  mirrorStalls : Nat := 0
  partner : W64 := 0
  mirAt : W64 := 0
  axm : BitVec 40 := 0
  /-- Next sequence number to send, and the next one expected. -/
  txSeq : W32 := 0
  rxSeq : W32 := 0
  /-- Replay buffer, oldest first, and how often its oldest message was resent. -/
  replay : List SentMsg := []
  resends : Nat := 0
  lastHeard : Nat := 0
  /-- Count of the last HEARTBEAT sent, or of the link-up (R423). -/
  beatAt : Nat := 0
  fenceNotice : Bool := false
  /-- Transmitters off (R424). -/
  txDark : Bool := false
  /-- Ranges that the partner has registered here: sequence number of its REGISTER, and the range (R129). -/
  remoteRegs : List (W32 × Rng) := []
  /-- Those whose writes a power-down gate has dropped (R134). -/
  lateRegs : List W32 := []
  partnerLow : Bool := false
  /-- SIGNALs sent and not yet acknowledged, with the partition that sent each. -/
  sigOut : List (W32 × PartId) := []
  /-- Messages that overtook others and have been received ahead of rxSeq (R417). -/
  rxAhead : List W32 := []
  /-- Registrations whose REG_DONE waits for an entry here that holds them (R129). -/
  regWait : List W32 := []
  deriving DecidableEq, Repr
/-- States of a stream (Table STR-2). -/
inductive SState where
  | close | opened | run | pause | park | exported | imported
  deriving DecidableEq, Repr

/-- A stream table entry (Table STR-2): that of a stream that was never opened since the device reset is not listed. The record is resident while
`slot` holds its slot; `last` is the count at which a step last took the stream (R253). -/
structure Stream where
  num : Nat
  state : SState := .close
  classB : Bool := false
  part : PartId := 0
  epoch : W16 := 0
  group : Nat := 0
  nonfinite : Bool := false
  lookahead : Nat := 0
  chunk20 : Bool := false
  ringLog2 : Nat := 0
  slot : Option Nat := none
  home : Nat := 0
  ring : Nat := 0
  arrived : W32 := 0
  stepped : W32 := 0
  lastStamp : Nat := 0
  last : Nat := 0
  deriving DecidableEq, Repr

/-- A defined group (Table STR-1). -/
structure Group where
  num : Nat
  part : PartId
  core : CoreId
  classB : Bool
  nslots : Nat
  slotBase : Nat
  slotUnits : Nat
  stagingBase : Nat
  stagingBytes : Nat
  initAddr : Nat
  deriving DecidableEq, Repr

/-- A defined heap (Table ATN-2). -/
structure Heap where
  num : Nat
  part : PartId
  fmt : Nat
  dim : Nat
  nslots : Nat
  base : Nat
  low : Nat
  high : Nat
  deriving DecidableEq, Repr

/-- An open sequence (Table ATN-3): its record's address, the partition that opened it, and the record's fields; then the length and end page to which
the appends of the admitted steps will bring it (R299). Its page descriptors stand in memory (Table ATN-4). -/
structure Seq where
  addr : Nat
  part : PartId
  table : Nat
  length : Nat
  firstPage : Nat
  maxPages : Nat
  endPage : Nat
  layers : Nat
  kvHeads : Nat
  heap : Nat
  tail : Bool
  epoch : W16
  lenAdm : Nat := 0
  endAdm : Nat := 0
  deriving DecidableEq, Repr

/-- A page on its way out (R297, R298): the address of its descriptor, its slot, the cistern span that it was given, the descriptor of the page whose
allocation chose it as victim, and whether its return has been requested, with the slot kept for that return. -/
structure Spill where
  desc : Nat
  slot : Nat
  span : Nat
  taker : Option Nat := none
  ret : Bool := false
  retSlot : Option Nat := none
  deriving DecidableEq, Repr

/-- A page on its way back (R297): the address of its descriptor, its cistern copy, the deadline of the command that needs it (R300), and when the return
began. -/
structure PageReturn where
  desc : Nat
  span : Nat
  deadline : Option Nat := none
  at_ : Nat := 0
  deriving DecidableEq, Repr

/-- Alignment of the counters of a Siphon pair (Table DET-7). -/
inductive Align where
  | none | measuring | waiting | aligned | failed | slewing | lost
  deriving DecidableEq, Repr

/-- The determinism registers (Tables DET-5 to DET-7), and how far the alignment of a pair has come (R314 to R320). -/
structure Det where
  state : Align := .none
  loader : Bool := false
  residual : Int := 0
  ofs : W64 := 0
  holds : W32 := 0
  seed : W64 := 0
  stream : W32 := 0
  elem : W32 := 0
  /-- This module is the loader of the present link-up. -/
  loads : Bool := false
  /-- The next sixteen exchanges verify a load. -/
  verify : Bool := false
  fails : Nat := 0
  /-- The measured O, and the count L at which it is loaded. -/
  offset : Int := 0
  loadAt : Option Nat := none
  /-- Count from which a waiting loader measures again. -/
  retryAt : Nat := 0
  /-- A hold is owed at the next hold point, and the counter holds its value in this cycle. -/
  owes : Bool := false
  holdNow : Bool := false
  /-- Offsets of the exchanges made so far, the count at which the last one began, and that at which the next one is to begin (R315). -/
  samples : List Int := []
  sentAt : Nat := 0
  nextAt : Option Nat := none
  /-- The count at which the counter last held (R318, R319). -/
  heldAt : Option Nat := none
  /-- The link came up again after a loss (R319). -/
  relink : Bool := false
  deriving DecidableEq, Repr

/-- A loaded audio binding: its index and its 32 bytes (Table INT-5). -/
structure Binding where
  index : Nat
  entry : List Byte
  deriving DecidableEq, Repr

/-- Audio on its way to a bound stream (R336 to R338): the media index (or TDM frame) at which the chunk that takes the number `arrived` starts and
that at which the stream's first chunk started; and the samples that have come, by their index. -/
structure AudioRun where
  stream : Nat
  next : Nat
  first : Nat
  samples : List (Nat × W32) := []
  deriving DecidableEq, Repr

/-- One TDM port (Table INT-7, R339): INT_TDM_CFG, the frames since it was enabled, the count of the last FSYNC, and whether FSYNC is lost. -/
structure TdmPort where
  cfg : BitVec 5 := 0
  frames : Nat := 0
  last : Nat := 0
  lost : Bool := false
  deriving DecidableEq, Repr

/-- States of a camera port (Table INT-7). -/
inductive CamState where
  | off | training | running | fenced | notReady
  deriving DecidableEq, Repr

/-- A frame being written: its number, its Frame Start's number and stamp, and the lines received, each with its pixel components and whether it
was concealed (R329, R332). -/
structure CamFrame where
  f : W32
  csi : Nat
  sof : Nat
  lines : List (List Nat × Bool) := []
  deriving DecidableEq, Repr



/-- One camera port (Table INT-7). The 128-byte block of Table INT-3 is kept as it was copied. -/
structure Camera where
  cfgAddr : BitVec 40 := 0
  state : CamState := .off
  blk : List Byte := []
  cci : W32 := 0
  cciBusy : Bool := false
  cciNack : Bool := false
  /-- A frame is being received, written or not. -/
  inFrame : Bool := false
  frames : W32 := 0
  cons : W32 := 0
  dropped : Nat := 0
  crcLines : Nat := 0
  concRows : Nat := 0
  cur : Option CamFrame := none
  /-- Writes and signals of ended frames, oldest first. -/
  jobs : List IoJob := []
  /-- Count of the enable, and the level of the trigger GPIO with the count at which it rose. -/
  enabledAt : Nat := 0
  gpio : Bool := false
  gpioRose : Nat := 0
  deriving DecidableEq, Repr

/-- States of a pipeline (Table REC-9). -/
inductive PipeState where
  | off | idle | running | fenced | notReady
  deriving DecidableEq, Repr

/-- A sample in progress, or finished and not yet released (R345, R352): its position, the budget fixed at its start in a RELAXED partition, whether
its lane is through with the cycles it took, whether it passed its budget, and, once its outcome is decided, its report
and label. -/
structure SampleRun where
  pos : Nat
  budget : Nat := 0
  through : Bool := false
  cycles : Nat := 0
  overrun : Bool := false
  /-- Its partition was RELAXED when it started (R306); it was abandoned for its time, which is counted (R308). -/
  relaxed : Bool := false
  ndc : Bool := false
  /-- A after the sample, in a RELAXED partition. -/
  avgAfter : W32 := 0
  report : Option (List Byte) := none
  deriving DecidableEq, Repr

/-- The job that a pipeline runs (Table REC-2). -/
structure Job where
  list : Nat
  first : Nat
  count : Nat
  host : Bool
  /-- Next position to start. -/
  next : Nat
  /-- Samples started and not yet released, by rising position. -/
  runs : List SampleRun := []
  /-- Bytes of the slot of the last position whose outcome was decided, with their poison, for the repeat policy. -/
  prev : Option (List (Byte × Bool)) := none
  deriving DecidableEq, Repr

/-- One input pipeline (Table REC-9). The 160-byte block of Table REC-1 is kept as it was copied. -/
structure Pipe where
  cfgAddr : BitVec 40 := 0
  state : PipeState := .off
  /-- The augmentation source is HOST (R351). -/
  hostSrc : Bool := false
  blk : List Byte := []
  prod : W32 := 0
  jobs : W32 := 0
  cons : W32 := 0
  avg : W32 := 0
  job : Option Job := none
  /-- What it has still to write and to signal (R345). -/
  writes : List IoJob := []
  deriving DecidableEq, Repr


/-- States of an axis (Table LPE-3). -/
inductive AxState where
  | off | armed | run | fault | notReady
  deriving DecidableEq, Repr

/-- One servo axis (Table LPE-9, R357 to R374). The 128-byte block of Table LPE-2 is kept as it was copied. -/
structure Axis where
  cfgAddr : BitVec 40 := 0
  state : AxState := .off
  cause : Nat := 0
  missed : Bool := false
  paired : Bool := false
  empty : Bool := false
  ferrCount : Nat := 0
  /-- Output last sent, and following error of the last valid sample. -/
  u : W32 := 0
  e : W32 := 0
  /-- Consumer count c, and the producer word as last read. -/
  cons : W32 := 0
  prod : W32 := 0
  missRun : Nat := 0
  missTotal : Nat := 0
  blk : List Byte := []
  /-- A reload that takes effect at the next sample instant. -/
  reload : Option (List Byte) := none
  /-- Sample for which r and vel were last computed. -/
  rk : Option Nat := none
  /-- ARMED, and RUN from the next sample instant. -/
  goRun : Bool := false
  i : W32 := 0
  d : W32 := 0
  yPrev : W32 := 0
  ySet : Bool := false
  uPrev : W32 := 0
  uInit : W32 := 0
  alpha : W32 := 0
  beta : W32 := 0
  kiT : W32 := 0
  r : W32 := 0
  vel : W32 := 0
  emptyRun : Nat := 0
  deriving DecidableEq, Repr

/-- States of a station (Table LPE-9). -/
inductive StState where
  | off | run | notReady | halted
  deriving DecidableEq, Repr

/-- An assembled drive frame: its sample, its launch count and its bytes without FCS. -/
structure DriveFrame where
  station : StationId
  k : Nat
  launch : Nat
  frame : List Byte
  deriving DecidableEq, Repr

/-- An accepted feedback frame: its sample, stamp and payload (R364). -/
structure Feedback where
  k : Nat
  stamp : Nat
  payload : List Byte
  deriving DecidableEq, Repr

/-- One station (R358, R362 to R364). The 64-byte block of Table LPE-1 is kept as it was copied. -/
structure Station where
  cfgAddr : BitVec 40 := 0
  state : StState := .off
  blk : List Byte := []
  fbBad : Nat := 0
  seq : W32 := 0
  fbLat : W32 := 0
  /-- 64-bit count of sample instant 0, and the next sample to be updated. -/
  phase : Nat := 0
  next : Nat := 0
  /-- Sample updated and waiting for its frame assembly. -/
  updated : Option Nat := none
  fb : Option Feedback := none
  /-- A frame of a paired station that waits for its comparison (R377). -/
  held : Option DriveFrame := none
  deriving DecidableEq, Repr

/-- An op written to TB_CMD, with the value that it applies (R393). -/
inductive TbOp where
  | rate (p : Port) (r : BitVec 40)
  | step (p : Port) (a : BitVec 80) (force : Bool)
  deriving DecidableEq, Repr

/-- The timebase (Table NET-5, R391 to R397). -/
structure Tb where
  offset : BitVec 80 := 0
  rate : BitVec 40 := 0
  anchor : W64 := 0
  jumpMax : W32 := 1000000
  /-- TB_PPS: out_en, in_watch, width. -/
  pps : BitVec 12 := 0
  ppsIn : W64 := 0
  ppsInN : W32 := 0
  /-- Level of PPS_OUT, the count at which it rose, and the last second it rose for. -/
  ppsLevel : Bool := false
  ppsRose : Nat := 0
  ppsSecond : Option Nat := none
  /-- Stopped by a device reset until TB_PPS is written again (R398). -/
  ppsStopped : Bool := false
  /-- Ops written to TB_CMD that have still to apply, oldest first (R393). -/
  ops : List TbOp := []
  /-- Count from which PPS_IN is watched: the last edge, or the moment in_watch was set (R397). -/
  ppsWatch : Nat := 0
  deriving DecidableEq, Repr

/-- States of an Ethernet port (Table NET-5). -/
inductive EthState where
  | off | training | up | down | fenced | notReady
  deriving DecidableEq, Repr

/-- One Ethernet port (Table NET-5, R382 to R389). -/
structure EthPort where
  state : EthState := .off
  /-- 0 none, 1 1 Gb/s, 2 2.5 Gb/s, 3 5 Gb/s, 4 10 Gb/s. -/
  speed : Nat := 0
  owner : Option Port := none
  /-- NET_P_CFG. -/
  cfg : BitVec 5 := 0
  mac : BitVec 48 := 0
  /-- NET_P_TXT_BASE, TXG_BASE, RX_BASE: base, host, log2. -/
  txtBase : BitVec 45 := 0
  txgBase : BitVec 45 := 0
  rxBase : BitVec 45 := 0
  txtProd : W32 := 0
  txgProd : W32 := 0
  rxProd : W32 := 0
  txtDone : W32 := 0
  txgDone : W32 := 0
  rxDone : W32 := 0
  irqVec : BitVec 6 := 0
  irqEn : Bool := false
  rxBad : Nat := 0
  /-- Frames dropped by the filter, in full (the register shows units of 256). -/
  rxFiltered : Nat := 0
  rxNoDesc : Nat := 0
  late : Nat := 0
  mcast : Vector (BitVec 49) 32 := .replicate 32 0
  /-- Count until which the port transmits. -/
  busy : Nat := 0
  /-- Drive frames handed to the port's launch queue. -/
  drives : List DriveFrame := []
  /-- The timed head was late under the send-late policy (R389). -/
  lateHead : Bool := false
  /-- Frames classified for the loop engine and for audio intake: stamp and bytes. -/
  toLoop : List (Nat × List Byte) := []
  toAudio : List (Nat × List Byte) := []
  deriving DecidableEq, Repr

/-- The state of the module. -/
structure State where
  sys : Sys := {}
  /-- The free-running counter (R30, R32). -/
  counter : W64 := 0
  trb : Trb := {}
  ports : Vector HostPort 2 := .replicate 2 {}
  /-- Rung slots in order of arrival (R44). -/
  reqs : List (Port × SlotId) := []
  sems : Vector Sem 64 := .replicate 64 {}
  /-- Every sticky register, by the number Sticky.idx gives it (Table TRB-6). -/
  errs : Vector W32 59 := .replicate 59 0
  /-- The bits of those registers that hardware has set in this FCLK cycle (R7). -/
  setNow : Vector W32 59 := .replicate 59 0
  /-- Vector 1 was already raised in this FCLK cycle (R41). -/
  v1Raised : Bool := false
  cnts : Cnts := {}
  parts : Vector Part 16 := .replicate 16 {}
  /-- Fetched commands in admission order, and the number of the next admission. -/
  cmds : List Cmd := []
  admitNext : Nat := 0
  /-- Partitions that have issued in this FCLK cycle (R176). -/
  issuedNow : List PartId := []
  /-- Number of the next issue. -/
  issueNext : Nat := 0
  /-- Residency keys, oldest first (R180). -/
  keys : List Key := []
  /-- Pump operations in flight, and the number of the next one. -/
  ops : List PumpOp := []
  opNext : Nat := 0
  /-- Scalar cores stopped by a microcode-store fault (R217). -/
  scHalt : Vector Bool 32 := .replicate 32 false
  /-- Clusters halted by a debug action (R414). -/
  halted : Vector Bool 8 := .replicate 8 false
  /-- Module memory: bytes that are not 0, by rising 40-bit module address (R27). -/
  mem : List Host.Cell := []
  undef : List Undef := []
  /-- Poisoned granules by rising base address: 512-byte rows of wells and pools, 64-byte bursts of main memory (R114, R143). -/
  poison : List Nat := []
  ecc : Ecc := {}
  hw : Vector WellCtl 64 := .replicate 64 {}
  pools : Vector WellCtl 8 := .replicate 8 {}
  /-- Host memory of each port, as module memory (R34). -/
  hostMem : Vector (List Host.Cell) 2 := .replicate 2 []
  /-- Errors in the answers of each host's memory (R155, log entry 7). -/
  hostErr : Vector HostErr 2 := .replicate 2 {}
  /-- The 64-byte granules of the cistern, by module address, that the module has written poisoned (R11, log entry 228). -/
  cisPoison : List Nat := []
  /-- BAR2 reads of remote windows that wait for the partner. -/
  bar2Reads : List Bar2Read := []
  /-- MEM_PKG.ecs_count, and the package fence. -/
  ecs : Vector W16 16 := .replicate 16 0
  fence : Option PkgFence := none
  regions : List Region := []
  windows : List Window := []
  /-- Streams that have been opened since the device reset, by rising number, and the defined groups, by rising number (R250, R251). -/
  streams : List Stream := []
  groups : List Group := []
  /-- STR_PEEK_SEL. -/
  strPeek : BitVec 18 := 0
  /-- Defined heaps by rising number, open sequences in the order of their opening, and pages in movement (R282, R283, R297). -/
  heaps : List Heap := []
  seqs : List Seq := []
  spills : List Spill := []
  returns : List PageReturn := []
  det : Det := {}
  cams : Vector Camera 24 := .replicate 24 {}
  /-- INT_AUD_TABLE, INT_AUD_FIR and the 72 coefficients. -/
  audTable : BitVec 40 := 0
  audFir : BitVec 40 := 0
  fir : List W32 := List.replicate 72 0
  /-- Loaded bindings by rising index, and the audio runs of bound streams. -/
  bindings : List Binding := []
  audio : List AudioRun := []
  tdm : Vector TdmPort 4 := .replicate 4 {}
  pipes : Vector Pipe 16 := .replicate 16 {}
  /-- The pipeline of each strainer that started a sample last: the next one comes first (R345, log entry 251). -/
  recTurn : Vector Nat 2 := .replicate 2 15
  axes : Vector Axis 128 := .replicate 128 {}
  stations : Vector Station 32 := .replicate 32 {}
  /-- LPE_FAULT.latched. -/
  lpeLatched : Bool := true
  /-- Count from which each die's loop engine is free (R363). -/
  lpeBusy : Vector Nat 2 := .replicate 2 0
  tb : Tb := {}
  eth : Vector EthPort 6 := .replicate 6 {}
  pm : Pm := {}
  /-- PWR_PD_STAT. -/
  pdOn : BitVec 128 := 0
  pdMoves : List PdMove := []
  pairs : Vector Pair 4 := .replicate 4 {}
  sph : Sph := {}
  mirrors : Vector Mirror 16 := .replicate 16 {}
  /-- Commands that wait, first in first out. -/
  pending : List Instr := []
  /-- What has left the module, newest first. -/
  out : List Out := []
  /-- Free values drawn so far (the model's own; no statement rests on its value). -/
  fresh : Nat := 0
  deriving DecidableEq, Repr

/-- The machine right after reset: powered, RST_N low and held (R479), every register at its reset value. -/
def State.reset : State := {}

end Sys2Proof.Machine
end

