-- ==== Sys2Proof/Machine/Bits.lean ====
section
/-! DEFINITION. Bit fields of descriptors, the checksum CRC-32C, and SHAKE256. -/
namespace Sys2Proof.Machine

/-- The field `[lo + w - 1 : lo]` of a descriptor, counted from bit 0 of byte 0 (Table PAR-4). -/
def dfield (d : BitVec 512) (lo w : Nat) : Nat := (d.toNat >>> lo) % 2 ^ w

/-- The field `[lo + w - 1 : lo]` of the operand area, bit 0 being bit 0 of byte 32 (R170). -/
def ofield (d : BitVec 512) (lo w : Nat) : Nat := dfield d (256 + lo) w

/-- A signed field of the operand area. -/
def ofieldS (d : BitVec 512) (lo w : Nat) : Int := signed w (ofield d lo w)

/-- A field of a byte string, in bits. -/
def bfield (bs : List Byte) (lo w : Nat) : Nat := (leNat (bytesAt bs (lo / 8) ((lo % 8 + w + 7) / 8)) >>> (lo % 8)) % 2 ^ w

/-- One step of the reflected CRC-32C register by one bit (PRESUMED the Castagnoli polynomial of RFC 3720, log entry 15). -/
def crcBit (c : Nat) : Nat := if c % 2 = 1 then Nat.xor (c / 2) 0x82F63B78 else c / 2

/-- The CRC-32C register after one byte. -/
def crcByte (c : Nat) (b : Byte) : Nat :=
  crcBit (crcBit (crcBit (crcBit (crcBit (crcBit (crcBit (crcBit (Nat.xor c b.toNat))))))))

/-- CRC-32C over bytes (R416, log entry 15). -/
def crc32c (bs : List Byte) : Nat := Nat.xor (bs.foldl crcByte 0xFFFFFFFF) 0xFFFFFFFF

/-- Rotation of a 64-bit word to the left. -/
def rot64 (x n : Nat) : Nat := ((x <<< n) ||| (x >>> (64 - n))) % 2 ^ 64

/-- The lane at column x and row y of a state of 25 lanes, row by row; both are taken modulo 5. -/
def lane (a : List Nat) (x y : Nat) : Nat := a.getD (x % 5 + 5 * (y % 5)) 0

/-- A state of 25 lanes, row by row, from the value of each column and row. -/
def plane (f : Nat → Nat → Nat) : List Nat := (List.range 25).map fun i => f (i % 5) (i / 5)

/-- The walk of FIPS 202 over the 24 lanes other than the origin, each with its step: from (1, 0), (x, y) goes to (y, 2x + 3y). -/
def keccakWalk : (steps : Nat) → (t x y : Nat) → List (Nat × Nat × Nat)
  | 0, _, _, _ => []
  | n + 1, t, x, y => (t, x, y) :: keccakWalk n (t + 1) y ((2 * x + 3 * y) % 5)

/-- Rotation of a lane in the step rho: the triangular number of its step in the walk, and 0 at the origin (FIPS 202, log entry 16). -/
def keccakTurn (x y : Nat) : Nat :=
  match (keccakWalk 24 0 1 0).find? fun w => w.2.1 == x && w.2.2 == y with
  | some w => (w.1 + 1) * (w.1 + 2) / 2 % 64
  | none => 0

/-- The register of the step iota, of 8 bits, after one shift: its feedback is x⁸ + x⁶ + x⁵ + x⁴ + 1 (FIPS 202, log entry 16). -/
def iotaShift (r : Nat) : Nat := if r < 128 then 2 * r else Nat.xor (2 * r) 0x171

/-- Seven bits of the register's low end, put at the places 2ʲ − 1 of a word, and the register after them. -/
def iotaWord : (left j : Nat) → (r word : Nat) → Nat × Nat
  | 0, _, r, word => (word, r)
  | n + 1, j, r, word => iotaWord n (j + 1) (iotaShift r) (word + r % 2 * 2 ^ (2 ^ j - 1))

/-- The words that the step iota adds in a number of rounds, from the register's value before the first (FIPS 202, log entry 16). -/
def iotaWords : (rounds : Nat) → (r : Nat) → List Nat
  | 0, _ => []
  | n + 1, r =>
    let (word, r1) := iotaWord 7 0 r 0
    word :: iotaWords n r1

/-- One round of Keccak-f[1600]: the steps theta, rho with pi, chi and iota in turn (FIPS 202, log entry 16). -/
def keccakRound (a : List Nat) (word : Nat) : List Nat :=
  let parity := (List.range 5).map fun x => (List.range 5).foldl (fun p y => Nat.xor p (lane a x y)) 0
  let theta := plane fun x y => Nat.xor (lane a x y) (Nat.xor (lane parity (x + 4) 0) (rot64 (lane parity (x + 1) 0) 1))
  let moved := plane fun x y => rot64 (lane theta (x + 3 * y) x) (keccakTurn ((x + 3 * y) % 5) x)
  plane fun x y =>
    let chi := Nat.xor (lane moved x y) ((2 ^ 64 - 1 - lane moved (x + 1) y) &&& lane moved (x + 2) y)
    if x = 0 ∧ y = 0 then Nat.xor chi word else chi

/-- Keccak-f[1600], of 24 rounds (FIPS 202, log entry 16). -/
def keccakF (a : List Nat) : List Nat := (iotaWords 24 1).foldl keccakRound a

/-- The 17 lanes of a 136-byte block, laid over a state. -/
def absorb (a : List Nat) (block : List Byte) : List Nat :=
  keccakF (plane fun x y => if x + 5 * y < 17 then Nat.xor (lane a x y) (fieldAt block (8 * (x + 5 * y)) 8) else lane a x y)

/-- Blocks of 136 bytes absorbed in order, `fuel` at most. -/
def absorbAll : (fuel : Nat) → List Nat → List Byte → List Nat
  | 0, a, _ => a
  | fuel + 1, a, bs => if bs.isEmpty then a else absorbAll fuel (absorb a (bs.take 136)) (bs.drop 136)

/-- SHAKE256 with an output of at most 136 bytes (R448, R455: named by the spec; PRESUMED FIPS 202, log entry 16). -/
def shake256 (bs : List Byte) (n : Nat) : List Byte :=
  let pad := 136 - bs.length % 136
  let tail : List Byte := if pad = 1 then [0x9F] else [0x1F] ++ repByte (pad - 2) 0 ++ [0x80]
  let m := bs ++ tail
  let st := absorbAll (m.length / 136) (List.replicate 25 0) m
  ((List.range 17).flatMap fun i => leBytes 8 (lane st i (i / 5))).take n

/-- Pieces of n elements of a list; `fuel` bounds their number. -/
def chunksOf {α : Type} (n : Nat) : (fuel : Nat) → List α → List (List α)
  | 0, _ => []
  | fuel + 1, l => if l.isEmpty then [] else l.take n :: chunksOf n fuel (l.drop n)

/-- The list cut into pieces of n elements. -/
def chunks {α : Type} (n : Nat) (l : List α) : List (List α) := chunksOf n l.length l

end Sys2Proof.Machine
end

