-- ==== Sys2Proof/Machine/Float.lean ====
section
/-! DEFINITION. IEEE 754 binary32 arithmetic as the spec uses it (R63, R207): round to nearest with ties to even, subnormals honoured, one canonical
NaN; every operation is an exact computation on integers and one rounding. -/
namespace Sys2Proof.Machine

/-- The value of a binary32 pattern: a NaN, an infinity, or (-1)^s × m × 2^e. -/
inductive Fp where
  | nan
  | inf (s : Bool)
  | fin (s : Bool) (m : Nat) (e : Int)
  deriving DecidableEq, Repr

/-- The canonical NaN (R63). -/
def fpNaN : W32 := 0x7FC00000
/-- An infinity. -/
def fpInf (s : Bool) : W32 := if s then 0xFF800000 else 0x7F800000
/-- A zero. -/
def fpZero (s : Bool) : W32 := if s then 0x80000000 else 0
/-- 1.0. -/
def fpOne : W32 := 0x3F800000

/-- The value of a pattern. -/
def fpVal (x : W32) : Fp :=
  let n := x.toNat
  let s := n / 2 ^ 31 == 1
  let ex : Nat := n / 2 ^ 23 % 256
  let f := n % 2 ^ 23
  if ex = 255 then (if f = 0 then .inf s else .nan)
  else if ex = 0 then .fin s f (-149)
  else .fin s (f + 2 ^ 23) ((ex : Int) - 150)

/-- `m / 2^k` rounded to the nearest integer, ties to even. -/
def roundShift (m k : Nat) : Nat :=
  if k = 0 then m
  else
    let q := m >>> k
    let r := m % 2 ^ k
    let h := 2 ^ (k - 1)
    if h < r || (r == h && q % 2 == 1) then q + 1 else q

/-- A nonnegative value m × 2^e with a sign, rounded once to binary32. -/
def fpRound (s : Bool) (m : Nat) (e : Int) : W32 :=
  if m = 0 then fpZero s
  else
    let top := e + (m.log2 : Int)
    let q0 : Int := max (top - 23) (-149)
    let k := q0 - e
    let mant := if k ≤ 0 then m <<< (-k).toNat else roundShift m k.toNat
    let bits := mant + ((q0 + 149).toNat <<< 23)
    if 255 * 2 ^ 23 ≤ bits then fpInf s else BitVec.ofNat 32 (bits + if s then 2 ^ 31 else 0)

/-- An exact value i × 2^e rounded once; an exact zero takes the given sign. -/
def fpOfInt (i : Int) (e : Int) (zs : Bool) : W32 := if i = 0 then fpZero zs else fpRound (i < 0) i.natAbs e

/-- cvt: an integer as binary32 (R366). -/
def fpCvt (i : Int) : W32 := fpOfInt i 0 false

/-- Signed mantissa of a finite value. -/
def smant (s : Bool) (m : Nat) : Int := if s then -(m : Int) else (m : Int)

/-- Exact sum of two finite values as mantissa and exponent. -/
def exactAdd (a : Int) (ea : Int) (b : Int) (eb : Int) : Int × Int :=
  let e := min ea eb
  (a * 2 ^ (ea - e).toNat + b * 2 ^ (eb - e).toNat, e)

/-- Sum of two values given as Fp, rounded once. -/
def addFp (x y : Fp) : W32 :=
  match x, y with
  | .nan, _ => fpNaN
  | _, .nan => fpNaN
  | .inf s, .inf t => if s == t then fpInf s else fpNaN
  | .inf s, .fin _ _ _ => fpInf s
  | .fin _ _ _, .inf t => fpInf t
  | .fin s m e, .fin t n f =>
    let (i, g) := exactAdd (smant s m) e (smant t n) f
    fpOfInt i g (s && t && m == 0 && n == 0)

/-- Product of two values, exact. -/
def mulFp (x y : Fp) : Fp :=
  match x, y with
  | .nan, _ => .nan
  | _, .nan => .nan
  | .inf s, .inf t => .inf (s != t)
  | .inf s, .fin t n _ => if n = 0 then .nan else .inf (s != t)
  | .fin s m _, .inf t => if m = 0 then .nan else .inf (s != t)
  | .fin s m e, .fin t n f => .fin (s != t) (m * n) (e + f)

/-- A value rounded once to binary32. -/
def roundFp (x : Fp) : W32 :=
  match x with
  | .nan => fpNaN
  | .inf s => fpInf s
  | .fin s m e => fpRound s m e

/-- fp32_add. -/
def fadd (x y : W32) : W32 := addFp (fpVal x) (fpVal y)

/-- Sign flipped; a NaN stays the canonical one. -/
def fneg (x : W32) : W32 := if fpVal x == .nan then fpNaN else x ^^^ 0x80000000

/-- Magnitude; a NaN becomes the canonical one. -/
def fabs (x : W32) : W32 := if fpVal x == .nan then fpNaN else x &&& 0x7FFFFFFF

/-- fp32_sub. -/
def fsub (x y : W32) : W32 := addFp (fpVal x) (fpVal (fneg y))

/-- fp32_mul. -/
def fmul (x y : W32) : W32 := roundFp (mulFp (fpVal x) (fpVal y))

/-- fp32_fma: x × y + z rounded once. -/
def ffma (x y z : W32) : W32 := addFp (mulFp (fpVal x) (fpVal y)) (fpVal z)

/-- fp32_div. -/
def fdiv (x y : W32) : W32 :=
  match fpVal x, fpVal y with
  | .nan, _ => fpNaN
  | _, .nan => fpNaN
  | .inf _, .inf _ => fpNaN
  | .inf s, .fin t _ _ => fpInf (s != t)
  | .fin s _ _, .inf t => fpZero (s != t)
  | .fin s m e, .fin t n f =>
    if n = 0 then (if m = 0 then fpNaN else fpInf (s != t))
    else
      let q := (m <<< 64) / n
      let r := (m <<< 64) % n
      fpRound (s != t) (2 * q + if r = 0 then 0 else 1) (e - f - 65)

/-- Integer square root by binary digits from bit `k` down. -/
def isqrtFrom : Nat → Nat → Nat → Nat
  | 0, _, r => r
  | k + 1, n, r =>
    let c := r + 2 ^ k
    isqrtFrom k n (if c * c ≤ n then c else r)

/-- fp32 square root; a negative operand other than -0 gives the canonical NaN. -/
def fsqrt (x : W32) : W32 :=
  match fpVal x with
  | .nan => fpNaN
  | .inf s => if s then fpNaN else fpInf false
  | .fin s m e =>
    if m = 0 then fpZero s
    else if s then fpNaN
    else
      let m1 := if e % 2 = 0 then m else 2 * m
      let e1 := if e % 2 = 0 then e else e - 1
      let n := m1 <<< 64
      let r := isqrtFrom 46 n 0
      fpRound false (2 * r + if r * r = n then 0 else 1) (e1 / 2 - 33)

/-- A pattern is a NaN. -/
def fIsNaN (x : W32) : Bool := fpVal x == .nan

/-- A pattern is finite. -/
def fFinite (x : W32) : Bool :=
  match fpVal x with
  | .nan => false
  | .inf _ => false
  | .fin _ _ _ => true

/-- x < y; false when either is a NaN. -/
def flt (x y : W32) : Bool :=
  match fpVal x, fpVal y with
  | .nan, _ => false
  | _, .nan => false
  | .inf s, .inf t => s && !t
  | .inf s, .fin _ _ _ => s
  | .fin _ _ _, .inf t => !t
  | .fin s m e, .fin t n f => (exactAdd (smant s m) e (-smant t n) f).1 < 0

/-- x = y as values; false when either is a NaN. -/
def feq (x y : W32) : Bool := !fIsNaN x && !fIsNaN y && !flt x y && !flt y x

/-- x ≤ y. -/
def fle (x y : W32) : Bool := flt x y || feq x y

/-- MIN of Table ENG-8: a NaN in either operand gives the canonical NaN, and -0 lies below +0. -/
def fmin (x y : W32) : W32 :=
  if fIsNaN x || fIsNaN y then fpNaN
  else if feq x y then (if x = 0x80000000 || y = 0x80000000 then (if feq x 0 then 0x80000000 else x) else x)
  else if flt x y then x else y

/-- MAX of Table ENG-8. -/
def fmax (x y : W32) : W32 :=
  if fIsNaN x || fIsNaN y then fpNaN
  else if feq x y then (if feq x 0 && (x = 0 || y = 0) then 0 else x)
  else if flt x y then y else x

/-- The integer nearest to a finite value, ties to even; 0 for anything else. -/
def froundEven (x : W32) : Int :=
  match fpVal x with
  | .fin s m e =>
    let r := if 0 ≤ e then m <<< e.toNat else roundShift m (-e).toNat
    if s then -(r : Int) else (r : Int)
  | .nan => 0
  | .inf _ => 0

/-- The largest integer at or below a finite value; 0 for anything else. -/
def ffloor (x : W32) : Int :=
  match fpVal x with
  | .fin s m e => if 0 ≤ e then smant s (m <<< e.toNat) else (smant s m) / (2 ^ (-e).toNat : Nat)
  | .nan => 0
  | .inf _ => 0

/-- The binary32 word in 4 bytes, and a word's bytes. -/
def f32At (bs : List Byte) (off : Nat) : W32 := BitVec.ofNat 32 (fieldAt bs off 4)

/-- A pattern's 4 bytes. -/
def f32Bytes (x : W32) : List Byte := leBytes 4 x.toNat

end Sys2Proof.Machine
end

