-- ==== Sys2Proof/Config.lean ====
section
/-! DEFINITION. What the spec leaves open or leaves to one module: free values (constants with no body, so that nothing can be proved of their value),
the contents of this module's flash, its keys, and instance data. Each is named in the assumption log. -/
namespace Sys2Proof.Config

/-- A byte of undefined contents: of the range drawn with number `tag`, at an address (R136, R152, R190; free value, log entry 10). -/
opaque freeByte (tag addr : Nat) : Byte
/-- The poison bit of a granule of undefined contents (R136; free value, log entry 10). -/
opaque freePoison (tag addr : Nat) : Bool
/-- What the ECC reports on a word that no FILL has written: 0 nothing, 1 corrected, 2 uncorrected, taken mod 3 (R136; free value, log entry 10). -/
opaque freeEcc (tag word : Nat) : Nat
/-- A free number, drawn with a number that is never used twice (log entry 11). -/
opaque freeVal (draw : Nat) : Nat
/-- A free truth value, drawn in the same way (log entry 11). -/
opaque freeBool (draw : Nat) : Bool
/-- A value that the spec does not state, as a function of the operation and its operands (log entry 12). -/
opaque openVal (op : Nat) (xs : List Nat) : Nat

/-- The image area of the flash as the module left the factory (R445; instance data, log entry 2). -/
opaque factoryImage : List Byte
/-- The configuration area of the flash (R445; instance data, log entry 2). -/
opaque configArea : List Byte
/-- Whether the configuration area's vendor signature verifies (R446; instance data, log entry 2). -/
opaque configSigOk : Bool
/-- The identity certificate (Table TRB-4; instance data, log entry 2). -/
opaque certificate : List Byte
/-- The module's serial number (Table TRB-4; instance data, log entry 2). -/
opaque serial : W64
/-- The vendor's public key in the boot ROM, encoded (R445; instance data, log entry 2). -/
opaque vendorKey : List Byte
/-- The public key that the PUF gives at a boot whose reading corrects well (R453; instance data, log entry 2). -/
opaque pufKey : List Byte

/-- Falcon-1024 verification of a padded signature over bytes with an encoded key (R448, R453; named by the spec and not defined, log entry 13). -/
opaque falconVerify (key msg sig : List Byte) : Bool
/-- The Falcon-1024 signature with the identity key over bytes, padded format, as drawn (R456; log entry 13). -/
opaque falconSign (draw : Nat) (msg : List Byte) : List Byte

/-- Entry of a die's tested voltage table, in mV (R434; instance data, log entry 2). -/
opaque vTable (die : Nat) (entry : Nat) : Nat
/-- Calibrated receive and transmit latency of an Ethernet port in counts (R390; instance data, log entry 2). -/
opaque ethLat (e : Nat) (speed : Nat) : Nat × Nat
/-- The first of the six MAC addresses in the configuration area, as a number whose most significant byte is sent first (R399; instance data, log entry 2). -/
opaque ethMacBase : BitVec 48
/-- Engine and queue state bytes that a SAVE writes (R188: their form is not given; free value, log entry 14). -/
opaque savedByte (draw : Nat) (i : Nat) : Byte

end Sys2Proof.Config
end

