-- ==== Sys2Proof/Machine/Ops.lean ====
section
/-! DEFINITION. The named operations over the state: statuses, sticky registers, counters, the event log, interrupts, power domains,
the memory map, module memory with its poison and ECC, host memory, and what every command does besides its own effect (settle). -/
namespace Sys2Proof.Machine

/-! ## Status codes (Table SCO-4) -/

/-- Code of a status. -/
def St.code : St → Nat
  | .ok => 0x0000 | .notReady => 0x0001 | .late => 0x0002 | .missed => 0x0003
  | .scaleSkew => 0x0010 | .poisoned => 0x0011 | .escapeOverflow => 0x0012
  | .staleEpoch => 0x0020 | .windowClosed => 0x0021 | .lateWrite => 0x0022
  | .pairMismatch => 0x0030 | .pairRefused => 0x0031
  | .timeBudget => 0x0040 | .truncated => 0x0041 | .dimLimit => 0x0042 | .concealed => 0x0043
  | .preempted => 0x0050 | .fenced => 0x0051 | .timeJumpRefused => 0x0060
  | .badCommand => 0x0070 | .noResource => 0x0071 | .internal => 0x00F0

/-- Precedence of a status. -/
def St.prec : St → Nat
  | .ok => 9 | .notReady => 6 | .late => 8 | .missed => 7
  | .scaleSkew => 3 | .poisoned => 3 | .escapeOverflow => 3
  | .staleEpoch => 4 | .windowClosed => 4 | .lateWrite => 4
  | .pairMismatch => 1 | .pairRefused => 2
  | .timeBudget => 5 | .truncated => 5 | .dimLimit => 5 | .concealed => 5
  | .preempted => 6 | .fenced => 2 | .timeJumpRefused => 6
  | .badCommand => 6 | .noResource => 6 | .internal => 0

/-- Whether the first status goes before the second: the lower precedence number, and then the lower code (R9). -/
def St.before (x y : St) : Bool := x.prec < y.prec || (x.prec == y.prec && x.code < y.code)

/-- The one status that a completion carries of those that apply; ST_OK when none does (R9). -/
def St.choose (cs : List St) : St := cs.foldl (fun best c => if c.before best then c else best) .ok

/-! ## Ports -/

/-- The block of a host port. -/
def State.port (s : State) (p : Port) : HostPort := s.ports[p.idx]

/-- The state with one port's block replaced. -/
def State.setPort (s : State) (p : Port) (h : HostPort) : State := { s with ports := s.ports.set p.idx h }

/-- The state with one partition replaced. -/
def State.setPart (s : State) (p : PartId) (x : Part) : State := { s with parts := s.parts.set p x }

/-- The free-running counter as a number. -/
def State.now (s : State) : Nat := s.counter.toNat

/-! ## Sticky registers (Table TRB-6) -/

/-- The sticky registers. -/
inductive Sticky where
  | eng (c : Fin 8) | wel (c : Fin 8) | pmp (c : Fin 8) | qnt (c : Fin 8)
  | par (d : Fin 2) | str (d : Fin 2) | atn (d : Fin 2) | intk (d : Fin 2) | aud (d : Fin 2) | reco (d : Fin 2)
  | cnv (d : Fin 2) | lpe (d : Fin 2) | net (d : Fin 2) | mem (d : Fin 2)
  | tb | det | sph | prg | pwr | mbx | trb
  deriving DecidableEq, Repr

/-- The place of a sticky register in State.errs. -/
def Sticky.idx : Sticky → Fin 59
  | .eng c => ⟨c.val, by omega⟩ | .wel c => ⟨8 + c.val, by omega⟩ | .pmp c => ⟨16 + c.val, by omega⟩ | .qnt c => ⟨24 + c.val, by omega⟩
  | .par d => ⟨32 + d.val, by omega⟩ | .str d => ⟨34 + d.val, by omega⟩ | .atn d => ⟨36 + d.val, by omega⟩
  | .intk d => ⟨38 + d.val, by omega⟩ | .aud d => ⟨40 + d.val, by omega⟩ | .reco d => ⟨42 + d.val, by omega⟩
  | .cnv d => ⟨44 + d.val, by omega⟩ | .lpe d => ⟨46 + d.val, by omega⟩ | .net d => ⟨48 + d.val, by omega⟩
  | .mem d => ⟨50 + d.val, by omega⟩
  | .tb => 52 | .det => 53 | .sph => 54 | .prg => 55 | .pwr => 56 | .mbx => 57 | .trb => 58

/-- Every sticky register, in the order of Table TRB-6. -/
def Sticky.all : List Sticky :=
  (allFin 8).map .eng ++ (allFin 8).map .wel ++ (allFin 8).map .pmp ++ (allFin 2).map .par ++ (allFin 2).map .str ++
  (allFin 2).map .atn ++ (allFin 8).map .qnt ++ (allFin 2).map .intk ++ (allFin 2).map .reco ++ (allFin 2).map .cnv ++
  (allFin 2).map .lpe ++ (allFin 2).map .net ++ [.tb] ++ (allFin 2).map .aud ++ [.det] ++ (allFin 2).map .mem ++
  [.sph, .prg, .pwr, .mbx, .trb]

/-- BAR0 offset of a sticky register (Table TRB-6). -/
def Sticky.off : Sticky → Nat
  | .eng c => 0x50340 + 4 * c.val | .wel c => 0x50200 + 4 * c.val | .pmp c => 0x50240 + 4 * c.val | .qnt c => 0x50280 + 4 * c.val
  | .par d => 0x50320 + 4 * d.val | .str d => 0x50380 + 4 * d.val | .atn d => 0x503A0 + 4 * d.val
  | .intk d => 0x503E0 + 4 * d.val | .aud d => 0x503E8 + 4 * d.val | .reco d => 0x50400 + 4 * d.val
  | .cnv d => 0x50360 + 4 * d.val | .lpe d => 0x50420 + 4 * d.val | .net d => 0x50440 + 4 * d.val
  | .mem d => 0x50300 + 4 * d.val
  | .tb => 0x50448 | .det => 0x503C0 | .sph => 0x50464 | .prg => 0x50460 | .pwr => 0x50480 | .mbx => 0x50500 | .trb => 0x50504

/-- Instance of a sticky register: its cluster or die, or 0. -/
def Sticky.inst : Sticky → Nat
  | .eng c => c.val | .wel c => c.val | .pmp c => c.val | .qnt c => c.val
  | .par d => d.val | .str d => d.val | .atn d => d.val | .intk d => d.val | .aud d => d.val | .reco d => d.val
  | .cnv d => d.val | .lpe d => d.val | .net d => d.val | .mem d => d.val
  | .tb => 0 | .det => 0 | .sph => 0 | .prg => 0 | .pwr => 0 | .mbx => 0 | .trb => 0

/-- Subsystem index of a sticky register with a given value (Table TRB-6); an ENG_ERR counts for the subsystem of its lowest nonzero byte. -/
def Sticky.subsystem (k : Sticky) (v : W32) : Nat :=
  match k with
  | .eng _ => if v.toNat % 256 ≠ 0 then 1 else if v.toNat / 256 % 256 ≠ 0 then 2 else if v.toNat / 65536 % 256 ≠ 0 then 3 else 4
  | .wel _ => 5 | .pmp _ => 6 | .par _ => 7 | .str _ => 8 | .atn _ => 9 | .qnt _ => 10 | .intk _ => 11 | .reco _ => 12
  | .cnv _ => 13 | .lpe _ => 14 | .net _ => 15 | .tb => 15 | .aud _ => 15 | .det => 15 | .mem _ => 16 | .sph => 17
  | .prg => 18 | .pwr => 19 | .mbx => 20 | .trb => 20

/-- The bits of ERR_SUMMARY that a value of a sticky register gives (R458). -/
def Sticky.summaryBits (k : Sticky) (v : W32) : Nat :=
  match k with
  | .eng _ =>
    (if v.toNat % 256 ≠ 0 then 1 else 0) + (if v.toNat / 256 % 256 ≠ 0 then 2 else 0) +
    (if v.toNat / 65536 % 256 ≠ 0 then 4 else 0) + (if v.toNat / 16777216 ≠ 0 then 8 else 0)
  | _ => if v = 0 then 0 else 2 ^ (k.subsystem v - 1)

/-- The die of a sticky register that exists once per cluster or die; the others are die 0's. -/
def Sticky.die : Sticky → Die
  | .eng c => dieOfClus c | .wel c => dieOfClus c | .pmp c => dieOfClus c | .qnt c => dieOfClus c
  | .par d => d | .str d => d | .atn d => d | .intk d => d | .aud d => d | .reco d => d | .cnv d => d | .lpe d => d | .net d => d | .mem d => d
  | .tb => 0 | .det => 0 | .sph => 0 | .prg => 0 | .pwr => 0 | .mbx => 0 | .trb => 0

/-- A die is there (R31). -/
def State.diePresent (s : State) (d : Die) : Bool := d.val == 0 || s.sys.die1

/-- The value of a sticky register. -/
def State.err (s : State) (k : Sticky) : W32 := s.errs[k.idx]

/-- A sticky bit set by hardware, and the mark that this cycle set it (R7); a register of an absent die takes none (R486). -/
def State.flag (s : State) (k : Sticky) (bit : Nat) : State :=
  if s.diePresent k.die then
    { s with
      errs := s.errs.set k.idx (s.errs[k.idx] ||| BitVec.ofNat 32 (2 ^ bit))
      setNow := s.setNow.set k.idx (s.setNow[k.idx] ||| BitVec.ofNat 32 (2 ^ bit)) }
  else s

/-- A sticky bit set when a condition holds. -/
def State.flagIf (s : State) (c : Bool) (k : Sticky) (bit : Nat) : State := if c then s.flag k bit else s

/-- ERR_SUMMARY (R458); the registers of an absent die contribute nothing (R486). -/
def State.summary (s : State) : Nat :=
  Sticky.all.foldl (fun m k => if s.diePresent k.die then m ||| k.summaryBits (s.err k) else m) 0

/-- ALERT_N is asserted: a masked summary bit, or a thermal warning (R439, R458). -/
def State.alert (s : State) : Bool := (s.summary &&& s.trb.alertMask.toNat) ≠ 0 || s.pm.warn

/-! ## Counters -/

/-- A counter block with one entry raised by `k`, saturating at `w` bits. -/
def vbump {n : Nat} (w : Nat) (v : Vector Nat n) (i : Fin n) (k : Nat) : Vector Nat n := vmod v i fun x => satAdd w x k

/-! ## The event log (R460) -/

/-- An event entered in the log; beyond 2,048 entries the oldest goes. -/
def State.log (s : State) (code sub inst : Nat) (args : List Byte) : State :=
  { s with trb := { s.trb with
      log := (⟨s.now, s.trb.logNext, code, sub, inst, args⟩ :: s.trb.log).take 2048
      logNext := (s.trb.logNext + 1) % 2 ^ 32 } }

/-- The 32 bytes of a log entry (R460). -/
def LogEntry.bytes (e : LogEntry) : List Byte :=
  leBytes 8 e.count ++ leBytes 4 e.seq ++ leBytes 2 e.code ++ leBytes 1 e.subsystem ++ leBytes 1 e.inst ++
  bytesAt e.args 0 16

/-- A byte of a number. -/
def nb (x : Nat) : Byte := BitVec.ofNat 8 x

/-! ## Interrupts (R41) -/

/-- Something leaves the module. -/
def State.emit (s : State) (o : Out) : State := { s with out := o :: s.out }

/-- A host's memory accesses reach the module through a port: its link is up, which it never is while its die is absent (R486), and its function is in
D0 (log entry 211). -/
def State.reached (s : State) (p : Port) : Bool := (s.port p).link && !(s.port p).d3hot

/-- The outcome of a host's access through a port: its effect, or nothing where no access can arrive. -/
def State.hostRow (s : State) (p : Port) (body : State) : State := if s.reached p then body else s

/-- An error that AER reports: its bit, and the report (Table MBX-1). -/
def State.aerError (s : State) (p : Port) (e : AerError) : State :=
  (s.setPort p { s.port p with aer := if (s.port p).aer.contains e then (s.port p).aer else e :: (s.port p).aer }).emit (.aer p e)

/-- A vector raised on a port: a message when its table entry is unmasked, a pending bit when it is masked (log entry 4); nothing while
the port has no link or is in D3hot. -/
def State.raise (s : State) (p : Port) (v : Nat) : State :=
  if hv : v < 64 then
    let h := s.port p
    let e := h.msix[v]
    if !s.reached p then s
    else if e.masked then s.setPort p { h with msix := h.msix.set v { e with pending := true } }
    else s.emit (.msix p v e.addr.toNat e.data.toNat)
  else s

/-! ## Units present and fenced -/

/-- A unit of Table TRB-8 is fenced. -/
def State.isFenced (s : State) (kind index : Nat) : Bool := s.trb.fenced.contains ⟨kind, index⟩

/-- A cluster is fenced. -/
def State.clusFenced (s : State) (c : ClusId) : Bool := s.isFenced 0 c.val

/-- A cluster is present and not fenced (MBX_CAP0). -/
def State.clusIn (s : State) (c : ClusId) : Bool := s.diePresent (dieOfClus c) && !s.clusFenced c

/-- A core is fenced for a partition: its cluster is fenced, or the pair's outcome bars it (R180, Table PRG-5). -/
def State.coreFenced (s : State) (p : PartId) (n : CoreId) : Bool :=
  s.clusFenced (clusOfCore n) || (s.pairs[pairOfClus (clusOfCore n)].barred).contains p

/-- MBX_CAP1.cores_present. -/
def State.coresPresent (s : State) : Nat :=
  (allFin 32).foldl (fun m n => if s.clusIn (clusOfCore n) then m + 2 ^ n.val else m) 0

/-- MBX_CAP0.clusters_present. -/
def State.clustersPresent (s : State) : Nat :=
  (allFin 8).foldl (fun m c => if s.clusIn c then m + 2 ^ c.val else m) 0

/-- The checker cluster of a pair. -/
def Pair.checker (x : Pair) (r : PairId) : ClusId := clusOfPair r (if x.mainDie = 0 then 1 else 0)

/-- The main cluster of a pair. -/
def Pair.mainClus (x : Pair) (r : PairId) : ClusId := clusOfPair r x.mainDie

/-- A pair that shows PAIRED or is in the flow that follows a mismatch: its checker belongs to it. -/
def Pair.joined (x : Pair) : Bool := x.state == .paired || x.state == .testing || x.state == .resync || x.state == .leaving

/-- A cluster is the checker of a PAIRED pair (R402). -/
def State.isChecker (s : State) (c : ClusId) : Bool :=
  let r := pairOfClus c
  let x := s.pairs[r]
  x.joined && x.checker r == c

/-- A power domain is on. -/
def State.domainOn (s : State) (pd : PdId) : Bool := s.pdOn.getLsbD pd.val

/-- A partition is open: any state but CLOSED. -/
def Part.isOpen (x : Part) : Bool := x.state != .closed

/-- A core belongs to a partition's set. -/
def Part.hasCore (x : Part) (n : CoreId) : Bool := x.cores.getLsbD n.val

/-- The cores of a partition. -/
def Part.coreList (x : Part) : List CoreId := (allFin 32).filter fun n => x.hasCore n

/-- The open partition that holds a core, SAVED ones counted last (a lent core belongs to its borrower). -/
def State.partOfCore (s : State) (n : CoreId) : Option PartId :=
  match (allFin 16).find? (fun p => s.parts[p].isOpen && s.parts[p].state != .saved && s.parts[p].hasCore n) with
  | some p => some p
  | none => (allFin 16).find? fun p => s.parts[p].isOpen && s.parts[p].hasCore n

/-- A port owns a partition: it is open, not ORPHANED, and the port's (R484). -/
def State.owns (s : State) (p : Port) (q : PartId) : Bool :=
  let x := s.parts[q]
  x.isOpen && x.state != .orphaned && x.owner == p

/-- The die whose front end holds a partition's queues: that of its lowest-numbered core (R168). -/
def Part.die (x : Part) : Die :=
  match x.coreList with
  | n :: _ => dieOfCore n
  | [] => 0

/-! ## The memory map (R27, Table ORG-7) -/

/-- Bytes of main memory mapped before any fence: C of R139. -/
def State.mainCap (s : State) : Nat :=
  let c := if s.sys.eccOn then 224 * 2 ^ 30 else 256 * 2 ^ 30
  if s.sys.die1 then c else c / 2

/-- Packages present: n_pkg of R139. -/
def State.nPkg (s : State) : Nat := if s.sys.die1 then 16 else 8

/-- u_top of R139, in units of 256 bytes. -/
def State.uTop (s : State) : Nat := s.mainCap * (s.nPkg - 1) / s.nPkg / 256

/-- End of mapped main memory: the top region is unmapped while a package is fenced or in transit (R150, R152). -/
def State.mainEnd (s : State) : Nat :=
  match s.fence with
  | some _ => s.uTop * 256
  | none => s.mainCap

/-- Where a module address lies. -/
inductive Loc where
  | main
  | well (n : Fin 32) (off : Nat)
  | pool (c : Fin 8) (off : Nat)
  | cistern (r : Region)
  | window (w : Window)
  | unmapped
  deriving DecidableEq, Repr

/-- Base of the wells. -/
def wellBase : Nat := 0x8000000000
/-- Base of the pools. -/
def poolBase : Nat := 0x8010000000
/-- Bytes of a well (R25). -/
def wellBytes : Nat := 0x600000
/-- Bytes of a pool (R159). -/
def poolBytes : Nat := 0x1000000
/-- Base of the cistern. -/
def cisternBase : Nat := 0xA000000000
/-- Base of the remote windows. -/
def windowBase : Nat := 0xC000000000

/-- Address of byte `off` of core n's well. -/
def wellAddr (n : CoreId) (off : Nat) : Nat := wellBase + n.val * 0x800000 + off

/-- Address of byte `off` of cluster c's pool. -/
def poolAddr (c : ClusId) (off : Nat) : Nat := poolBase + c.val * poolBytes + off

/-- The place of a module address. -/
def State.locOf (s : State) (a : Nat) : Loc :=
  if a < wellBase then (if a < s.mainEnd then .main else .unmapped)
  else if a < poolBase then
    let n : Fin 32 := Fin.ofNat 32 ((a - wellBase) / 0x800000)
    let off := (a - wellBase) % 0x800000
    if off < wellBytes && s.diePresent (dieOfCore n) then .well n off else .unmapped
  else if a < poolBase + 8 * poolBytes then
    let c : Fin 8 := Fin.ofNat 8 ((a - poolBase) / poolBytes)
    if s.diePresent (dieOfClus c) then .pool c ((a - poolBase) % poolBytes) else .unmapped
  else if a < cisternBase then .unmapped
  else if a < windowBase then
    match s.regions.find? fun r => !r.draining && r.loc ≤ a && a < r.loc + r.len with
    | some r => .cistern r
    | none => .unmapped
  else
    match s.windows.find? fun w => !w.draining && w.loc ≤ a && a < w.loc + w.len with
    | some w => .window w
    | none => .unmapped

/-- The state with every region and window that drains still in the map: what operations in flight see (R131, R154). -/
def State.undrained (s : State) : State :=
  { s with
    regions := s.regions.map fun (r : Region) => { r with draining := false }
    windows := s.windows.map fun (w : Window) => { w with draining := false } }

/-- The map as operations in flight see it: a region or window that drains is still there (R131, R154), and so is the top region of main memory until the
operations in flight on it are over (R150). -/
def State.reachMap (s : State) : State :=
  { s.undrained with fence := match s.fence with
      | some f => if f.state == .on then none else some f
      | none => none }

/-- The place of an address as an operation in flight reaches it. -/
def State.reach (s : State) (a : Nat) : Loc := s.reachMap.locOf a

/-- End of the mapped stretch that an address lies in. -/
def State.segEnd (s : State) (a : Nat) : Option Nat :=
  match s.locOf a with
  | .main => some s.mainEnd
  | .well n _ => some (wellAddr n wellBytes)
  | .pool c _ => some (poolAddr c poolBytes)
  | .cistern r => some (r.loc + r.len)
  | .window w => some (w.loc + w.len)
  | .unmapped => none

/-- Every byte of `[a, a + len)` is mapped; `fuel` bounds the stretches looked at. -/
def State.mappedFrom (s : State) : (fuel : Nat) → Nat → Nat → Bool
  | 0, _, len => len == 0
  | fuel + 1, a, len =>
    if len = 0 then true
    else match s.segEnd a with
      | none => false
      | some e => if a + len ≤ e then true else s.mappedFrom fuel e (a + len - e)

/-- Every byte of `[a, a + len)` is mapped. -/
def State.mapped (s : State) (a len : Nat) : Bool := s.mappedFrom 160 a len

/-- The stretches of `[a, a + len)`, each with its place, address and length: 256 bytes at a time where nothing is mapped. `fuel` bounds their number. -/
def State.stretchesFrom (s : State) : (fuel : Nat) → Nat → Nat → List (Loc × Nat × Nat)
  | 0, _, _ => []
  | fuel + 1, a, len =>
    if len = 0 then []
    else
      let k := match s.segEnd a with
        | some e => min len (e - a)
        | none => min len (256 - a % 256)
      (s.locOf a, a, k) :: s.stretchesFrom fuel (a + k) (len - k)

/-- The stretches of `[a, a + len)`. -/
def State.stretches (s : State) (a len : Nat) : List (Loc × Nat × Nat) := s.stretchesFrom (len / 256 + 160) a len

/-- `[a, a + len)` lies wholly in mapped main memory. -/
def State.inMain (s : State) (a len : Nat) : Bool := a < wellBase && a + len ≤ s.mainEnd

/-- The half-well of a well offset (R25). -/
def halfOf (n : CoreId) (off : Nat) : Fin 64 := Fin.ofNat 64 (2 * n.val + off / 0x300000)

/-- The half-well or pool of an address, if it lies in one. -/
def State.partOf (s : State) (a : Nat) : Option WellPart :=
  match s.locOf a with
  | .well n off => some (.half (halfOf n off))
  | .pool c _ => some (.pool c)
  | _ => none

/-- The control block of a half-well or pool. -/
def State.wctl (s : State) : WellPart → WellCtl
  | .half h => s.hw[h]
  | .pool c => s.pools[c]

/-- The state with one control block replaced. -/
def State.setWctl (s : State) (r : WellPart) (x : WellCtl) : State :=
  match r with
  | .half h => { s with hw := s.hw.set h x }
  | .pool c => { s with pools := s.pools.set c x }

/-- First byte and length of a half-well or pool. -/
def partSpan : WellPart → Nat × Nat
  | .half h => (wellAddr (Fin.ofNat 32 (h.val / 2)) (h.val % 2 * 0x300000), 0x300000)
  | .pool c => (poolAddr c 0, poolBytes)

/-- The cluster of a half-well or pool. -/
def partClus : WellPart → ClusId
  | .half h => Fin.ofNat 8 (h.val / 8)
  | .pool c => c

/-- The power domain of a half-well or pool (Table ORG-2). -/
def partPd : WellPart → PdId
  | .half h => Fin.ofNat 128 (32 + h.val)
  | .pool c => Fin.ofNat 128 (96 + c.val)

/-- Every half-well and pool. -/
def allParts : List WellPart := (allFin 64).map .half ++ (allFin 8).map .pool

/-- Two ranges share a byte. -/
def overlap (a la b lb : Nat) : Bool := a < b + lb && b < a + la && 0 < la && 0 < lb

/-- The half-wells and pools that `[a, a + len)` touches. -/
def touched (a len : Nat) : List WellPart :=
  allParts.filter fun r => overlap a len (partSpan r).1 (partSpan r).2

/-- The channel and device block of a main-memory address (R139, R142). -/
def State.chanOf (s : State) (a : Nat) : Nat × Nat :=
  let u0 := a / 256
  let w := 4 * s.nPkg
  let u :=
    match s.fence with
    | some f =>
      let p := f.pkg.val
      if u0 < s.uTop && (u0 % w) / 4 = p then
        let k := (u0 / w) * 4 + u0 % 4
        if k < f.kMoved then
          let r0 := k % (w - 4)
          let r := if r0 ≥ 4 * p then r0 + 4 else r0
          s.uTop + (k / (w - 4)) * w + r
        else u0
      else u0
    | none => u0
  (u % w, (u / w * 256 + a % 256) / 448)

/-- The die whose controllers serve a main-memory address (R17). -/
def State.memDie (s : State) (a : Nat) : Die := Fin.ofNat 2 ((s.chanOf a).1 / 32)

/-- The device block of a main-memory address as one number. -/
def State.blockOf (s : State) (a : Nat) : Nat := (s.chanOf a).1 * 2 ^ 32 + (s.chanOf a).2

/-! ## Sparse bytes -/

/-- Cells of bytes laid from an address up, those equal to 0 left out. -/
def mkCells : Nat → List Byte → List Host.Cell
  | _, [] => []
  | a, b :: bs => if b = 0 then mkCells (a + 1) bs else (a, b) :: mkCells (a + 1) bs

/-- Bytes written into a sparse memory; the form stays canonical. -/
def cellsWrite (m : List Host.Cell) (a : Nat) (bs : List Byte) : List Host.Cell :=
  m.filter (fun c => c.1 < a) ++ mkCells a bs ++ m.filter (fun c => a + bs.length ≤ c.1)

/-- One byte of a sparse memory; an unlisted one is 0. -/
def cellsGet (m : List Host.Cell) (a : Nat) : Byte :=
  match m.find? fun c => c.1 == a with
  | some c => c.2
  | none => 0

/-- `len` bytes of a sparse memory. -/
def cellsRead (m : List Host.Cell) (a len : Nat) : List Byte :=
  let near := m.filter fun c => a ≤ c.1 && c.1 < a + len
  (List.range len).map fun i => cellsGet near (a + i)

/-- The canonical form: addresses strictly rise and no entry is 0. -/
def cellsWf (m : List Host.Cell) : Bool := m.Pairwise (fun x y => x.1 < y.1) && m.all fun c => c.2 != 0

/-- The canonical form of the module's memory. -/
def Memory.wf (s : State) : Bool := cellsWf s.mem

/-! ## Undefined contents -/

/-- The draw that left an address undefined, if it is. -/
def State.undefAt (s : State) (a : Nat) : Option Nat := (s.undef.find? fun u => u.lo ≤ a && a < u.hi).map (·.tag)

/-- A range taken out of the undefined ones. -/
def undefCut (us : List Undef) (a len : Nat) : List Undef :=
  us.flatMap fun u =>
    if overlap u.lo (u.hi - u.lo) a len then
      (if u.lo < a then [{ u with hi := a }] else []) ++ (if a + len < u.hi then [{ u with lo := a + len }] else [])
    else [u]

/-- Size of the poison granule at an address: a 512-byte row, a 64-byte burst, or none. -/
def granule (a : Nat) : Nat := if a < wellBase then 64 else 512

/-- A range left with undefined contents and poison, drawn afresh. -/
def State.undefine (s : State) (a len : Nat) : State :=
  { s with
    undef := ⟨a, a + len, s.fresh⟩ :: undefCut s.undef a len
    poison := s.poison.filter fun b => !(a ≤ b && b + granule b ≤ a + len)
    fresh := s.fresh + 1 }

/-! ## Poison (R114, R143) -/

/-- A number put into a rising list. -/
def insertNat (x : Nat) : List Nat → List Nat
  | [] => [x]
  | y :: ys => if x < y then x :: y :: ys else if x = y then y :: ys else y :: insertNat x ys

/-- The granules that `[a, a + len)` touches. -/
def granulesOf (a len : Nat) : List Nat :=
  let g := granule a
  if len = 0 then [] else (List.range ((a + len - 1) / g - a / g + 1)).map fun i => (a / g + i) * g

/-- Main memory keeps no poison with inline ECC OFF (R147). -/
def State.keepsPoison (s : State) (a : Nat) : Bool := wellBase ≤ a || s.sys.eccOn

/-- The granule with a base is poisoned: marked so, or undefined and so marked by a free bit (R136). -/
def State.granPoison (s : State) (b : Nat) : Bool :=
  s.poison.contains b ||
    (s.keepsPoison b && s.undef.any fun u => overlap u.lo (u.hi - u.lo) b (granule b) && Config.freePoison u.tag b)

/-- The byte at an address is poisoned. -/
def State.poisonAt (s : State) (a : Nat) : Bool := s.granPoison (a / granule a * granule a)

/-- Every granule of a range poisoned, its data left as it is (R11, R134, R164). -/
def State.poisonRange (s : State) (a len : Nat) : State :=
  { s with poison := ((granulesOf a len).filter s.keepsPoison).foldl (fun l b => insertNat b l) s.poison }

/-! ## ECC (R113, R144) -/

/-- A half-well or pool without contents: off, powering up, or UNFILLED (R136, log entry 223). -/
def WState.blank (x : WState) : Bool := x == .off || x == .powering || x == .unfilled

/-- What the ECC finds in the word with number `w` (its address over 8): 0 nothing, 1 a corrected error, 2 an uncorrected one. A part without
contents is not checked; a word that no FILL wrote may report anything (R136). -/
def State.wordErr (s : State) (w : Nat) : Nat :=
  let part := s.partOf (8 * w)
  let unfilled : Bool := match part with
    | some r => (s.wctl r).st.blank
    | none => !s.sys.eccOn
  if unfilled then 0
  else if s.ecc.dbe.contains w then 2
  else if s.ecc.sbe.contains w then 1
  else match part, s.undefAt (8 * w) with
    | some _, some t => Config.freeEcc t w % 3
    | _, _ => 0

/-- The words that `[a, a + len)` touches. -/
def wordsOf (a len : Nat) : List Nat :=
  if len = 0 then [] else (List.range ((a + len - 1) / 8 - a / 8 + 1)).map fun i => a / 8 + i

/-- A main-memory burst is bad on a read: an uncorrected word, or a check burst with a wrong tag or nonzero reserved bits (R144). -/
def State.burstBad (s : State) (b : Nat) : Bool :=
  s.sys.eccOn && ((wordsOf b 64).any (fun w => s.wordErr w == 2) ||
    s.ecc.tag.contains (s.blockOf b) || s.ecc.chk.contains (s.blockOf b))

/-- The words worth looking at for errors in a range: all that can report one. -/
def State.suspects (s : State) (a len : Nat) : List Nat :=
  if s.ecc.dbe.isEmpty && s.ecc.sbe.isEmpty && s.undef.isEmpty then [] else wordsOf a len

/-- The bursts of `[a, a + len)` in main memory whose transfer fails with its retry (R149). -/
def State.linkLost (s : State) (a len : Nat) : List Nat :=
  if wellBase ≤ a || s.ecc.linkFail.isEmpty then [] else (granulesOf a len).filter fun b => s.ecc.linkFail.contains b

/-- What moving the bursts of `[a, a + len)` over the link does (R149): waiting corrections are counted, and on a read waiting failures are counted and
flagged. -/
def State.linkMoves (s : State) (a len : Nat) (read : Bool) : State :=
  if s.ecc.linkOne.isEmpty && s.ecc.linkFail.isEmpty then s
  else
    let ones := (granulesOf a len).filter fun b => s.ecc.linkOne.contains b
    let lost := if read then s.linkLost a len else []
    let s1 := ones.foldl (fun (t : State) b => { t with cnts := { t.cnts with memLink := vbump 16 t.cnts.memLink (s.memDie b) 1 } }) s
    let s2 := lost.foldl (fun (t : State) b =>
      { t with cnts := { t.cnts with memRetry := vbump 4 t.cnts.memRetry (s.memDie b) 1 } }.flag (.mem (s.memDie b)) 1) s1
    { s2 with ecc := { s2.ecc with
        linkOne := s2.ecc.linkOne.filter fun b => !ones.contains b
        linkFail := s2.ecc.linkFail.filter fun b => !lost.contains b } }

/-- `[a, a + len)` touches a part without contents: what is read there is undefined (R136). -/
def State.unfilled (s : State) (a len : Nat) : Bool := wellBase ≤ a && (touched a len).any fun r => (s.wctl r).st.blank

/-- What a read does to the ECC and link counts, flags and poison (R113, R144, R149); an access to an UNFILLED part is flagged, and draws its
undefined data (R136). -/
def State.readEcc (s : State) (a len : Nat) : State :=
  if len = 0 then s
  else if a < wellBase then
    let s0 := s.linkMoves a len true
    if !s.sys.eccOn then s0
    else
      let ones := (s.suspects a len).filter fun w => s.wordErr w == 1
      let s1 := ones.foldl (fun t w => { t with cnts := { t.cnts with memEcc := vbump 20 t.cnts.memEcc (s.memDie (8 * w)) 1 } }) s0
      (granulesOf a len).foldl (fun t b =>
        let t1 := if s.burstBad b then t.flag (.mem (s.memDie b)) 1 else t
        if s.ecc.tag.contains (s.blockOf b) then t1.flag (.mem (s.memDie b)) 2 else t1) s1
  else
    let s0 := (touched a len).foldl (fun t r => t.flagIf ((s.wctl r).st == .unfilled) (.wel (partClus r)) 3) s
    let s1 := (s.suspects a len).foldl (fun (t : State) w =>
      match s.partOf (8 * w), s.wordErr w with
      | some r, 1 => { t with cnts := { t.cnts with welEcc := vbump 24 t.cnts.welEcc (partClus r) 1 } }
      | some r, 2 => { t.flag (.wel (partClus r)) 0 with poison := insertNat (8 * w / 512 * 512) t.poison }
      | _, _ => t) s0
    if s.unfilled a len then { s1 with fresh := s1.fresh + 1 } else s1

/-! ## Reading and writing module memory -/

/-- A byte and whether it is poisoned. -/
abbrev PByte := Byte × Bool

/-- Bytes without poison. -/
def clean (bs : List Byte) : List PByte := bs.map fun b => (b, false)

/-- The byte that a read of an address of main memory, a well or a pool gives: the one stored, or an open one where the contents are undefined (R136,
R152). -/
def State.byteAt (s : State) (a : Nat) : Byte :=
  if s.unfilled a 1 then Config.freeByte s.fresh a
  else match s.undefAt a with
    | some t => Config.freeByte t a
    | none => cellsGet s.mem a

/-- The bytes that a read of `[a, a + len)` of main memory, a well or a pool gives, without any effect of reading them. -/
def State.bytes (s : State) (a len : Nat) : List Byte :=
  if s.undef.isEmpty && !s.unfilled a len then cellsRead s.mem a len else (List.range len).map fun i => s.byteAt (a + i)

/-- Bytes at `a` with the granules of a list poisoned. -/
def markBad (bad : List Nat) (a : Nat) (bs : List Byte) : List PByte :=
  if bad.isEmpty then clean bs
  else (bs.zip (List.range bs.length)).map fun (b, i) => (b, bad.contains ((a + i) / granule a * granule a))

/-- The granules of a range that a reader finds poisoned. -/
def State.badGranules (s : State) (a len : Nat) : List Nat :=
  (granulesOf a len).filter fun b => s.granPoison b || (b < wellBase && s.burstBad b)

/-- The bytes with the poison that a reader sees. -/
def State.peek (s : State) (a len : Nat) : List PByte := markBad (s.badGranules a len) a (s.bytes a len)

/-- A read by a pump, an engine or a unit: the bytes with their poison, and the effects of the read. -/
def State.load (s : State) (a len : Nat) : List PByte × State :=
  let s1 := s.readEcc a len
  (markBad (s1.badGranules a len ++ s.linkLost a len) a (s.bytes a len), s1)

/-- The poison marks after bytes with their poison are written at `a` (R114, R143). -/
def State.poisonAfter (s : State) (a : Nat) (bs : List PByte) : List Nat :=
  let g := granule a
  let len := bs.length
  let keep := s.poison.filter fun b => !(a ≤ b && b + g ≤ a + len && granule b == g)
  let add := (bs.zip (List.range len)).filterMap fun (x, i) => if x.2 then some ((a + i) / g * g) else none
  let held := (granulesOf a len).filter fun b => (b < a || a + len < b + g) && s.granPoison b
  (add ++ held).foldl (fun l b => insertNat b l) keep

/-- The words that a write of `[a, a + len)` covers in part: each is read and merged (R145). -/
def mergeWords (a len : Nat) : List Nat := (wordsOf a len).filter fun w => 8 * w < a || a + len < 8 * w + 8

/-- The poison and check bits of main memory after a write, and the effects of the reads that merge its edges (R143 to R145, R147, R149). -/
def State.writeMain (s : State) (a : Nat) (bs : List PByte) : State :=
  let len := bs.length
  let merged := mergeWords a len
  let s0 := (merged.foldl (fun (t : State) w => t.readEcc (8 * w) 8) s).linkMoves a len false
  if s.sys.eccOn then
    let bad := merged.filter fun w => s.wordErr w == 2 || s.ecc.tag.contains (s.blockOf (8 * w)) || s.ecc.chk.contains (s.blockOf (8 * w)) ||
      !(s.linkLost (8 * w) 8).isEmpty
    let p := bad.foldl (fun l w => insertNat (8 * w / 64 * 64) l) (s.poisonAfter a bs)
    let inside := fun w => a < 8 * w + 8 && 8 * w < a + len
    let blocks := (granulesOf a len).map s.blockOf
    { s0 with
      poison := p
      ecc := { s0.ecc with
        sbe := s0.ecc.sbe.filter fun w => !inside w
        dbe := s0.ecc.dbe.filter fun w => !inside w
        tag := s0.ecc.tag.filter fun b => !(blocks.contains b)
        chk := s0.ecc.chk.filter fun b => !(blocks.contains b) } }
  else if bs.any (·.2) then
    (granulesOf a len).foldl (fun t b =>
      if (bs.zip (List.range len)).any (fun (x, i) => x.2 && (a + i) / 64 * 64 == b) then t.flag (.mem (s.memDie b)) 4 else t) s0
  else s0

/-- The poison and check bits of a well or pool after a write (R114); an access to an UNFILLED part is flagged unless it is a FILL (R136). -/
def State.writeWell (s : State) (a : Nat) (bs : List PByte) (fill : Bool) : State :=
  let len := bs.length
  let inside := fun w => a < 8 * w + 8 && 8 * w < a + len
  let s1 := if fill then s else (touched a len).foldl (fun t r => t.flagIf ((s.wctl r).st == .unfilled) (.wel (partClus r)) 3) s
  { s1 with
    poison := s.poisonAfter a bs
    ecc := { s1.ecc with
      sbe := s1.ecc.sbe.filter fun w => !inside w
      dbe := s1.ecc.dbe.filter fun w => !inside w } }

/-- Messages that may overtake others (R417). -/
def mayOvertake (type : Nat) : Bool := type == 0x18 || type == 0x10 || type == 0x11 || type == 0x1A || type == 0x09

/-- Bytes that a message takes: its header, and its payload padded to a multiple of 32 (R416). -/
def SentMsg.size (m : SentMsg) : Nat := 32 + (m.msg.payload.length + 31) / 32 * 32

/-- The messages not acknowledged that have been sent: those that the 64 KiB of the replay buffer hold, and those that overtake (R416, R417); the
others wait to be sent. -/
def sentPart (l : List SentMsg) : List SentMsg :=
  (l.foldl (fun (x : Nat × List SentMsg) m =>
    let n := x.1 + m.size
    (n, if n ≤ 65536 || mayOvertake m.type then m :: x.2 else x.2)) (0, [])).2.reverse

/-- A message for the Siphon partner, while the link is UP: it is sent when the replay buffer has room for it, and else waits (R416). -/
def State.siphonSend (s : State) (type flags addr window part counter arg : Nat) (payload : List Byte) : State :=
  if s.sph.link = 2 && !s.sph.txDark then
    let m : Msg := {
      flags := BitVec.ofNat 8 flags, length := BitVec.ofNat 16 payload.length, seq := s.sph.txSeq
      addr := BitVec.ofNat 40 addr, window := Fin.ofNat 64 window, partition := Fin.ofNat 16 part
      counter := Fin.ofNat 64 counter, reserved := 0, arg := BitVec.ofNat 64 arg, ackSeq := s.sph.rxSeq
      crcOk := true, payload := payload }
    let held := s.sph.replay.foldl (fun n x => n + x.size) 0
    let x : SentMsg := ⟨type, m, s.now⟩
    { s with
      sph := { s.sph with txSeq := s.sph.txSeq + 1, replay := s.sph.replay ++ [x] }
      out := if held + x.size ≤ 65536 || mayOvertake type then .siphon type m :: s.out else s.out }
  else s

/-- Pieces of at most 4,096 bytes of a string, each with its offset; `fuel` bounds their number. -/
def pieces : (fuel : Nat) → Nat → List PByte → List (Nat × List PByte)
  | 0, _, _ => []
  | fuel + 1, off, bs => if bs.isEmpty then [] else (off, bs.take 4096) :: pieces fuel (off + 4096) (bs.drop 4096)

/-- Pieces of at most 4,096 bytes of a string, each with its offset and each poisoned as a whole or not at all: a message has one poison mark; `fuel` bounds their
number. -/
def evenPieces : (fuel : Nat) → Nat → List PByte → List (Nat × List PByte)
  | 0, _, _ => []
  | _, _, [] => []
  | fuel + 1, off, x :: xs =>
    let k := ((xs.take 4095).takeWhile fun y => y.2 == x.2).length
    (off, x :: xs.take k) :: evenPieces fuel (off + 1 + k) (xs.drop k)

/-- MIRROR messages for a write that lands in an enabled mirrored region (R420). -/
def State.mirrorWrite (s : State) (a : Nat) (bs : List PByte) : State :=
  if s.sph.role = 0 && s.sph.partnerKnown && s.sph.partnerRole = 1 then
    s.mirrors.toList.foldl (fun t m =>
      let base := m.base.toNat
      let len := m.len.toNat * 65536
      if m.enable && (m.state == .syncing || m.state == .synced) && overlap a bs.length base len then
        let lo := max a base
        let hi := min (a + bs.length) (base + len)
        let part := (bs.drop (lo - a)).take (hi - lo)
        (evenPieces part.length 0 part).foldl (fun u (off, ps) =>
          u.siphonSend 0x19 (if ps.any (·.2) then 2 else 0) (lo + off) 0 0 0 u.now (ps.map (·.1))) t
      else t) s
  else s

/-- Bytes written to host memory of a port. -/
def State.hostStore (s : State) (p : Port) (a : Nat) (bs : List Byte) : State :=
  { s with
    hostMem := s.hostMem.set p.idx (cellsWrite s.hostMem[p.idx] a bs)
    out := .hostWrite p a bs :: s.out }

/-- Bytes read from host memory of a port. -/
def State.hostLoad (s : State) (p : Port) (a len : Nat) : List Byte := cellsRead s.hostMem[p.idx] a len

/-- Bytes written to a cistern region at a module address; the module keeps which of its 64-byte granules were written poisoned (log entry 228). -/
def State.cisternStore (s : State) (r : Region) (a : Nat) (bs : List PByte) : State :=
  let bad := ((bs.zip (List.range bs.length)).filterMap fun (x, i) => if x.2 then some ((a + i) / 64 * 64) else none).eraseDups
  let t := s.hostStore r.port (r.host + (a - r.loc)) (bs.map (·.1))
  { t with cisPoison := bad.foldl (fun l b => insertNat b l) (t.cisPoison.filter fun b => !(a ≤ b && b + 64 ≤ a + bs.length)) }

/-- A line of a host's memory in `[a, a + len)` is on a list. -/
def onLines (ls : List Nat) (a len : Nat) : Bool := 0 < len && ls.any fun l => a / 64 ≤ l && l ≤ (a + len - 1) / 64

/-- A read of `[a, a + len)` of a host's memory reaches the completion timeout. -/
def State.hostSilent (s : State) (p : Port) (a len : Nat) : Bool := onLines (s.hostErr[p.idx]).silent a len

/-- The completions of a cistern read at a module address are poisoned or never come. -/
def State.cisternFails (s : State) (r : Region) (a len : Nat) : Bool :=
  onLines ((s.hostErr[r.port.idx]).poison ++ (s.hostErr[r.port.idx]).silent) (r.host + (a - r.loc)) len

/-- A cistern read at a module address: poisoned where its completion is poisoned or never comes, which is flagged (R155), and where the module wrote poison;
`ext` says that the host reports poison with it whatever its memory holds. -/
def State.cisternLoad (s : State) (r : Region) (a len : Nat) (ext : Bool) : List PByte × State :=
  let h := r.host + (a - r.loc)
  let e := s.hostErr[r.port.idx]
  let bad := e.poison ++ e.silent
  let bs := s.hostLoad r.port h len
  let d := dieOfPort r.port
  ((bs.zip (List.range len)).map fun (b, i) => (b, ext || bad.contains ((h + i) / 64) || s.cisPoison.contains ((a + i) / 64 * 64)),
    (s.flagIf (ext || onLines e.poison h len) (.mem d) 8).flagIf (onLines e.silent h len) (.mem d) 7)

/-- The data of a write to main memory, a well or a pool: contents, poison, check bits and mirrors. -/
def State.storeIn (s : State) (a : Nat) (bs : List PByte) (fill : Bool) : State :=
  let s1 := if a < wellBase then s.writeMain a bs else s.writeWell a bs fill
  let s2 := { s1 with mem := cellsWrite s1.mem a (bs.map (·.1)), undef := undefCut s1.undef a bs.length }
  if a < wellBase then s2.mirrorWrite a bs else s2

/-- A write to main memory, a well or a pool. -/
def State.store (s : State) (a : Nat) (bs : List PByte) : State := if bs.isEmpty then s else s.storeIn a bs false

/-- A write of unpoisoned bytes. -/
def State.storeB (s : State) (a : Nat) (bs : List Byte) : State := s.store a (clean bs)

/-! ## What follows every command -/

/-- Event 0x0003 for each sticky register that became nonzero (Table TRB-7). -/
def logSticky (before after : State) : State :=
  Sticky.all.foldl (fun t k =>
    if before.err k = 0 && after.err k != 0 then
      t.log 0x0003 (k.subsystem (after.err k)) k.inst (leBytes 4 k.off ++ leBytes 4 (after.err k).toNat)
    else t) after

/-- Vector 1 on both ports when a summary bit newly set or ALERT_N newly asserted, once in an FCLK cycle (R41, R458). -/
def alertVector (before after : State) : State :=
  let rises := (List.range 20).any (fun i => after.summary.testBit i && !before.summary.testBit i) || (after.alert && !before.alert)
  if rises && !after.v1Raised then { (after.raise .a 1).raise .b 1 with v1Raised := true } else after

/-- What every command does besides its own effect: the log entries and the vector of newly set sticky bits. -/
def settle (before after : State) : State := alertVector before (logSticky before after)

/-- The outcome of a command whose own effect is `after`. -/
def done (before after : State) : Host.Outcome State Fault Refusal := .next (settle before after)

end Sys2Proof.Machine
end

