-- ==== Sys2Proof/Machine/Places.lean ====
section
/-! DEFINITION. Ranges of module addresses read and written by place: main memory, wells and pools with what their power state lets through (R134 to
R136), and cistern regions through their port. -/
namespace Sys2Proof.Machine

/-! ## Bytes with poison -/

/-- Data that a reader's poison marks. -/
def anyPoison (bs : List PByte) : Bool := bs.any (·.2)

/-- The plain bytes. -/
def plain (bs : List PByte) : List Byte := bs.map (·.1)

/-- Bytes all poisoned or all not. -/
def tinted (p : Bool) (bs : List Byte) : List PByte := bs.map fun b => (b, p)

/-- Bytes that are poisoned when a condition holds, and else as they are. -/
def tintIf (c : Bool) (bs : List PByte) : List PByte := if c then bs.map fun x => (x.1, true) else bs

/-- Poisoned zeros: what stands for data that cannot be had. -/
def lostBytes (len : Nat) : List PByte := tinted true (repByte len 0)

/-! ## Writers and the power state of what they reach -/

/-- A half-well or pool that takes no access from outside: closing, off or powering (R135). -/
def WellCtl.shut (x : WellCtl) : Bool := x.st == .closing || x.st == .off || x.st == .powering

/-- A writer with number `who` (a pump operation, or a command when `isCmd`) may write a half-well or pool now: it is ON or UNFILLED, or CLOSING
with this writer counted at closure. -/
def WellCtl.open_ (x : WellCtl) (isCmd : Bool) (who : Nat) : Bool :=
  x.st == .on || x.st == .unfilled || (x.st == .closing && (if isCmd then x.cmds.contains who else x.ops.contains who))

/-- A writer may write every half-well and pool that `[a, a + len)` touches. -/
def State.mayWrite (s : State) (isCmd : Bool) (who a len : Nat) : Bool := (touched a len).all fun r => (s.wctl r).open_ isCmd who

/-- Every half-well and pool that `[a, a + len)` touches takes accesses from outside. -/
def State.takes (s : State) (a len : Nat) : Bool := (touched a len).all fun r => !(s.wctl r).shut

/-- The refused writes of R135 flagged. -/
def State.flagClosed (s : State) (a len : Nat) : State :=
  (touched a len).foldl (fun t r => t.flagIf (s.wctl r).shut (.wel (partClus r)) 1) s

/-! ## Reading -/

/-- One stretch read: a stretch that is not there, or that lies in a remote window, reads as lost. -/
def State.readStretch (s : State) (x : Loc × Nat × Nat) (ext : Bool) : List PByte × State :=
  match x.1 with
  | .main => s.load x.2.1 x.2.2
  | .well _ _ => s.load x.2.1 x.2.2
  | .pool _ _ => s.load x.2.1 x.2.2
  | .cistern r => s.cisternLoad r x.2.1 x.2.2 ext
  | .window _ => (lostBytes x.2.2, s)
  | .unmapped => (lostBytes x.2.2, s)

/-- Stretches read one after another. -/
def State.readStretches (s : State) : List (Loc × Nat × Nat) → Bool → List PByte × State
  | [], _ => ([], s)
  | x :: xs, ext =>
    let (bs, t) := s.readStretch x ext
    let (cs, u) := t.readStretches xs ext
    (bs ++ cs, u)

/-- `[a, a + len)` read by a command in flight, with the effects of the read. -/
def State.readAt (s : State) (a len : Nat) : List PByte × State := s.readStretches (s.reachMap.stretches a len) false

/-- Bytes read by a unit: none where part of the range is not there, or lies in a remote window, which only pumps reach. -/
def State.devLoad (s : State) (a len : Nat) : Option (List PByte) × State :=
  if s.mapped a len && a + len ≤ windowBase then
    let (bs, t) := s.readStretches (s.stretches a len) false
    (some bs, t)
  else (none, s)

/-! ## Writing -/

/-- One stretch written; the range's power state has been looked at. -/
def State.writeStretch (s : State) (x : Loc × Nat × Nat) (bs : List PByte) : State :=
  match x.1 with
  | .main => s.store x.2.1 bs
  | .well _ _ => s.store x.2.1 bs
  | .pool _ _ => s.store x.2.1 bs
  | .cistern r => s.cisternStore r x.2.1 bs
  | .window _ => s
  | .unmapped => s

/-- Stretches written one after another. -/
def State.writeStretches (s : State) : List (Loc × Nat × Nat) → List PByte → State
  | [], _ => s
  | x :: xs, bs => (s.writeStretch x (bs.take x.2.2)).writeStretches xs (bs.drop x.2.2)

/-- Bytes written by a command in flight. -/
def State.writeAt (s : State) (a : Nat) (bs : List PByte) : State := s.writeStretches (s.reachMap.stretches a bs.length) bs

/-- Bytes written by a unit: all of them, or none where a half-well or pool in the way takes no write, which is flagged (R135). -/
def State.devStore (s : State) (a : Nat) (bs : List PByte) : State :=
  if s.takes a bs.length then s.writeStretches (s.stretches a bs.length) bs else s.flagClosed a bs.length

end Sys2Proof.Machine
end

