-- ==== Sys2Proof/Machine/Power.lean ====
section
/-! DEFINITION. Pins and supply (chapter MOD), and the power and thermal manager (chapter PWR): capping, thermal limits, voltage, energy and HINTs. -/
namespace Sys2Proof.Machine

/-! ## Power-up, reset and power-down -/

/-- What no reset or power-off of the module touches: the flash, the hosts' own memory, the queue, the observables and the free draws. -/
def State.outside (s new : State) : State :=
  { new with
    trb := { new.trb with flash := s.trb.flash }
    hostMem := s.hostMem
    hostErr := s.hostErr
    pending := s.pending
    out := s.out
    fresh := s.fresh }

/-- Every converter off: nothing is retained (R440, R470, R480). -/
def State.powerOff (s : State) (lockout : Bool) : State :=
  s.outside { State.reset with
    sys := { State.reset.sys with rails := .off, pwrEn := s.sys.pwrEn, rstN := s.sys.rstN, lockout := lockout }
    ports := (s.ports.set 0 { State.reset.port .a with perst := (s.port .a).perst }).set 1
      { State.reset.port .b with perst := (s.port .b).perst } }

/-- An RST_N low that acts while the module stays powered (R479): everything to its reset value but the energy count, which is never cleared
while powered (R437), and the carrier's pins. -/
def State.coldReset (s : State) : State :=
  s.outside { State.reset with
    sys := { State.reset.sys with pwrEn := s.sys.pwrEn, rstN := false, inputLow := s.sys.inputLow }
    ports := (s.ports.set 0 { State.reset.port .a with perst := (s.port .a).perst }).set 1
      { State.reset.port .b with perst := (s.port .b).perst }
    pm := { State.reset.pm with energy := s.pm.energy, energyFrac := s.pm.energyFrac } }

/-- A ROLE message with the last-gasp bit (R423, Table PRG-7). -/
def State.lastGasp (s : State) : State := s.siphonSend 0x1A 0 0 0 0 0 (s.sph.role.toNat + 256) []

/-- PWR_EN_RISE (R478, R480, R481): `ms` is how long PWR_EN was low. -/
def execPwrEnRise (ms : Nat) (s : State) : Host.Outcome State Fault Refusal :=
  if s.sys.pwrEn then done s s
  else
    let up := { s with sys := { s.sys with pwrEn := true } }
    if s.sys.rails != .off then done s up
    else if 10 ≤ ms then done s { up with sys := { up.sys with rails := .starting, lockout := false } }
    else if s.sys.lockout then done s up
    else done s { up with sys := { up.sys with riseWaits := true } }

/-- PWR_EN_RISE_TAKES_EFFECT (R480): 10 ms after the falling edge, a rise that waited starts the converters. -/
def execPwrEnRiseTakesEffect (s : State) : Host.Outcome State Fault Refusal :=
  if s.sys.riseWaits && s.sys.pwrEn && s.sys.rails == .off then
    done s { s with sys := { s.sys with riseWaits := false, rails := .starting } }
  else done s s

/-- PWR_EN_FALL (R480): a low of 100 µs or longer turns every converter off; a shorter one is filtered. -/
def execPwrEnFall (us : Nat) (s : State) : Host.Outcome State Fault Refusal :=
  if us < 100 then done s s
  else
    let t := s.powerOff s.sys.lockout
    done s { t with sys := { t.sys with pwrEn := false } }

/-- RAILS_IN_REGULATION (R474, R478): the rails are good, FAULT_OUT is low (latched), and the internal reset holds while RST_N is low. -/
def execRailsInRegulation (s : State) : Host.Outcome State Fault Refusal :=
  if s.sys.rails == .starting then done s { s with sys := { s.sys with rails := .on } } else done s s

/-- RST_N_ASSERT (R479): a low of `ns` nanoseconds so far. Below 100 ns it is ignored, from 1 µs it resets the module, between the two it may
do either. -/
def execRstNAssert (ns : Nat) (s : State) : Host.Outcome State Fault Refusal :=
  let acts := 1000 ≤ ns || (100 ≤ ns && Config.freeBool s.fresh)
  let s0 := if 100 ≤ ns && ns < 1000 then { s with fresh := s.fresh + 1 } else s
  if !acts then done s s0
  else if s.sys.rails == .on then done s s0.coldReset
  else done s { s0 with sys := { s0.sys with rstN := false } }

/-- RST_N_RELEASE (R478): die alignment may begin. -/
def execRstNRelease (s : State) : Host.Outcome State Fault Refusal := done s { s with sys := { s.sys with rstN := true } }

/-- UNDERVOLTAGE_LOCKOUT (R470, R471, R481): a last gasp, and then every converter off. -/
def execUndervoltageLockout (s : State) : Host.Outcome State Fault Refusal :=
  if s.sys.rails == .off then done s s else done s (s.lastGasp.powerOff true)

/-- INPUT_RISE_35V (R470, R481): with PWR_EN high the module powers up as at a PWR_EN rise. -/
def execInputRise35V (s : State) : Host.Outcome State Fault Refusal :=
  if s.sys.pwrEn && s.sys.rails == .off then
    done s { s with sys := { s.sys with rails := .starting, lockout := false, riseWaits := false } }
  else done s s

/-- INPUT_LOW (R441): input below 36 V for 100 µs. -/
def execInputLow (s : State) : Host.Outcome State Fault Refusal :=
  if s.sys.rails != .on || s.sys.inputLow then done s s
  else
    let t := (s.flag .pwr 4).log 0x0008 19 0 [2]
    done s { t with sys := { t.sys with inputLow := true } }

/-- INPUT_ABOVE_36V (R441): the heartbeats stop carrying the input-low flag. -/
def execInputAbove36V (s : State) : Host.Outcome State Fault Refusal := done s { s with sys := { s.sys with inputLow := false } }

/-- DIE0_STOP_FAULT (R423): a last gasp, and die 0, which holds the management subsystem and the root PLL, stops until a reset. -/
def execDie0StopFault (s : State) : Host.Outcome State Fault Refusal :=
  if s.sys.rails != .on then done s s
  else
    let t := s.lastGasp
    done s { t with sys := { t.sys with boot := .stopped, clocked := false } }

/-! ## The power and thermal manager -/

/-- The manager runs: powered, and the dividers released. -/
def State.pmRuns (s : State) : Bool := s.sys.rails == .on && s.sys.clocked

/-- The cap of the power mode in 0.01 W (Table PWR-1). -/
def capOf (mode : BitVec 2) : Nat :=
  if mode = 0 then 28000 else if mode = 1 then 22000 else if mode = 2 then 15000 else 9000

/-- Entry of a die's voltage table: the tested one, or 900 mV after a refusal (R434). -/
def State.vEntry (s : State) (d : Die) (i : Nat) : Nat := if s.pm.vFallback[d] then 900 else Config.vTable d.val i

/-- Rate bin of a skip value (Table PWR-2). -/
def rateBin (k : Nat) : Nat := if k ≤ 3 then 0 else if k ≤ 7 then 1 else if k ≤ 11 then 2 else 3

/-- Temperature bin of a hottest Tj in units of 0.0625 °C (Table PWR-2). -/
def tempBin (t : Int) : Nat := if t < 400 then 0 else if t < 960 then 1 else if t < 1360 then 2 else 3

/-- Warning, throttle and shutdown limits of a sensor, in units of 0.0625 °C (Table PWR-3); sensor 23 has no throttle limit. -/
def limitsOf (i : Fin 24) : Int × Option Int × Int :=
  if i.val < 20 then (95 * 16, some (100 * 16), 115 * 16)
  else if i.val < 22 then (110 * 16, some (115 * 16), 125 * 16)
  else if i.val = 22 then (90 * 16, some (95 * 16), 105 * 16)
  else (75 * 16, none, 85 * 16)

/-- What a sensor counts as: its reading, or after a failed read its throttle limit, for sensor 23 its warning limit (R439). -/
def State.tempEff (s : State) (i : Fin 24) : Int :=
  if s.pm.tempFail[i] then
    match (limitsOf i).2.1 with
    | some t => t
    | none => (limitsOf i).1
  else s.pm.temp[i].toInt

/-- The hottest Tj of a die (sensors 0 to 9 or 10 to 19). -/
def State.hottest (s : State) (d : Die) : Int :=
  ((allFin 24).filter fun i => i.val / 10 = d.val && i.val < 20).foldl (fun m i => max m (s.tempEff i)) (-32768)

/-- The clusters of a die. -/
def clustersOf (d : Die) : List ClusId := (allFin 8).filter fun c => dieOfClus c == d

/-- An active HINT names a cluster of the die (R433). -/
def State.hintOnDie (s : State) (d : Die) : Bool :=
  s.pm.hints.any fun h => h.active && (clustersOf d).any fun c => h.clusters.getLsbD c.val

/-- The target voltage of a die for given skip values (R435); an absent die has none (R486). -/
def State.vTarget (s : State) (d : Die) (skip : Vector Nat 8) : Nat :=
  let k := (clustersOf d).foldl (fun m c => min m skip[c]) 12
  if s.diePresent d then min 960 (s.vEntry d (4 * rateBin k + tempBin (s.hottest d)) + 60 + if s.hintOnDie d then 15 else 0) else 0

/-- The target that governs while skip values are on their way: the higher of those for the values in force and for the values to come (R436). -/
def State.vGovern (s : State) (d : Die) (skip : Vector Nat 8) : Nat := max (s.vTarget d skip) (s.vTarget d s.pm.skipGoal)

/-- The skip value that a cluster should have (R432); those of an absent die have none (R486). -/
def State.skipWanted (s : State) : Vector Nat 8 :=
  Vector.ofFn fun (c : ClusId) =>
    let th := if (s.pairs[pairOfClus c]).joined then max s.pm.sTh[(0 : Fin 2)] s.pm.sTh[(1 : Fin 2)] else s.pm.sTh[dieOfClus c]
    if s.diePresent (dieOfClus c) then min 12 (max s.pm.sCap th) else 0

/-- New skip values are wanted: a rail that they or a new temperature bin need raised is raised, and starts to settle; what lowers a rail waits for the
skip values (R436, State.frameStart). -/
def State.applySkip (s : State) : State :=
  let t := { s with pm := { s.pm with skipGoal := s.skipWanted } }
  let v := Vector.ofFn fun (d : Die) => t.vGovern d t.pm.skip
  { t with pm := { t.pm with
      volt := v
      raised := Vector.ofFn fun (d : Die) => if t.pm.volt[d] < v[d] then some t.now else t.pm.raised[d] } }

/-- The cluster is the checker of a joined pair. -/
def State.lags (s : State) (c : ClusId) : Bool :=
  let x := s.pairs[pairOfClus c]
  x.joined && x.checker (pairOfClus c) == c

/-- The other cluster of a pair. -/
def mateOf (c : ClusId) : ClusId := Fin.ofNat 8 (c.val + 4)

/-- The skip value of a cluster from a frame boundary on: the one it should have once the rail has settled, for both clusters of a joined pair at once; the
checker takes each change three frames after the main side (R23, R24, R432, R436). -/
def State.skipAt (s : State) (c : ClusId) : Nat :=
  let stays := (s.pm.raised[dieOfClus c]).isSome || ((s.pairs[pairOfClus c]).joined && (s.pm.raised[dieOfClus (mateOf c)]).isSome)
  if s.lags c then s.pm.skip3[mateOf c] else if stays then s.pm.skip[c] else s.pm.skipGoal[c]

/-- A frame of 16 ACLK cycles begins: skip values take effect, and then the rails fall to what is left to be served (R23, R436). -/
def State.frameStart (s : State) : State :=
  let k := Vector.ofFn s.skipAt
  { s with pm := { s.pm with
      skip := k, skip1 := k, skip2 := s.pm.skip1, skip3 := s.pm.skip2
      volt := Vector.ofFn fun (d : Die) => min s.pm.volt[d] (s.vGovern d k) } }

/-- An ACLK cycle of a frame is suppressed under a skip value (R23). -/
def suppressed (k i : Nat) : Bool := decide (i * k / 16 < (i + 1) * k / 16)

/-- The two ACLK cycles of an FCLK cycle (R22): those that are suppressed are counted for each core that is on, and at the end of a frame the next begins. -/
def State.aclkTick (s : State) : State :=
  let lost := fun (n : CoreId) =>
    let k := s.pm.skip[clusOfCore n]
    if s.domainOn (Fin.ofNat 128 n.val) then (if suppressed k (2 * s.pm.phase) then 1 else 0) + (if suppressed k (2 * s.pm.phase + 1) then 1 else 0) else 0
  let t : State := { s with
    cnts := { s.cnts with stallB := Vector.ofFn fun (n : CoreId) => s.cnts.stallB[n] + lost n }
    pm := { s.pm with phase := (s.pm.phase + 1) % 8 } }
  if t.pm.phase = 0 then t.frameStart else t

/-- Watts announced by active HINTs (R428). -/
def State.hintWatts (s : State) : Nat := (s.pm.hints.filter (·.active)).foldl (fun n h => n + h.watts) 0

/-- A HINT would become active within the next 200 µs (R429): its start less the 200 µs lead lies at most 128,000 counts ahead. -/
def State.hintSoon (s : State) : Bool := s.pm.hints.any fun h => !h.active && h.start ≤ s.now + 256000

/-- What a control step does to the divergence counts (R431). -/
def State.diverge (s : State) (m e : Nat) : State :=
  let cap := capOf s.pm.mode
  let far := cap < 5 * (if m < e then e - m else m - e)
  let pm := { s.pm with overRun := if far then s.pm.overRun + 1 else 0, underRun := if far then 0 else s.pm.underRun + 1 }
  if !pm.diverged && 500 ≤ pm.overRun then
    ({ s with pm := { pm with diverged := true } }.flag .pwr 0).log 0x0008 19 0 [1]
  else if pm.diverged && 10000 ≤ pm.underRun then { s with pm := { pm with diverged := false } }
  else { s with pm := pm }

/-- The sensor part of a control step: the reading taken, or the sensor found invalid (R430). -/
def State.sense (s : State) (measured : Option Nat) (volts est : Nat) : State :=
  match measured with
  | some p =>
    if p ≤ 40000 then
      { s with pm := { s.pm with sensorOk := true, inPower := p, inVolts := volts, est := est } }.diverge p est
    else { s with pm := { s.pm with sensorOk := false, inPower := p, inVolts := volts, est := est } }.flag .pwr 1
  | none => { s with pm := { s.pm with sensorOk := false, est := est } }.flag .pwr 1

/-- The basis B in units of 0.0001 W (R428). -/
def State.basis4 (s : State) : Nat :=
  let b := if s.pm.sensorOk then
      (if s.pm.diverged then max s.pm.inPower s.pm.est else s.pm.inPower) * 100
    else s.pm.est * 115
  b + s.hintWatts * 10000

/-- The capping skip value after a control step (R429). -/
def State.capStep (s : State) : State :=
  let b := s.basis4
  let cap := capOf s.pm.mode * 100
  let s1 := { s with pm := { s.pm with basis := b / 100 } }
  if cap < b then
    if s.pm.sCap = 12 then
      let t := if (s.err .pwr).getLsbD 2 then s1 else s1.log 0x0008 19 0 [3]
      t.flag .pwr 2
    else { s1 with pm := { s1.pm with sCap := s.pm.sCap + 1 } }
  else if b * 20 < cap * 19 && !s.hintSoon then { s1 with pm := { s1.pm with sCap := s.pm.sCap - 1 } }
  else s1

/-- CONTROL_STEP (R428 to R432, R435, R436): powers in units of 0.01 W, voltage in units of 0.01 V; no measured power where the converter reports a fault
or no reading has arrived for 1 ms (R430, log entry 207). -/
def execControlStep (measured : Option Nat) (volts est : Nat) (s : State) : Host.Outcome State Fault Refusal :=
  if !s.pmRuns then done s s else done s ((s.sense measured volts est).capStep).applySkip

/-- A rail that was raised 20 µs (12,800 counts) ago or earlier has settled. -/
def State.settleRail (s : State) (d : Die) : Option Nat := (s.pm.raised[d]).filter fun t => decide (s.now < t + 12800)

/-- VOLTAGE_SETTLED (R436): 20 µs after a raise the skip values that wait for it may take effect, at the next frame. -/
def execVoltageSettled (s : State) : Host.Outcome State Fault Refusal := done s { s with pm := { s.pm with raised := Vector.ofFn s.settleRail } }

/-- A sensor is there: those of die 1 and of its regulator go with it (R438, R486). -/
def State.hasSensor (s : State) (i : Fin 24) : Bool := s.sys.die1 || !((10 ≤ i.val && i.val < 20) || i.val = 21)

/-- The readings of the sensors taken (R438, R439). -/
def State.takeTemps (s : State) (temps : List (Option Int)) : State :=
  let s1 := ((allFin 24).filter s.hasSensor).foldl (fun t i =>
    match temps.getD i.val none with
    | some v => { t with pm := { t.pm with
        temp := t.pm.temp.set i (BitVec.ofInt 16 v), tempOk := t.pm.tempOk.set i true, tempFail := t.pm.tempFail.set i false } }
    | none => { t with pm := { t.pm with tempOk := t.pm.tempOk.set i false, tempFail := t.pm.tempFail.set i true } }.flag .pwr 1) s
  { s1 with pm := { s1.pm with warn := (allFin 24).any fun i => (limitsOf i).1 ≤ s1.tempEff i } }

/-- A sensor was read at or above its shutdown limit (R440). -/
def State.tempShutdown (s : State) (temps : List (Option Int)) : Bool :=
  ((allFin 24).filter s.hasSensor).any fun i => match temps.getD i.val none with
    | some v => decide ((limitsOf i).2.2 ≤ v)
    | none => false

/-- TEMP_SENSOR_READ (R438 to R440): readings in units of 0.0625 °C, none where a sensor failed to read. A shutdown latches FAULT_OUT (the
value it holds unpowered), sends a last gasp and turns every converter off. -/
def execTempSensorRead (temps : List (Option Int)) (s : State) : Host.Outcome State Fault Refusal :=
  if !s.pmRuns then done s s
  else if s.tempShutdown temps then done s ((s.takeTemps temps).lastGasp.powerOff true)
  else done s (s.takeTemps temps)

/-- The throttle group of a die (R439). -/
def throttleGroup (d : Die) : List (Fin 24) :=
  (allFin 24).filter fun i => (i.val < 20 && i.val / 10 = d.val) || i.val = 20 + d.val || i.val = 22

/-- One millisecond of a die's thermal skip value (R439). -/
def State.throttleDie (s : State) (d : Die) : State :=
  let hot := (throttleGroup d).any fun i => match (limitsOf i).2.1 with
    | some t => decide (t ≤ s.tempEff i)
    | none => false
  let cool := (throttleGroup d).all fun i => match (limitsOf i).2.1 with
    | some t => decide (s.tempEff i + 48 ≤ t)
    | none => true
  let old := s.pm.sTh[d]
  let new := if hot then min 12 (old + 1) else if cool then old - 1 else old
  let s1 := { s with pm := { s.pm with
    sTh := s.pm.sTh.set d new
    throttleMs := if 0 < old then satAdd 24 s.pm.throttleMs 1 else s.pm.throttleMs } }
  let s2 := if old = 0 && 0 < new then s1.log 0x0008 19 d.val [0] else s1
  s2.flagIf (0 < old || 0 < new) .pwr 3

/-- THERMAL_THROTTLE_TICK (R439, R432): a millisecond of each die that is there. -/
def execThermalThrottleTick (s : State) : Host.Outcome State Fault Refusal :=
  if !s.pmRuns then done s s
  else
    let t := s.throttleDie 0
    done s (if s.sys.die1 then t.throttleDie 1 else t).applySkip

/-- ENERGY_INTEGRATE (R437): 10 µs of the measured power, or of the estimate × 1.15 while the sensor is invalid, added in µJ. -/
def execEnergyIntegrate (s : State) : Host.Outcome State Fault Refusal :=
  if s.sys.rails != .on then done s s
  else
    let milli := (if s.pm.sensorOk then s.pm.inPower * 100 else s.pm.est * 115) + s.pm.energyFrac
    done s { s with pm := { s.pm with
      energy := s.pm.energy + BitVec.ofNat 64 (milli / 1000), energyFrac := milli % 1000, energyEst := !s.pm.sensorOk } }

/-- ENERGY_LOW_READ (R437): the low word is returned and the high word latched for the reading port. -/
def execEnergyLowRead (p : Port) (s : State) : Host.Outcome State Fault Refusal :=
  let e := s.pm.energy.toNat
  let t := s.setPort p { s.port p with energyHi := BitVec.ofNat 32 (e / 2 ^ 32) }
  done s (s.hostRow p (t.emit (.readData (some p) (leBytes 4 e))))

/-- HINT_ACTIVATE (R433): from 200 µs before its start a held HINT is active; the rails of its dies rise. -/
def execHintActivate (p : PartId) (n : Nat) (s : State) : Host.Outcome State Fault Refusal :=
  let due := fun h : Hint => h.part == p && h.seq.toNat == n && !h.active && h.start ≤ s.now + 128000
  if s.pm.hints.any due then
    done s { s with pm := { s.pm with hints := s.pm.hints.map fun h => if due h then { h with active := true } else h } }.applySkip
  else done s s

/-- HINT_EXPIRE (R433): at start plus duration a HINT stops being active and is no longer held. -/
def execHintExpire (p : PartId) (n : Nat) (s : State) : Host.Outcome State Fault Refusal :=
  let overrun := fun h : Hint => h.part == p && h.seq.toNat == n && h.stop ≤ s.now
  if s.pm.hints.any overrun then
    done s { s with pm := { s.pm with hints := s.pm.hints.filter fun h => !overrun h } }.applySkip
  else done s s

/-- An admitted HINT given to the manager (R433): it is held, or ignored when it says nothing or 16 are held. -/
def State.holdHint (s : State) (h : Hint) : State :=
  if h.watts = 0 || h.stop ≤ h.start then s
  else if s.pm.hints.length < 16 then
    { s with pm := { s.pm with hints := s.pm.hints ++ [{ h with active := h.start ≤ s.now + 128000 }] } }.applySkip
  else
    { s with pm := { s.pm with hintsDropped := satAdd 8 s.pm.hintsDropped 1 } }.flag .pwr 7

end Sys2Proof.Machine
end

