-- ==== Sys2Proof/Machine/FrontEnd.lean ====
section
/-! DEFINITION. The command front end's shared operations (chapter PAR): header fields, rings, the table of fetched commands, ranges and their
overlap, the scoreboard, placement, and how a command ends. -/
namespace Sys2Proof.Machine

/-! ## The common header (Table PAR-4) -/

/-- Fields of the common header. -/
def Cmd.opcode (c : Cmd) : Nat := dfield c.desc 0 8
def Cmd.launchEn (c : Cmd) : Bool := dfield c.desc 8 1 == 1
def Cmd.lateDrop (c : Cmd) : Bool := dfield c.desc 9 1 == 1
def Cmd.ordered (c : Cmd) : Bool := dfield c.desc 10 1 == 1
def Cmd.irqNow (c : Cmd) : Bool := dfield c.desc 11 1 == 1
def Cmd.loadBit (c : Cmd) : Bool := dfield c.desc 12 1 == 1
def Cmd.tag (c : Cmd) : W16 := BitVec.ofNat 16 (dfield c.desc 16 16)
def Cmd.epoch (c : Cmd) : W16 := BitVec.ofNat 16 (dfield c.desc 32 16)
/-- Core that the header names: one of a moved cluster is its counterpart, 16 higher or lower (R410). -/
def Cmd.coreField (c : Cmd) : Nat :=
  let n := dfield c.desc 48 6
  if n < 32 && c.moved.contains (clusOfCore (Fin.ofNat 32 n)) then (n + 16) % 32 else n
def Cmd.resKey (c : Cmd) : W16 := BitVec.ofNat 16 (dfield c.desc 56 16)
def Cmd.f0a (c : Cmd) : Nat := dfield c.desc 72 10
def Cmd.f0b (c : Cmd) : Nat := dfield c.desc 82 10
/-- Number and address of the extra range entries (R172), and those entries among the declared ranges. -/
def Cmd.nranges (c : Cmd) : Nat := dfield c.desc 92 4
def Cmd.rangeList (c : Cmd) : Nat := dfield c.desc 96 40
def Cmd.extras (c : Cmd) : List Rng := c.ranges.drop (c.ranges.length - c.nranges)

/-- A 48-bit counter field as the 64-bit count nearest to the counter (R171). -/
def near48 (now d : Nat) : Nat :=
  let base := now / 2 ^ 48 * 2 ^ 48 + d
  if base + 2 ^ 47 < now then base + 2 ^ 48
  else if now + 2 ^ 47 ≤ base && 2 ^ 48 ≤ base then base - 2 ^ 48
  else base

/-- A command placed by the front end: its core field is 0x3F and its unit is a core's or a cluster's. -/
def Cmd.isPlace (c : Cmd) : Bool := c.coreField == 0x3F

/-- Commands that run on a core's engines (Table PAR-7). -/
def CmdKind.isEngine : CmdKind → Bool
  | .gemm => true | .vop => true | .conv => true | .pool => true | .crop => true | .s2d => true | .d2s => true | .frc => true
  | .adapt => true | .rstep => true | .lstep => true | .feat => true
  | .attnFinish => true | .attnNodes => true | .attnCombine => true
  | .qscan => false | .qconv => false | .pump => false | .fill => false | .copy => false | .hint => false | .wait => false
  | .signalAdd => false | .signalRemote => false | .signalWrite => false | .fence => false | .save => false | .load => false
  | .streamGroup => false | .streamOpen => false | .streamPause => false | .streamResume => false | .streamPark => false
  | .streamReset => false | .streamExport => false | .streamImport => false | .streamClose => false
  | .heap => false | .seqOpen => false | .seqClose => false | .pin => false | .unpin => false | .trim => false
  | .unknown => false

/-- Commands of the quantisation units. -/
def CmdKind.isQuant (k : CmdKind) : Bool := k == .qscan || k == .qconv

/-- Commands of the pumps. -/
def CmdKind.isPump (k : CmdKind) : Bool := k == .pump || k == .fill || k == .copy

/-- Stream control commands (R255). -/
def CmdKind.isStreamCtl (k : CmdKind) : Bool :=
  k == .streamGroup || k == .streamOpen || k == .streamPause || k == .streamResume || k == .streamPark || k == .streamReset ||
  k == .streamExport || k == .streamImport || k == .streamClose

/-- Attention control commands (R286). -/
def CmdKind.isAttnCtl (k : CmdKind) : Bool :=
  k == .heap || k == .seqOpen || k == .seqClose || k == .pin || k == .unpin || k == .trim

/-- Steps of recurrent streams. -/
def CmdKind.isStreamStep (k : CmdKind) : Bool := k == .rstep || k == .lstep || k == .feat

/-- Attention steps. -/
def CmdKind.isAttnStep (k : CmdKind) : Bool := k == .attnFinish || k == .attnNodes || k == .attnCombine

/-- Commands of the front end itself (Unit 0x3F of Table PAR-7). -/
def CmdKind.isService (k : CmdKind) : Bool :=
  k == .hint || k == .wait || k == .signalAdd || k == .signalRemote || k == .signalWrite || k == .fence || k == .save || k == .load

/-- A command that has issued and is not complete. -/
def Cmd.inFlight (c : Cmd) : Bool := c.life == .issued || c.life == .started || c.life == .ran

/-- The core a command runs on, for its record (0x3F when none). -/
def Cmd.coreNum (c : Cmd) : Nat :=
  match c.place with
  | .core n => n.val
  | .corePump n => n.val
  | .quant n => n.val
  | .clusPump n => n.val
  | .fle _ => 0x3F
  | .none => 0x3F

/-! ## The table of fetched commands -/

/-- The command of a queue with a sequence number. -/
def State.findCmd (s : State) (p : PartId) (q : QueId) (n : Nat) : Option Cmd :=
  s.cmds.find? fun c => c.part == p && c.que == q && c.seq.toNat == n

/-- The state with one command replaced. -/
def State.putCmd (s : State) (c : Cmd) : State :=
  { s with cmds := s.cmds.map fun x => if x.adm == c.adm then c else x }

/-- The state with a command removed. -/
def State.dropCmd (s : State) (c : Cmd) : State := { s with cmds := s.cmds.filter fun x => x.adm != c.adm }

/-- Commands of the same queue admitted earlier and not complete; one that a SAVE has stopped counts as complete until it continues. -/
def State.earlier (s : State) (c : Cmd) : List Cmd :=
  s.cmds.filter fun x => x.part == c.part && x.que == c.que && x.adm < c.adm && x.life != .suspended && x.life != .ended

/-- The partition's queue. -/
def State.queue (s : State) (p : PartId) (q : QueId) : Queue := s.parts[p].queues[q]

/-- The state with one queue replaced. -/
def State.setQueue (s : State) (p : PartId) (q : QueId) (x : Queue) : State :=
  s.setPart p { s.parts[p] with queues := s.parts[p].queues.set q x }

/-! ## Rings -/

/-- Bytes read from a ring (R166), with the effects of the read: main memory, or host memory through the owner's port. -/
def State.ringRead (s : State) (p : PartId) (r : Ring) (off len : Nat) : List PByte × State :=
  if r.host then (clean (s.hostLoad s.parts[p].owner (r.base + off) len), s) else s.load (r.base + off) len

/-- Bytes written to a ring. -/
def State.ringWrite (s : State) (p : PartId) (r : Ring) (off : Nat) (bs : List Byte) : State :=
  if r.host then s.hostStore s.parts[p].owner (r.base + off) bs else s.storeB (r.base + off) bs

/-! ## Ranges -/

/-- Two ranges touch a common 64-byte granule (R123). -/
def granOverlap (x y : Rng) : Bool :=
  0 < x.len && 0 < y.len && x.lo / 64 ≤ (y.lo + y.len - 1) / 64 && y.lo / 64 ≤ (x.lo + x.len - 1) / 64

/-- Two ranges conflict: they touch a common granule and one of them is a write. -/
def Rng.conflicts (x y : Rng) : Bool := (x.wr || y.wr) && granOverlap x y

/-- An address lies in the well range. -/
def inWells (a : Nat) : Bool := wellBase ≤ a && a < poolBase

/-- A well address with its core replaced: bits [27:23] (R179). -/
def onCore (n : CoreId) (a : Nat) : Nat := if inWells a then wellAddr n ((a - wellBase) % 0x800000) else a

/-- A range with its well named for a core. -/
def Rng.onCore (n : CoreId) (r : Rng) : Rng := { r with lo := Machine.onCore n r.lo }

/-- A command's ranges as queue order sees them: those of an unplaced PLACE command as if every core were core 0 (R179). -/
def rangesCanon (canon : Bool) (rs : List Rng) : List Rng := if canon then rs.map (Rng.onCore 0) else rs

/-- A command that the front end has still to place. -/
def Cmd.unplaced (c : Cmd) : Bool := c.isPlace && c.place == .none && !c.kind.isService && !c.kind.isStreamCtl && !c.kind.isAttnCtl

/-- Two commands conflict in queue order (R175, item 2). -/
def Cmd.conflicts (x y : Cmd) : Bool :=
  let canon := x.unplaced || y.unplaced
  (rangesCanon canon x.ranges).any fun r => (rangesCanon canon y.ranges).any fun t => r.conflicts t

/-- The write ranges of a command. -/
def Cmd.writes (c : Cmd) : List Rng := c.ranges.filter (·.wr)

/-- A GEMM or CONV with accumulate set. -/
def Cmd.accumulates (c : Cmd) : Bool :=
  (c.kind == .gemm && ofield c.desc 212 1 == 1) || (c.kind == .conv && ofield c.desc 200 1 == 1)

/-- A range, as queue order sees it, is that of the output tensor of an accumulating command: the last one declared by its operands, for an FP32 output is
plain. -/
def Cmd.outputs (c : Cmd) (canon : Bool) (r : Rng) : Bool :=
  (rangesCanon canon ((c.ranges.take (c.ranges.length - c.nranges)).drop (c.ranges.length - c.nranges - 1))).any fun w => w.lo == r.lo && w.len == r.len

/-- Two accumulating commands of one queue of a RELAXED partition that queue order does not hold against each other: their only overlapping
ranges are those of one output tensor (R307). -/
def Cmd.anyOrder (x y : Cmd) : Bool :=
  let canon := x.unplaced || y.unplaced
  x.relaxed && y.relaxed && x.part == y.part && x.que == y.que && x.accumulates && y.accumulates &&
  (rangesCanon canon x.ranges).all fun r => (rangesCanon canon y.ranges).all fun t =>
    !r.conflicts t || (x.outputs canon r && y.outputs canon t && r.lo == t.lo && r.len == t.len)

/-- Queue order holds one command against another (R175 item 2, R307). -/
def Cmd.ordersWith (x y : Cmd) : Bool := x.conflicts y && !x.anyOrder y

/-- A well address that names a core of a moved cluster names the core 16 higher or lower (R410). -/
def movedAddr (moved : List ClusId) (a : Nat) : Nat :=
  if inWells a then
    let n : CoreId := Fin.ofNat 32 ((a - wellBase) / 0x800000)
    if moved.contains (clusOfCore n) then onCore (Fin.ofNat 32 (n.val + 16)) a else a
  else a

/-- An address of the operand area as the command uses it: the executing core's well for a placed command (R179, R410). -/
def Cmd.at_ (c : Cmd) (a0 : Nat) : Nat :=
  let a := movedAddr c.moved a0
  if c.isPlace then
    match c.place with
    | .core n => onCore n a
    | .corePump n => onCore n a
    | .none => a
    | .quant n => onCore n a
    | .clusPump _ => a
    | .fle _ => a
  else a

/-- The write ranges of a command poisoned (R11). -/
def State.poisonWrites (s : State) (rs : List Rng) : State :=
  (rs.filter (·.wr)).foldl (fun t r =>
    if r.lo < poolBase + 8 * poolBytes && t.mapped r.lo r.len then t.poisonRange r.lo r.len else t) s

/-! ## Signal counters (R182) -/

/-- A value added to a signal counter of a partition. -/
def State.addSig (s : State) (p : PartId) (k : Nat) (v : W32) : State :=
  if h : k < 64 then
    let x := s.parts[p]
    s.setPart p { x with sigs := x.sigs.set k (x.sigs[k] + v) }
  else s

/-- A counted choice added to PAR_NDC of its partition (R193, R308). -/
def State.countNdc (s : State) (p : PartId) : State := s.setPart p { s.parts[p] with ndc := BitVec.ofNat 32 (satAdd 32 s.parts[p].ndc.toNat 1) }

/-! ## Units -/

/-- Every address of a range lies in wells and pools of the die. -/
def Rng.onDie (d : Die) (r : Rng) : Bool :=
  if inWells r.lo then dieOfCore (Fin.ofNat 32 ((r.lo - wellBase) / 0x800000)) == d
  else if poolBase ≤ r.lo && r.lo < poolBase + 8 * poolBytes then
    dieOfClus (Fin.ofNat 8 ((r.lo - poolBase) / poolBytes)) == d && dieOfClus (Fin.ofNat 8 ((r.lo + r.len - 1 - poolBase) / poolBytes)) == d
  else false

/-- An operation must be registered on both dies: a range of it leaves the wells and pools of its own die (R125). -/
def needsFar (d : Die) (rs : List Rng) : Bool := rs.any fun r => !r.onDie d

/-- The die of the unit a command runs on. -/
def Place.die : Place → Option Die
  | .core n => some (dieOfCore n)
  | .corePump n => some (dieOfCore n)
  | .quant n => some (dieOfCore n)
  | .clusPump n => some (dieOfCore n)
  | .fle d => some d
  | .none => Option.none

/-- The core whose engine entry a command holds. -/
def Cmd.engineCore (c : Cmd) : Option CoreId :=
  match c.place with
  | .core n => if c.kind.isEngine || c.kind.isQuant then some n else none
  | .quant n => some n
  | .corePump _ => none
  | .clusPump _ => none
  | .fle _ => none
  | .none => none

/-- A FILL or COPY that holds its one scoreboard entry: from its issue until its last byte has landed (R116). -/
def Cmd.holdsEntry (c : Cmd) : Bool := (c.kind == .fill || c.kind == .copy) && (c.life == .issued || c.life == .started)

/-- Scoreboard entries that a core holds: those of the operations and of the FILLs and COPYs on its behalf (R116, R120). -/
def State.entriesOf (s : State) (n : CoreId) : Nat :=
  (s.ops.filter fun o => o.core == n).length +
  (s.cmds.filter fun c => c.holdsEntry && (c.place == .corePump n || c.place == .clusPump n)).length

/-- The lowest-numbered core of a partition: intake and the first/last-layer engines move data on its behalf (R239, R328). -/
def State.lowCore (s : State) (p : PartId) : CoreId := (s.parts[p].coreList.head?).getD 0

/-- The most entries that a core may hold. -/
def entryLimit : Nat := 512

/-- PMP_OUT.high_water of a core raised to the entries it now holds (Table WEL-15). -/
def State.raiseHigh (s : State) (n : CoreId) : State :=
  { s with cnts := { s.cnts with highWater := vmod s.cnts.highWater n fun h => max h (s.entriesOf n) } }

/-- Engine entries that a core holds (Table WEL-15). -/
def State.engineEntries (s : State) (n : CoreId) : Nat := (s.cmds.filter fun c => c.inFlight && c.engineCore == some n).length

/-! ## Placement (R179, R180) -/

/-- Two places name the same unit: a quantisation unit or a cluster pump serves the whole cluster. -/
def sameUnit (x y : Place) : Bool :=
  match x, y with
  | .quant m, .quant n => clusOfCore m == clusOfCore n
  | .clusPump m, .clusPump n => clusOfCore m == clusOfCore n
  | a, b => a == b

/-- Commands issued and incomplete on a unit. -/
def State.loadOf (s : State) (u : Place) : Nat := (s.cmds.filter fun c => c.inFlight && sameUnit c.place u).length

/-- The unit that a command of a kind uses on a core. -/
def unitOn (k : CmdKind) (n : CoreId) : Place :=
  if k.isQuant then .quant n else if k.isPump then .corePump n else .core n

/-- The core that holds a key for a partition. -/
def State.keyHolder (s : State) (p : PartId) (key : W16) : Option CoreId :=
  (s.keys.find? fun k => k.part == p && k.key == key).map (·.core)

/-- The core of a list with the fewest commands on its unit, the lowest number first. -/
def State.leastLoaded (s : State) (u : CoreId → Place) : List CoreId → Option CoreId
  | [] => none
  | n :: ns =>
    match s.leastLoaded u ns with
    | none => some n
    | some m => if s.loadOf (u m) < s.loadOf (u n) then some m else some n

/-- Where a PLACE command goes, of the units that its kind uses on each core: a core, or the status with which it ends unexecuted and whether its key was lost (R180). -/
def State.placeOf (s : State) (c : Cmd) (u : CoreId → Place) : Except (St × Bool) CoreId :=
  let free := s.parts[c.part].coreList.filter fun n => !s.coreFenced c.part n
  let least : Except (St × Bool) CoreId :=
    match s.leastLoaded u free with
    | some n => .ok n
    | none => .error (.fenced, false)
  if c.resKey = 0 then least
  else match s.keyHolder c.part c.resKey with
    | some n =>
      if !s.coreFenced c.part n && s.parts[c.part].hasCore n then .ok n
      else if c.loadBit then least
      else .error (.fenced, true)
    | none =>
      if c.loadBit then least
      else match s.parts[c.part].lostKeys.find? fun k => k.1 == c.resKey with
        | some k => .error (if s.coreFenced c.part k.2 then .fenced else .notReady, true)
        | none => .error (.notReady, true)

/-- The key of a starting command comes to its core; the oldest of 64 is dropped (R180). -/
def State.takeKey (s : State) (p : PartId) (key : W16) (n : CoreId) : State :=
  if key = 0 then s
  else
    let rest := s.keys.filter fun k => !(k.part == p && k.key == key)
    let onN := rest.filter fun k => k.core == n
    let rest' := if 64 ≤ onN.length then
        match onN with
        | o :: _ => rest.filter fun k => k != o
        | [] => rest
      else rest
    { s with keys := rest' ++ [⟨p, key, n⟩] }

/-! ## What a partition may name (R117, R127, R154, R173) -/

/-- Bit of a pool unit of 1 MiB in a partition's grants (R159). -/
def Part.hasUnit (x : Part) (c : ClusId) (u : Nat) : Bool := (x.grants[c]).getLsbD u

/-- A partition may use `[a, a + len)`: every byte is mapped, its wells are those of its cores, its pool units are granted to it, its cistern
regions and remote windows are its own and open to the access. -/
def State.mayNameFrom (s : State) (p : PartId) (wr : Bool) : (fuel : Nat) → Nat → Nat → Bool
  | 0, _, len => len == 0
  | fuel + 1, a, len =>
    if len = 0 then true
    else
      let x := s.parts[p]
      match s.locOf a with
      | .main => if a + len ≤ s.mainEnd then true else s.mayNameFrom p wr fuel s.mainEnd (a + len - s.mainEnd)
      | .well n off => x.hasCore n && off + len ≤ wellBytes
      | .pool c off =>
        let e := min (off + len) poolBytes
        ((List.range ((e - 1) / 0x100000 - off / 0x100000 + 1)).all fun i => x.hasUnit c (off / 0x100000 + i)) &&
          s.mayNameFrom p wr fuel (poolAddr c poolBytes) (off + len - e)
      | .cistern r =>
        let own := match r.part with
          | some q => q == p
          | none => x.owner == r.port
        let e := r.loc + r.len
        own && (if wr then r.wr else r.rd) && (a + len ≤ e || s.mayNameFrom p wr fuel e (a + len - e))
      | .window w =>
        let e := w.loc + w.len
        w.part == p && (if wr then w.wr else w.rd) && (a + len ≤ e || s.mayNameFrom p wr fuel e (a + len - e))
      | .unmapped => false

/-- A partition may use `[a, a + len)`. -/
def State.mayName (s : State) (p : PartId) (a len : Nat) (wr : Bool) : Bool := s.mayNameFrom p wr 160 a len

/-- What admission finds in a command's operand area: the byte offsets of failing fields, the declared ranges, the blocks it copies, and
numbers it fixes. -/
structure Admit where
  bad : List Nat := []
  ranges : List Rng := []
  copies : List (Nat × List Byte) := []
  notes : List Nat := []

/-- A failing field when a condition holds. -/
def badIf (c : Bool) (off : Nat) : List Nat := if c then [off] else []

/-! ## How a command ends -/

/-- The record of a command that ends with a status (R185). -/
def State.recordOf (s : State) (c : Cmd) (st : St) : Record :=
  let issued := c.life != .waiting
  { seq := c.seq, launchLate := c.launchLate, resumed := c.resumed, placed := c.placed
    opcode := BitVec.ofNat 8 c.opcode, status := st, tag := c.tag
    epoch := if issued then c.epochAt else c.epoch
    ndc := min c.ndc 0xFFFF, core := c.coreNum, badField := if st == .badCommand then c.badField else 0
    stamp := s.now, start := c.start, irqNow := c.irqNow, owned := c.writes }

/-- A queue has room for one more waiting record (R169). -/
def Queue.hasRoom (x : Queue) : Bool := x.waiting.length < 64

/-- A record put with those that wait to be written; the 64th stops the queue's issue, which is flagged (R166, R169). -/
def State.queueRecord (s : State) (p : PartId) (q : QueId) (r : Record) : State :=
  let x := s.queue p q
  (s.setQueue p q { x with waiting := x.waiting ++ [r] }).flagIf (64 ≤ x.waiting.length + 1) (.par s.parts[p].die) 4

/-- The record that a command of the list has waited longest to put with those of its queue. -/
def firstRecord (cs : List Cmd) : Option (Cmd × Record) :=
  cs.foldl (fun best c =>
    match c.records, best with
    | r :: _, none => some (c, r)
    | r :: _, some b => if r.stamp < b.2.stamp then some (c, r) else best
    | [], _ => best) none

/-- Room for a record has come in a queue: the record that has waited longest takes it; a command that has ended leaves the table with its last
(R169). -/
def State.promote (s : State) (p : PartId) (q : QueId) : State :=
  match firstRecord (s.cmds.filter fun c => c.part == p && c.que == q) with
  | some (c, r) =>
    let t := s.queueRecord p q r
    let c1 := { c with records := c.records.drop 1 }
    if c1.life == .ended && c1.records.isEmpty then t.dropCmd c else t.putCmd c1
  | none => s

/-- What the front end counts and flags for a condition (R9, R173, R177, R191, Table PAR-12). -/
def State.countStatus (s : State) (p : PartId) (st : St) : State :=
  let x := s.parts[p]
  let d := x.die
  match st with
  | .late => s.setPart p { x with late := BitVec.ofNat 16 (satAdd 16 x.late.toNat 1) }
  | .missed => (s.setPart p { x with missed := BitVec.ofNat 16 (satAdd 16 x.missed.toNat 1) }).flag (.par d) 2
  | .staleEpoch => (s.setPart p { x with staleCmds := BitVec.ofNat 16 (satAdd 16 x.staleCmds.toNat 1) }).flag (.par d) 1
  | .badCommand => s.flag (.par d) 0
  | .preempted => s.setPart p { x with interrupted := BitVec.ofNat 16 (satAdd 16 x.interrupted.toNat 1) }
  | _ => s

/-- Completions counted at the unit that a command had issued to (Tables ENG-11 and CNV-9). -/
def State.countDone (s : State) (c : Cmd) : State :=
  match c.place with
  | .core n =>
    if c.life == .ran && c.kind.isEngine then
      { s with cnts := { s.cnts with completed := vmod s.cnts.completed n fun k => (k + 1) % 2 ^ 24 } } else s
  | .fle d => if c.life == .waiting then s else { s with cnts := { s.cnts with fleDone := vmod s.cnts.fleDone d (· + 1) } }
  | .quant _ => s
  | .corePump _ => s
  | .clusPump _ => s
  | .none => s

/-- A command completes with the one status of the conditions that apply, those of its rows or entries among them; each of its own is counted and flagged,
whichever the record carries (R9, R185). The record waits to be written, and the command leaves the table; where its queue has no room for one more waiting
record, the command stays in the table with it (R169). -/
def State.complete (s : State) (c : Cmd) (conds rows : List St) : State :=
  let r := s.recordOf c (St.choose (conds ++ rows))
  let s1 := (conds.eraseDups.foldl (fun (t : State) st => t.countStatus c.part st) s).countDone c
  if (s.queue c.part c.que).hasRoom then (s1.queueRecord c.part c.que r).dropCmd c
  else s1.putCmd { c with life := .ended, records := c.records ++ [r] }

/-- A condition met by a command (R9). -/
def Cmd.cond (c : Cmd) (st : St) : Cmd := if st == .ok then c else { c with conds := c.conds ++ [st] }

/-- The operation removed from the scoreboard; its ranges are released at the partner. -/
def State.endOp (s : State) (o : PumpOp) : State :=
  o.regs.foldl (fun (t : State) x => t.siphonSend 0x06 0 0 x.2 0 0 x.1.toNat []) { s with ops := s.ops.filter fun x => x.id != o.id }

/-- The slots of a stream step's group, as the step declares them (R260). -/
def State.slotArea (s : State) (c : Cmd) : Option Rng :=
  if c.kind.isStreamStep then
    (s.groups.find? fun g => g.num == ofield c.desc 4 12).map fun g => ⟨movedAddr c.moved (wellAddr g.core g.slotBase), g.nslots * 64 * g.slotUnits, true⟩
  else none

/-- The write ranges of a command that ends early, without the slots of a stream step's group: each record there stays whole (R253, R262). -/
def State.lostWrites (s : State) (c : Cmd) : List Rng := c.ranges.filter fun r => some r != s.slotArea c

/-- A command ended where it stands with a status: its pump operations are dropped, its declared write ranges poisoned when it had issued (R164). -/
def State.abandon (s : State) (c : Cmd) (st : St) : State :=
  if c.life == .ended then s
  else
    let s1 := (s.ops.filter fun o => o.owner == OpOwner.cmd c.adm).foldl (fun (t : State) o => t.endOp o) s
    let s2 := if c.life == .waiting then s1 else s1.poisonWrites (s1.lostWrites c)
    s2.complete c (c.conds ++ [st]) []

/-- A partition owns a byte of a range: a command of it, or a record of it that waits to be written, declares a write there (R187). -/
def State.ownsByte (s : State) (p : PartId) (a len : Nat) : Bool :=
  (s.cmds.any fun c => c.part == p && c.writes.any fun r => overlap r.lo r.len a len) ||
  s.parts[p].queues.toList.any fun q => q.waiting.any fun r => r.owned.any fun t => overlap t.lo t.len a len

/-- The dies that hold the queues owning a byte of a range. -/
def State.ownerDies (s : State) (a len : Nat) : List Die :=
  (allFin 2).filter fun d => (allFin 16).any fun p => s.parts[p].die == d && s.ownsByte p a len

/-- A cluster whose units stand still: halted by a debug action, or of a pair on its way into PAIRED or in the flow after a mismatch (R406, R409,
R414). -/
def State.clusPaused (s : State) (c : ClusId) : Bool :=
  let x := s.pairs[pairOfClus c]
  s.halted[c] || x.state == .testing || x.state == .resync || (x.state == .entering && x.mainClus (pairOfClus c) == c)

/-- A unit that stands still. -/
def State.paused (s : State) : Place → Bool
  | .core n => s.clusPaused (clusOfCore n)
  | .quant n => s.clusPaused (clusOfCore n)
  | .corePump n => s.clusPaused (clusOfCore n)
  | .clusPump n => s.clusPaused (clusOfCore n)
  | .fle _ => false
  | .none => false

/-- The engines of a core that a command uses: matrix, infuser, vector (Table ENG-1). -/
def Cmd.engines (c : Cmd) : Bool × Bool × Bool :=
  if c.kind == .gemm || c.kind == .conv then (true, true, false)
  else if c.kind.isAttnStep then (true, true, true)
  else if c.kind == .rstep then (if c.classB then (true, false, true) else (true, true, false))
  else if c.kind == .feat || c.kind == .adapt then (true, false, true)
  else (false, false, true)

/-- Two commands of a core share an engine. -/
def Cmd.share (x y : Cmd) : Bool :=
  (x.engines.1 && y.engines.1) || (x.engines.2.1 && y.engines.2.1) || (x.engines.2.2 && y.engines.2.2)

/-- An issued command of the same unit that goes before another (R194, R239, R307): it issued earlier, and it is incomplete and they conflict, or it has
still to run and shares an engine of the core or the unit. A waiting accumulating command lets another one of its output pass. -/
def Cmd.before (x c : Cmd) : Bool :=
  x.inFlight && x.place != .none && sameUnit x.place c.place && x.iss < c.iss &&
  (x.ordersWith c ||
    (x.life != .ran && !(x.life == .issued && x.anyOrder c && x.conflicts c) &&
      match c.place with
      | .core _ => x.share c
      | .quant _ => true
      | .fle _ => true
      | .corePump _ => false
      | .clusPump _ => false
      | .none => false))

/-- The scalar core of the core that a command runs on is stopped by a microcode-store fault (R217). -/
def State.coreStopped (s : State) : Place → Bool
  | .core n => s.scHalt[n]
  | .quant _ => false
  | .corePump _ => false
  | .clusPump _ => false
  | .fle _ => false
  | .none => false

/-- What an issued command needs to run now (R175, R178, R194, R217): nothing stops it, its launch count has come, and no command of its unit goes before
it. -/
def State.mayRun (s : State) (c : Cmd) : Bool :=
  (c.life == .issued || c.life == .started) && c.stop.isNone && !s.paused c.place && !s.coreStopped c.place &&
  (match c.launch with
    | some t => t ≤ s.now
    | none => true) &&
  !(s.cmds.any fun x => x.before c)

/-- The launch count of a command has passed (R178). -/
def State.launchPassed (s : State) (c : Cmd) : Bool :=
  match c.launch with
  | some t => decide (t < s.now)
  | none => false

/-- A command starts (R178): its start count, whether it is late for its launch, whether it overtakes an accumulating command of its
queue, which is a counted choice (R307), and its key comes to its core (R180). -/
def State.startCmd (s : State) (c : Cmd) : State × Cmd :=
  if c.life == .issued then
    let late := s.launchPassed c
    let overtakes := s.cmds.any fun x => (x.life == .waiting || x.life == .issued) && x.adm < c.adm && x.anyOrder c && x.conflicts c
    let c1 := { c with life := .started, start := s.now, launchLate := late, ndc := if overtakes then c.ndc + 1 else c.ndc }
    let s0 := if overtakes then s.countNdc c.part else s
    let s1 := match c.place with
      | .core n => s0.takeKey c.part c.resKey n
      | .corePump n => s0.takeKey c.part c.resKey n
      | .quant n => s0.takeKey c.part c.resKey n
      | .clusPump n => s0.takeKey c.part c.resKey n
      | _ => s0
    (s1.putCmd c1, c1)
  else (s, c)

/-- A command's effect is done: it keeps the conditions met and waits for its completion. -/
def State.ranCmd (s : State) (c : Cmd) (conds : List St) : State :=
  s.putCmd { c with life := .ran, conds := c.conds ++ conds.filter (· != .ok) }

/-- A row of a command of a kind: nothing unless that command is in the table and may run; then it starts, and `body` gives the state and the
conditions it met. -/
def State.runCmd (s : State) (p : PartId) (q : QueId) (n : Nat) (k : CmdKind) (body : Cmd → State → State × List St) : State :=
  match s.findCmd p q n with
  | some c =>
    if c.kind == k && s.mayRun c then
      let (s1, c1) := s.startCmd c
      let (s2, conds) := body c1 s1
      s2.ranCmd c1 conds
    else s
  | none => s

end Sys2Proof.Machine
end

