-- ==== Sys2Proof/Machine/Pumps.lean ====
section
/-! DEFINITION. Pumps (chapter WEL): PUMP, FILL and COPY, the operations a PUMP makes, their registration and retirement, and cistern
timeouts. -/
namespace Sys2Proof.Machine

/-! ## PUMP's operand area (Table WEL-3) -/

def Cmd.pSrc (c : Cmd) : Nat := c.at_ (ofield c.desc 0 40)
def Cmd.pDst (c : Cmd) : Nat := c.at_ (ofield c.desc 40 40)
def Cmd.pRunBytes (c : Cmd) : Nat := ofield c.desc 80 24
def Cmd.pRuns (c : Cmd) : Nat := ofield c.desc 104 20
def Cmd.pSrcStride (c : Cmd) : Int := ofieldS c.desc 124 32
def Cmd.pDstStride (c : Cmd) : Int := ofieldS c.desc 156 32
/-- 0 strided, 1 gather, 2 scatter. -/
def Cmd.pMode (c : Cmd) : Nat := ofield c.desc 188 2
def Cmd.pIdxAddr (c : Cmd) : Nat := c.at_ (ofield c.desc 190 40)
def Cmd.pIdxSize (c : Cmd) : Nat := if ofield c.desc 230 1 = 1 then 2 else 4
def Cmd.pLimit (c : Cmd) : Nat := ofield c.desc 231 24

/-- The extent of `n` records of `len` bytes at a stride from a base; it runs downward for a negative stride (R123). -/
def extent (base : Nat) (stride : Int) (n len : Nat) (wr : Bool) : Rng :=
  if stride < 0 then
    let down := (n - 1) * stride.natAbs
    ⟨base - down, down + len, wr⟩
  else ⟨base, (n - 1) * stride.toNat + len, wr⟩

/-- Address of record `i`. -/
def recAddr (base : Nat) (stride : Int) (i : Nat) : Nat := ((base : Int) + stride * i).toNat

/-- The declared ranges of a PUMP (R123): source, destination, index list. -/
def Cmd.pRanges (c : Cmd) : List Rng :=
  let srcN := if c.pMode = 1 then c.pLimit else c.pRuns
  let dstN := if c.pMode = 2 then c.pLimit else c.pRuns
  [extent c.pSrc c.pSrcStride srcN c.pRunBytes false, extent c.pDst c.pDstStride dstN c.pRunBytes true] ++
  if c.pMode = 0 then [] else [⟨c.pIdxAddr, c.pRuns * c.pIdxSize, false⟩]

/-- Two ranges share a byte. -/
def Rng.meets (x y : Rng) : Bool := overlap x.lo x.len y.lo y.len

/-- The core whose well an address names. -/
def wellCore (a : Nat) : Option CoreId := if inWells a then some (Fin.ofNat 32 ((a - wellBase) / 0x800000)) else none

/-- The core on whose pump a PUMP runs, when it names a well (R117). -/
def Cmd.pCore (c : Cmd) : Option CoreId :=
  match wellCore c.pDst with
  | some n => some n
  | none => match wellCore c.pSrc with
    | some n => some n
    | none => if c.pMode = 0 then none else wellCore c.pIdxAddr

/-- A command may use a range: a well address of a PLACE command stands for the well of any core of its partition (R179). -/
def State.cmdMayName (s : State) (c : Cmd) (a len : Nat) (wr : Bool) : Bool :=
  let b := match (if c.isPlace then s.parts[c.part].coreList.head? else none) with
    | some n => onCore n a
    | none => a
  s.mayName c.part b len wr

/-- The checks of PUMP's operand area (R117 to R119, R173). -/
def State.admitPump (s : State) (c : Cmd) : Admit :=
  let src := c.pSrc
  let dst := c.pDst
  let rs := c.pRanges
  let srcN := if c.pMode = 1 then c.pLimit else c.pRuns
  let dstN := if c.pMode = 2 then c.pLimit else c.pRuns
  let hasWell := fun a : Nat => wellBase ≤ a && a < poolBase + 8 * poolBytes
  let okRuns := fun (base : Nat) (st : Int) (n : Nat) (wr : Bool) =>
    (List.range n).all fun i => decide (0 ≤ (base : Int) + st * i) && s.cmdMayName c (recAddr base st i) c.pRunBytes wr
  let misal := fun (base : Nat) (st : Int) (n : Nat) => hasWell base && (base % 8 ≠ 0 || (1 < n && st % 8 ≠ 0))
  let wells := ([src, dst] ++ if c.pMode = 0 then [] else [c.pIdxAddr]).filterMap wellCore
  let wrong := match c.pCore with
    | some n => c.coreField ≠ 0x3F && c.coreField ≠ n.val
    | none => false
  let bad :=
    badIf (c.pRunBytes = 0 || ((hasWell src || hasWell dst) && c.pRunBytes % 8 ≠ 0)) 42 ++
    badIf (c.pRuns = 0) 45 ++
    badIf (c.pMode = 3 || (c.pMode = 0 && ofield c.desc 190 40 ≠ 0) || (c.pMode ≠ 0 && c.pIdxAddr % c.pIdxSize ≠ 0) ||
      (c.pMode ≠ 0 && !s.cmdMayName c c.pIdxAddr (c.pRuns * c.pIdxSize) false)) 55 ++
    badIf ((c.pMode = 0) != (c.pLimit = 0)) 60 ++
    badIf (ofield c.desc 255 1 ≠ 0) 63 ++
    badIf (misal src c.pSrcStride srcN || !okRuns src c.pSrcStride srcN false) 32 ++
    badIf (misal dst c.pDstStride dstN || !okRuns dst c.pDstStride dstN true) 37 ++
    badIf ((rs.filter (·.wr)).any fun w => (rs.filter fun r => !r.wr).any fun r => w.meets r) 37 ++
    badIf wrong 6 ++
    badIf (c.coreField == 0x3F && wells.any fun n => some n != wells.head?) 6
  { bad := bad, ranges := rs }

/-! ## FILL and COPY (Table WEL-1) -/

def Cmd.fDst (c : Cmd) : Nat := c.at_ (ofield c.desc 0 40)
def Cmd.fLen (c : Cmd) : Nat := ofield c.desc 40 40
def Cmd.fPattern (c : Cmd) : Nat := ofield c.desc 80 64
def Cmd.cSrc (c : Cmd) : Nat := c.at_ (ofield c.desc 0 40)
def Cmd.cDst (c : Cmd) : Nat := c.at_ (ofield c.desc 40 40)
def Cmd.cLen (c : Cmd) : Nat := ofield c.desc 80 40

/-- `[a, a + len)` lies in one well or one pool. -/
def inOneWell (a len : Nat) : Bool :=
  if inWells a then decide ((a - wellBase) % 0x800000 + len ≤ wellBytes)
  else wellBase ≤ a && a < poolBase + 8 * poolBytes && (a - poolBase) % poolBytes + len ≤ poolBytes

/-- A core field that fits the pump of an address: none named, the well's core, or a core of the pool's cluster. -/
def coreFits (field a : Nat) : Bool :=
  field == 0x3F ||
    match wellCore a with
    | some n => field == n.val
    | none => field / 4 == (a - poolBase) / poolBytes

/-- The checks of FILL's operand area (R115). -/
def State.admitFill (s : State) (c : Cmd) : Admit :=
  { bad :=
      badIf (c.fDst % 8 ≠ 0 || !inOneWell c.fDst 8 || !s.cmdMayName c c.fDst 8 true) 32 ++
      badIf (c.fLen < 8 || c.fLen % 8 ≠ 0 || !inOneWell c.fDst c.fLen || !s.cmdMayName c c.fDst c.fLen true) 37 ++
      badIf (ofield c.desc 144 112 ≠ 0) 50 ++
      badIf (!coreFits c.coreField c.fDst) 6
    ranges := [⟨c.fDst, c.fLen, true⟩] }

/-- Two addresses lie in the same well or the same pool. -/
def sameWell (a b : Nat) : Bool :=
  if inWells a then inWells b && (a - wellBase) / 0x800000 == (b - wellBase) / 0x800000
  else !inWells b && wellBase ≤ b && (a - poolBase) / poolBytes == (b - poolBase) / poolBytes

/-- The checks of COPY's operand area (R115). -/
def State.admitCopy (s : State) (c : Cmd) : Admit :=
  { bad :=
      badIf (c.cSrc % 8 ≠ 0 || !inOneWell c.cSrc 8 || !s.cmdMayName c c.cSrc 8 false) 32 ++
      badIf (c.cDst % 8 ≠ 0 || !sameWell c.cSrc c.cDst || !s.cmdMayName c c.cDst 8 true) 37 ++
      badIf (c.cLen < 8 || c.cLen % 8 ≠ 0 || !inOneWell c.cSrc c.cLen || !inOneWell c.cDst c.cLen ||
        !s.cmdMayName c c.cSrc c.cLen false || !s.cmdMayName c c.cDst c.cLen true) 42 ++
      badIf (ofield c.desc 120 136 ≠ 0) 47 ++
      badIf (!coreFits c.coreField c.cSrc) 6
    ranges := [⟨c.cSrc, c.cLen, false⟩, ⟨c.cDst, c.cLen, true⟩] }

/-! ## Writes and the power state of what they reach (R134 to R136) -/

/-- The pattern of a FILL over `n` words. -/
def fillBytes (pattern n : Nat) : List Byte := (List.replicate n (leBytes 8 pattern)).flatten

/-- Half-wells and pools whose last word a FILL has written become ON (R136). -/
def State.fillOn (s : State) (a len : Nat) : State :=
  (touched a len).foldl (fun t r =>
    let last := (partSpan r).1 + (partSpan r).2 - 8
    if (t.wctl r).st == .unfilled && a ≤ last && last + 8 ≤ a + len then t.setWctl r { t.wctl r with st := .on } else t) s

/-- The effect of a FILL (R115, R136). -/
def State.fillBody (c : Cmd) (s : State) : State × List St :=
  if s.mayWrite true c.adm c.fDst c.fLen then
    let t := if c.fLen = 0 then s else s.storeIn c.fDst (clean (fillBytes c.fPattern (c.fLen / 8))) true
    (t.fillOn c.fDst c.fLen, [])
  else (s.flagClosed c.fDst c.fLen, [.windowClosed])

/-- FILL (R115, R136). -/
def execFill (p : PartId) (q : QueId) (n : Nat) (s : State) : Host.Outcome State Fault Refusal :=
  done s (s.runCmd p q n .fill State.fillBody)

/-- The effect of a COPY (R116): the whole source is read, then the destination written, poison moving with the data. -/
def State.copyBody (c : Cmd) (s : State) : State × List St :=
  if s.mayWrite true c.adm c.cDst c.cLen then
    let (bs, s1) := s.load c.cSrc c.cLen
    (s1.store c.cDst bs, if anyPoison bs then [.poisoned] else [])
  else (s.flagClosed c.cDst c.cLen, [.windowClosed])

/-- COPY (R116). -/
def execCopy (p : PartId) (q : QueId) (n : Nat) (s : State) : Host.Outcome State Fault Refusal :=
  done s (s.runCmd p q n .copy State.copyBody)

/-! ## PUMP's operations (R118, R120, R121) -/

/-- Operations that fetch the index list. -/
def Cmd.pIdxOps (c : Cmd) : Nat := if c.pMode = 0 then 0 else cdiv (c.pRuns * c.pIdxSize) 4096
/-- Operations of each run. -/
def Cmd.pRunOps (c : Cmd) : Nat := cdiv c.pRunBytes 4096
/-- Operations of the PUMP. -/
def Cmd.pTotal (c : Cmd) : Nat := c.pIdxOps + c.pRuns * c.pRunOps

/-- Address of entry `r` of the index list. -/
def Cmd.pEntry (c : Cmd) (r : Nat) : Nat := c.pIdxAddr + r * c.pIdxSize

/-- The part of the index list, as it was fetched, that holds entry `r`. -/
def Cmd.pPiece (c : Cmd) (r : Nat) : Option (Nat × List Byte) := c.copies.find? fun x => x.1 ≤ c.pEntry r && c.pEntry r < x.1 + x.2.length

/-- Entry `r` of the index list as it was fetched; an entry whose fetch was lost is open (log entry 12). -/
def Cmd.pIndex (c : Cmd) (r : Nat) : Nat :=
  match c.pPiece r with
  | some (b, bs) => leNat (bytesAt bs (c.pEntry r - b) c.pIdxSize)
  | none => Config.openVal 155 [c.adm, r]

/-- Entry `r` of the index list was read as poisoned, or never came: the notes of a PUMP are the poisoned granules of its list (log entry 25). -/
def Cmd.pListBad (c : Cmd) (r : Nat) : Bool :=
  c.pMode ≠ 0 && ((c.pPiece r).isNone || (granulesOf (c.pEntry r) c.pIdxSize).any fun b => c.notes.contains b)

/-- Source and destination of run `r` (R118), none where its index is beyond the limit (R121). -/
def Cmd.pRun (c : Cmd) (r : Nat) : Option (Nat × Nat) :=
  if c.pMode = 0 then some (recAddr c.pSrc c.pSrcStride r, recAddr c.pDst c.pDstStride r)
  else
    let i := c.pIndex r
    if c.pLimit ≤ i then none
    else if c.pMode = 1 then some (recAddr c.pSrc c.pSrcStride i, recAddr c.pDst c.pDstStride r)
    else some (recAddr c.pSrc c.pSrcStride r, recAddr c.pDst c.pDstStride i)

/-- Runs whose index is beyond the limit. -/
def Cmd.pBadRuns (c : Cmd) : List Nat := (List.range c.pRuns).filter fun r => (c.pRun r).isNone

/-- The core on whose behalf a pump command runs, and its die. -/
def Cmd.pumpCore (c : Cmd) : CoreId :=
  match c.place with
  | .core n => n
  | .corePump n => n
  | .clusPump n => n
  | .quant n => n
  | .fle d => Fin.ofNat 32 (16 * d.val)
  | .none => 0

/-! ## The scoreboard (R123 to R125, R129, R172) -/

/-- A range is compared on the scoreboard: any but one in an untracked remote window (Table WEL-5, R130). -/
def State.onBoard (s : State) (r : Rng) : Bool := r.lo < windowBase || s.windows.any fun w => !w.untracked && overlap w.loc w.len r.lo r.len

/-- Two lists of ranges hold a conflict. -/
def rngsConflict (xs ys : List Rng) : Bool := xs.any fun r => ys.any fun t => r.conflicts t

/-- A command that has issued is still at work on its unit, as its scoreboard entries have it: an engine entry lasts until the command completes. -/
def Cmd.onUnit (c : Cmd) : Bool := c.inFlight && (c.life != .ran || c.kind.isEngine || c.kind.isQuant)

/-- The ranges that a command itself holds on the scoreboard of its die: an engine command, a FILL and a COPY all of theirs, a PUMP those of the operations
it has still to make, and its extra ranges to its end (R116, R123, R172). -/
def Cmd.boardRanges (c : Cmd) : List Rng :=
  if !c.onUnit then []
  else if c.kind.isEngine || c.kind.isQuant || c.kind == .fill || c.kind == .copy then c.ranges
  else if c.kind == .pump then (if c.nextOp < c.pTotal then c.ranges else c.extras)
  else []

/-- The ranges of a pump operation that others are compared with. -/
def PumpOp.compared (o : PumpOp) : List Rng := o.reads ++ o.writes

/-- A pump operation has an entry on a die. -/
def PumpOp.entryOn (o : PumpOp) (d : Die) : Bool := o.die == d || o.farDone

/-- A pump operation in flight holds ranges on a die: Table WEL-5 against one entry. -/
def opHolds (d : Die) (rs : List Rng) (o : PumpOp) : Bool := o.entryOn d && rngsConflict rs o.compared

/-- An issued command holds ranges of another command on a die (Table WEL-5): engine entries of the same core do not. -/
def State.cmdHolds (s : State) (d : Die) (self : Option CoreId) (rs : List Rng) (c : Cmd) : Bool :=
  c.place.die == some d && !(self.isSome && c.engineCore == self) && rngsConflict rs (c.boardRanges.filter s.onBoard)

/-- A range that the Siphon partner has registered here holds ranges (R129). -/
def remoteHolds (rs : List Rng) (x : W32 × Rng) : Bool := rs.any fun r => r.conflicts x.2

/-- The scoreboard of a die holds a command with these ranges (R124). -/
def State.held (s : State) (d : Die) (self : Option CoreId) (rs : List Rng) : Bool :=
  let cs := rs.filter s.onBoard
  s.ops.any (opHolds d cs) || s.cmds.any (s.cmdHolds d self cs) || s.sph.remoteRegs.any (remoteHolds cs)

/-! ## Operations made (R120, R125, R129) -/

/-- Two operations may not pass each other: their ranges conflict, or, when one PUMP made both, their destinations share bytes (R122). -/
def PumpOp.clashes (o x : PumpOp) : Bool :=
  if o.owner == x.owner then o.writes.any fun w => x.writes.any fun v => w.meets v else rngsConflict o.compared x.compared

/-- The maker of an operation is one that another operation waits on. -/
def PumpOp.awaits (x : PumpOp) (owner : OpOwner) : Bool :=
  match owner with
  | .cmd adm => x.afterCmds.contains adm
  | .io _ => false

/-- The operations whose entries hold one that is entered on its own die. -/
def State.nearOps (s : State) (o : PumpOp) : List Nat :=
  (s.ops.filter fun x => x.entryOn o.die && !x.awaits o.owner && o.clashes x).map (·.id)

/-- The commands whose entries hold one that is entered on its own die: none when a command made it, which R124 compared as it issued. -/
def State.nearCmds (s : State) (o : PumpOp) : List Nat :=
  match o.owner with
  | .cmd _ => []
  | .io _ => (s.cmds.filter fun c => s.cmdHolds o.die none o.compared c).map (·.adm)

/-- The stretches of a range that lie in remote windows. -/
def State.windowPieces (s : State) (a len : Nat) : List (Window × Nat × Nat) :=
  (s.reachMap.stretches a len).filterMap fun x =>
    match x.1 with
    | .window w => some (w, x.2)
    | _ => none

/-- The WRITE messages for bytes at an address, as far as they lie in remote windows: each with its window, its address and its bytes, poisoned as a whole or not
at all (R11, R122). -/
def State.windowWrites (s : State) (a : Nat) (bs : List PByte) : List (Window × Nat × List PByte) :=
  (s.windowPieces a bs.length).flatMap fun x => (evenPieces x.2.2 0 ((bs.drop (x.2.1 - a)).take x.2.2)).map fun y => (x.1, x.2.1 + y.1, y.2)

/-- A WRITE message sent. -/
def State.sendWrite (s : State) (x : Window × Nat × List PByte) : State :=
  s.siphonSend 0x01 (if anyPoison x.2.2 then 2 else 0) (x.1.remote + (x.2.1 - x.1.loc)) x.1.id 0 0 0 (plain x.2.2)

/-- One message sent for each item of a list, with the sequence numbers they took. -/
def State.sendEach {α : Type} (s : State) (f : State → α → State) : List α → State × List W32
  | [] => (s, [])
  | x :: xs =>
    let (t, ms) := (f s x).sendEach f xs
    (t, s.sph.txSeq :: ms)

/-- An operation made and entered in its die's scoreboard (R120); its ranges in tracked windows the partner is asked to register (R129). -/
def State.newOp (s : State) (part : PartId) (owner : OpOwner) (core : CoreId) (kind : OpKind) (src dst len : Nat) (tint : Bool) (data : Option (List PByte)) :
    State :=
  let d := dieOfCore core
  let rs : List Rng := if kind == .put then [] else [⟨src, len, false⟩]
  let ws : List Rng := if kind == .move || kind == .put then [⟨dst, len, true⟩] else []
  let wins := (rs ++ ws).flatMap fun r => (s.windowPieces r.lo r.len).map fun x => (r.wr, x)
  let o : PumpOp := {
    id := s.opNext, part := part, owner := owner, core := core, die := d, kind := kind, src := src, dst := dst, len := len
    reads := rs.filter s.onBoard, writes := ws.filter s.onBoard, far := s.sys.die1 && needsFar d ((rs ++ ws).filter s.onBoard), farDone := false
    at_ := s.now, tint := tint, windows := wins.map fun x => x.2.1.id, data := data }
  let asks := wins.filter fun x => !x.2.1.untracked
  let (t, ms) := s.sendEach (fun (u : State) (x : Bool × Window × Nat × Nat) =>
    u.siphonSend 0x04 (if x.1 then 1 else 0) (x.2.1.remote + (x.2.2.1 - x.2.1.loc)) x.2.1.id 0 0 x.2.2.2 []) asks
  let o1 := { o with after := s.nearOps o, afterCmds := s.nearCmds o, regs := ms.zip (asks.map fun x => x.2.1.id), regWait := ms }
  ({ t with ops := t.ops ++ [o1], opNext := t.opNext + 1 } : State).raiseHigh core

/-- The state with an operation replaced. -/
def State.setOp (s : State) (o : PumpOp) : State := { s with ops := s.ops.map fun x => if x.id == o.id then o else x }

/-- Runs whose index is beyond the limit are not moved: each is counted, and every declared write range is poisoned (R121). -/
def State.badIndex (s : State) (c : Cmd) : State × Cmd :=
  let k := clusOfCore c.pumpCore
  let n := c.pBadRuns.length
  if n = 0 then (s, c)
  else
    let t := { s with cnts := { s.cnts with pmpIdx := vbump 8 s.cnts.pmpIdx k n } }.flag (.pmp k) 0
    (t.poisonWrites c.ranges, { c.cond .poisoned with tint := true })

/-- Part of a range is no longer there for an operation that is still to be made. -/
def State.gone (s : State) (a len : Nat) : Bool := !s.reachMap.mapped a len

/-- An operation that can no longer be made is dropped: its command meets ST_WINDOW_CLOSED, and its write ranges are poisoned (R131, R132, R156). -/
def State.dropUnmade (s : State) (c : Cmd) : State × Cmd := (s.poisonWrites c.ranges, { c.cond .windowClosed with tint := true })

/-- What operation `k` of a PUMP does after its index list is there: kind, source, destination, length, and whether a poisoned entry chose it; none for
a run that is not moved. -/
def Cmd.opAt (c : Cmd) (k : Nat) : Option (OpKind × Nat × Nat × Nat × Bool) :=
  if k < c.pIdxOps then some (.list, c.pIdxAddr + 4096 * k, 0, min 4096 (c.pRuns * c.pIdxSize - 4096 * k), false)
  else
    let j := k - c.pIdxOps
    let r := j / c.pRunOps
    let off := 4096 * (j % c.pRunOps)
    (c.pRun r).map fun (a, b) => (.move, a + off, b + off, min 4096 (c.pRunBytes - off), c.pListBad r)

/-- The poisoned bytes that take the place of those of run `r`, which is not moved, in a remote window: all that can mark its destination there (R121,
log entry 219). -/
def State.markRemote (s : State) (c : Cmd) (k : Nat) : State :=
  let j := k - c.pIdxOps
  let off := 4096 * (j % c.pRunOps)
  let b := recAddr c.pDst c.pDstStride (j / c.pRunOps) + off
  let len := min 4096 (c.pRunBytes - off)
  if c.pMode = 1 && !(s.windowPieces b len).isEmpty then
    ({ s with fresh := s.fresh + 1 } : State).newOp c.part (.cmd c.adm) c.pumpCore .put 0 b len true
      (some (tinted true ((List.range len).map fun i => Config.freeByte s.fresh (b + i))))
  else s

/-- No operation of a command is in flight. -/
def State.opsOver (s : State) (c : Cmd) : Bool := !s.ops.any fun o => o.owner == .cmd c.adm

/-- Operations of a PUMP made one after another while its core has free entries, at most `fuel` of them (R120); those of the runs wait for the whole
index list. -/
def State.issueOps (s : State) (c : Cmd) : (fuel : Nat) → State × Cmd
  | 0 => (s, c)
  | fuel + 1 =>
    if c.pTotal ≤ c.nextOp || entryLimit ≤ s.entriesOf c.pumpCore then (s, c)
    else if c.pMode ≠ 0 && c.nextOp = c.pIdxOps && !s.opsOver c then (s, c)
    else
      let (s0, c0) := if c.pMode ≠ 0 && c.nextOp = c.pIdxOps then s.badIndex c else (s, c)
      let next := { c0 with nextOp := c0.nextOp + 1 }
      match c0.opAt c0.nextOp with
      | some (kind, a, b, len, bad) =>
        if s0.gone a len || (kind == .move && s0.gone b len) || (kind == .move && bad && c0.conds.contains .windowClosed) then
          let (t, c1) := s0.dropUnmade next
          t.issueOps c1 fuel
        else (s0.newOp c0.part (.cmd c0.adm) c0.pumpCore kind a b len bad none).issueOps next fuel
      | none => (s0.markRemote c0 c0.nextOp).issueOps next fuel

/-- Operations of a command made one after another while the core has free entries: `n` of them from number `c.nextOp` on, on the ranges that `at_` gives; one whose
range is no longer there is dropped unmade, and ends the making (R156). -/
def State.makeOps (s : State) (c : Cmd) (core : CoreId) (at_ : Nat → Nat × Nat) (f : Nat → State → State) : (n : Nat) → State × Cmd
  | 0 => (s, c)
  | n + 1 =>
    if entryLimit ≤ s.entriesOf core then (s, c)
    else if s.gone (at_ c.nextOp).1 (at_ c.nextOp).2 then s.dropUnmade c
    else (f c.nextOp s).makeOps { c with nextOp := c.nextOp + 1 } core at_ f n

/-- A PUMP's effect is done once every operation has been made and has retired (R122). -/
def State.pumpOver (s : State) (c : Cmd) : Bool := c.pTotal ≤ c.nextOp && s.opsOver c

/-- PUMP (R118, R120): an issued PUMP starts, and as many of its operations are made as there are entries; run again, it makes more. -/
def execPump (p : PartId) (q : QueId) (n : Nat) (s : State) : Host.Outcome State Fault Refusal :=
  match s.findCmd p q n with
  | some c =>
    if c.kind == .pump && s.mayRun c then
      let (s1, c1) := s.startCmd c
      let (s2, c2) := s1.issueOps c1 (c1.pTotal + 1)
      done s (s2.putCmd (if s2.pumpOver c2 then { c2 with life := .ran } else c2))
    else done s s
  | none => done s s

/-- An operation of a PUMP waits for an entry of its core (R120). -/
def State.pumpStalls (s : State) (c : Cmd) : Bool :=
  c.kind == .pump && s.mayRun c && c.nextOp < c.pTotal && entryLimit ≤ s.entriesOf c.pumpCore &&
  !(c.pMode ≠ 0 && c.nextOp = c.pIdxOps && !s.opsOver c)

/-! ## Registration (R124, R125) -/

/-- A command of the other die holds an operation whose far registration arrives there. A PUMP of die 1 that is itself registered on both dies crosses with an
operation of die 0, which does not wait on it (R125). -/
def State.holdsFar (s : State) (o : PumpOp) (e : Die) (c : Cmd) : Bool :=
  let own := match o.owner with
    | .cmd adm => c.adm == adm
    | .io _ => false
  let crosses := c.kind == .pump && e.val == 1 && needsFar e (c.ranges.filter s.onBoard)
  !own && c.place.die == some e &&
    if crosses then rngsConflict o.compared c.extras && !rngsConflict o.compared (c.ranges.take (c.ranges.length - c.nranges)) && c.onUnit
    else rngsConflict o.compared (c.boardRanges.filter s.onBoard)

/-- The other die. -/
def otherDie (d : Die) : Die := Fin.ofNat 2 (1 - d.val)

/-- The far registration of an operation arrives (R124, R125): it is held by every entry of that die that conflicts with it; of two that are both between
their registrations, the one of die 1 waits on the one of die 0. -/
def State.farArrives (s : State) (o : PumpOp) : State :=
  let e := otherDie o.die
  let near := s.ops.filter fun x => x.die == e && x.owner != o.owner && o.clashes x
  let crosses := fun (x : PumpOp) => x.far && !x.farDone
  let yields := (near.filter fun x => crosses x && e.val == 1).map (·.id)
  let holds := (near.filter fun x => !(crosses x && e.val == 1) && !x.after.contains o.id).map (·.id)
  let cs := (s.cmds.filter fun c => s.holdsFar o e c).map (·.adm)
  { s with ops := s.ops.map fun (x : PumpOp) =>
      if x.id == o.id then { x with farDone := true, after := x.after ++ holds, afterCmds := x.afterCmds ++ cs }
      else if yields.contains x.id then { x with after := x.after ++ [o.id] } else x }

/-- FAR_REGISTRATION (R125): 12 FCLK cycles after the near registration the operation is entered in the other die's scoreboard. -/
def execFarRegistration (id : Nat) (s : State) : Host.Outcome State Fault Refusal :=
  match s.ops.find? fun o => o.id == id with
  | some o => if o.far && !o.farDone && o.at_ + 12 ≤ s.now then done s (s.farArrives o) else done s s
  | none => done s s

/-! ## What an operation waits for -/

/-- Bytes of MIRROR messages that wait to be sent: those beyond the 64 KiB of the replay buffer (R416, R420). -/
def State.mirrorWaiting (s : State) : Nat :=
  (s.sph.replay.foldl (fun (x : Nat × Nat) m =>
    let n := x.1 + m.size
    (n, if m.type == 0x19 && 65536 < n then x.2 + m.size else x.2)) (0, 0)).2

/-- A pump operation that writes an enabled mirrored region waits while 4 MiB of MIRROR messages wait (R420). -/
def State.mirrorStalls (s : State) (o : PumpOp) : Bool :=
  4194304 ≤ s.mirrorWaiting && s.mirrors.toList.any fun m => m.enable && o.writes.any fun w => overlap w.lo w.len m.base.toNat (m.len.toNat * 65536)

/-- A range of the Siphon partner that is registered here and answered holds an operation (R129). -/
def State.remoteOp (s : State) (o : PumpOp) : Bool :=
  s.sph.remoteRegs.any fun x => !s.sph.regWait.contains x.1 && o.compared.any fun r => r.conflicts x.2

/-- An operation's registrations hold on both dies and on the partner, and no entry of any of them holds it. -/
def State.opClear (s : State) (o : PumpOp) : Bool :=
  (!o.far || o.farDone) && o.regWait.isEmpty && !s.remoteOp o && !s.mirrorStalls o &&
  o.after.all (fun k => !s.ops.any fun x => x.id == k) && o.afterCmds.all fun k => !s.cmds.any fun c => c.adm == k && c.onUnit

/-- A read of an operation's source reaches the completion timeout of its host (R155). -/
def State.opSilent (s : State) (o : PumpOp) : Bool :=
  o.data.isNone && (s.reachMap.stretches o.src o.len).any fun x =>
    match x.1 with
    | .cistern r => s.hostSilent r.port (r.host + (x.2.1 - r.loc)) x.2.2
    | _ => false

/-- The ports whose cistern traffic an operation is part of. -/
def State.opPorts (s : State) (o : PumpOp) : List Port :=
  let rs := (if o.kind == .put then [] else s.reachMap.stretches o.src o.len) ++
    if o.kind == .move || o.kind == .put then s.reachMap.stretches o.dst o.len else []
  rs.filterMap fun x =>
    match x.1 with
    | .cistern r => some r.port
    | _ => none

/-- The command that made an operation. -/
def State.opCmd (s : State) (o : PumpOp) : Option Cmd :=
  match o.owner with
  | .cmd adm => s.cmds.find? fun c => c.adm == adm
  | .io _ => none

/-- The deadline of the command that made an operation. -/
def State.opDue (s : State) (o : PumpOp) : Option Nat := (s.opCmd o).bind (·.deadline)

/-- One deadline comes before another; none comes last. -/
def dueBefore : Option Nat → Option Nat → Bool
  | some a, some b => a < b
  | some _, none => true
  | none, _ => false

/-- The port of the region that holds a span of the cistern. -/
def State.spanPort (s : State) (a : Nat) : Option Port := (s.regions.find? fun r => r.loc ≤ a && a < r.loc + r.len).map (·.port)

/-- Among the queued operations on a port's cistern it is the turn of one with an earlier deadline, or of a page return with one; ties go to the operation
made earlier (R157, R300, log entry 220). An operation whose read has been sent and stays unanswered holds no other. -/
def State.cisternWaits (s : State) (o : PumpOp) : Bool :=
  let ps := s.opPorts o
  let due := s.opDue o
  !ps.isEmpty &&
  ((s.ops.any fun x => x.id != o.id && s.opClear x && !s.opSilent x && (s.opPorts x).any (ps.contains ·) &&
      (dueBefore (s.opDue x) due || (s.opDue x == due && x.id < o.id))) ||
    s.returns.any fun y => dueBefore y.deadline due && (s.spanPort y.span).any (ps.contains ·))

/-- An operation may move its data (R124, R125, R129, R157). -/
def State.opFree (s : State) (o : PumpOp) : Bool := s.opClear o && !s.cisternWaits o

/-! ## Retirement (R120, R122, R135) -/

/-! ## Writes of the camera ports and pipelines (R328, R330, R345) -/

/-- Bytes to write, in operations of at most 4 KiB (R120). -/
def cutPuts (q : PartId) (a : Nat) (bs : List PByte) : List IoJob :=
  ((List.range (cdiv bs.length 4096)).zip (chunks 4096 bs)).map fun y => IoJob.put q (a + 4096 * y.1) y.2

/-- What a unit has still to do, and the state with it replaced. -/
def State.ioJobs (s : State) : IoUnit → List IoJob
  | .cam v => s.cams[v].jobs
  | .pipe i => s.pipes[i].writes
def State.setJobs (s : State) (u : IoUnit) (js : List IoJob) : State :=
  match u with
  | .cam v => { s with cams := s.cams.set v { s.cams[v] with jobs := js } }
  | .pipe i => { s with pipes := s.pipes.set i { s.pipes[i] with writes := js } }

/-- An operation of a unit is in flight. -/
def State.ioBusy (s : State) (u : IoUnit) : Bool := s.ops.any fun o => o.owner == .io u

/-- The core on whose behalf a unit writes for a partition, its lowest-numbered one, has no free entry (R328). -/
def State.ioFull (s : State) (q : PartId) : Bool := entryLimit ≤ s.entriesOf (s.lowCore q)

/-- The head of what a unit has to do made into an operation, the rest left; a well address follows a moved core (Table PRG-5). -/
def State.ioPut (s : State) (u : IoUnit) (rest : List IoJob) (q : PartId) (a : Nat) (bs : List PByte) : State :=
  (s.setJobs u rest).newOp q (.io u) (s.lowCore q) .put 0 (movedAddr (s.parts[q]).moved a) bs.length false (some bs)

/-- A unit does what it can of what it has to do; `fuel` bounds the number of its jobs. -/
def State.ioGo (s : State) (u : IoUnit) : (fuel : Nat) → State
  | 0 => s
  | fuel + 1 =>
    match s.ioJobs u with
    | .put q a bs :: rest => if s.ioFull q then s else (s.ioPut u rest q a bs).ioGo u fuel
    | .late q a bs :: rest => if s.ioBusy u || s.ioFull q then s else (s.ioPut u rest q a bs).ioGo u fuel
    | .signal q k :: rest => if s.ioBusy u then s else ((s.setJobs u rest).addSig q k 1).ioGo u fuel
    | .record _ _ _ _ :: _ => s
    | [] => s

/-- A unit goes on with all it has to do, and more. -/
def State.ioAll (s : State) (u : IoUnit) : State := s.ioGo u (s.ioJobs u).length
def State.ioAdd (s : State) (u : IoUnit) (js : List IoJob) : State := (s.setJobs u (s.ioJobs u ++ js)).ioAll u

/-- The write of a frame's record at the head of what a camera port has to do made into an operation, once what the frame wrote before it has landed. -/
def State.camRecord (s : State) (v : CamId) : State :=
  match s.cams[v].jobs with
  | .record q k a bs :: rest => if s.ioBusy (.cam v) || s.ioFull q then s else s.ioPut (.cam v) (.signal q k :: rest) q a bs
  | _ => s

/-- The maker of an operation learns that it has retired: a command gets its conditions, and the effect of a PUMP is done when this was its last one. -/
def State.creditOp (s : State) (o : PumpOp) (conds : List St) : State :=
  match o.owner with
  | .io u => s.ioAll u
  | .cmd _ =>
    match s.opCmd o with
    | some c =>
      let c1 := { c with conds := c.conds ++ conds }
      s.putCmd (if c1.kind == .pump && s.pumpOver c1 && c1.life == .started then { c1 with life := .ran } else c1)
    | none => s

/-- Every range that the maker of an operation declares as a write is poisoned, and so is what it still writes (R121, R131, R134). -/
def State.ruin (s : State) (o : PumpOp) : State :=
  match s.opCmd o with
  | some c => (s.poisonWrites c.ranges).putCmd { c with tint := true }
  | none => s.poisonWrites o.writes

/-- What an operation writes is to be poisoned. -/
def State.opTint (s : State) (o : PumpOp) : Bool := o.tint || (s.opCmd o).any (·.tint)

/-- Pieces laid over a string of bytes with their poison. -/
def layPieces (base : List PByte) (xs : List (Nat × List PByte)) : List PByte :=
  xs.foldl (fun b x => b.take x.1 ++ x.2.take (b.length - x.1) ++ b.drop (x.1 + x.2.length)) base

/-- One stretch of an operation's source read: a memory or cistern source that reports poison is flagged (Table WEL-12). -/
def State.sourceStretch (s : State) (k : ClusId) (ext : Bool) (x : Loc × Nat × Nat) : List PByte × State :=
  let (bs, t) := s.readStretch x ext
  let told := match x.1 with
    | .main => anyPoison bs
    | .cistern _ => anyPoison bs
    | _ => false
  (bs, t.flagIf told (.pmp k) 3)

/-- The bytes that an operation's source gives, with their poison, and the flags of the reading: `ext` is the poison that a host reports with a
cistern completion whatever its memory holds (R122, R155). -/
def State.opSource (s : State) (o : PumpOp) (ext : Bool) : List PByte × State :=
  match o.data with
  | some bs => (bs, s)
  | none =>
    let (bs, t) := (s.reachMap.stretches o.src o.len).foldl (fun (acc : List PByte × State) x =>
      let (cs, u) := acc.2.sourceStretch (clusOfCore o.core) ext x
      (acc.1 ++ cs, u)) ([], s)
    (layPieces bs o.got, t)

/-- Part of an index list, or of what a unit asked for, has been fetched: its command keeps the bytes, and the granules that were poisoned (R120, R121,
R239). -/
def State.landList (s : State) (o : PumpOp) (bs : List PByte) : State :=
  let t := s.endOp o
  match t.opCmd o with
  | some c =>
    let bad := ((bs.zip (List.range bs.length)).filter (·.1.2)).map fun x => (o.src + x.2) / granule (o.src + x.2) * granule (o.src + x.2)
    t.putCmd { (if anyPoison bs then c.cond .poisoned else c) with copies := c.copies ++ [(o.src, plain bs)], notes := c.notes ++ bad.eraseDups }
  | none => t

/-- The last byte of an operation lands (R120, R122, R135): its data are written where its destination may be written. -/
def State.landOp (s : State) (o : PumpOp) (bs0 : List PByte) : State :=
  let bs := tintIf (s.opTint o) bs0
  let conds : List St := if anyPoison bs then [.poisoned] else []
  if !s.mayWrite false o.id o.dst o.len then ((s.flagClosed o.dst o.len).endOp o).creditOp o (.windowClosed :: conds)
  else
    let lost := !o.sent && s.gone o.dst o.len
    ((s.writeAt o.dst bs).endOp o).creditOp o (conds ++ if lost then [.windowClosed] else [])

/-- The reads of an operation through remote windows asked for (R416). -/
def State.askOp (s : State) (o : PumpOp) : State :=
  let ps := s.windowPieces o.src o.len
  let (t, ms) := s.sendEach (fun (u : State) (x : Window × Nat × Nat) => u.siphonSend 0x02 0 (x.1.remote + (x.2.1 - x.1.loc)) x.1.id 0 0 x.2.2 []) ps
  t.setOp { o with asked := true, waits := ms.zip (ps.map fun x => x.2.1 - o.src) }

/-- The data of an operation sent through remote windows, poison marks included (R121, R122, R416). -/
def State.pushOp (s : State) (o : PumpOp) (bs0 : List PByte) : State :=
  let bs := tintIf (s.opTint o) bs0
  let ps := s.windowWrites o.dst bs
  let (t, ms) := s.sendEach State.sendWrite ps
  t.setOp { o with sent := true, data := some bs, waits := ms.zip (ps.map fun x => x.2.1 - o.dst) }

/-- PUMP_OPERATION_RETIRE (R120, R122): an operation that may move its data moves it and retires. One that reads or writes a remote window first sends its
messages there, and goes on when the row comes again after the partner's data or acknowledgement. -/
def execPumpOperationRetire (id : Nat) (srcPoison : Bool) (s : State) : Host.Outcome State Fault Refusal :=
  match s.ops.find? fun o => o.id == id with
  | some o =>
    if !s.opFree o || !o.waits.isEmpty || s.opSilent o then done s s
    else if o.data.isNone && !o.asked && !(s.windowPieces o.src o.len).isEmpty then done s (s.askOp o)
    else
      let (bs, t) := s.opSource o srcPoison
      if o.kind == .list || o.kind == .fetch then done s (t.landList o bs)
      else if !o.sent && !(s.windowPieces o.dst o.len).isEmpty then done s (t.pushOp o bs)
      else done s (t.landOp o bs)
  | none => done s s

/-- Part of an operation's source lies in a cistern region; the die of that region's port. -/
def State.cisternDie (s : State) (o : PumpOp) : Option Die :=
  if o.data.isSome then none
  else (s.reachMap.stretches o.src o.len).findSome? fun x =>
    match x.1 with
    | .cistern r => some (dieOfPort r.port)
    | _ => none

/-- Bytes whose contents nothing gives, poisoned. -/
def State.openBytes (s : State) (a len : Nat) : List PByte := tinted true ((List.range len).map fun i => Config.freeByte s.fresh (a + i))

/-- A pump operation's cistern read reaches 10 ms (R155): the rows it feeds are poisoned, and its command meets ST_POISONED. Rows at the Siphon partner are
poisoned by the write that the operation still makes there; an index list stays unread. -/
def State.opTimeout (s : State) (id : Nat) : State :=
  match s.ops.find? fun o => o.id == id with
  | some o =>
    match s.cisternDie o with
    | some d =>
      if o.at_ + 6400000 ≤ s.now then
        let t := s.flag (.mem d) 7
        if o.kind == .fetch || !(s.windowPieces o.dst o.len).isEmpty then
          { t with fresh := t.fresh + 1 }.setOp { o with data := some (s.openBytes o.src o.len) }
        else ((t.poisonWrites o.writes).endOp o).creditOp o [.poisoned]
      else s
    | none => s
  | none => s

end Sys2Proof.Machine
end

