-- ==== Sys2Proof/Machine/HostPorts.lean ====
section
/-! DEFINITION. Host accesses (chapter MBX): semaphores, doorbells and completion-ring pointers, BAR2, mailbox slots, and completion records. -/
namespace Sys2Proof.Machine

/-! ## Semaphores (R51 to R54) -/

/-- A free semaphore given to a port with a tag. -/
def Sem.give (x : Sem) (p : Port) (t : W16) : Sem := { x with held := true, owner := p, tag := t }

/-- What the acquires of one FCLK cycle that reach a semaphore do (R52, R54): a held one keeps its holder; two acquires of a free one are decided by
its priority, which flips. -/
def Sem.acquire (x : Sem) (tagA tagB : Option W16) : Sem :=
  if x.held then x
  else match tagA, tagB with
    | some t, none => x.give .a t
    | none, some t => x.give .b t
    | some t, some u => { x.give x.favours (if x.favours = .a then t else u) with favours := x.favours.other }
    | none, none => x

/-- SEM_ACQUIRE (R52, R54): the acquires that reach a semaphore in one FCLK cycle, by port. -/
def execSemAcquire (i : SemId) (tagA tagB : Option W16) (s : State) : Host.Outcome State Fault Refusal :=
  let heard := fun (p : Port) (t : Option W16) => if s.reached p then t else none
  done s { s with sems := s.sems.set i (s.sems[i].acquire (heard .a tagA) (heard .b tagB)) }

/-- A release (R52): the holder with its tag frees the semaphore and clears broken; any other release sets sem_misuse. -/
def State.semFree (s : State) (p : Port) (i : SemId) (t : W16) : State :=
  let x := s.sems[i]
  if x.held && x.owner == p && x.tag == t then { s with sems := s.sems.set i { x with held := false, broken := false } } else s.flag .mbx 2

/-- SEM_RELEASE (R52). -/
def execSemRelease (p : Port) (i : SemId) (t : W16) (s : State) : Host.Outcome State Fault Refusal := done s (s.hostRow p (s.semFree p i t))

/-! ## Doorbells and pointers (R58, R166, R169) -/

/-- A doorbell (R58, R166); the first one after PART_ADOPT lets the partition issue again (R57). -/
def State.doorbell (s : State) (p : Port) (r : PartId) (q : QueId) (v : W32) : State :=
  let x := s.queue r q
  if !s.owns p r then s.flag .mbx 3
  else match x.cring with
    | none => s.flag .mbx 4
    | some ring =>
      if (v - x.prod).toNat < 2 ^ 31 && (v - x.fetched).toNat ≤ ring.entries then
        let t := s.setQueue r q { x with prod := v }
        t.setPart r { t.parts[r] with waitsBell := false }
      else s.flag .mbx 4

/-- QUEUE_DOORBELL: a write of MBX_QDB. -/
def execQueueDoorbell (p : Port) (r : PartId) (q : QueId) (v : W32) (s : State) : Host.Outcome State Fault Refusal :=
  done s (s.hostRow p (s.doorbell p r q v))

/-- A consumer pointer moved (R58, R169). -/
def State.consume (s : State) (p : Port) (r : PartId) (q : QueId) (v : W32) : State :=
  let x := s.queue r q
  if !s.owns p r then s.flag .mbx 3
  else if (v - x.crCons).toNat ≤ (x.crProd - x.crCons).toNat then s.setQueue r q { x with crCons := v }
  else s.flag (.par s.parts[r].die) 5

/-- CR_CONSUMER_WRITE: a write of MBX_CR_CONS. -/
def execCrConsumerWrite (p : Port) (r : PartId) (q : QueId) (v : W32) (s : State) : Host.Outcome State Fault Refusal :=
  done s (s.hostRow p (s.consume p r q v))

/-! ## Completion records (R56, R169, R185, R186) -/

/-- The 32 bytes of a record with its generation bit (Table PAR-9). -/
def Record.bytes (r : Record) (gen : Bool) : List Byte :=
  let b := fun (x : Bool) (w : Nat) => if x then w else 0
  leBytes 4 r.seq.toNat ++ [nb (b gen 1 + b r.launchLate 2 + b r.resumed 4 + b r.placed 8), r.opcode] ++ leBytes 2 r.status.code ++
  leBytes 2 r.tag.toNat ++ leBytes 2 r.epoch.toNat ++ leBytes 2 r.ndc ++ leBytes 2 (r.core % 64 + 64 * (r.badField % 64)) ++
  leBytes 8 r.stamp ++ leBytes 6 (r.start % 2 ^ 48) ++ [0, 0]

/-- The oldest waiting record written to its slot, and the ring's interrupt (R169, R186). -/
def State.writeRecord (s : State) (p : PartId) (q : QueId) (ring : Ring) (r : Record) (rest : List Record) : State :=
  let x := s.queue p q
  let n := x.crProd.toNat
  let s1 := s.ringWrite p ring (32 * (n % ring.entries)) (r.bytes (n / ring.entries % 2 = 0))
  let since := x.sinceIrq + 1
  let fires := x.irqEn && 3 ≤ x.irqVec.toNat && (r.irqNow || max 1 x.irqBatch.toNat ≤ since)
  let s2 := (s1.setQueue p q { x with waiting := rest, crProd := x.crProd + 1, sinceIrq := if fires then 0 else since }).promote p q
  if fires && s.parts[p].state != .orphaned then s2.raise s.parts[p].owner x.irqVec.toNat else s2

/-- COMPLETION_RECORD_WRITE (R56, R169, R186): the oldest waiting record is written when its ring has room; that of an ORPHANED partition
bound for host memory is dropped and counted. -/
def execCompletionRecordWrite (p : PartId) (q : QueId) (s : State) : Host.Outcome State Fault Refusal :=
  let x := s.queue p q
  match x.waiting, x.rring with
  | r :: rest, some ring =>
    if ring.host && s.parts[p].state == .orphaned then
      done s (((s.setQueue p q { x with waiting := rest, dropped := satAdd 16 x.dropped 1 }).promote p q).flag .mbx 10)
    else if (x.crProd - x.crCons).toNat < ring.entries then done s (s.writeRecord p q ring r rest)
    else done s s
  | _, _ => done s s

/-! ## TLPs and BAR0 accesses that are refused (R36) -/

/-- POISONED_TLP_WRITE: the write is dropped and AER reports it. -/
def execPoisonedTlpWrite (p : Port) (s : State) : Host.Outcome State Fault Refusal := done s (s.hostRow p (s.aerError p .poisonedTlp))

/-- BAR0_BAD_ACCESS: an access of another size than 4 or 8 bytes, or not naturally aligned, completes as an unsupported request, which AER reports. -/
def execBar0BadAccess (p : Port) (off size : Nat) (s : State) : Host.Outcome State Fault Refusal :=
  if (size == 4 || size == 8) && off % size == 0 then done s s
  else done s (s.hostRow p ((s.emit (.unsupported p)).aerError p .unsupportedRequest))

/-! ## BAR2 (R28, R39, R40, R135, R148, R187, R402) -/

/-- Module address of a BAR2 offset (R39). -/
def State.bar2Addr (s : State) (p : Port) (off : Nat) : Nat :=
  let h := s.port p
  let base := h.bar2Base.toNat * 2 ^ 34
  (base / 2 ^ h.bar2Log2 * 2 ^ h.bar2Log2 + off % 2 ^ h.bar2Log2) % 2 ^ 40

/-- An address lies in a registered ring in main memory. -/
def State.inRing (s : State) (a : Nat) : Bool :=
  s.parts.toList.any fun x => x.queues.toList.any fun q =>
    (match q.cring with
      | some r => !r.host && r.base ≤ a && a < r.base + 64 * r.entries
      | none => false) ||
    (match q.rring with
      | some r => !r.host && r.base ≤ a && a < r.base + 32 * r.entries
      | none => false)

/-- The checker's wells and pool answer no access (R402); the cluster of a well or pool address. -/
def State.checkerHides (s : State) (r : WellPart) : Bool := s.isChecker (partClus r)

/-- A byte belongs to a 4-byte unit that a command owns, and to no ring (R187). -/
def State.ownedAt (s : State) (a : Nat) : Bool := !s.inRing a && !(s.ownerDies (a / 4 * 4) 4).isEmpty

/-- The early reads of `[a, a + len)` flagged on every die that holds an owning queue (R187). -/
def State.earlyReads (s : State) (a len : Nat) : State :=
  ((List.range len).filter fun i => s.ownedAt (a + i)).foldl (fun (t : State) i =>
    (s.ownerDies ((a + i) / 4 * 4) 4).foldl (fun (u : State) d => u.flag (.par d) 3) t) s

/-- A well or pool read through BAR2: nothing of a checker's or of one that takes no access (R135, R402). -/
def State.bar2Part (s : State) (r : WellPart) (a len : Nat) : List Byte × State :=
  if s.checkerHides r then (repByte len 0, s.flag .prg 5)
  else if (s.wctl r).shut then (repByte len 0, s)
  else (s.bytes a len, s.readEcc a len)

/-- A BAR2 access that reaches nothing: MEM_ERR.unmapped on the die of the port (R28). -/
def State.bar2Missed (s : State) (p : Port) : State := s.flag (.mem (dieOfPort p)) 0

/-- Bytes of one 8-byte word as memory gives them to a BAR2 read, with the flags of the read; a remote window gives zeros here, and a region of the
other port is as unmapped (R34, log entry 221). -/
def State.bar2Fetch (s : State) (p : Port) (a len : Nat) : List Byte × State :=
  match s.locOf a with
  | .main => if s.sys.initDone then (s.bytes a len, s.readEcc a len) else (repByte len 0, s.flag (.mem (s.memDie a)) 5)
  | .well n off => s.bar2Part (.half (halfOf n off)) a len
  | .pool c _ => s.bar2Part (.pool c) a len
  | .cistern r =>
    if r.port = p then
      let (bs, t) := s.cisternLoad r a len false
      (plain bs, t)
    else (repByte len 0, s.bar2Missed p)
  | .window _ => (repByte len 0, s)
  | .unmapped => (repByte len 0, s.bar2Missed p)

/-- Bytes with those of owned units replaced by ones (R187). -/
def maskOwned (own : List Bool) (bs : List Byte) : List Byte := (own.zip bs).map fun (o, b) => if o then 0xFF else b

/-- Bytes of one 8-byte word as a BAR2 read returns them (R28, R113, R187). -/
def State.bar2Word (s : State) (p : Port) (a len : Nat) : List Byte × State :=
  let own := (List.range len).map fun i => s.ownedAt (a + i)
  let s1 := s.earlyReads a len
  if own.all id then (repByte len 0xFF, s1)
  else
    let (bs, t) := s1.bar2Fetch p a len
    (maskOwned own bs, t)

/-- A BAR2 read word by word; `fuel` bounds their number. -/
def State.bar2Read (s : State) (p : Port) : (fuel : Nat) → Nat → Nat → List Byte × State
  | 0, _, _ => ([], s)
  | fuel + 1, a, len =>
    if len = 0 then ([], s)
    else
      let k := min len (8 - a % 8)
      let (bs, s1) := s.bar2Word p a k
      let (cs, s2) := s1.bar2Read p fuel (a + k) (len - k)
      (bs ++ cs, s2)

/-- The READ_REQs of a BAR2 read through remote windows are sent, and the read waits for their data (R416). -/
def State.bar2Ask (s : State) (p : Port) (a : Nat) (own : List Bool) (bs : List Byte) (ps : List (Window × Nat × Nat)) : State :=
  let (t, ms) := s.sendEach (fun (u : State) (x : Window × Nat × Nat) => u.siphonSend 0x02 0 (x.1.remote + (x.2.1 - x.1.loc)) x.1.id 0 0 x.2.2 []) ps
  { t with bar2Reads := t.bar2Reads ++ [⟨p, bs, own, ms.zip (ps.map fun x => x.2.1 - a)⟩] }

/-- The remote windows that a BAR2 read can ask: none while the Siphon link is not UP (log entry 128). -/
def State.bar2Windows (s : State) (a len : Nat) : List (Window × Nat × Nat) :=
  if s.sph.link = 2 && !s.sph.txDark then s.windowPieces a len else []

/-- A BAR2 read of module memory: the data go back to the host at once, or, where part of them lies in a remote window, when the partner's have come. -/
def State.bar2Body (s : State) (p : Port) (a len : Nat) : State :=
  let own := (List.range len).map fun i => s.ownedAt (a + i)
  let (bs, t) := s.bar2Read p (len + 1) a len
  let ps := s.bar2Windows a len
  if ps.isEmpty then t.emit (.readData (some p) bs) else t.bar2Ask p a own bs ps

/-- BAR2_READ (R28, R39, R40). -/
def execBar2Read (p : Port) (off len : Nat) (s : State) : Host.Outcome State Fault Refusal :=
  done s (s.hostRow p (s.bar2Body p (s.bar2Addr p off) len))

/-- A BAR2 write within one 4 KiB page; `whole` says that the access as a whole covers whole words. -/
def State.bar2WritePage (s : State) (p : Port) (whole : Bool) (a : Nat) (bs : List Byte) : State :=
  let put := fun r : WellPart =>
    if !whole then s.flag .mbx 5
    else if s.checkerHides r then s.flag .prg 5
    else if (s.wctl r).shut then s.flag (.wel (partClus r)) 1
    else s.storeB a bs
  match s.locOf a with
  | .main => if s.sys.initDone then s.storeB a bs else s.flag (.mem (s.memDie a)) 5
  | .well n off => put (.half (halfOf n off))
  | .pool c _ => put (.pool c)
  | .cistern r => if r.port = p then s.cisternStore r a (clean bs) else s.bar2Missed p
  | .window w => s.siphonSend 0x01 0 (w.remote + (a - w.loc)) w.id 0 0 0 bs
  | .unmapped => s.bar2Missed p

/-- A BAR2 write page by page; `fuel` bounds their number. -/
def State.bar2Write (s : State) (p : Port) (whole : Bool) : (fuel : Nat) → Nat → List Byte → State
  | 0, _, _ => s
  | fuel + 1, a, bs =>
    if bs.isEmpty then s
    else
      let k := 4096 - a % 4096
      (s.bar2WritePage p whole a (bs.take k)).bar2Write p whole fuel (a + k) (bs.drop k)

/-- BAR2_WRITE (R28, R40, R135, R148). -/
def execBar2Write (p : Port) (off : Nat) (data : List Byte) (s : State) : Host.Outcome State Fault Refusal :=
  let a := s.bar2Addr p off
  done s (s.hostRow p (s.bar2Write p (a % 8 = 0 && data.length % 8 = 0) (data.length / 4096 + 2) a data))

/-! ## Mailbox slots (R42, R43) -/

/-- The slot of a port. -/
def State.slot (s : State) (p : Port) (i : SlotId) : Slot := (s.port p).slots[i]

/-- The state with one slot replaced. -/
def State.setSlot (s : State) (p : Port) (i : SlotId) (x : Slot) : State :=
  s.setPort p { s.port p with slots := (s.port p).slots.set i x }

/-- A write to a slot (R42): one to the request area is stored, or dropped and flagged while BUSY; one to the response area is ignored. -/
def State.slotWrite (s : State) (p : Port) (i : SlotId) (off : Nat) (data : List Byte) : State :=
  let x := s.slot p i
  if 512 ≤ off || data.isEmpty then s
  else if x.busy then s.flag .mbx 1
  else s.setSlot p i { x with req := overlay x.req off (data.take (512 - off)) }

/-- MBX_SLOT_WRITE (R42). -/
def execMbxSlotWrite (p : Port) (i : SlotId) (off : Nat) (data : List Byte) (s : State) : Host.Outcome State Fault Refusal :=
  done s (s.hostRow p (s.slotWrite p i off data))

/-- The DONE bits of a mask cleared. -/
def State.clearDone (s : State) (p : Port) (mask : W32) : State :=
  (allFin 32).foldl (fun (t : State) i => if mask.getLsbD i.val then t.setSlot p i { t.slot p i with done := false } else t) s

/-- MBX_DONE_CLEAR (R43): a write of 1 frees a DONE slot. -/
def execMbxDoneClear (p : Port) (mask : W32) (s : State) : Host.Outcome State Fault Refusal := done s (s.hostRow p (s.clearDone p mask))

/-! ## Links -/

/-- PERST_RELEASE (R475): the line is released; the link trains again (PCIE_LINK_UP). -/
def execPerstRelease (p : Port) (s : State) : Host.Outcome State Fault Refusal :=
  done s (s.setPort p { s.port p with perst := false })

/-- PCIE_LINK_UP (R38, R478, R486): a port's data link comes up, unless PERST or RST_N holds it or its die is absent. -/
def execPcieLinkUp (p : Port) (s : State) : Host.Outcome State Fault Refusal :=
  if s.sys.rails == .on && s.sys.rstN && s.sys.clocked && !(s.port p).perst && s.diePresent (dieOfPort p) then
    done s (s.setPort p { s.port p with link := true })
  else done s s

end Sys2Proof.Machine
end

