-- ==== Sys2Proof/Machine/MainMem.lean ====
section
/-! DEFINITION. Main memory on its own (chapter MEM): initialisation, the patrol scrub, on-die counts, and the fencing of a package. -/
namespace Sys2Proof.Machine

/-- Main memory written with zeros and valid check bits (R148). -/
def State.zeroMain (s : State) : State :=
  { s with
    mem := s.mem.filter fun c => wellBase ≤ c.1
    poison := s.poison.filter fun b => wellBase ≤ b
    undef := undefCut s.undef 0 wellBase
    ecc := { s.ecc with
      sbe := s.ecc.sbe.filter fun w => wellBase ≤ 8 * w
      dbe := s.ecc.dbe.filter fun w => wellBase ≤ 8 * w
      tag := []
      chk := [] } }

/-- MEMORY_INIT_DONE (R148): the controllers, which began at step 5 of the boot or at a change of the inline ECC mode, finish writing
zeros, and init_done sets. -/
def execMemoryInitDone (s : State) : Host.Outcome State Fault Refusal :=
  if s.sys.rails == .on && s.sys.boot == .booted && 2 ≤ s.sys.fwState.toNat && !s.sys.initDone then
    let t := s.zeroMain
    done s { t with sys := { t.sys with initDone := true } }
  else done s s

/-- PATROL_SCRUB (R146): the word with number `word` (its module address over 8) is read with its check bits, and written back when a single-bit
error was corrected. -/
def execPatrolScrub (word : Nat) (s : State) : Host.Outcome State Fault Refusal :=
  if s.sys.initDone && s.sys.eccOn && 8 * word + 8 ≤ s.mainEnd then
    let t := s.readEcc (8 * word) 8
    done s { t with ecc := { t.ecc with sbe := t.ecc.sbe.filter fun w => w != word } }
  else done s s

/-- The highest on-die count among a package's four channels. -/
def pkgCount (counts : List Nat) (p : Fin 16) : Nat := ((List.range 4).map fun i => counts.getD (4 * p.val + i) 0).foldl max 0

/-- ONDIE_ECC_POLL (R149): the counts of the 64 channels; a package above 64 sets ondie_threshold for its die. -/
def execOndieEccPoll (counts : List Nat) (s : State) : Host.Outcome State Fault Refusal :=
  if s.sys.boot != .booted then done s s
  else done s ((allFin 16).foldl (fun t p =>
    let d : Die := Fin.ofNat 2 (p.val / 8)
    if t.diePresent d then
      let k := pkgCount counts p
      { t with ecs := t.ecs.set p (BitVec.ofNat 16 (min k 0xFFFF)) }.flagIf (64 < k) (.mem d) 3
    else t) s)

/-! ## Fencing a package (R139, R150 to R152) -/

/-- Units of 256 bytes of the low region that a package holds. -/
def State.pkgUnits (s : State) : Nat := s.uTop / (4 * s.nPkg) * 4

/-- Module address of unit `k` of a package (R139). -/
def State.unitAddr (s : State) (p : Fin 16) (k : Nat) : Nat := ((k / 4) * (4 * s.nPkg) + 4 * p.val + k % 4) * 256

/-- The same with the evacuation pointer at `k`. -/
def State.movedTo (s : State) (k : Nat) : State := { s with fence := s.fence.map fun (f : PkgFence) => { f with kMoved := k } }

/-- A unit of 256 bytes at `a` read at the place that it has, and written with valid check bits at the place that it has in `t`, poisoned whole when
the read was uncorrectable (R145, R151, R152); whether it was. -/
def State.carryUnit (s t : State) (a : Nat) : State × Bool :=
  let bad := (granulesOf a 256).any s.burstBad || !(s.linkLost a 256).isEmpty
  let s1 := s.readEcc a 256
  let inside := fun w => a ≤ 8 * w && 8 * w < a + 256
  let blocks := (granulesOf a 256).map t.blockOf
  let s2 := { s1 with ecc := { s1.ecc with
    sbe := s1.ecc.sbe.filter fun w => !inside w
    dbe := s1.ecc.dbe.filter fun w => !inside w
    tag := s1.ecc.tag.filter fun b => !blocks.contains b
    chk := s1.ecc.chk.filter fun b => !blocks.contains b } }
  (if bad then (s2.poisonRange a 256).flagIf (!s.sys.eccOn) (.mem (t.memDie a)) 4 else s2, bad)

/-- Unit `k` of a package copied to its folded place, the evacuation pointer passing it; one that is written poisoned there is flagged (R150, R151). -/
def State.copyUnit (s : State) (p : Fin 16) (k : Nat) : State :=
  let (t, bad) := s.carryUnit (s.movedTo (k + 1)) (s.unitAddr p k)
  (t.flagIf bad (.mem (Fin.ofNat 2 (p.val / 8))) 6).movedTo (k + 1)

/-- Unit `k` of a package copied back, the pointer falling to it (R152). -/
def State.backUnit (s : State) (p : Fin 16) (k : Nat) : State :=
  (s.carryUnit (s.movedTo k) (s.unitAddr p k)).1.movedTo k

/-- The last `n` units that have moved copied back, in descending order. -/
def State.backUnits (s : State) (p : Fin 16) (k : Nat) : (n : Nat) → State
  | 0 => s
  | n + 1 => if k = 0 then s else (s.backUnit p (k - 1)).backUnits p (k - 1) n

/-- Event 0x0005 for a unit action: kind, index, action, status (Table TRB-7). -/
def State.logUnit (s : State) (kind index action : Nat) (st : St) : State :=
  s.log 0x0005 20 index ([nb kind, nb index, nb action] ++ leBytes 2 st.code)

/-- A group of 16 units evacuated: they land at their folded places and k_moved advances; after the last group the package shows FENCED. -/
def State.evacuate (s : State) (f : PkgFence) : State :=
  let s1 := (List.range 16).foldl (fun (t : State) i => if f.kMoved + i < s.pkgUnits then t.copyUnit f.pkg (f.kMoved + i) else t) s
  if s.pkgUnits ≤ f.kMoved + 16 then
    { s1 with
      fence := some { f with kMoved := s.pkgUnits, state := .fenced }
      trb := { s1.trb with fenced := ⟨1, f.pkg.val⟩ :: s1.trb.fenced } }.logUnit 1 f.pkg.val 0 .ok
  else s1

/-- EVACUATION_GROUP_COPIED (R150 to R152): the next group of an EVACUATING package is moved, or that of a RESTORING one is copied back. -/
def execEvacuationGroupCopied (s : State) : Host.Outcome State Fault Refusal :=
  match s.fence with
  | some f =>
    if f.state == .evacuating then done s (s.evacuate f)
    else if f.state == .restoring then done s (s.backUnits f.pkg f.kMoved 16)
    else done s s
  | none => done s s

/-- RESTORE_DONE (R152): the units that are still away are copied back, the top region is mapped again with undefined contents, and the package shows
ON. -/
def execRestoreDone (s : State) : Host.Outcome State Fault Refusal :=
  match s.fence with
  | some f =>
    if f.state == .restoring then
      let u := s.backUnits f.pkg f.kMoved f.kMoved
      let t := { u with fence := none, trb := { u.trb with fenced := u.trb.fenced.filter fun x => x != UnitId.mk 1 f.pkg.val } }
      done s ((t.undefine (s.uTop * 256) (s.mainCap - s.uTop * 256)).logUnit 1 f.pkg.val 2 .ok)
    else done s s
  | none => done s s

end Sys2Proof.Machine
end

