-- ==== Sys2Proof/Machine/Timebase.lean ====
section
/-! DEFINITION. Network time (chapter NET, R391 to R398): the conversion of a count, the latches, the two ops of TB_CMD, and PPS. -/
namespace Sys2Proof.Machine

/-- The rate term of R391 for a count. -/
def Tb.rateTerm (t : Tb) (c : Nat) : Int := ((c : Int) - t.anchor.toNat) * t.rate.toInt * 102400 / (2 ^ 48 : Nat)

/-- The network time of a count in units of 2^-16 ns (R391). -/
def Tb.time (t : Tb) (c : Nat) : Nat := ((t.offset.toNat + (c : Int) * 102400 + t.rateTerm c) % (2 ^ 80 : Nat)).toNat

/-- The low 32 bits of network time in nanoseconds. -/
def Tb.ns32 (t : Tb) (c : Nat) : Nat := t.time c / 65536 % 2 ^ 32

/-- TB_NOW_READ (R392): a read of TB_NOW_CNT word 0 latches the count and its network time for the reading port and returns the word. -/
def execTbNowRead (p : Port) (s : State) : Host.Outcome State Fault Refusal :=
  let t := s.setPort p { s.port p with nowCnt := s.counter, nowTime := BitVec.ofNat 80 (s.tb.time s.now) }
  done s (s.hostRow p (t.emit (.readData (some p) (leBytes 4 s.now))))

/-- TB_RESULT of a port. -/
def State.tbResult (s : State) (p : Port) (st : St) (w : Nat) : State :=
  s.setPort p { s.port p with tbResStatus := BitVec.ofNat 16 st.code, tbResCount := BitVec.ofNat 32 w }

/-- The module follows its active partner's timebase (R422). -/
def State.tbFollows (s : State) : Bool := s.sph.role = 1 && s.sph.tbFollow

/-- A TIMEBASE message with the values that applied at count w (Table PRG-7, R422): the active module sends one. -/
def State.sendTimebase (s : State) (w : Nat) : State :=
  if s.sph.role = 0 then
    s.siphonSend 0x11 0 0 0 0 0 w
      (leBytes 10 s.tb.offset.toNat ++ repByte 2 0 ++ leBytes 5 s.tb.rate.toNat ++ repByte 3 0 ++ leBytes 8 s.tb.anchor.toNat ++ repByte 4 0)
  else s

/-- An op written to TB_CMD waits for its count; a following standby ignores it (R393, R422). -/
def State.tbWrite (s : State) (p : Port) (o : TbOp) : State :=
  s.hostRow p (if s.tbFollows then s.flag .sph 8 else { s with tb := { s.tb with ops := s.tb.ops ++ [o] } })

/-- TB_RATE_OP: TB_CMD op 1 (R393, R422). -/
def execTbRateOp (p : Port) (s : State) : Host.Outcome State Fault Refusal :=
  done s (s.tbWrite p (.rate p (s.port p).tbRateSet))

/-- TB_STEP_OP: TB_CMD op 2 (R393, R394, R422). -/
def execTbStepOp (p : Port) (force : Bool) (s : State) : Host.Outcome State Fault Refusal :=
  done s (s.tbWrite p (.step p (s.port p).tbAdj force))

/-- The next second for which PPS_OUT may rise is taken from the new time (R396). -/
def State.ppsRestart (s : State) : State := { s with tb := { s.tb with ppsSecond := none } }

/-- Op 1 at count w: time is continuous there, and a rate beyond 1,000 ppm is refused (R393). -/
def State.tbRate (s : State) (p : Port) (r : BitVec 40) (w : Nat) : State :=
  if 281474976710 < r.toInt.natAbs then s.tbResult p .badCommand w
  else
    let off := BitVec.ofInt 80 (s.tb.offset.toNat + s.tb.rateTerm w)
    (({ s with tb := { s.tb with offset := off, anchor := BitVec.ofNat 64 w, rate := r } }).tbResult p .ok w).sendTimebase w

/-- Op 2 at count w: the adjustment is added, and one beyond TB_JUMP_MAX is refused unless it is forced (R393). -/
def State.tbStep (s : State) (p : Port) (a : BitVec 80) (force : Bool) (w : Nat) : State :=
  if s.tb.jumpMax.toNat * 65536 < a.toInt.natAbs && !force then (s.tbResult p .timeJumpRefused w).flag .tb 0
  else ((({ s with tb := { s.tb with offset := s.tb.offset + a } }).tbResult p .ok w).ppsRestart).sendTimebase w

/-- Port of an op. -/
def TbOp.port : TbOp → Port
  | .rate p _ => p
  | .step p _ _ => p

/-- The op that applies next: port A's before port B's, and each port's in the order written (R393). -/
def nextTbOp (os : List TbOp) : Option TbOp :=
  match os.find? fun o => o.port == .a with
  | some o => some o
  | none => os.head?

/-- One op applies at the present count (R393). -/
def State.tbOpGo (s : State) : State :=
  match nextTbOp s.tb.ops with
  | some o =>
    let t := { s with tb := { s.tb with ops := s.tb.ops.erase o } }
    match o with
    | .rate p r => t.tbRate p r s.now
    | .step p a force => t.tbStep p a force s.now
  | none => s

/-- Whole seconds of full network time at a count. -/
def Tb.second (t : Tb) (c : Nat) : Nat := t.time c / 65536 / 1000000000

/-- PPS_OUT_RISE (R396): PPS_OUT rises at the first count at which network time has reached a new whole second. -/
def execPpsOutRise (s : State) : Host.Outcome State Fault Refusal :=
  let sec := s.tb.second s.now
  let atEdge := s.now ≠ 0 && s.tb.second (s.now - 1) != sec
  if s.tb.pps.getLsbD 0 && !s.tb.ppsStopped && !s.tb.ppsLevel && s.sys.clocked && atEdge && s.tb.ppsSecond != some sec then
    done s ({ s with tb := { s.tb with ppsLevel := true, ppsRose := s.now, ppsSecond := some sec } }.emit (.ppsOut true))
  else done s s

/-- Width of the PPS_OUT pulse in counts. -/
def Tb.ppsWidth (t : Tb) : Nat :=
  let w := t.pps.toNat / 4
  (if w = 0 then 100 else w) * 640000

/-- PPS_OUT_FALL (R396). -/
def execPpsOutFall (s : State) : Host.Outcome State Fault Refusal :=
  if s.tb.ppsLevel && s.tb.ppsRose + s.tb.ppsWidth ≤ s.now then
    done s ({ s with tb := { s.tb with ppsLevel := false } }.emit (.ppsOut false))
  else done s s

/-- PPS_IN_EDGE (R397): the edge's count, taken within its accuracy, is stored and the edge counted. -/
def execPpsInEdge (stamp : W64) (s : State) : Host.Outcome State Fault Refusal :=
  if s.sys.rails == .on && s.sys.clocked then
    done s { s with tb := { s.tb with ppsIn := stamp, ppsInN := s.tb.ppsInN + 1, ppsWatch := stamp.toNat } }
  else done s s

/-- PPS_IN_LOST (R397): 1.5 s (960,000,000 counts) without an edge under in_watch. -/
def execPpsInLost (s : State) : Host.Outcome State Fault Refusal :=
  if s.tb.pps.getLsbD 1 && s.tb.ppsWatch + 960000000 ≤ s.now then done s (s.flag .tb 1) else done s s

end Sys2Proof.Machine
end

