-- ==== Sys2Proof/Machine/Loop.lean ====
section
/-! DEFINITION. The loop engines (chapter LPE): stations and axes, trajectory queues, the control law, faults and safe actions, drive and
feedback frames, paired axes and FAULT_OUT. -/
namespace Sys2Proof.Machine

/-! ## The configuration blocks (Tables LPE-1 and LPE-2) -/

/-- A configuration block copied from main memory, a well or a pool; none when part of it is unmapped or read as poisoned (R358, R359). -/
def State.readBlock (s : State) (a len : Nat) : Option (List Byte) × State :=
  if a + len ≤ poolBase + 8 * poolBytes && s.mapped a len then
    let (bs, t) := s.load a len
    (if anyPoison bs then none else some (plain bs), t)
  else (none, s)

/-- Fields of the station block. -/
def Station.port (x : Station) : EthId := Fin.ofNat 6 (fieldAt x.blk 0 1)
def Station.pcp (x : Station) : Nat := fieldAt x.blk 1 1
def Station.vlan (x : Station) : Nat := fieldAt x.blk 2 2
def Station.mac (x : Station) : List Byte := bytesAt x.blk 4 6
def Station.part (x : Station) : PartId := Fin.ofNat 16 (fieldAt x.blk 10 1)
def Station.period (x : Station) : Nat := fieldAt x.blk 12 4
def Station.fbOff (x : Station) : Nat := fieldAt x.blk 24 4
def Station.launchOff (x : Station) : Nat := fieldAt x.blk 28 4

/-- Fields of the axis block. -/
def Axis.station (x : Axis) : Nat := fieldAt x.blk 0 1
def Axis.index (x : Axis) : Nat := fieldAt x.blk 1 1
def Axis.pairOf (x : Axis) : PairId := Fin.ofNat 4 (bfield x.blk 16 2)
def Axis.follow (x : Axis) : Bool := bfield x.blk 23 1 == 1
def Axis.part (x : Axis) : PartId := Fin.ofNat 16 (fieldAt x.blk 3 1)
def Axis.cubic (x : Axis) : Bool := fieldAt x.blk 4 1 == 1
def Axis.safe (x : Axis) : Nat := fieldAt x.blk 5 1
def Axis.missLimit (x : Axis) : Nat := fieldAt x.blk 6 1
def Axis.faultOut (x : Axis) : Bool := bfield x.blk 56 1 == 1
def Axis.kp (x : Axis) : W32 := f32At x.blk 8
def Axis.ki (x : Axis) : W32 := f32At x.blk 12
def Axis.kd (x : Axis) : W32 := f32At x.blk 16
def Axis.n (x : Axis) : W32 := f32At x.blk 20
def Axis.kff (x : Axis) : W32 := f32At x.blk 24
def Axis.iMin (x : Axis) : W32 := f32At x.blk 28
def Axis.iMax (x : Axis) : W32 := f32At x.blk 32
def Axis.outMin (x : Axis) : W32 := f32At x.blk 36
def Axis.outMax (x : Axis) : W32 := f32At x.blk 40
def Axis.rateMax (x : Axis) : W32 := f32At x.blk 44
def Axis.rampStep (x : Axis) : W32 := f32At x.blk 48
def Axis.ferrMax (x : Axis) : W32 := f32At x.blk 52
def Axis.ferrSamples (x : Axis) : Nat := fieldAt x.blk 56 2
def Axis.emptyLimit (x : Axis) : Nat := fieldAt x.blk 58 2
def Axis.uStart (x : Axis) : W32 := f32At x.blk 60
def Axis.tqBase (x : Axis) : Nat := fieldAt x.blk 64 8
def Axis.tqEntries (x : Axis) : Nat := fieldAt x.blk 72 4
def Axis.tqProd (x : Axis) : Nat := fieldAt x.blk 80 8

/-- The axis takes part in its station: ARMED, RUN or FAULT. -/
def Axis.live (x : Axis) : Bool := x.state == .armed || x.state == .run || x.state == .fault

/-- Die of an axis and of a station (R357). -/
def dieOfAxis (a : AxisId) : Die := ⟨a.val / 64, by omega⟩
def dieOfStation (st : StationId) : Die := ⟨st.val / 16, by omega⟩
/-- Die of an Ethernet port: E0 to E2 on die 0 (Table NET-1). -/
def dieOfEth (e : EthId) : Die := if e.val < 3 then 0 else 1

/-- The axis is configured: it is not OFF and holds a block (log entry 202). -/
def Axis.configured (x : Axis) : Bool := x.state != .off && !x.blk.isEmpty

/-- Axes of a station that take part in it, in ascending index: those ARMED, in RUN or in FAULT (log entry 202). -/
def State.axesOf (s : State) (st : StationId) : List AxisId :=
  let mine := (allFin 128).filter fun a => s.axes[a].live && s.axes[a].station == st.val && dieOfAxis a == dieOfStation st
  (List.range 8).flatMap fun i => mine.filter fun a => s.axes[a].index == i

/-- The state with one axis or station replaced. -/
def State.setAxis (s : State) (a : AxisId) (x : Axis) : State := { s with axes := s.axes.set a x }
def State.setStation (s : State) (st : StationId) (x : Station) : State := { s with stations := s.stations.set st x }

/-- Extra lead of a station's frame assembly: 12 for a port on the other die, 64 for a station with a paired axis (R363). -/
def leadOf (far paired : Bool) : Nat := 96 + (if far then 12 else 0) + (if paired then 64 else 0)

/-- The pair of an axis is PAIRED and the axis follows it (R376). -/
def State.axisPaired (s : State) (x : Axis) : Bool := x.follow && s.pairs[x.pairOf].state == .paired

/-- A station carries an axis that runs paired. -/
def State.stPaired (s : State) (st : StationId) : Bool := (s.axesOf st).any fun a => s.axes[a].paired

/-- t_k of a station (R362). -/
def Station.inst (x : Station) (k : Nat) : Nat := x.phase + k * x.period

/-- The loop engine of a die can be loaded: it is there, powered and not fenced. -/
def State.lpeUsable (s : State) (d : Die) : Bool :=
  s.diePresent d && s.domainOn (Fin.ofNat 128 (112 + d.val)) && !s.isFenced 7 d.val

/-! ## Register writes (R360) -/

/-- A write to a register of an axis or station is accepted: from any attached port while the unit is OFF or its partition is CLOSED, as after
PART_CLOSE, and else from the port that owns its partition, of which an ORPHANED partition has none (R360, R379, R484). -/
def State.lpeMayWrite (s : State) (p : Port) (off : Bool) (q : PartId) : Bool :=
  if off || !s.parts[q].isOpen then (s.port p).attached else s.owns p q

/-- A port may write an axis's registers; one that has never had a block belongs to no partition (log entry 202). -/
def State.mayAxis (s : State) (p : Port) (a : AxisId) : Bool := s.lpeMayWrite p (!s.axes[a].configured) s.axes[a].part

/-- A port may write a station's registers. -/
def State.mayStation (s : State) (p : Port) (st : StationId) : Bool :=
  s.lpeMayWrite p (s.stations[st].state == .off || s.stations[st].blk.isEmpty) s.stations[st].part

/-- A host's command to an axis or station of a die: nothing on a die that is absent (R486), ignored and flagged where the port may not write (R360),
and else its effect. -/
def State.loopRow (s : State) (p : Port) (d : Die) (may : Bool) (body : State) : State :=
  s.hostRow p (if !s.diePresent d then s else if !may then s.flag (.lpe d) 1 else body)

/-! ## Stations (R358) -/

/-- The fields of a station block lie in their ranges and leave the gap for no axis. -/
def stationOk (st : StationId) (b : List Byte) : Bool :=
  let x : Station := { blk := b }
  let vlan := x.vlan
  let far := dieOfEth x.port != dieOfStation st
  fieldAt b 0 1 ≤ 5 && x.pcp ≤ 7 && (vlan ≤ 4094 || vlan == 0xFFFF) && fieldAt b 10 1 ≤ 15 && fieldAt b 11 1 == 0 &&
  20000 ≤ x.period && x.period ≤ 640000 && fieldAt b 22 2 == 0 && fieldAt b 32 32 == 0 &&
  640 ≤ x.fbOff && x.fbOff + 1 ≤ x.period && x.launchOff + 1 ≤ x.period && x.fbOff + leadOf far false ≤ x.launchOff

/-- Axes of a station that are not OFF, whichever their state (R358, R359). -/
def State.notOffOf (s : State) (st : Nat) : List AxisId :=
  (allFin 128).filter fun a => s.axes[a].configured && s.axes[a].station == st

/-- A slot of the other die that a configured following axis reserves (R376, log entry 203). -/
def State.axisReserved (s : State) (a : AxisId) : Bool :=
  let o : AxisId := Fin.ofNat 128 (a.val + 64)
  s.axes[o].configured && s.axes[o].follow
def State.stationReserved (s : State) (st : StationId) : Bool :=
  (s.notOffOf ((st.val + 16) % 32)).any fun a => s.axes[a].follow

/-- A block may be loaded into a station (R358, R376, R419, log entry 181). -/
def State.stationFits (s : State) (p : Port) (st : StationId) (b : List Byte) : Bool :=
  let x := s.stations[st]
  let y : Station := { blk := b }
  stationOk st b && (x.state == .off || x.state == .notReady) && s.lpeUsable (dieOfStation st) && s.owns p y.part && s.sph.role ≠ 1 &&
  !s.stationReserved st

/-- A station with a block loaded at a count: sample numbering begins at the first instant after it (R362). -/
def Station.loaded (x : Station) (b : List Byte) (now : Nat) : Station :=
  let y : Station := { blk := b }
  let phase := near48 now (fieldAt b 16 6)
  { x with
    state := .run, blk := b, phase := phase, next := if now < phase then 0 else (now - phase) / y.period + 1
    updated := none, fb := none, held := none }

/-- STATION_LOAD: op 0b01 of LPE_ST_CTL (R358, R360, R419). -/
def execStationLoad (p : Port) (st : StationId) (s : State) : Host.Outcome State Fault Refusal :=
  let x := s.stations[st]
  let (blk, s1) := s.readBlock x.cfgAddr.toNat 64
  let refused := s1.flag (.lpe (dieOfStation st)) 0
  done s (s.loopRow p (dieOfStation st) (s.mayStation p st) (match blk with
    | none => refused
    | some b => if s.stationFits p st b then s1.setStation st (x.loaded b s.now) else refused))

/-- A station's NOT_READY axes become OFF (R358). -/
def State.axesOff (s : State) (st : StationId) : State :=
  { s with axes := s.axes.map fun (x : Axis) =>
      if x.state == .notReady && x.configured && x.station == st.val then { x with state := .off, cause := 0, blk := [] } else x }

/-- STATION_DISABLE: op 0b10 of LPE_ST_CTL (R358). -/
def execStationDisable (p : Port) (st : StationId) (s : State) : Host.Outcome State Fault Refusal :=
  done s (s.loopRow p (dieOfStation st) (s.mayStation p st)
    (if !(s.axesOf st).isEmpty then s.flag (.lpe (dieOfStation st)) 0
    else (s.setStation st { s.stations[st] with state := .off, updated := none, fb := none, held := none }).axesOff st))

/-! ## Axes (R359, R361) -/

/-- The queue and the producer word lie in mapped main memory or in a pool unit of the partition (R359). -/
def State.lpePlaced (s : State) (q : PartId) (a len : Nat) : Bool :=
  if a < wellBase then s.inMain a len
  else poolBase ≤ a && a + len ≤ poolBase + 8 * poolBytes && s.mayName q a len false

/-- The fields of an axis block lie in their ranges (Table LPE-2). -/
def axisOk (b : List Byte) : Bool :=
  let x : Axis := { blk := b }
  let fin := fun o => fFinite (f32At b o)
  let pos := fun v => flt 0 v
  bfield b 18 5 == 0 && x.index ≤ 7 && fieldAt b 4 1 ≤ 1 && x.safe ≤ 2 && 1 ≤ x.missLimit && bfield b 57 7 == 0 &&
  [8, 12, 16, 20, 24, 28, 32, 36, 40, 48, 60].all fin && !flt x.n 0 && fle x.iMin x.iMax && flt x.outMin x.outMax &&
  pos x.rateMax && pos x.rampStep && pos x.ferrMax && 1 ≤ x.ferrSamples && fle x.outMin x.uStart && fle x.uStart x.outMax &&
  x.tqBase % 16 == 0 && x.tqBase < 2 ^ 40 && (List.range 13).any (fun i => x.tqEntries == 2 ^ (i + 4)) && fieldAt b 76 4 == 0 &&
  x.tqProd % 8 == 0 && x.tqProd < 2 ^ 40 && fieldAt b 88 40 == 0


/-- A block may be loaded into an axis (R359, R363, R376). -/
def State.axisFits (s : State) (a : AxisId) (b : List Byte) : Bool :=
  let x : Axis := { blk := b }
  let d := dieOfAxis a
  if h : x.station < 32 then
    let stId : StationId := ⟨x.station, h⟩
    let st := s.stations[stId]
    let others := (s.notOffOf x.station).filter fun o => o != a
    let far := dieOfEth st.port != d
    let paired := x.follow || others.any fun o => s.axes[o].follow
    let gap := 32 * (others.length + 1) + leadOf far paired
    let shadow : AxisId := Fin.ofNat 128 (a.val + 64)
    let shadowSt : StationId := Fin.ofNat 32 (stId.val + 16)
    dieOfStation stId == d && s.lpeUsable d && st.state == .run && fieldAt b 3 1 == fieldAt st.blk 10 1 &&
    !(others.any fun o => s.axes[o].index == x.index) &&
    !(x.follow && (s.axes[shadow].state != .off || s.stations[shadowSt].state != .off)) && !s.axisReserved a &&
    st.fbOff + gap ≤ st.launchOff &&
    s.lpePlaced x.part x.tqBase (16 * x.tqEntries) && s.lpePlaced x.part x.tqProd 8
  else false

/-- alpha, beta and kiT for a period (R368). -/
def Axis.derive (x : Axis) (period : Nat) : Axis :=
  let t := fdiv (fpCvt period) (fpCvt 640000000)
  let alpha := fdiv fpOne (ffma x.n t fpOne)
  { x with alpha := alpha, beta := fmul (fmul x.kd x.n) alpha, kiT := fmul x.ki t }

/-- The period of the station that an axis names. -/
def State.periodOf (s : State) (x : Axis) : Nat := s.stations[(Fin.ofNat 32 x.station : Fin 32)].period

/-- A reload takes effect at a sample instant: new gains and limits, the integrator clamped to them (R359, R368). -/
def State.applyReload (s : State) (x : Axis) : Axis :=
  match x.reload with
  | some b =>
    let y := ({ x with blk := b, reload := none }).derive (s.periodOf x)
    { y with i := fmin (fmax y.i y.iMin) y.iMax }
  | none => x

/-- The axis takes a load as a reload: it is ARMED or in RUN (R359). -/
def Axis.reloads (x : Axis) : Bool := x.state == .armed || x.state == .run

/-- A block changes only what a reload may change: bytes 8 to 59 (R359). -/
def Axis.mayReload (x : Axis) (b : List Byte) : Bool := b.take 8 == x.blk.take 8 && b.drop 60 == x.blk.drop 60

/-- An axis armed with a block: the queue runs on where a load from FAULT leaves it as it was, and the output last sent takes the place of u_init
(R361, R365, R370). -/
def Axis.armedWith (x : Axis) (b : List Byte) : Axis :=
  let y : Axis := { blk := b }
  let fromFault := x.state == .fault
  let keep := fromFault && x.tqBase == y.tqBase && x.tqEntries == y.tqEntries && x.tqProd == y.tqProd
  let u0 := if fromFault then x.u else y.uStart
  { cfgAddr := x.cfgAddr, state := .armed, u := x.u, e := x.e, blk := b, uInit := u0, uPrev := u0
    cons := if keep then x.cons else 0, prod := if keep then x.prod else 0 }

/-- AXIS_LOAD: op 0b01 of LPE_AX_CTL (R359, R360, R365, R368, R370). -/
def execAxisLoad (p : Port) (a : AxisId) (s : State) : Host.Outcome State Fault Refusal :=
  let x := s.axes[a]
  let (blk, s1) := s.readBlock x.cfgAddr.toNat 128
  let refused := s1.flag (.lpe (dieOfAxis a)) 0
  done s (s.loopRow p (dieOfAxis a) (s.mayAxis p a) (match blk with
    | none => refused
    | some b =>
      if !axisOk b || !s.axisFits a b || (x.reloads && !x.mayReload b) then refused
      else if x.reloads then s1.setAxis a { x with reload := some b }
      else
        let y := x.armedWith b
        s1.setAxis a (y.derive (s.periodOf y))))

/-- AXIS_DISABLE: op 0b10 of LPE_AX_CTL (R361). -/
def execAxisDisable (p : Port) (a : AxisId) (s : State) : Host.Outcome State Fault Refusal :=
  let x := s.axes[a]
  done s (s.loopRow p (dieOfAxis a) (s.mayAxis p a)
    (if x.state == .armed || x.state == .fault then
      s.setAxis a { x with state := .off, cause := 0, blk := [], reload := none, goRun := false, paired := false }
    else s.flag (.lpe (dieOfAxis a)) 0))

/-- Sticky bit of a fault cause (Table LPE-5). -/
def causeBit : Nat → Option Nat
  | 1 => some 10 | 2 => some 9 | 3 => some 8 | 4 => some 11 | 5 => some 5 | 6 => some 6 | 7 => some 7
  | _ => none

/-- An axis faults with causes that arose together: the first listed is recorded, every one is flagged, and FAULT_OUT falls when the axis
drives it (R374, R378). -/
def State.axisFault (s : State) (a : AxisId) (causes : List Nat) : State :=
  let k := Sticky.lpe (dieOfAxis a)
  let x := s.axes[a]
  let c := causes.foldl min 8
  let s1 := s.setAxis a { x with state := .fault, cause := c, goRun := false }
  let s2 := causes.foldl (fun t i => match causeBit i with
    | some b => t.flag k b
    | none => t) s1
  { s2 with
    cnts := { s2.cnts with lpeFault := vbump 8 s2.cnts.lpeFault (dieOfAxis a) 1 }
    lpeLatched := s2.lpeLatched || x.faultOut }

/-- Axes that meet a test are tripped with cause SOFTWARE: those ARMED or in RUN (R361, R379, R382). -/
def State.tripAxes (s : State) (f : Axis → Bool) : State :=
  (allFin 128).foldl (fun t a =>
    let x := t.axes[a]
    if x.reloads && f x then t.axisFault a [8] else t) s

/-- AXIS_TRIP: op 0b11 of LPE_AX_CTL (R361). -/
def execAxisTrip (p : Port) (a : AxisId) (s : State) : Host.Outcome State Fault Refusal :=
  done s (s.loopRow p (dieOfAxis a) (s.mayAxis p a) (if s.axes[a].reloads then s.axisFault a [8] else s))

/-! ## Trajectory queues (R365 to R367) -/

/-- A trajectory point: its count, position and velocity. -/
structure Point where
  t : Nat
  p : W32
  v : W32

/-- Point n of an axis's queue, none when it is not finite (R367). -/
def State.point (s : State) (x : Axis) (n : W32) : Option Point :=
  let b := s.bytes (x.tqBase + 16 * (n.toNat % x.tqEntries)) 16
  let p := f32At b 8
  let v := f32At b 12
  if fFinite p && fFinite v then some ⟨near48 s.now (fieldAt b 0 6), p, v⟩ else none

/-- The producer word as read, none when it moved backwards or runs more than tq_entries ahead of the consumer count (R367). -/
def State.producer (s : State) (x : Axis) : Option W32 :=
  let w : W32 := BitVec.ofNat 32 (fieldAt (s.bytes x.tqProd 8) 0 4)
  if (w - x.prod).toNat < 2 ^ 31 && (w - x.cons).toNat ≤ x.tqEntries then some w else none

/-- The consumer count advanced to a sample instant; the flag tells of a bad point (R366, R367). -/
def State.advance (s : State) (x : Axis) (prod : W32) (tk : Nat) : (fuel : Nat) → W32 → Point → W32 × Point × Option Point × Bool
  | 0, c, pc => (c, pc, none, false)
  | fuel + 1, c, pc =>
    if (prod - c).toNat ≤ 1 then (c, pc, none, false)
    else match s.point x (c + 1) with
      | none => (c, pc, none, true)
      | some q =>
        if q.t ≤ pc.t then (c, pc, none, true)
        else if q.t ≤ tk then s.advance x prod tk fuel (c + 1) q
        else (c, pc, some q, false)

/-- Setpoint and velocity between two points (R366). -/
def interpolate (cubic : Bool) (a b : Point) (tk : Nat) : W32 × W32 :=
  let dt : Int := (b.t : Int) - a.t
  let s := fdiv (fpCvt ((tk : Int) - a.t)) (fpCvt dt)
  let dp := fsub b.p a.p
  let vel := ffma s (fsub b.v a.v) a.v
  if cubic then
    let h := fdiv (fpCvt dt) (fpCvt 640000000)
    let s2 := fmul s s
    let w := fsub fpOne s
    let q := fmul s2 (ffma (fpCvt (-2)) s (fpCvt 3))
    let b0 := fmul (fmul h s) (fmul w w)
    let b1 := fmul (fmul h s2) w
    (ffma q dp (ffma b0 a.v (ffma (fneg b1) b.v a.p)), vel)
  else (ffma s dp a.p, vel)

/-- Where the queue stands at a sample: consumer count, producer word, setpoint, velocity and whether the sample is empty; none on a fault of the
queue, with the consumer count reached. -/
def State.setpoint (s : State) (x : Axis) (tk : Nat) : W32 × Option (W32 × W32 × W32 × Bool) :=
  match s.producer x with
  | none => (x.cons, none)
  | some prod =>
    match s.point x x.cons with
    | none => (x.cons, none)
    | some p0 =>
      match s.advance x prod tk x.tqEntries x.cons p0 with
      | (c, _, _, true) => (c, none)
      | (c, pc, none, false) => (c, some (prod, pc.p, 0, decide (pc.t ≤ tk)))
      | (c, pc, some q, false) =>
        if tk < pc.t then (c, some (prod, pc.p, 0, false))
        else
          let (r, v) := interpolate x.cubic pc q tk
          (c, some (prod, r, v, false))

/-- What the engine reads at a sample of a RUN axis: the producer word, and the points from the consumer count to the first one that it does not pass. -/
def State.queueEcc (s : State) (x : Axis) (c : W32) : State :=
  let t := s.readEcc x.tqProd 8
  match s.producer x with
  | none => t
  | some prod =>
    let n := (c - x.cons).toNat + 1 + (if 1 < (prod - c).toNat && (s.point x x.cons).isSome then 1 else 0)
    (List.range n).foldl (fun (u : State) i => u.readEcc (x.tqBase + 16 * ((x.cons.toNat + i) % x.tqEntries)) 16) t

/-! ## The control law (R369 to R373) -/

/-- One step of the law on a measured position: the axis after it, the output not taken when v is NaN (R369, R370). -/
def Axis.law (x : Axis) (y : W32) : Axis × Bool :=
  let e := fsub x.r y
  let p := fmul x.kp e
  let i := fmin (fmax (ffma x.kiT e x.i) x.iMin) x.iMax
  let yp := if x.ySet then x.yPrev else y
  let d := ffma x.alpha x.d (fmul x.beta (fsub yp y))
  let v := fadd (fadd (fadd p i) d) (fmul x.kff x.vel)
  let w := fmin (fmax v (fsub x.uPrev x.rateMax)) (fadd x.uPrev x.rateMax)
  let u := fmin (fmax w x.outMin) x.outMax
  if fIsNaN v then (x, false) else ({ x with i := i, d := d, yPrev := y, ySet := true, uPrev := u }, true)

/-- The safe output from the previous output (R373). -/
def Axis.safeOut (x : Axis) : W32 :=
  if x.safe = 0 then x.uPrev
  else if x.safe = 1 then 0
  else if fle (fabs x.uPrev) x.rampStep then 0
  else if flt 0 x.uPrev then fsub x.uPrev x.rampStep
  else fadd x.uPrev x.rampStep

/-- The record of an axis in a feedback payload: position and drive status (Table LPE-7). -/
def fbRecord (payload : List Byte) (a : AxisId) : Option (W32 × Nat) :=
  ((List.range (fieldAt payload 12 1)).find? fun j => fieldAt payload (16 + 16 * j + 10) 1 == a.val).map fun j =>
    (f32At payload (16 + 16 * j), fieldAt payload (16 + 16 * j + 8) 2)

/-- A RUN axis's following error is checked: its count, and whether the axis faults (R372). -/
def Axis.ferr (x : Axis) : Axis × Bool :=
  if flt x.ferrMax (fabs x.e) then
    let c := satAdd 16 x.ferrCount 1
    ({ x with ferrCount := c }, decide (x.ferrSamples ≤ c))
  else if fle (fabs x.e) x.ferrMax then ({ x with ferrCount := 0 }, false)
  else (x, false)

/-- A miss (R371): the axis and whether it faults. -/
def Axis.miss (x : Axis) : Axis × Bool :=
  let r := x.missRun + 1
  ({ x with missed := true, missRun := min r 255, missTotal := satAdd 24 x.missTotal 1 }, decide (x.missLimit ≤ r))

/-- A RUN axis at sample k: the axis with its new state and the causes that arose (R366 to R372). -/
def State.runAxis (s : State) (x : Axis) (k tk : Nat) (rec_ : Option (W32 × Nat)) (late orphan : Bool) : Axis × List Nat :=
  let (c, sp) := s.setpoint x tk
  let (x1, c1) : Axis × List Nat := match sp with
    | none => ({ x with cons := c }, [3])
    | some (prod, r, vel, empty) =>
      let run := if empty then x.emptyRun + 1 else 0
      let under := empty && (orphan || (x.emptyLimit ≠ 0 && x.emptyLimit < run))
      ({ x with cons := c, prod := prod, r := r, vel := vel, rk := some k, empty := empty, emptyRun := run }, if under then [7] else [])
  match rec_, late with
  | some (y, _), false =>
    let x2 := { x1 with missed := false, missRun := 0 }
    if sp.isNone then (x2, c1)
    else
      let (x3, bad) := { x2 with e := fsub x2.r y }.ferr
      let (x4, taken) := x3.law y
      let causes := c1 ++ (if bad then [6] else []) ++ (if taken then [] else [4])
      (if causes.isEmpty then x4 else x3, causes)
  | _, _ =>
    let (x2, bad) := x1.miss
    (x2, c1 ++ if bad then [5] else [])

/-- The 32-byte axis state record (Table PRG-9). -/
def axisRecord (x : Axis) (k tk : Nat) (r : W32) : List Byte :=
  f32Bytes x.u ++ f32Bytes r ++ f32Bytes x.e ++ f32Bytes x.i ++ leBytes 4 k ++ leBytes 4 x.cons.toNat ++
  leBytes 1 (match x.state with
    | .off => 0 | .armed => 1 | .run => 2 | .fault => 3 | .notReady => 4) ++
  leBytes 1 x.cause ++ leBytes 2 x.station ++ leBytes 4 tk

/-- Setpoint and velocity that a frame or state record shows for sample k: those of the sample, or open values when the law did not run at it
(log entry 12). -/
def Axis.shown (x : Axis) (a : AxisId) (k : Nat) : W32 × W32 :=
  if x.rk = some k then (x.r, x.vel)
  else (BitVec.ofNat 32 (Config.openVal 375 [a.val, k, 0]), BitVec.ofNat 32 (Config.openVal 375 [a.val, k, 1]))

/-- One axis at sample k of its station (R363 to R373): `late` when its update does not finish by A. -/
def State.sampleAxis (s : State) (a : AxisId) (k tk : Nat) (payload : Option (List Byte)) (late orphan : Bool) : State :=
  let x := s.axes[a]
  let rec_ := payload.bind fun b => fbRecord b a
  let drive : List Nat := match rec_ with
    | some (_, ds) => if ds % 2 = 1 && x.state != .fault then [2] else []
    | none => []
  let (y, causes) : Axis × List Nat :=
    match x.state with
    | .run => s.runAxis x k tk rec_ late orphan
    | .armed =>
      match s.producer x with
      | none => (x, [3])
      | some w => ({ x with prod := w, goRun := w != x.cons }, [])
    | _ => (x, [])
  let all := drive ++ causes
  let read := if x.state == .run then s.queueEcc x y.cons else if x.state == .armed then s.readEcc x.tqProd 8 else s
  let s1 := read.setAxis a y
  let s2 := if y.missed && x.state == .run then
      { s1 with cnts := { s1.cnts with lpeMiss := vbump 16 s1.cnts.lpeMiss (dieOfAxis a) 1 } } else s1
  let s3 := (if all.isEmpty then s2 else s2.axisFault a all).flagIf (late && x.state == .run) (.lpe (dieOfAxis a)) 4
  let z := s3.axes[a]
  -- a sample in which a fault arose leaves the law's previous output, from which the safe output is taken
  let base := if all.isEmpty then z else { z with uPrev := x.uPrev, i := x.i, d := x.d, yPrev := x.yPrev, ySet := x.ySet }
  let w := if base.state == .fault then { base with uPrev := base.safeOut, missed := if x.state == .fault then false else base.missed } else base
  let s4 := s3.setAxis a { w with u := w.uPrev }
  if s.sph.role = 0 && s.sph.axm ≠ 0 then
    s4.siphonSend 0x01 0 (s.sph.axm.toNat + 32 * a.val) 0 0 0 0 (axisRecord s4.axes[a] k tk (s4.axes[a].shown a k).1)
  else s4

/-- An axis at a sample instant: a reload takes effect, pairing is entered or left, and an ARMED axis whose queue has begun enters RUN with the initial
state of R370. -/
def State.atInstant (s : State) (x : Axis) : Axis :=
  let y := s.applyReload x
  let z := { y with paired := s.axisPaired y }
  if z.state == .armed && z.goRun then
    { z with state := .run, goRun := false, i := 0, d := 0, ySet := false, uPrev := z.uInit, missRun := 0, ferrCount := 0, emptyRun := 0 }
  else z

/-- A station is in use and a count is one of its sample instants. -/
def Station.atInst (x : Station) (c : Nat) : Bool :=
  (x.state == .run || x.state == .halted) && decide (x.phase ≤ c) && (c - x.phase) % x.period == 0

/-- What happens at the sample instants that fall on the present count (R359, R361, R370, R376). -/
def State.sampleInstants (s : State) : State :=
  (allFin 32).foldl (fun (t : State) st =>
    if t.stations[st].atInst t.now then (t.axesOf st).foldl (fun (u : State) a => u.setAxis a (u.atInstant u.axes[a])) t else t) s

/-- A station whose next sample has reached its feedback deadline and waits for its update. -/
def State.stDue (s : State) (st : StationId) : Bool :=
  let x := s.stations[st]
  (x.state == .run || x.state == .halted) && x.updated.isNone && decide (x.inst x.next + x.fbOff ≤ s.now)

/-- Feedback deadline of a station's next sample. -/
def Station.due (x : Station) : Nat := x.inst x.next + x.fbOff

/-- A station of the same engine comes first: the earlier deadline, then the lower number (R363). -/
def State.stFirst (s : State) (st : StationId) : Bool :=
  (allFin 32).any fun j =>
    dieOfStation j == dieOfStation st && s.stDue j &&
      (decide (s.stations[j].due < s.stations[st].due) || (s.stations[j].due == s.stations[st].due && decide (j.val < st.val)))

/-- FEEDBACK_DUE (R362, R363): the snapshot of the feedback of the next sample, and the update of the station's axes in ascending index, 32 counts
for each RUN axis on the engine, which may still be busy with another station; a station that comes first holds it. -/
def execFeedbackDue (st : StationId) (s : State) : Host.Outcome State Fault Refusal :=
  let x := s.stations[st]
  let k := x.next
  let tk := x.inst k
  if s.stDue st && !s.stFirst st then
    let axes := s.axesOf st
    let payload := match x.fb with
      | some f => if f.k = k then some f.payload else none
      | none => none
    let d := dieOfStation st
    let run := axes.filter fun a => s.axes[a].state == .run
    let start := max (tk + x.fbOff) s.lpeBusy[d]
    let asm_ := tk + x.launchOff - leadOf (dieOfEth x.port != d) (s.stPaired st)
    let orphan := s.parts[x.part].state == .orphaned
    let s2 := axes.foldl (fun t a =>
      let pos := (run.findIdx fun b => b == a) + 1
      t.sampleAxis a k tk payload (decide (asm_ < start + 32 * pos) && run.contains a) orphan) s
    let s3 := s2.setStation st { s2.stations[st] with next := k + 1, updated := some k }
    done s { s3 with lpeBusy := s3.lpeBusy.set d (start + 32 * run.length) }
  else done s s

/-! ## Frames (R375) -/

/-- Big-endian bytes, as Ethernet headers have them. -/
def beBytes (n x : Nat) : List Byte := (leBytes n x).reverse

/-- The bytes of a MAC address register: the first byte of the address in bits [7:0] (R3). -/
def macBytes (m : BitVec 48) : List Byte := leBytes 6 m.toNat

/-- One record of a drive frame (Table LPE-6). -/
def driveRecord (x : Axis) (a : AxisId) (k : Nat) : List Byte :=
  let (r, vel) := x.shown a k
  let fl := (if x.missed then 1 else 0) + (if x.state == .fault then 2 else 0) + 4 * x.safe + (if x.state == .armed then 16 else 0)
  f32Bytes x.u ++ f32Bytes r ++ f32Bytes vel ++ leBytes 2 fl ++ leBytes 2 a.val

/-- The drive frame of sample k without FCS (R375, Table LPE-6). -/
def State.driveFrame (s : State) (st : StationId) (k : Nat) (axes : List AxisId) (compared : Bool) : List Byte :=
  let x := s.stations[st]
  let fault := axes.any fun a => s.axes[a].state == .fault
  let body : List Byte :=
    leBytes 2 0x0101 ++ leBytes 2 st.val ++ leBytes 4 k ++ leBytes 4 (s.tb.ns32 (x.inst k + x.launchOff)) ++ leBytes 4 (s.tb.ns32 (x.inst (k + 1))) ++
    [nb axes.length, nb ((if compared then 1 else 0) + if fault then 2 else 0), 0, 0] ++
    axes.flatMap fun a => driveRecord s.axes[a] a k
  let full := body ++ leBytes 4 (crc32c body)
  let tag : List Byte := if x.vlan = 0xFFFF then [] else [0x81, 0x00] ++ beBytes 2 (x.pcp * 8192 + x.vlan)
  x.mac ++ macBytes s.eth[x.port].mac ++ tag ++ [0x88, 0xB5] ++ full ++ repByte (46 - full.length) 0

/-- A drive frame handed to its port's launch queue. -/
def State.handDrive (s : State) (e : EthId) (f : DriveFrame) : State :=
  { s with eth := vmod s.eth e fun x => { x with drives := x.drives ++ [f] } }

/-- FRAME_ASSEMBLY (R363, R375): at A the frame of the updated sample is built; that of a station with a paired axis waits for its comparison
(R377). -/
def execFrameAssembly (st : StationId) (s : State) : Host.Outcome State Fault Refusal :=
  let x := s.stations[st]
  match x.updated with
  | some k =>
    let launch := x.inst k + x.launchOff
    let paired := s.stPaired st
    if launch - leadOf (dieOfEth x.port != dieOfStation st) paired ≤ s.now then
      let axes := s.axesOf st
      let s1 := s.setStation st { x with updated := none }
      if x.state != .run || axes.isEmpty then done s s1
      else
        let f : DriveFrame := ⟨st, k, launch, s.driveFrame st k axes paired⟩
        done s (if paired then s1.setStation st { s1.stations[st] with held := some f } else s1.handDrive x.port f)
    else done s s
  | none => done s s

/-- A pair is in a mismatch flow, to which a further mismatch adds nothing (R412). -/
def Pair.inFlow (y : Pair) : Bool := y.axisTest || y.state == .testing || y.state == .resync

/-- A drive-frame mismatch on a pair: it is counted and the engines' test of their axis datapaths begins (R409, R413). -/
def State.frameMismatch (s : State) (r : PairId) : State :=
  if s.pairs[r].inFlow then s
  else
    let t := s.flag .prg 1
    { t with pairs := vmod t.pairs r fun y =>
        { y with mismatches := satAdd 8 y.mismatches 1, group := 15, evt := s.counter, axisTest := true } }

/-- DRIVE_FRAME_COMPARE (R377, R409, R413), 64 counts after the frame's assembly: an equal frame is released; otherwise it is not sent, the station is
HALTED, its axes fault with cause PAIR, and the mismatch flow of the pair begins that the lowest-indexed paired axis follows (log entry 203). -/
def execDriveFrameCompare (st : StationId) (equal : Bool) (s : State) : Host.Outcome State Fault Refusal :=
  let x := s.stations[st]
  match x.held with
  | some f =>
    if s.now < f.launch - leadOf (dieOfEth x.port != dieOfStation st) false then done s s
    else if equal then done s ((s.setStation st { x with held := none }).handDrive x.port f)
    else
      let axes := s.axesOf st
      let s2 := { s.setStation st { x with held := none, state := .halted } with lpeLatched := true }
      let s3 := axes.foldl (fun (t : State) a => if t.axes[a].reloads then t.axisFault a [1] else t) (s2.flag (.lpe (dieOfStation st)) 10)
      match axes.find? fun a => s.axes[a].paired with
      | some a => done s (s3.frameMismatch s.axes[a].pairOf)
      | none => done s s3
  | none => done s s

/-- AXIS_SELFTEST_DONE (R413): the outcome of the engines' test, as in Table PRG-5 with the engines in place of the clusters; nothing is
fenced. -/
def execAxisSelftestDone (r : PairId) (pass0 pass1 : Bool) (s : State) : Host.Outcome State Fault Refusal :=
  let y := s.pairs[r]
  if y.axisTest then
    let out : BitVec 2 := if pass0 && pass1 then 1 else if pass0 || pass1 then 2 else 3
    let z := { y with
      axisTest := false, outcome := out, failD0 := !pass0, failD1 := !pass1
      transients := if pass0 && pass1 then satAdd 8 y.transients 1 else y.transients }
    let s1 := { s with pairs := s.pairs.set r z }
    done s (((s1.flagIf (!(pass0 && pass1)) .prg 3).flagIf (pass0 && pass1) .prg 4).log 0x0006 18 r.val [nb r.val, nb z.group.toNat, nb out.toNat])
  else done s s

/-! ## Feedback (R364) -/

/-- Where the payload of an Ethernet frame starts, and its EtherType (one 802.1Q tag at most). -/
def etherOf (f : List Byte) : Nat × Nat :=
  if bytesAt f 12 2 == [0x81, 0x00] then (18, leNat (bytesAt f 16 2).reverse) else (14, leNat (bytesAt f 12 2).reverse)

/-- Stations in use on a port whose drive has an address. -/
def State.stationsAt (s : State) (e : EthId) (src : List Byte) : List StationId :=
  (allFin 32).filter fun st =>
    let x := s.stations[st]
    (x.state == .run || x.state == .halted) && x.port == e && x.mac == src

/-- The sample that a header names by its low 32 bits, nearest to a stamp. -/
def Station.sampleOf (x : Station) (stamp low : Nat) : Int :=
  let k0 : Int := ((stamp : Int) - x.phase) / (x.period : Int)
  k0 + signed 32 (((low : Int) - k0) % (2 ^ 32 : Nat)).toNat

/-- The checks on a feedback payload that need no count: version, station, records, CRC and finite positions. -/
def fbOk (p : List Byte) (st : StationId) : Bool :=
  let n := fieldAt p 12 1
  let e := 16 + 16 * n
  1 ≤ n && n ≤ 8 && e + 4 ≤ p.length && fieldAt p 0 1 == 1 && fieldAt p 1 1 == 2 && fieldAt p 2 2 == st.val &&
  fieldAt p e 4 == crc32c (p.take e) && (List.range n).all fun j => fFinite (f32At p (16 + 16 * j))

/-- FEEDBACK_FRAME (R364): the oldest frame classified for the loop engine on a port. -/
def execFeedbackFrame (e : EthId) (s : State) : Host.Outcome State Fault Refusal :=
  match s.eth[e].toLoop with
  | [] => done s s
  | (stamp, f) :: rest =>
    let s1 := { s with eth := vmod s.eth e fun x => { x with toLoop := rest } }
    let p := f.drop (etherOf f).1
    let cands := s.stationsAt e (bytesAt f 6 6)
    let named := fieldAt p 2 2
    match cands.find? (fun st => st.val == named), cands.head? with
    | none, none => done s s1
    | some st, _ | none, some st =>
      let d := dieOfStation st
      let x := s.stations[st]
      let k := x.sampleOf stamp (fieldAt p 4 4)
      let tk := (x.phase : Int) + k * x.period
      if !fbOk p st || (stamp : Int) < tk || k < 0 then
        let s2 := (s1.setStation st { x with fbBad := satAdd 16 x.fbBad 1 }).flag (.lpe d) 2
        done s { s2 with cnts := { s2.cnts with lpeFb := vbump 8 s2.cnts.lpeFb d 1 } }
      else if tk + x.fbOff < stamp then done s (s1.flag (.lpe d) 3)
      else
        let taken := match x.fb with
          | some g => decide (k ≤ (g.k : Int))
          | none => false
        if taken then done s s1
        else done s (s1.setStation st { x with
          fb := some ⟨k.toNat, stamp, p⟩, fbLat := BitVec.ofInt 32 ((stamp : Int) - tk) })

/-! ## FAULT_OUT (R378) -/

/-- An axis with fault_out set is in FAULT. -/
def State.axisCause (s : State) : Bool := s.axes.toList.any fun x => x.state == .fault && x.faultOut
/-- A station is HALTED. -/
def State.pairCause (s : State) : Bool := s.stations.toList.any fun x => x.state == .halted
/-- The level of FAULT_OUT. -/
def State.faultOut (s : State) : Bool := s.sys.rails == .on && !s.lpeLatched

/-- FAULT_LATCH_CLEAR: a write of 1 to LPE_FAULT.latched (R378). -/
def execFaultLatchClear (p : Port) (s : State) : Host.Outcome State Fault Refusal :=
  done s (s.hostRow p (if !s.axisCause && !s.pairCause then { s with lpeLatched := false } else s))

end Sys2Proof.Machine
end

