-- ==== Sys2Proof/Machine/Numeric.lean ====
section
/-! DEFINITION. Number formats, TBF-32 blocks, exact segment sums and the canonical tree (chapter NUM); the choice of a block's scale and the coding of
its elements (chapter QNT, R91 to R97); the steep generator (R309); and the reading and writing of tensors. -/
namespace Sys2Proof.Machine

/-! ## Element formats (Table NUM-1) -/

/-- A float code of sign, exponent field and mantissa field. -/
def floatVal (s : Bool) (ex m bias mw : Nat) : Fp :=
  if ex = 0 then .fin s m (1 - (bias : Int) - mw) else .fin s (m + 2 ^ mw) ((ex : Int) - bias - mw)

/-- An integer as an exact value. -/
def intVal (i : Int) : Fp := .fin (i < 0) i.natAbs 0

/-- Width of a narrow format's codes. -/
def codeWidth (f : Nat) : Nat := if f = 3 || f = 4 || f = 8 then 8 else if f = 5 || f = 6 then 6 else 4

/-- Escape code of a narrow format (Table NUM-2). -/
def escCode (f : Nat) : Nat := 2 ^ (codeWidth f - 1)

/-- Exponent bias, mantissa width and whether the format is an integer one. -/
def fmtShape (f : Nat) : Nat × Nat × Bool :=
  if f = 3 then (7, 3, false) else if f = 4 then (15, 2, false) else if f = 5 then (1, 3, false)
  else if f = 6 then (3, 2, false) else if f = 7 then (1, 1, false) else (0, 0, true)

/-- F, e_max and g₀ of Table QNT-1; F as twice its value. -/
def fmtTop (f : Nat) : Nat × Int × Nat :=
  if f = 3 then (896, 8, 14) else if f = 4 then (114688, 15, 29) else if f = 5 then (15, 2, 2)
  else if f = 6 then (56, 4, 6) else if f = 7 then (12, 2, 2) else if f = 8 then (254, 6, 6) else (14, 2, 2)

/-- Value of a code of a narrow format that is not the escape code (R61). -/
def narrowVal (f code : Nat) : Fp :=
  let w := codeWidth f
  let (bias, mw, int) := fmtShape f
  if int then intVal (signed w code)
  else
    let s := code / 2 ^ (w - 1) % 2 == 1
    let ex := code / 2 ^ mw % 2 ^ (w - 1 - mw)
    let m := code % 2 ^ mw
    if f = 3 && ex = 15 && m = 7 then .nan
    else if f = 4 && ex = 31 then (if m = 0 then .inf s else .nan)
    else floatVal s ex m bias mw

/-- Value of an FP16 pattern. -/
def fp16Val (x : Nat) : Fp :=
  let s := x / 2 ^ 15 % 2 == 1
  let ex := x / 2 ^ 10 % 32
  let m := x % 2 ^ 10
  if ex = 31 then (if m = 0 then .inf s else .nan) else floatVal s ex m 15 10

/-- An exact value times 2^k. -/
def Fp.scale (v : Fp) (k : Int) : Fp :=
  match v with
  | .nan => .nan
  | .inf s => .inf s
  | .fin s m e => .fin s m (e + k)

/-- A value in a block with an E8M0 scale code (R64, R74). -/
def scaled (c : Nat) (v : Fp) : Fp := if c = 255 then .nan else v.scale ((c : Int) - 127)

/-- Bytes of an element of a plain format. -/
def plainSize (f : Nat) : Nat := if f = 0 then 4 else 2

/-- A plain element widened exactly to FP32; a NaN keeps its sign (R63, R93). -/
def plainVal (f x : Nat) : W32 :=
  if f = 0 then BitVec.ofNat 32 x
  else if f = 1 then BitVec.ofNat 32 (x * 65536)
  else if fp16Val x == .nan && x / 2 ^ 15 % 2 == 1 then 0xFFC00000
  else roundFp (fp16Val x)

/-- `m × 2^e`, positive, rounded to the grid of a float format with mantissa width mw and least exponent emin, as its code without sign: to nearest
with ties to even, or upward exactly when r × (hi − lo) < (|y| − lo) × 2^16 (R94, R96). -/
def roundGrid (mw : Nat) (emin : Int) (m : Nat) (e : Int) (r : Option Nat) : Nat :=
  if m = 0 then 0
  else
    let q0 : Int := max (e + m.log2 - mw) (emin - mw)
    let k := q0 - e
    let quot :=
      if k ≤ 0 then m <<< (-k).toNat
      else match r with
        | none => roundShift m k.toNat
        | some d => if d * 2 ^ k.toNat < m % 2 ^ k.toNat * 65536 then (m >>> k.toNat) + 1 else m >>> k.toNat
    quot + (q0 - (emin - mw)).toNat * 2 ^ mw

/-- A float format with an infinity: sign, exponent width and mantissa width. -/
def packIeee (ew mw : Nat) (v : Fp) : Nat :=
  let top := 2 ^ mw * (2 ^ ew - 1)
  let sgn := fun (s : Bool) => if s then 2 ^ (ew + mw) else 0
  match v with
  | .nan => top + 2 ^ (mw - 1)
  | .inf s => sgn s + top
  | .fin s m e => sgn s + min top (roundGrid mw (2 - 2 ^ (ew - 1)) m e none)

/-- An FP32 value converted to a plain format (R212). -/
def plainBits (f : Nat) (x : W32) : Nat :=
  if f = 0 then (if fIsNaN x then fpNaN.toNat else x.toNat) else if f = 1 then packIeee 8 7 (fpVal x) else packIeee 5 10 (fpVal x)

/-! ## Exact segment sums and the tree (R77 to R84) -/

/-- floor(log₂ |v|) of a nonzero finite value. -/
def Fp.exp? : Fp → Option Int
  | .fin _ m e => if m = 0 then none else some (e + m.log2)
  | .nan => none
  | .inf _ => none

/-- The anchor of a segment: the largest term exponent of its nonzero finite terms (R78). -/
def anchor (ts : List (Fp × Fp)) : Option Int :=
  ts.foldl (fun best t => match t.1.exp?, t.2.exp? with
    | some x, some y => match best with
      | some b => some (max b (x + y))
      | none => some (x + y)
    | _, _ => best) none

/-- The window of a segment: the exact sum of its admitted terms in units of 2^(X − 149) (R79, R80). -/
def window (x : Int) (ts : List (Fp × Fp)) : Int :=
  ts.foldl (fun acc t => match t.1, t.2 with
    | .fin s m e, .fin u n f =>
      if m = 0 || n = 0 then acc
      else if e + m.log2 + f + n.log2 < x - 129 then acc
      else
        let k := e + f - (x - 149)
        let p := (m * n) <<< k.toNat / 2 ^ (-k).toNat
        if s != u then acc - p else acc + p
    | _, _ => acc) 0

/-- A segment's result (R81, R82). -/
def segmentSum (ts : List (Fp × Fp)) : W32 :=
  let ps := ts.map fun t => mulFp t.1 t.2
  if ps.any (· == .nan) then fpNaN
  else
    let pos := ps.any (· == .inf false)
    let neg := ps.any (· == .inf true)
    if pos && neg then fpNaN
    else if pos then fpInf false
    else if neg then fpInf true
    else match anchor ts with
      | some x => fpOfInt (window x ts) (x - 149) false
      | none => 0

/-- One level of the tree of R83. -/
def treeLevel {α : Type} (op : α → α → α) : List α → List α
  | a :: b :: rest => op a b :: treeLevel op rest
  | l => l

/-- The levels of the tree; `fuel` bounds their number. -/
def treeFrom {α : Type} (op : α → α → α) : (fuel : Nat) → List α → List α
  | 0, l => l
  | fuel + 1, l => if l.length ≤ 1 then l else treeFrom op fuel (treeLevel op l)

/-- The canonical tree over FP32 values (R83); +0 over none. -/
def tree (op : W32 → W32 → W32) (l : List W32) : W32 := (treeFrom op l.length l).headD 0

/-- A sum of terms by segments and the tree (R77 to R83). -/
def dotTerms (ts : List (Fp × Fp)) : W32 := tree fadd ((chunks 256 ts).map segmentSum)

/-- A dot product by segments and the tree (R77 to R83). -/
def dot (a b : List Fp) : W32 := dotTerms (a.zip b)

/-! ## The steep generator (R309) -/

/-- A 32-bit rotation to the left. -/
def rotl32 (v n : Nat) : Nat := (v <<< n ||| v >>> (32 - n)) % 2 ^ 32

/-- Rounds i to 9 of the steep generator on (x, y). -/
def steepRounds (seed : Nat) : (left i : Nat) → Nat → Nat → Nat × Nat
  | 0, _, x, y => (x, y)
  | left + 1, i, x, y =>
    let half := if i % 2 = 0 then seed % 2 ^ 32 else seed / 2 ^ 32 % 2 ^ 32
    let k := (half + (i + 1) * 0x9E3779B9) % 2 ^ 32
    let x1 := Nat.xor ((x + rotl32 y 7) % 2 ^ 32) k
    steepRounds seed left (i + 1) x1 (Nat.xor (rotl32 y 11) x1)

/-- The output of the steep generator for a key. -/
def steep (seed stream element : Nat) : Nat :=
  let (x, y) := steepRounds seed 10 0 (element % 2 ^ 32) (stream % 2 ^ 32)
  y * 2 ^ 32 + x

/-! ## A block's plan (R92, R93) -/

/-- The plan of a block: a nan_block, or its escaped elements, its scale exponent and its saturated elements. -/
structure Plan where
  nan : Bool := false
  esc : List Nat := []
  s : Int := 0
  sat : List Nat := []
  deriving DecidableEq, Repr

/-- A format represents a non-finite value (R93). -/
def canHold (f : Nat) (v : Fp) : Bool :=
  match v with
  | .nan => f == 3 || f == 4
  | .inf _ => f == 4
  | .fin _ _ _ => true

/-- A value is finite. -/
def Fp.finite : Fp → Bool
  | .nan => false
  | .inf _ => false
  | .fin _ _ _ => true

/-- |x| < |y| for finite values. -/
def magLt (x y : Fp) : Bool :=
  match x, y with
  | .fin _ m e, .fin _ n g =>
    let k := min e g
    decide (m * 2 ^ (e - k).toNat < n * 2 ^ (g - k).toNat)
  | _, _ => false

/-- floor(log₂ |v|), 0 for a value that has none. -/
def expOf (v : Fp) : Int := v.exp?.getD 0

/-- An element put into a list ordered by descending magnitude and, for equal ones, by ascending index. -/
def insertMag (x : Nat × Fp) : List (Nat × Fp) → List (Nat × Fp)
  | [] => [x]
  | y :: ys => if magLt y.2 x.2 then x :: y :: ys else y :: insertMag x ys

/-- The list L of R92. -/
def magList (vs : List (Nat × Fp)) : List (Nat × Fp) :=
  (vs.filter fun x => x.2.exp?.isSome).foldl (fun l x => insertMag x l) []

/-- |v| / 2^s exceeds F. -/
def overTop (f : Nat) (v : Fp) (s : Int) : Bool :=
  match v with
  | .fin _ m e =>
    let top := (fmtTop f).1
    let k := e - s + 1
    decide (top * 2 ^ (-k).toNat < m <<< k.toNat)
  | .nan => false
  | .inf _ => false

/-- The plan of a block of exact values with a budget and a gap (R92). A scale above the largest that E8M0 holds, which no FP32 value asks for, is
that largest (R237). -/
def planFp (f : Nat) (vs : List Fp) (budget gap : Nat) : Plan :=
  let iv := (List.range vs.length).zip vs
  let esc0 := (iv.filter fun x => !canHold f x.2).map (·.1)
  if budget < esc0.length then { nan := true }
  else
    let l := magList iv
    let at_ := fun i => expOf (l.getD i (0, .nan)).2
    let room := budget - esc0.length
    let j := (((List.range room).map (· + 1)).find? fun t => decide (t < l.length) && decide (at_ t + gap ≤ at_ (t - 1))).getD 0
    let esc1 := esc0 ++ (l.take j).map (·.1)
    let a : Option Int := if j < l.length then some (at_ j - (fmtTop f).2.1) else none
    let b : Option Int := if 0 < j then some (at_ 0 - 15) else none
    let s0 : Int := match a, b with
      | some x, some y => max x y
      | some x, none => x
      | none, some y => y
      | none, none => 0
    let s := min (max s0 (-127)) 127
    let (esc2, sat) := (l.drop j).foldl (fun (acc : List Nat × List Nat) x =>
      if overTop f x.2 s then (if acc.1.length < budget then (acc.1 ++ [x.1], acc.2) else (acc.1, acc.2 ++ [x.1])) else acc) (esc1, [])
    { esc := esc2, s := s, sat := sat }

/-- The plan of a block of FP32 values. -/
def planBlock (f : Nat) (vs : List W32) (budget gap : Nat) : Plan := planFp f (vs.map fpVal) budget gap

/-- Code of an element that is not escaped (R93, R94, R96). -/
def codeFp (f : Nat) (v : Fp) (s : Int) (sat : Bool) (r : Option Nat) : Nat :=
  let w := codeWidth f
  let sgn := fun (neg : Bool) (c : Nat) => if c = 0 then 0 else if neg then c + 2 ^ (w - 1) else c
  let (bias, mw, int) := fmtShape f
  match v with
  | .nan => 0x7F
  | .inf neg => sgn neg 0x7C
  | .fin neg m e =>
    if int then
      let k := s - e
      let q := if k ≤ 0 then m <<< (-k).toNat
        else match r with
          | none => roundShift m k.toNat
          | some d => if d * 2 ^ k.toNat < m % 2 ^ k.toNat * 65536 then (m >>> k.toNat) + 1 else m >>> k.toNat
      let q1 := if sat then (fmtTop f).1 / 2 else q
      if neg then (2 ^ w - q1) % 2 ^ w else q1
    else if sat then
      let (t, _, _) := fmtTop f
      sgn neg (roundGrid mw (1 - (bias : Int)) t (-1) none)
    else sgn neg (roundGrid mw (1 - (bias : Int)) m (e - s) r)

/-- Code of an FP32 element that is not escaped; a NaN keeps its sign. -/
def codeElem (f : Nat) (v : W32) (s : Int) (sat : Bool) (r : Option Nat) : Nat :=
  let c := codeFp f (fpVal v) s sat r
  if fIsNaN v && v.toNat / 2 ^ 31 == 1 then c + 0x80 else c

/-- FP16 side value of an escaped element and whether it was clamped (R93, R95). -/
def sideValue (v : W32) (s : Int) : Nat × Bool :=
  match fpVal v with
  | .nan => (0x7E00, false)
  | .inf neg => (if neg then 0xFC00 else 0x7C00, false)
  | .fin neg m e =>
    let c := roundGrid 10 (-14) m (e - s) none
    let clamp := decide (0x7C00 ≤ c)
    ((if clamp then 0x7BFF else c) + (if neg then 0x8000 else 0), clamp)

/-- Codes of a block under a plan; `draw i` is the random value of element i. -/
def codesOf (f : Nat) (vs : List W32) (p : Plan) (draw : Nat → Option Nat) : List Nat :=
  ((List.range vs.length).zip vs).map fun (i, v) =>
    if p.nan then 0 else if p.esc.contains i then escCode f else codeElem f v p.s (p.sat.contains i) (draw i)

/-- Bytes of a block of 32 codes (R65). -/
def blockBytes (f : Nat) (codes : List Nat) : List Byte :=
  let w := codeWidth f
  leBytes (4 * w) (codes.foldr (fun c acc => c + 2 ^ w * acc) 0)

/-- Scale code of a plan. -/
def Plan.code (p : Plan) : Nat := if p.nan then 255 else (p.s + 127).toNat

/-- The full scale entry of block b of a tensor (Table NUM-3). -/
def scaleEntry (code escapes b : Nat) : Nat := code + escapes * 2 ^ 8 + b % 64 * 2 ^ 11 + b / 64 % 1024 * 2 ^ 17

/-! ## Tensor headers (Table QNT-6) -/

/-- A tensor header. -/
structure Hdr where
  data : Nat
  scale : Nat
  sidx : Nat
  slist : Nat
  fmt : Nat
  compact : Bool
  deriving DecidableEq, Repr

/-- The header in 32 bytes. -/
def hdrOf (b : List Byte) : Hdr :=
  { data := bfield b 0 40, scale := bfield b 40 40, sidx := bfield b 80 40, slist := bfield b 120 40, fmt := bfield b 160 4
    compact := bfield b 164 1 == 1 }

/-- A header's reserved bits are zero, its format is one of Table NUM-1, and the addresses that it does not use are zero: all but the data of a plain
tensor, and the side list of a TBF-32 tensor without a side index (R61, R99, R203). -/
def hdrOk (b : List Byte) : Bool :=
  let h := hdrOf b
  bfield b 165 91 == 0 && h.fmt ≤ 9 && (h.sidx ≠ 0 || h.slist == 0) && (3 ≤ h.fmt || (h.scale == 0 && h.sidx == 0))

/-- The format is a narrow one. -/
def Hdr.narrow (h : Hdr) : Bool := 3 ≤ h.fmt

/-- A header with its addresses as a placed command uses them (R179). -/
def Hdr.onCore (h : Hdr) (f : Nat → Nat) : Hdr :=
  { h with data := f h.data, scale := if h.scale = 0 then 0 else f h.scale, sidx := if h.sidx = 0 then 0 else f h.sidx
           slist := if h.slist = 0 then 0 else f h.slist }

/-- Blocks in a row of k elements. -/
def bpr (k : Nat) : Nat := cdiv k 32

/-- Bytes of the scale stream of nb blocks. -/
def Hdr.scaleBytes (h : Hdr) (nb : Nat) : Nat := if h.compact then 96 * cdiv nb 64 else 4 * nb

/-- The read ranges of an operand of some rows of k elements (R123, R203). -/
def Hdr.reads (h : Hdr) (rows k : Nat) : List Rng :=
  if h.narrow then
    let nb := rows * bpr k
    [⟨h.data, nb * 4 * codeWidth h.fmt, false⟩, ⟨h.scale, h.scaleBytes nb, false⟩] ++
    if h.sidx = 0 then [] else [⟨h.sidx, 8 * cdiv nb 64, false⟩, ⟨h.slist, 16 * nb, false⟩]
  else [⟨h.data, rows * k * plainSize h.fmt, false⟩]

/-- The write ranges of an output of some rows of k elements, rows of a plain one ld elements apart (R89, R204). -/
def Hdr.outs (h : Hdr) (rows k ld : Nat) : List Rng :=
  if h.narrow then
    let nb := rows * bpr k
    [⟨h.data, nb * 4 * codeWidth h.fmt, true⟩, ⟨h.scale, 4 * nb, true⟩]
  else [⟨h.data, ((rows - 1) * ld + k) * plainSize h.fmt, true⟩]

/-! ## Reading operands (R72, Table NUM-6) -/

/-- What the reader found: the values by rows; for each block that failed a check, the statuses of its failed checks; and whether anything read
was poisoned. -/
structure Operand where
  rows : List (List Fp) := []
  fails : List (List St) := []
  poisoned : Bool := false

/-- A status for each condition that holds. -/
def failIf (c : Bool) (st : St) : List St := if c then [st] else []

/-- One block as read: its codes, scale, escape count and failed checks; and the sum of the escape counts of its whole frame. -/
structure RBlock where
  codes : List Nat
  scale : Nat
  count : Nat
  frame : Nat
  fails : List St

/-- The scale and escape count of block j with the checks of its entry, from the scale stream (R68, R69). -/
def scaleAt (h : Hdr) (f0 j : Nat) (sraw : List Byte) : Nat × Nat × List St :=
  let frame := (f0 + j / 64) % 1024
  if h.compact then
    let fr := bytesAt sraw (96 * (j / 64)) 96
    let cnt := bfield (bytesAt fr 64 24) (3 * (j % 64)) 3
    let total := ((List.range 64).map fun b => bfield (bytesAt fr 64 24) (3 * b) 3).foldl (· + ·) 0
    let seqw := fieldAt fr 88 4
    let totw := fieldAt fr 92 4
    (fieldAt fr (j % 64) 1, cnt,
      failIf (seqw % 1024 ≠ frame) .scaleSkew ++ failIf (1024 ≤ seqw) .scaleSkew ++ failIf (512 ≤ totw) .scaleSkew ++
      failIf (totw % 512 ≠ total) .scaleSkew)
  else
    let e := fieldAt sraw (4 * j) 4
    (e % 256, e / 256 % 8,
      failIf (e / 2048 % 64 ≠ j % 64 || e / 2 ^ 17 % 1024 ≠ frame) .scaleSkew ++ failIf (e / 2 ^ 27 ≠ 0) .scaleSkew)

/-- Codes of a block of a narrow format. -/
def codesAt (f : Nat) (bs : List Byte) : List Nat :=
  let x := leNat bs
  (List.range 32).map fun i => x / 2 ^ (codeWidth f * i) % 2 ^ codeWidth f

/-- The sum of the escape counts of block j's frame: the 64 of a compact scale frame, or those of the full entries that the frame has (R69, R72). -/
def frameCount (h : Hdr) (j : Nat) (sraw : List Byte) : Nat :=
  if h.compact then
    let cs := bytesAt (bytesAt sraw (96 * (j / 64)) 96) 64 24
    ((List.range 64).map fun b => bfield cs (3 * b) 3).foldl (· + ·) 0
  else ((chunks 4 ((sraw.drop (256 * (j / 64))).take 256)).map fun e => leNat e / 256 % 8).foldl (· + ·) 0

/-- A block with every check but those of the side list. -/
def readBlockAt (h : Hdr) (f0 j : Nat) (data sraw : List Byte) : RBlock :=
  let codes := codesAt h.fmt (bytesAt data (j * 4 * codeWidth h.fmt) (4 * codeWidth h.fmt))
  let (scale, count, fs) := scaleAt h f0 j sraw
  let n := (codes.filter (· == escCode h.fmt)).length
  { codes := codes, scale := scale, count := count, frame := frameCount h j sraw
    fails := fs ++ failIf (4 < count) .escapeOverflow ++ failIf (4 < n) .escapeOverflow ++ failIf (count ≤ 4 && count ≠ n) .scaleSkew ++
      failIf (h.sidx = 0 && (n ≠ 0 || count ≠ 0)) .scaleSkew }

/-- The values of a block: ordinary codes by its scale, escapes from side entries given in order; with the checks of those entries. -/
def blockVals (h : Hdr) (f0 j : Nat) (b : RBlock) : (i : Nat) → List Nat → List Nat → List Fp × List St × List Nat
  | _, [], es => ([], [], es)
  | i, c :: cs, es =>
    if c = escCode h.fmt then
      match es with
      | e :: rest =>
        let (vs, fs, left) := blockVals h f0 j b (i + 1) cs rest
        let bad := e / 2 ^ 16 % 32 ≠ i || e / 2 ^ 21 % 64 ≠ j % 64 || e / 2 ^ 27 ≠ (f0 + j / 64) % 32
        (scaled b.scale (fp16Val (e % 65536)) :: vs, failIf bad .scaleSkew ++ fs, left)
      | [] =>
        let (vs, fs, left) := blockVals h f0 j b (i + 1) cs []
        (scaled b.scale (.fin false 0 0) :: vs, fs, left)
    else
      let (vs, fs, left) := blockVals h f0 j b (i + 1) cs es
      (scaled b.scale (narrowVal h.fmt c) :: vs, fs, left)

/-- The blocks of a frame from block j on, given their side entries in order. -/
def frameVals (h : Hdr) (f0 : Nat) (ff : List St) : (j : Nat) → List RBlock → List Nat → List (List Fp) × List (List St)
  | _, [], _ => ([], [])
  | j, b :: bs, es =>
    let (vs, fs, left) := blockVals h f0 j b 0 b.codes es
    let (vss, fss) := frameVals h f0 ff (j + 1) bs left
    (vs :: vss, (b.fails ++ fs ++ ff) :: fss)

/-- One frame of an operand: its blocks' values and failed checks, with the state after its side entries are read. -/
def State.readFrame (s : State) (h : Hdr) (f0 f : Nat) (blocks : List RBlock) (iraw : List Byte) : List (List Fp) × List (List St) × Bool × State :=
  if h.sidx = 0 then
    let (vs, fs) := frameVals h f0 [] (64 * f) blocks []
    (vs, fs, false, s)
  else
    let w := fieldAt iraw (8 * f) 8
    let n := w / 2 ^ 32 % 512
    let sum := (blocks.head?.map (·.frame)).getD 0
    let escs := blocks.foldl (fun a b => a + (b.codes.filter (· == escCode h.fmt)).length) 0
    let take := min n escs
    let ff := failIf (n ≠ sum) .scaleSkew ++ failIf (w / 2 ^ 41 ≠ 0) .scaleSkew
    let (es, s1) := s.load (h.slist + 4 * (w % 2 ^ 32)) (4 * take)
    let (vs, fs) := frameVals h f0 ff (64 * f) blocks ((chunks 4 (plain es)).map leNat)
    (vs, fs, anyPoison es, s1)

/-- Frames of an operand in turn. -/
def State.readFrames (s : State) (h : Hdr) (f0 : Nat) (iraw : List Byte) : (f : Nat) → List (List RBlock) → List (List Fp) × List (List St) × Bool × State
  | _, [] => ([], [], false, s)
  | f, bs :: rest =>
    let (vs, fs, p, s1) := s.readFrame h f0 f bs iraw
    let (vs', fs', p', s2) := s1.readFrames h f0 iraw (f + 1) rest
    (vs ++ vs', fs ++ fs', p || p', s2)

/-- The end of the blocks whose scale entries a reader of blocks b0 to e − 1 reads, of a tensor of `total` blocks: with a side list, that of the last
block's frame, since the side index is checked against the frame's counts (Table NUM-6). -/
def Hdr.scaleEnd (h : Hdr) (e total : Nat) : Nat := if h.sidx = 0 then e else max e (min (cdiv e 64 * 64) total)

/-- A TBF-32 operand: some rows of k elements from block b0 of a tensor of `total` blocks whose block 0 lies in frame f0. The reader starts at the
frame that holds block b0; blocks before b0 are read for the place of their side entries only, and are not checked. -/
def State.readTbf (s : State) (h0 : Hdr) (b0 rows k f0 total : Nat) : Operand × State :=
  let fr := b0 / 64
  let skip := b0 % 64
  let w := 4 * codeWidth h0.fmt
  let h := { h0 with
    data := h0.data + 64 * fr * w
    scale := h0.scale + (if h0.compact then 96 else 256) * fr
    sidx := if h0.sidx = 0 then 0 else h0.sidx + 8 * fr }
  let nb := skip + rows * bpr k
  let (data, s1) := s.load h.data (nb * w)
  let (sraw, s2) := s1.load h.scale (h.scaleBytes (h.scaleEnd nb (total - 64 * fr)))
  let (iraw, s3) := if h.sidx = 0 then ([], s2) else s2.load h.sidx (8 * cdiv nb 64)
  let blocks := (List.range nb).map fun j => readBlockAt h (f0 + fr) j (plain data) (plain sraw)
  let (vals, fails, p, s4) := s3.readFrames h (f0 + fr) (plain iraw) 0 (chunks 64 blocks)
  ({ rows := (chunks (bpr k) (vals.drop skip)).map fun r => r.flatten.take k
     fails := (fails.drop skip).filter fun f => !f.isEmpty
     poisoned := anyPoison data || anyPoison sraw || anyPoison iraw || p }, s4)

/-- Rows of a plain tensor, ld elements apart, widened to FP32; and whether anything read was poisoned. -/
def State.readPlain (s : State) (base fmt rows k ld : Nat) : List (List W32) × Bool × State :=
  let sz := plainSize fmt
  (List.range rows).foldl (fun (acc : List (List W32) × Bool × State) i =>
    let (bs, t) := acc.2.2.load (base + i * ld * sz) (k * sz)
    (acc.1 ++ [(chunks sz (plain bs)).map fun e => plainVal fmt (leNat e)], acc.2.1 || anyPoison bs, t)) ([], false, s)

/-- A matrix operand, plain or TBF-32 (R62). -/
def State.readOperand (s : State) (h : Hdr) (rows k f0 : Nat) : Operand × State :=
  if h.narrow then s.readTbf h 0 rows k f0 (rows * bpr k)
  else
    let (vs, p, t) := s.readPlain h.data h.fmt rows k k
    ({ rows := vs.map fun r => r.map fpVal, poisoned := p }, t)

/-! ## Writing tensors (R89, R204, R212) -/

/-- What a conversion met: a saturated element, a nan_block, and the number of blocks with a saturated element. -/
structure Coded where
  bytes : List Byte := []
  entries : List Byte := []
  sat : Nat := 0
  nan : Nat := 0

/-- One block coded by R92 with budget 0 as block b of its tensor. -/
def codeBlock (f b : Nat) (vs : List W32) (draw : Nat → Option Nat) : Coded :=
  let v := vs ++ List.replicate (32 - vs.length) 0
  let p := planBlock f v 0 (fmtTop f).2.2
  { bytes := blockBytes f (codesOf f v p draw), entries := leBytes 4 (scaleEntry p.code 0 b)
    sat := if p.sat.isEmpty then 0 else 1, nan := if p.nan then 1 else 0 }

/-- One block of exact values, each with the sign that a NaN has (R93), coded by R92 with budget 0 and rounded to nearest, as block b of its tensor. -/
def codeBlockFp (f b : Nat) (vs : List (Fp × Bool)) : Coded :=
  let v := vs ++ List.replicate (32 - vs.length) (.fin false 0 0, false)
  let p := planFp f (v.map (·.1)) 0 (fmtTop f).2.2
  let codes := ((List.range v.length).zip v).map fun (i, x) =>
    if p.nan then 0 else codeFp f x.1 p.s (p.sat.contains i) none + if x.1 == .nan && x.2 then 0x80 else 0
  { bytes := blockBytes f codes, entries := leBytes 4 (scaleEntry p.code 0 b), sat := if p.sat.isEmpty then 0 else 1, nan := if p.nan then 1 else 0 }

/-- Blocks of exact values coded in turn from block b0. -/
def codeBlocksFp (f b0 : Nat) (blocks : List (List (Fp × Bool))) : Coded :=
  let cs := ((List.range blocks.length).zip blocks).map fun (i, v) => codeBlockFp f (b0 + i) v
  { bytes := cs.flatMap (·.bytes), entries := cs.flatMap (·.entries)
    sat := cs.foldl (fun a c => a + c.sat) 0, nan := cs.foldl (fun a c => a + c.nan) 0 }

/-- Rows coded as TBF-32 with budget 0, rounded to nearest, from block b0. -/
def codeRows (f b0 : Nat) (rows : List (List W32)) : Coded :=
  let blocks := rows.flatMap fun r => chunks 32 r
  let cs := ((List.range blocks.length).zip blocks).map fun (i, v) => codeBlock f (b0 + i) v fun _ => none
  { bytes := cs.flatMap (·.bytes), entries := cs.flatMap (·.entries)
    sat := cs.foldl (fun a c => a + c.sat) 0, nan := cs.foldl (fun a c => a + c.nan) 0 }

/-- Rows written to a plain tensor, ld elements apart; with whether a written value is not finite. -/
def State.writePlain (s : State) (base fmt ld : Nat) (rows : List (List W32)) : Bool × State :=
  let sz := plainSize fmt
  let bits := rows.map fun r => r.map (plainBits fmt)
  let bad := bits.any fun r => r.any fun x => !fFinite (plainVal fmt x)
  (bad, ((List.range rows.length).zip bits).foldl (fun t (i, r) => t.storeB (base + i * ld * sz) (r.flatMap fun x => leBytes sz x)) s)

/-- Rows written to a TBF-32 tensor with full scales (R89). -/
def State.writeTbf (s : State) (h : Hdr) (rows : List (List W32)) : Coded × State :=
  let c := codeRows h.fmt 0 rows
  (c, (s.storeB h.data c.bytes).storeB h.scale c.entries)

end Sys2Proof.Machine
end

