-- ==== Sys2Proof/Machine/Engines.lean ====
section
/-! DEFINITION. The engines of a core (chapter ENG): the functions of R208, the infuser, GEMM and VOP, and what every engine command shares. -/
namespace Sys2Proof.Machine

/-! ## Functions (R208, Table ENG-5) -/

/-- T[j] for j = -16 to 16: the FP32 value nearest to 2^(j/32). -/
def expTable : List W32 :=
  [0x3F3504F3, 0x3F38FBAF, 0x3F3D08A4, 0x3F412C4D, 0x3F45672A, 0x3F49B9BE, 0x3F4E248C, 0x3F52A81E,
   0x3F5744FD, 0x3F5BFBB8, 0x3F60CCDF, 0x3F65B907, 0x3F6AC0C7, 0x3F6FE4BA, 0x3F75257D, 0x3F7A83B3,
   0x3F800000, 0x3F82CD87, 0x3F85AAC3, 0x3F88980F, 0x3F8B95C2, 0x3F8EA43A, 0x3F91C3D3, 0x3F94F4F0,
   0x3F9837F0, 0x3F9B8D3A, 0x3F9EF532, 0x3FA27043, 0x3FA5FED7, 0x3FA9A15B, 0x3FAD583F, 0x3FB123F6,
   0x3FB504F3]

/-- An integer as FP32. -/
def fint (i : Int) : W32 := fpCvt i

/-- exp2 of R208. -/
def fexp2 (t : W32) : W32 :=
  if fIsNaN t then fpNaN
  else if fle (fint 128) t then fpInf false
  else if flt t (fint (-150)) then 0
  else
    let n := froundEven t
    let f := fsub t (fint n)
    let j := froundEven (fmul f (fint 32))
    let r := fsub f (fdiv (fint j) (fint 32))
    let p := ffma (ffma (ffma 0x3D635847 r 0x3E75FDF0) r 0x3F317218) r fpOne
    roundFp ((fpVal (fmul (expTable.getD (j + 16).toNat 0) p)).scale n)

/-- exp of R208. -/
def fexp (x : W32) : W32 := fexp2 (fmul x 0x3FB8AA3B)

/-- sigmoid of R208. -/
def fsigmoid (x : W32) : W32 :=
  if fIsNaN x then fpNaN
  else
    let e := fexp (fneg (fabs x))
    let d := fadd fpOne e
    if fle 0 x then fdiv fpOne d else fdiv e d

/-- A magnitude with the sign of another value. -/
def withSign (q x : W32) : W32 := if x.toNat / 2 ^ 31 = 1 then fneg q else q

/-- tanh of R208. -/
def ftanh (x : W32) : W32 :=
  if fIsNaN x then fpNaN
  else
    let a := fabs x
    let q :=
      if flt a 0x39800000 then a
      else if flt a 0x3E000000 then
        let t := fmul a a
        ffma (fmul a t) (ffma (ffma (fneg 0x3D5D0DD1) t 0x3E088889) t (fneg 0x3EAAAAAB)) a
      else
        let e := fexp (fmul (fint (-2)) a)
        fdiv (fsub fpOne e) (fadd fpOne e)
    withSign q x

/-- silu of R208. -/
def fsilu (x : W32) : W32 := fmul x (fsigmoid x)

/-- gelu of R208. -/
def fgelu (x : W32) : W32 :=
  let u := fmul x x
  let v := ffma 0x3D372713 (fmul u x) x
  let w := ftanh (fmul 0x3F4C422A v)
  fmul (fmul 0x3F000000 x) (fadd fpOne w)

/-- An activation of Table ENG-4 (R207). -/
def activate (act : Nat) (alpha y : W32) : W32 :=
  if fIsNaN y then fpNaN
  else if act = 0 then y
  else if act = 1 then (if fle y 0 then 0 else y)
  else if act = 2 then (if flt y 0 then fmul y alpha else y)
  else if act = 3 then fsigmoid y
  else if act = 4 then ftanh y
  else if act = 5 then fsilu y
  else if act = 6 then fgelu y
  else fexp y

/-! ## What a command copies and names (R203) -/

/-- A header or block copied at admission: aligned, wholly in mapped main memory or in pool units of the partition (R203). What reading it counts and
flags follows when the command is admitted or refused. -/
def State.copyAt (s : State) (p : PartId) (a len align : Nat) : Option (List PByte) :=
  if a % align = 0 && s.lpePlaced p a len then some (s.load a len).1 else none

/-- The bytes that a command copied first from an address at admission. -/
def Cmd.copied (c : Cmd) (i : Nat) : List Byte := ((c.copies.drop i).head?.map (·.2)).getD []

/-- A range lies in one well: that of the core which the command is pinned to, or any well of a PLACE command (R203, R205). -/
def Cmd.wellOk (c : Cmd) (r : Rng) : Bool :=
  inWells r.lo && (r.lo - wellBase) % 0x800000 + r.len ≤ wellBytes && (c.isPlace || (movedAddr c.moved r.lo - wellBase) / 0x800000 == c.coreField)

/-- The byte offsets of the ranges that do not lie in the command's well, and of a PLACE command that names more than one well (R173). -/
def Cmd.wellFails (c : Cmd) (rs : List (Rng × Nat)) : List Nat :=
  (rs.filter fun x => !c.wellOk x.1).map (·.2) ++
  badIf (c.isPlace && (rs.map fun x => (x.1.lo - wellBase) / 0x800000).eraseDups.length > 1) 6

/-- A write range meets a read range other than the ones it may equal. -/
def writesMeet (ws rs : List Rng) : Bool := ws.any fun w => rs.any fun r => w.meets r

/-! ## What every engine command shares -/

/-- The core that a command runs on. -/
def Cmd.coreId (c : Cmd) : CoreId := c.pumpCore

/-- The cluster that a command runs on. -/
def Cmd.clus (c : Cmd) : ClusId := clusOfCore c.pumpCore

/-- The ENG_ERR bit of a unit fault (Table ENG-10). -/
def unitFaultBit : UnitFault → Nat
  | .none => 0
  | .matrix => 1
  | .vector => 9
  | .infuser => 19
  | .microcode => 24

/-- The statuses whose outputs are poisoned (Table SCO-4). -/
def St.taints (st : St) : Bool := st == .scaleSkew || st == .poisoned || st == .escapeOverflow || st == .internal || st == .pairMismatch

/-- A command's run over its own effect: a write into a part that is closed is refused (R135), a fault of its unit ends it with ST_INTERNAL
(R217), and a condition that poisons its outputs marks every range it declared as a write (R11, R72). -/
def State.engineRun (flt : UnitFault) (body : Cmd → State → State × List St) (c : Cmd) (s : State) : State × List St :=
  let closed := c.writes.filter fun r => !s.mayWrite true c.adm r.lo r.len
  if !closed.isEmpty then (closed.foldl (fun t r => t.flagClosed r.lo r.len) s, [.windowClosed])
  else if flt != .none then
    let t := (s.flag (.eng c.clus) (unitFaultBit flt)).poisonWrites c.ranges
    (if flt == .microcode then { t with scHalt := t.scHalt.set c.coreId true } else t, [.internal])
  else
    let (t, conds) := body c s
    if (c.conds ++ conds).any (·.taints) then (t.poisonWrites c.ranges, conds) else (t, conds)

/-- The row of an engine command. -/
def State.engineRow (s : State) (p : PartId) (q : QueId) (n : Nat) (k : CmdKind) (flt : UnitFault)
    (body : Cmd → State → State × List St) : Host.Outcome State Fault Refusal :=
  done s (s.runCmd p q n k (State.engineRun flt body))

/-- A failed operand check counted and flagged in the reading core's cluster (R104). -/
def State.countFail (s : State) (k : ClusId) (st : St) : State :=
  let s1 := { s with cnts := { s.cnts with qntSkew := vbump 8 s.cnts.qntSkew k 1 } }
  if st == .escapeOverflow then s1.flag (.qnt k) 2 else s1.flag (.qnt k) 1

/-- The failed checks of the block that a reader met first: the order in which blocks are read is not specified, so the block among those that
failed is a free choice (R72, log entry 11). -/
def State.pickFails (s : State) (fails : List (List St)) : State × List St :=
  match fails with
  | [] => (s, [])
  | f :: _ => ({ s with fresh := s.fresh + 1 }, fails.getD (Config.freeVal s.fresh % fails.length) f)

/-- The same, counted and flagged in the cluster of the core that found them (R104). -/
def State.meetFails (s : State) (k : ClusId) (fails : List (List St)) : State × List St :=
  let (t, pick) := s.pickFails fails
  (pick.foldl (fun u st => u.countFail k st) t, pick.eraseDups)

/-- Running cycles in which the array formed products or the vector lanes worked (Table ENG-11). -/
def State.mxBusy (s : State) (n : CoreId) (cycles : Nat) : State :=
  { s with cnts := { s.cnts with mxBusy := vmod s.cnts.mxBusy n fun x => x + BitVec.ofNat 32 cycles } }
def State.vxBusy (s : State) (n : CoreId) (cycles : Nat) : State :=
  { s with cnts := { s.cnts with vxBusy := vmod s.cnts.vxBusy n fun x => x + BitVec.ofNat 32 cycles } }

/-- Twice φ of Table ENG-2 for a pair of formats. -/
def phi2 (fa fb : Nat) : Nat :=
  if fa < 3 then 8 else if codeWidth fa = 8 || codeWidth fb = 8 then 2 else 1

/-- A pair of matrix operand formats is accepted (R62). -/
def pairOk (fa fb : Nat) : Bool := (fa == 1 && fb == 1) || (3 ≤ fa && fa ≤ 9 && 3 ≤ fb && fb ≤ 9)

/-! ## The infuser (R206 to R212) -/

/-- Fields of a program block (Table ENG-4). -/
def pgKind (b : List Byte) : Nat := fieldAt b 0 1
def pgAct (b : List Byte) : Nat := fieldAt b 1 1
def pgScale (b : List Byte) : Bool := bfield b 16 1 == 1
def pgBias (b : List Byte) : Bool := bfield b 17 1 == 1
def pgRes (b : List Byte) : Bool := bfield b 18 1 == 1
def pgClamp (b : List Byte) : Bool := bfield b 19 1 == 1
def pgAddr (b : List Byte) (off : Nat) : Nat := fieldAt b off 8

/-- A program block keeps the rules of Table ENG-4 for n product columns (R203, R205, R206). -/
def progOk (b : List Byte) (n : Nat) (accumulate : Bool) : Bool :=
  let gate := pgKind b ≠ 0
  let lo := f32At b 8
  let hi := f32At b 12
  let used := fun (on : Bool) (off : Nat) => if on then decide (pgAddr b off < 2 ^ 40) else pgAddr b off == 0
  pgKind b ≤ 2 && pgAct b ≤ 7 && bfield b 20 4 == 0 && fieldAt b 3 1 == 0 && fieldAt b 56 8 == 0 &&
  used (pgScale b) 16 && used (pgBias b) 24 && used (pgRes b) 32 && used gate 40 && used gate 48 &&
  (!pgClamp b || (fFinite lo && fFinite hi && fle lo hi)) &&
  (!gate || (pgAct b == 0 && n % 64 == 0 && !accumulate && !pgRes b))

/-- The scale and bias vectors of a program over n product columns. -/
def progVecs (b : List Byte) (n : Nat) : List Rng :=
  (if pgScale b then [⟨pgAddr b 16, 4 * n, false⟩] else []) ++ if pgBias b then [⟨pgAddr b 24, 4 * n, false⟩] else []

/-- The residual of a program over m rows of n columns whose rows lie ld elements apart. -/
def progRes (b : List Byte) (m n ld : Nat) : List Rng := if pgRes b then [⟨pgAddr b 32, 4 * ((m - 1) * ld + n), false⟩] else []

/-- The states that a gate program reads and writes. -/
def progIn (b : List Byte) (m n : Nat) : List Rng := if pgKind b = 0 then [] else [⟨pgAddr b 40, m * n, false⟩]
def progOut (b : List Byte) (m n : Nat) : List Rng := if pgKind b = 0 then [] else [⟨pgAddr b 48, m * n, true⟩]

/-- Two ranges are the same bytes. -/
def Rng.same (x y : Rng) : Bool := x.lo == y.lo && x.len == y.len

/-- A write range meets a range that it may equal, and is not the same. -/
def Rng.crosses (w r : Rng) : Bool := w.meets r && !w.same r

/-- Step 1 of R207. -/
def scaleBias (g : W32) (sc bi : Option W32) : W32 :=
  match sc, bi with
  | some a, some b => ffma g a b
  | some a, none => fmul g a
  | none, some b => fadd g b
  | none, none => g

/-- An element-wise program on one output (R207). -/
def infuse (b : List Byte) (g : W32) (sc bi rs : Option W32) : W32 :=
  let y := activate (pgAct b) (f32At b 4) (scaleBias g sc bi)
  let y1 := match rs with
    | some r => fadd y r
    | none => y
  if pgClamp b then fmin (fmax y1 (f32At b 8)) (f32At b 12) else y1

/-- A gate program on one unit: the four preactivations and the state give h and the new state (R210). -/
def gateUnit (b : List Byte) (z : List W32) (s0 : W32) : W32 × W32 :=
  let at_ := fun i => z.getD i 0
  let clamp := fun x => if pgClamp b then fmin (fmax x (f32At b 8)) (f32At b 12) else x
  if pgKind b = 1 then
    let c1 := clamp (ffma (fsigmoid (at_ 1)) s0 (fmul (fsigmoid (at_ 0)) (ftanh (at_ 2))))
    (fmul (fsigmoid (at_ 3)) (ftanh c1), c1)
  else
    let r := fsigmoid (at_ 0)
    let zz := fsigmoid (at_ 1)
    let n := ftanh (ffma r (at_ 3) (at_ 2))
    let h := clamp (ffma zz (fsub s0 n) n)
    (h, h)

/-- A value inside a gate program on one unit is not finite (R211): a preactivation, the state, or what the steps of R210 form of them. -/
def gateBad (b : List Byte) (z : List W32) (s0 : W32) : Bool :=
  let at_ := fun i => z.getD i 0
  let inner : List W32 :=
    if pgKind b = 1 then
      let c1 := ffma (fsigmoid (at_ 1)) s0 (fmul (fsigmoid (at_ 0)) (ftanh (at_ 2)))
      [c1]
    else
      let n := ffma (fsigmoid (at_ 0)) (at_ 3) (at_ 2)
      let d := fsub s0 (ftanh n)
      [n, d, ffma (fsigmoid (at_ 1)) d (ftanh n)]
  ((z ++ [s0]) ++ inner).any fun x => !fFinite x

/-- The four preactivations of unit u in a row of product columns. -/
def gateZ (row : List W32) (u : Nat) : List W32 := (List.range 4).map fun g => row.getD (64 * (u / 16) + u % 16 + 16 * g) 0

/-- A gate program on a row of n product columns and its state, and whether a value inside it was not finite. -/
def gateRow (b : List Byte) (row st : List W32) : List (W32 × W32) :=
  (List.range (row.length / 4)).map fun u => gateUnit b (gateZ row u) (st.getD u 0)
def gateRowBad (b : List Byte) (row st : List W32) : Bool := (List.range (row.length / 4)).any fun u => gateBad b (gateZ row u) (st.getD u 0)

/-- One row of FP32 values that a program names, if it uses it. -/
def State.progRow (s : State) (used : Bool) (a n : Nat) : Option (List W32) × Bool × State :=
  if used then
    let (rows, p, t) := s.readPlain a 0 1 n n
    (some (rows.headD []), p, t)
  else (none, false, s)

/-- The finished outputs of a product of m rows of n columns under a program, the rows of its residual lying ld elements apart; with the new state
rows of a gate program, whether anything read was poisoned, and the state. -/
def State.infuseRows (s : State) (k : ClusId) (b : List Byte) (at_ : Nat → Nat) (rows : List (List W32)) (n ld : Nat) : List (List W32) × Bool × State :=
  if b.isEmpty then (rows, false, s)
  else
    let m := rows.length
    let (sc, p1, s1) := s.progRow (pgScale b) (at_ (pgAddr b 16)) n
    let (bi, p2, s2) := s1.progRow (pgBias b) (at_ (pgAddr b 24)) n
    let pick := fun (v : Option (List W32)) (j : Nat) => v.map fun l => l.getD j 0
    if pgKind b = 0 then
      let (rs, p3, s3) := if pgRes b then s2.readPlain (at_ (pgAddr b 32)) 0 m n ld else ([], false, s2)
      let out := ((List.range m).zip rows).map fun (i, r) =>
        ((List.range r.length).zip r).map fun (j, g) =>
          infuse b g (pick sc j) (pick bi j) (if pgRes b then some ((rs.getD i []).getD j 0) else none)
      (out, p1 || p2 || p3, s3)
    else
      let (sts, p3, s3) := s2.readPlain (at_ (pgAddr b 40)) 0 m (n / 4) (n / 4)
      let pre := rows.map fun r => ((List.range r.length).zip r).map fun (j, g) => scaleBias g (pick sc j) (pick bi j)
      let gated := (pre.zip sts).map fun (r, st) => gateRow b r st
      let inner := (pre.zip sts).any fun (r, st) => gateRowBad b r st
      let (bad, s4) := s3.writePlain (at_ (pgAddr b 48)) 0 (n / 4) (gated.map fun r => r.map (·.2))
      (gated.map fun r => r.map (·.1), p1 || p2 || p3, s4.flagIf (bad || inner) (.eng k) 16)

/-- A value of a list of rows is not finite. -/
def anyNonfinite (rows : List (List W32)) : Bool := rows.any fun r => r.any fun x => !fFinite x

/-- Finished outputs written to C: rows ld elements apart in a plain format, or packed blocks (R204, R212); with the infuser's flags. -/
def State.putOutputs (s : State) (k : ClusId) (h : Hdr) (ld : Nat) (rows : List (List W32)) : State :=
  if h.narrow then
    let (c, t) := s.writeTbf h rows
    ((t.flagIf (anyNonfinite rows) (.eng k) 16).flagIf (c.sat ≠ 0) (.eng k) 17).flagIf (c.nan ≠ 0) (.eng k) 18
  else
    let (bad, t) := s.writePlain h.data h.fmt ld rows
    t.flagIf (bad || anyNonfinite rows) (.eng k) 16

/-! ## GEMM (R202 to R205) -/

def Cmd.gM (c : Cmd) : Nat := ofield c.desc 160 16
def Cmd.gN (c : Cmd) : Nat := ofield c.desc 176 16
def Cmd.gK (c : Cmd) : Nat := ofield c.desc 192 20
def Cmd.gAcc (c : Cmd) : Bool := ofield c.desc 212 1 == 1
def Cmd.gLd (c : Cmd) : Nat := ofield c.desc 213 20

/-- Product columns and output columns of a program. -/
def outCols (prog : List Byte) (n : Nat) : Nat := if !prog.isEmpty && pgKind prog ≠ 0 then n / 4 else n

/-- The copies of a command at given addresses, lengths, alignments and descriptor offsets: those that could be made, with their poison, and the
offsets of those that could not. -/
def State.copyAll (s : State) (p : PartId) (xs : List (Nat × Nat × Nat × Nat)) : List (Nat × List PByte) × List Nat :=
  xs.foldl (fun acc x => match s.copyAt p x.1 x.2.1 x.2.2.1 with
    | some b => (acc.1 ++ [(x.1, b)], acc.2)
    | none => (acc.1 ++ [(x.1, [])], acc.2 ++ [x.2.2.2])) ([], [])

/-- The copies without their poison, and a note when any was poisoned: such a command meets ST_POISONED (R11). -/
def plainCopies (xs : List (Nat × List PByte)) : List (Nat × List Byte) := xs.map fun x => (x.1, plain x.2)
def poisonNote (xs : List (Nat × List PByte)) : List Nat := if xs.any (fun x => anyPoison x.2) then [1] else []

/-- The checks of GEMM's operand area (R62, R202 to R206). -/
def State.admitGemm (s : State) (c : Cmd) : Admit :=
  let inf := ofield c.desc 120 40
  let (cp, bad0) := s.copyAll c.part ([(ofield c.desc 0 40, 32, 32, 32), (ofield c.desc 40 40, 32, 32, 37), (ofield c.desc 80 40, 32, 32, 42)] ++
    if inf = 0 then [] else [(inf, 64, 64, 47)])
  let b := fun i => plain ((cp.getD i (0, [])).2)
  let ha := hdrOf (b 0)
  let hb := hdrOf (b 1)
  let hc := hdrOf (b 2)
  let prog := if inf = 0 then [] else b 3
  let m := c.gM
  let n := c.gN
  let k := c.gK
  let cols := outCols prog n
  let ld := if c.gLd = 0 then cols else c.gLd
  let bad1 := bad0 ++
    badIf (m = 0) 52 ++ badIf (n = 0) 54 ++ badIf (k = 0) 56 ++ badIf (ofield c.desc 233 23 ≠ 0) 61 ++
    badIf (!hdrOk (b 0) || !(ha.fmt == 1 || ha.narrow)) 32 ++ badIf (!hdrOk (b 1) || !pairOk ha.fmt hb.fmt) 37 ++
    badIf (!hdrOk (b 2) || (hc.narrow && (hc.compact || hc.sidx ≠ 0))) 42 ++
    badIf ((hc.narrow && (c.gAcc || c.gLd ≠ 0)) || (c.gAcc && hc.fmt ≠ 0) || (c.gLd ≠ 0 && c.gLd < cols)) 58 ++
    badIf (!prog.isEmpty && !progOk prog n c.gAcc) 47
  if !bad1.isEmpty then { bad := bad1, copies := plainCopies cp, notes := poisonNote cp }
  else
    let outs := hc.outs m cols ld
    let use := fun (rs : List Rng) => if prog.isEmpty then [] else rs
    let vecs := use (progVecs prog n)
    let res := use (progRes prog m n (if c.gLd = 0 then n else c.gLd))
    let stIn := use (progIn prog m n)
    let stOut := use (progOut prog m n)
    let ins := (ha.reads m k).map (fun r => (r, 32)) ++ (hb.reads n k).map fun r => (r, 37)
    let reads := ins.map (·.1) ++ vecs
    let accR : List Rng := if c.gAcc then outs.map fun r => { r with wr := false } else []
    let pr := vecs ++ res ++ stIn ++ stOut
    let all := ins ++ pr.map (fun r => (r, 47)) ++ outs.map fun r => (r, 42)
    let clash := writesMeet outs (reads ++ stIn ++ stOut) || writesMeet stOut (reads ++ res) ||
      outs.any (fun w => res.any fun r => if hc.fmt = 0 then w.crosses r else w.meets r) || stOut.any fun w => stIn.any w.crosses
    { bad := c.wellFails all ++ badIf clash 42
      ranges := ins.map (·.1) ++ pr ++ outs ++ accR
      copies := plainCopies cp, notes := poisonNote cp }

/-- The rows of a product: A rows against B rows, with the accumulate step (R77 to R84). -/
def products (a b : List (List Fp)) : List (List W32) := a.map fun r => b.map fun t => dot r t

/-- Existing outputs added once after the tree (R84). -/
def addRows (x y : List (List W32)) : List (List W32) := (x.zip y).map fun (r, t) => (r.zip t).map fun (u, v) => fadd u v

/-- The effect of a GEMM (R202 to R212). -/
def State.gemmBody (c : Cmd) (s : State) : State × List St :=
  let hd := fun i => (hdrOf (c.copied i)).onCore c.at_
  let prog := c.copied 3
  let m := c.gM
  let n := c.gN
  let k := c.gK
  let cols := outCols prog n
  let ld := if c.gLd = 0 then cols else c.gLd
  let (a, s1) := s.readOperand (hd 0) m k c.f0a
  let (b, s2) := s1.readOperand (hd 1) n k c.f0b
  let s2 := s2.mxBusy c.coreId (cdiv m 32 * cdiv n 64 * cdiv k 128 * 16 * phi2 (hd 0).fmt (hd 1).fmt)
  let (s3, fails) := s2.meetFails c.clus (a.fails ++ b.fails)
  let pz := a.poisoned || b.poisoned
  if !fails.isEmpty then (s3, fails ++ if pz then [.poisoned] else [])
  else
    let prod := products a.rows b.rows
    let (old, p1, s4) := if c.gAcc then s3.readPlain (hd 2).data 0 m n ld else ([], false, s3)
    let g := if c.gAcc then addRows prod old else prod
    let s5 := s4.flagIf (anyNonfinite g) (.eng c.clus) 0
    let (out, p2, s6) := s5.infuseRows c.clus prog c.at_ g n (if c.gLd = 0 then n else c.gLd)
    (s6.putOutputs c.clus (hd 2) ld out, if pz || p1 || p2 then [.poisoned] else [])

/-- GEMM. -/
def execGemm (p : PartId) (q : QueId) (n : Nat) (flt : UnitFault) (s : State) : Host.Outcome State Fault Refusal :=
  s.engineRow p q n .gemm flt State.gemmBody

/-! ## VOP (R213 to R215) -/

def Cmd.vOp (c : Cmd) : Nat := ofield c.desc 0 8
def Cmd.vSrc (c : Cmd) : Nat := ofield c.desc 8 2
def Cmd.vDst (c : Cmd) : Nat := ofield c.desc 10 2
def Cmd.vBimm (c : Cmd) : Bool := ofield c.desc 12 1 == 1
def Cmd.vCimm (c : Cmd) : Bool := ofield c.desc 13 1 == 1
def Cmd.vA (c : Cmd) : Nat := ofield c.desc 16 23
def Cmd.vB (c : Cmd) : Nat := ofield c.desc 39 23
def Cmd.vC (c : Cmd) : Nat := ofield c.desc 62 23
def Cmd.vD (c : Cmd) : Nat := ofield c.desc 85 23
def Cmd.vCols (c : Cmd) : Nat := ofield c.desc 108 16
def Cmd.vRows (c : Cmd) : Nat := ofield c.desc 124 16
def Cmd.vStride (c : Cmd) : Nat := ofield c.desc 140 16
def Cmd.vImm0 (c : Cmd) : W32 := BitVec.ofNat 32 (ofield c.desc 156 32)
def Cmd.vImm1 (c : Cmd) : W32 := BitVec.ofNat 32 (ofield c.desc 188 32)

/-- Operations of Table ENG-8 that name b, those that name c, the row reductions and the two norms. -/
def vUsesB (op : Nat) : Bool := (1 ≤ op && op ≤ 6) || op == 0x0A || op == 0x11 || op == 0x25 || op == 0x26
def vUsesC (op : Nat) : Bool := op == 4 || op == 0x0A || op == 0x25
def vIsRed (op : Nat) : Bool := 0x20 ≤ op && op ≤ 0x23
def vIsNorm (op : Nat) : Bool := op == 0x25 || op == 0x26
/-- The operations of Table ENG-8. -/
def vKnown (op : Nat) : Bool :=
  (1 ≤ op && op ≤ 0x0A) || (0x10 ≤ op && op ≤ 0x13) || (0x18 ≤ op && op ≤ 0x1C) || (0x20 ≤ op && op ≤ 0x26)

/-- Distance between rows of cols elements of sz bytes (R213). -/
def Cmd.vPitch (c : Cmd) (cols sz : Nat) : Nat := if c.vStride = 0 then cdiv (cols * sz) 8 * 8 else 8 * c.vStride

/-- Bytes from the start of the first row to the end of the last. -/
def Cmd.vSpan (c : Cmd) (cols sz : Nat) : Nat := (c.vRows - 1) * c.vPitch cols sz + cols * sz

/-- Columns of the result. -/
def Cmd.vOutCols (c : Cmd) : Nat := if vIsRed c.vOp then 1 else c.vCols

/-- The base of the well that a VOP's narrow addresses lie in. -/
def Cmd.vWell (c : Cmd) : Nat := if c.isPlace then wellAddr 0 0 else wellAddr (Fin.ofNat 32 c.coreField) 0

/-- The declared ranges of a VOP with the descriptor offset of each. -/
def Cmd.vRanges (c : Cmd) : List (Rng × Nat) :=
  let w := c.vWell
  let ss := plainSize c.vSrc
  let bLen := if vIsNorm c.vOp then 4 * c.vCols else c.vSpan c.vCols ss
  [(⟨w + c.vA, c.vSpan c.vCols ss, false⟩, 34)] ++
  (if vUsesB c.vOp && !c.vBimm then [(⟨w + c.vB, bLen, false⟩, 36)] else []) ++
  (if vUsesC c.vOp && !c.vCimm then [(⟨w + c.vC, bLen, false⟩, 39)] else []) ++
  [(⟨w + c.vD, c.vSpan c.vOutCols (plainSize c.vDst), true⟩, 42)]

/-- The checks of VOP's operand area (R213, R214). -/
def State.admitVop (_s : State) (c : Cmd) : Admit :=
  let op := c.vOp
  let useB := vUsesB op
  let useC := vUsesC op
  let norm := vIsNorm op
  let rs := c.vRanges
  let bad :=
    badIf (!vKnown op) 32 ++
    badIf (c.vSrc = 3 || c.vDst = 3 || (c.vBimm && (!useB || norm)) || (c.vCimm && (!useC || norm)) || ofield c.desc 14 2 ≠ 0) 33 ++
    badIf (c.vA % 8 ≠ 0) 34 ++
    badIf (c.vB % 8 ≠ 0 || (c.vB ≠ 0 && (!useB || c.vBimm))) 36 ++
    badIf (c.vC % 8 ≠ 0 || (c.vC ≠ 0 && (!useC || c.vCimm))) 39 ++
    badIf (c.vD % 8 ≠ 0) 42 ++ badIf (c.vCols = 0) 45 ++ badIf (c.vRows = 0) 47 ++
    badIf (c.vImm0 ≠ 0 && !(c.vBimm || op = 9 || norm)) 51 ++ badIf (c.vImm1 ≠ 0 && !(c.vCimm || op = 9)) 55 ++
    badIf (ofield c.desc 220 36 ≠ 0) 59
  let d := (rs.getLast?.map (·.1)).getD ⟨0, 0, true⟩
  let a := (rs.head?.map (·.1)).getD ⟨0, 0, false⟩
  let same := a.lo = d.lo && a.len = d.len && c.vSrc = c.vDst && !vIsRed op
  let clash := (a.meets d && !same) || (rs.drop 1).any fun x => !x.1.wr && x.1.meets d
  { bad := bad ++ (rs.filter fun x => decide ((x.1.lo - wellBase) % 0x800000 + x.1.len > wellBytes)).map (·.2) ++ badIf clash 42
    ranges := rs.map (·.1) }

/-- Lanes of a row reduction: lane ℓ folds elements ℓ + 64, ℓ + 128, … in ascending order (R215). -/
def lanes (start : W32 → W32) (fold : W32 → W32 → W32) (row : List W32) : List W32 :=
  match chunks 64 row with
  | [] => []
  | first :: rest => rest.foldl (fun acc part => ((List.range acc.length).zip acc).map fun (i, a) =>
      match part[i]? with
      | some x => fold a x
      | none => a) (first.map start)

/-- The four row reductions (R215). -/
def rsum (row : List W32) : W32 := tree fadd (lanes id fadd row)
def rmax (row : List W32) : W32 := tree fmax (lanes id fmax row)
def rmin (row : List W32) : W32 := tree fmin (lanes id fmin row)
def rsumsq (row : List W32) : W32 := tree fadd (lanes (fun x => fmul x x) (fun a x => ffma x x a) row)

/-- 1 / sqrt (Table ENG-8). -/
def frsqrt (x : W32) : W32 := fdiv fpOne (fsqrt x)

/-- One element of an element-wise operation (Table ENG-8). -/
def vElem (op : Nat) (imm0 imm1 a b c : W32) : W32 :=
  match op with
  | 0x01 => fadd a b
  | 0x02 => fsub a b
  | 0x03 => fmul a b
  | 0x04 => ffma a b c
  | 0x05 => fmin a b
  | 0x06 => fmax a b
  | 0x07 => fabs a
  | 0x08 => fneg a
  | 0x09 => fmin (fmax a imm0) imm1
  | 0x0A => if flt 0 a then b else c
  | 0x11 => fdiv a b
  | 0x12 => fsqrt a
  | 0x13 => frsqrt a
  | 0x18 => fexp a
  | 0x19 => fsigmoid a
  | 0x1A => ftanh a
  | 0x1B => fsilu a
  | 0x1C => fgelu a
  | _ => a

/-- SOFTMAX of a row (Table ENG-8). -/
def softmax (a : List W32) : List W32 :=
  let mu := rmax a
  let e := a.map fun x => fexp (fsub x mu)
  let r := fdiv fpOne (rsum e)
  e.map fun x => fmul x r

/-- One row of a VOP's result (Table ENG-8). -/
def vRow (op : Nat) (imm0 imm1 : W32) (a b c : List W32) : List W32 :=
  let n := fint a.length
  let zip3 := fun (f : W32 → W32 → W32 → W32) => (a.zip (b.zip c)).map fun (x, y, z) => f x y z
  if op = 0x20 then [rsum a] else if op = 0x21 then [rmax a] else if op = 0x22 then [rmin a] else if op = 0x23 then [rsumsq a]
  else if op = 0x24 then softmax a
  else if op = 0x25 then
    let mu := fdiv (rsum a) n
    let d := a.map fun x => fsub x mu
    let rho := frsqrt (fadd (fdiv (rsumsq d) n) imm0)
    (d.zip (b.zip c)).map fun (x, y, z) => ffma (fmul x rho) y z
  else if op = 0x26 then
    let rho := frsqrt (fadd (fdiv (rsumsq a) n) imm0)
    (a.zip b).map fun (x, y) => fmul (fmul x rho) y
  else zip3 (vElem op imm0 imm1)

/-- Cycles in which the lanes work (Table ENG-8, without the start-up). -/
def Cmd.vCycles (c : Cmd) : Nat :=
  let op := c.vOp
  let c64 := cdiv c.vCols 64
  if op ≤ 0x10 then cdiv (c.vRows * c.vCols) (if c.vSrc ≠ 0 && c.vDst ≠ 0 then 128 else 64)
  else if op ≤ 0x13 then cdiv (c.vRows * c.vCols) 8
  else if op ≤ 0x1C then cdiv (c.vRows * c.vCols) 16
  else if op ≤ 0x23 then c.vRows * (c64 + 12)
  else if op = 0x24 then c.vRows * (2 * c64 + cdiv c.vCols 16 + 24)
  else if op = 0x25 then c.vRows * (3 * c64 + 24)
  else c.vRows * (2 * c64 + 24)

/-- Rows of a VOP operand, a pitch of bytes apart. -/
def State.vLoad (s : State) (base fmt rows cols pitch : Nat) : List (List W32) × Bool × State :=
  let sz := plainSize fmt
  (List.range rows).foldl (fun (acc : List (List W32) × Bool × State) i =>
    let (bs, t) := acc.2.2.load (base + i * pitch) (cols * sz)
    (acc.1 ++ [(chunks sz (plain bs)).map fun e => plainVal fmt (leNat e)], acc.2.1 || anyPoison bs, t)) ([], false, s)

/-- Operand B or C of a VOP: an immediate in every place, one row for a norm, or rows like A's. -/
def State.vOperand (s : State) (c : Cmd) (used imm : Bool) (v : W32) (a : Nat) : List (List W32) × Bool × State :=
  let cols := c.vCols
  if imm || !used then (List.replicate c.vRows (List.replicate cols v), false, s)
  else if vIsNorm c.vOp then
    let (r, p, t) := s.vLoad a 0 1 cols (4 * cols)
    (List.replicate c.vRows (r.headD []), p, t)
  else s.vLoad a c.vSrc c.vRows cols (c.vPitch cols (plainSize c.vSrc))

/-- The effect of a VOP (R213 to R215). -/
def State.vopBody (c : Cmd) (s : State) : State × List St :=
  let w := wellAddr c.coreId 0
  let (a, p1, s1) := s.vLoad (w + c.vA) c.vSrc c.vRows c.vCols (c.vPitch c.vCols (plainSize c.vSrc))
  let (b, p2, s2) := s1.vOperand c (vUsesB c.vOp) c.vBimm c.vImm0 (w + c.vB)
  let (d, p3, s3) := s2.vOperand c (vUsesC c.vOp) c.vCimm c.vImm1 (w + c.vC)
  let out := (a.zip (b.zip d)).map fun (x, y, z) => vRow c.vOp c.vImm0 c.vImm1 x y z
  let sz := plainSize c.vDst
  let pitch := c.vPitch c.vOutCols sz
  let bits := out.map fun r => r.map (plainBits c.vDst)
  let bad := anyNonfinite out || bits.any fun r => r.any fun x => !fFinite (plainVal c.vDst x)
  let s4 := ((List.range bits.length).zip bits).foldl (fun t (i, r) => t.storeB (w + c.vD + i * pitch) (r.flatMap fun x => leBytes sz x)) s3
  ((s4.flagIf bad (.eng c.clus) 8).vxBusy c.coreId c.vCycles, if p1 || p2 || p3 then [.poisoned] else [])

/-- VOP. -/
def execVop (p : PartId) (q : QueId) (n : Nat) (flt : UnitFault) (s : State) : Host.Outcome State Fault Refusal :=
  s.engineRow p q n .vop flt State.vopBody

end Sys2Proof.Machine
end

