-- ==== Sys2Proof/Machine/Net.lean ====
section
/-! DEFINITION. Ethernet ports (chapter NET, R382 to R390, R395): port control, receive classification, host rings, transmission at a count, and
one-step insertion. -/
namespace Sys2Proof.Machine

/-! ## Ports and ownership -/

/-- The state with one Ethernet port replaced. -/
def State.setEth (s : State) (e : EthId) (x : EthPort) : State := { s with eth := s.eth.set e x }

/-- The sticky register of a port's die. -/
def netErr (e : EthId) : Sticky := .net (dieOfEth e)

/-- A host port may write an Ethernet port's registers (R325, R385). -/
def State.mayEth (s : State) (p : Port) (e : EthId) : Bool :=
  match s.eth[e].owner with
  | some o => if s.eth[e].state == .off then (s.port p).attached else o == p
  | none => (s.port p).attached

/-- The domain of an Ethernet port (Table NET-1). -/
def ethPd (e : EthId) : PdId := if e.val < 3 then 125 else 126

/-- The MAC address that a port takes at power-up and at a device reset (R399). -/
def State.defaultMac (s : State) (e : EthId) : BitVec 48 :=
  let bytes : List Byte :=
    if s.trb.configOk then beBytes 6 ((Config.ethMacBase.toNat + e.val) % 2 ^ 48)
    else [0x02] ++ beBytes 4 (Config.serial.toNat % 2 ^ 32) ++ [nb e.val]
  BitVec.ofNat 48 (leNat bytes)

/-! ## Host rings (R385 to R387) -/

/-- Base, place and size of a ring from its base register; none when it is not registered. -/
def ringOf (r : BitVec 45) : Option (Nat × Bool × Nat) :=
  let base := r.toNat % 2 ^ 40
  if base = 0 then none else some (base, r.getLsbD 40, 2 ^ (r.toNat / 2 ^ 41 % 16))

/-- Address of entry n of a ring. -/
def entryAddr (base entries : Nat) (n : W32) : Nat := base + 32 * (n.toNat % entries)

/-- Bytes of a port's ring entry. -/
def State.ethRead (s : State) (x : EthPort) (host : Bool) (a len : Nat) : List Byte :=
  if host then
    match x.owner with
    | some p => s.hostLoad p a len
    | none => repByte len 0
  else s.bytes a len

/-- Bytes written to a port's ring entry. -/
def State.ethWrite (s : State) (x : EthPort) (host : Bool) (a : Nat) (bs : List Byte) : State :=
  if host then
    match x.owner with
    | some p => s.hostStore p a bs
    | none => s
  else s.storeB a bs

/-- The effects of reading a port's ring entry: those of main memory, or none in host memory. -/
def State.ethEcc (s : State) (host : Bool) (a len : Nat) : State := if host then s else s.readEcc a len

/-- A completion on a host ring raises the port's vector (Table NET-5). -/
def State.ethIrq (s : State) (e : EthId) : State :=
  let x := s.eth[e]
  match x.owner with
  | some p => if x.irqEn && 3 ≤ x.irqVec.toNat then s.raise p x.irqVec.toNat else s
  | none => s

/-- The head of a transmit ring completes: its descriptor has been read, its result is written, and the done count advances (R386). -/
def State.txDone (s : State) (e : EthId) (timed : Bool) (st : St) (stamp : Nat) : State :=
  let x := s.eth[e]
  let reg := if timed then x.txtBase else x.txgBase
  let n := if timed then x.txtDone else x.txgDone
  let s1 := match ringOf reg with
    | some (base, host, k) =>
      let a := entryAddr base k n
      (s.ethEcc host a 32).ethWrite x host (a + 16) (leBytes 2 st.code ++ repByte 6 0 ++ leBytes 8 stamp)
    | none => s
  let s2 := { s1 with eth := vmod s1.eth e fun y => if timed then { y with txtDone := n + 1, lateHead := false } else { y with txgDone := n + 1 } }
  s2.ethIrq e

/-- Every queued frame of a ring completes unsent with a status; `fuel` bounds their number. -/
def State.flushRing (s : State) (e : EthId) (timed : Bool) : (fuel : Nat) → State
  | 0 => s
  | fuel + 1 =>
    let x := s.eth[e]
    let pending := if timed then x.txtProd != x.txtDone else x.txgProd != x.txgDone
    let reg := if timed then x.txtBase else x.txgBase
    if pending && (ringOf reg).isSome then (s.txDone e timed .notReady 0).flushRing e timed fuel else s

/-- Every queued host frame of a port completes unsent with ST_NOT_READY (R389). -/
def State.flushEth (s : State) (e : EthId) : State := (s.flushRing e true 4096).flushRing e false 4096

/-- A port leaves the states in which it may send: its queued host frames complete, and it takes the new state. -/
def State.leaveUp (s : State) (e : EthId) (st : EthState) : State :=
  let s1 := if s.eth[e].state == .up then s.flushEth e else s
  s1.setEth e { s1.eth[e] with state := st, speed := 0, lateHead := false }

/-- Software stops or fences a port: the axes of its stations are tripped in the same cycle (R382). -/
def State.tripPort (s : State) (e : EthId) : State :=
  s.tripAxes fun x => if h : x.station < 32 then s.stations[x.station].port == e else false

/-- A port is OFF and has no owner (log entry 198). -/
def State.ethIdle (s : State) (e : EthId) : State := s.setEth e { s.eth[e] with state := .off, owner := none }

/-- A port stops: it keeps its owner until it is OFF (R385, log entry 198). -/
def State.ethStop (s : State) (e : EthId) (st : EthState) : State :=
  let s1 := s.leaveUp e st
  if st == .off then s1.ethIdle e else s1

/-- Software disables or fences a port (R382). -/
def State.ethOff (s : State) (e : EthId) (st : EthState) : State := (s.tripPort e).ethStop e st

/-- A host's access to an Ethernet port: nothing on a die that is absent (R486), ignored and flagged where the host port may not write (R385), and else
its effect. -/
def State.ethRow (s : State) (p : Port) (e : EthId) (body : State) : State :=
  s.hostRow p (if !s.diePresent (dieOfEth e) then s else if !s.mayEth p e then s.flag (netErr e) 1 else body)

/-- The Ethernet ports of a host port that detaches keep their links and have no owner; their host rings are unregistered and queued host frames
dropped (R385). -/
def State.ethDetach (s : State) (p : Port) : State :=
  { s with eth := s.eth.map fun (x : EthPort) =>
      if x.owner == some p then
        { x with owner := none, txtBase := 0, txgBase := 0, rxBase := 0, txtDone := x.txtProd, txgDone := x.txgProd, lateHead := false }
      else x }

/-- NET_PORT_ENABLE: op 0b01 of NET_P_CTL (R382, R385, Table NET-5). -/
def execNetPortEnable (p : Port) (e : EthId) (s : State) : Host.Outcome State Fault Refusal :=
  let x := s.eth[e]
  let mode := x.cfg.toNat % 8
  let ok := if e.val < 4 then 1 ≤ mode && mode ≤ 3 else mode == 4
  done s (s.ethRow p e
    (if x.state != .off then s
    else if ok then s.setEth e { x with state := .training, owner := some p } else s.flag (netErr e) 0))

/-- NET_PORT_DISABLE: op 0b10 of NET_P_CTL (R382). -/
def execNetPortDisable (p : Port) (e : EthId) (s : State) : Host.Outcome State Fault Refusal :=
  let x := s.eth[e]
  done s (s.ethRow p e (if x.state == .training || x.state == .up || x.state == .down then s.ethOff e .off else s))

/-- Speed of a link (Table NET-5): fixed by the mode on E0 to E3, negotiated on E4 and E5. -/
def linkSpeed (e : EthId) (cfg : BitVec 5) (negotiated : Nat) : Nat :=
  if e.val < 4 then (if cfg.toNat % 8 = 1 then 4 else if cfg.toNat % 8 = 2 then 2 else 1) else negotiated

/-- ETH_LINK_UP (R382): a port in training, or DOWN and retraining, comes UP. -/
def execEthLinkUp (e : EthId) (speed : Nat) (s : State) : Host.Outcome State Fault Refusal :=
  let x := s.eth[e]
  let sp := linkSpeed e x.cfg speed
  if (x.state == .training || x.state == .down) && 1 ≤ sp && sp ≤ 4 then done s (s.setEth e { x with state := .up, speed := sp, busy := s.now })
  else done s s

/-- ETH_LINK_DOWN (R382): only the change from UP to DOWN sets link_lost. -/
def execEthLinkDown (e : EthId) (s : State) : Host.Outcome State Fault Refusal :=
  if s.eth[e].state == .up then done s ((s.leaveUp e .down).flag (netErr e) 5) else done s s

/-! ## Receiving (R384, R387) -/

/-- A destination address passes the receive filter (Table NET-1). -/
def EthPort.passes (x : EthPort) (dst : List Byte) : Bool :=
  dst == macBytes x.mac || dst == repByte 6 0xFF ||
  dst == [0x01, 0x80, 0xC2, 0x00, 0x00, 0x0E] || dst == [0x01, 0x1B, 0x19, 0x00, 0x00, 0x00] ||
  dst == [0x01, 0x00, 0x5E, 0x00, 0x01, 0x81] ||
  (x.mcast.toList.any fun m => m.getLsbD 48 && leBytes 6 (m.toNat % 2 ^ 48) == dst) || x.cfg.getLsbD 4

/-- The UDP datagram of an IPv4 frame: destination address and port, and the offset of its payload. -/
def udpOf (f : List Byte) : Option (Nat × Nat × Nat) :=
  let (o, et) := etherOf f
  let ihl := fieldAt f o 1 % 16 * 4
  if et = 0x0800 && fieldAt f o 1 / 16 = 4 && 20 ≤ ihl && fieldAt f (o + 9) 1 = 17 && o + ihl + 8 ≤ f.length then
    some (leNat (bytesAt f (o + 16) 4).reverse, leNat (bytesAt f (o + ihl + 2) 2).reverse, o + ihl + 8)
  else none

/-- Fields of a binding (Table INT-5). -/
def Binding.f (b : Binding) (lo w : Nat) : Nat := bfield b.entry lo w
def Binding.stream (b : Binding) : Nat := b.f 0 18
def Binding.part (b : Binding) : PartId := Fin.ofNat 16 (b.f 18 4)
def Binding.isTdm (b : Binding) : Bool := b.f 22 1 == 1
def Binding.port (b : Binding) : Nat := b.f 23 3
def Binding.channel (b : Binding) : Nat := b.f 26 4
def Binding.nch (b : Binding) : Nat := b.f 120 4
def Binding.l24 (b : Binding) : Bool := b.f 124 1 == 1
/-- R of R336: 3 at 48 kHz, 1 at 16 kHz. -/
def Binding.r (b : Binding) : Nat := if b.f 125 1 = 0 then 3 else 1
def Binding.tsOffset (b : Binding) : Nat := b.f 128 32
def Binding.delay (b : Binding) : Nat := b.f 160 16

/-- An RTP packet on a port matches a binding: address, UDP port, payload type and, where asked, SSRC (Table INT-5). -/
def Binding.matches (b : Binding) (e : EthId) (f : List Byte) : Bool :=
  match udpOf f with
  | some (ip, udp, o) =>
    !b.isTdm && b.port == e.val && b.f 32 32 == ip && b.f 64 16 == udp && b.f 80 7 == fieldAt f (o + 1) 1 % 128 &&
    (b.f 87 1 == 0 || b.f 88 32 == leNat (bytesAt f (o + 8) 4).reverse)
  | none => false

/-- Class of a received frame in its descriptor (R384, R387). -/
def frameClass (f : List Byte) : Nat :=
  let (o, et) := etherOf f
  let udpPort := match udpOf f with
    | some (_, p, _) => p
    | none => 0
  let hdr := match udpOf f with
    | some (_, _, q) => q
    | none => o
  let ptp := et == 0x88F7 || udpPort == 319 || udpPort == 320
  let mt := fieldAt f hdr 1 % 16
  if (et == 0x88F7 || udpPort == 319) && mt ≤ 3 then 1
  else if ptp && 8 ≤ mt && mt ≤ 13 then 2
  else if et == 0x88B5 then 3
  else 0

/-- A frame written to the host receive ring (R387); a tag control field of an untagged frame is open (log entry 12). -/
def State.rxHost (s : State) (e : EthId) (base : Nat) (host : Bool) (k : Nat) (stamp : Nat) (f : List Byte) : State :=
  let x := s.eth[e]
  let a := entryAddr base k x.rxDone
  let buf := leNat (s.ethRead x host a 8) % 2 ^ 40
  let tagged := bytesAt f 12 2 == [0x81, 0x00]
  let tci := if tagged then leNat (bytesAt f 14 2).reverse else Config.openVal 387 [stamp]
  let multi := fieldAt f 0 1 % 2
  let bcast := bytesAt f 0 6 == repByte 6 0xFF
  let flags := (if tagged then 1 else 0) + 2 * multi + if bcast then 4 else 0
  let s1 := (s.ethEcc host a 8).devStore buf (clean f)
  let s2 := s1.ethWrite x host (a + 8)
    (leBytes 2 f.length ++ leBytes 2 St.ok.code ++ leBytes 1 (frameClass f) ++ leBytes 1 flags ++ leBytes 2 tci ++ leBytes 8 stamp ++ repByte 8 0)
  ({ s2 with eth := vmod s2.eth e fun y => { y with rxDone := x.rxDone + 1 } }).ethIrq e

/-- ETH_FRAME_RECEIVE (R384): a frame without its FCS, stamped by the port, goes where the first row of Table NET-2 that applies sends it. -/
def execEthFrameReceive (e : EthId) (stamp : Nat) (fcsOk : Bool) (f : List Byte) (s : State) : Host.Outcome State Fault Refusal :=
  let x := s.eth[e]
  if x.state != .up then done s s
  else if !fcsOk || f.length < 60 || 1518 < f.length then done s (s.setEth e { x with rxBad := satAdd 8 x.rxBad 1 })
  else if !x.passes (bytesAt f 0 6) then done s (s.setEth e { x with rxFiltered := satAdd 16 x.rxFiltered 1 })
  else
    let (o, et) := etherOf f
    if et = 0x88B5 && fieldAt f (o + 1) 1 = 2 && !(s.stationsAt e (bytesAt f 6 6)).isEmpty then
      done s (s.setEth e { x with toLoop := x.toLoop ++ [(stamp, f)] })
    else if s.bindings.any fun b => b.matches e f then done s (s.setEth e { x with toAudio := x.toAudio ++ [(stamp, f)] })
    else
      match ringOf x.rxBase with
      | some (base, host, k) =>
        if x.rxProd != x.rxDone then done s (s.rxHost e base host k stamp f)
        else done s ((s.setEth e { x with rxNoDesc := satAdd 8 x.rxNoDesc 1 }).flag (netErr e) 4)
      | none => done s ((s.setEth e { x with rxNoDesc := satAdd 8 x.rxNoDesc 1 }).flag (netErr e) 4)

/-! ## Producer counts -/

/-- NET_TX_PRODUCER_WRITE (R386, R389): frames written while the port is not UP complete unsent with ST_NOT_READY. -/
def execNetTxProducerWrite (p : Port) (e : EthId) (timed : Bool) (v : W32) (s : State) : Host.Outcome State Fault Refusal :=
  let x := s.eth[e]
  let s1 := s.setEth e (if timed then { x with txtProd := v } else { x with txgProd := v })
  done s (s.ethRow p e (if x.state == .up then s1 else s1.flushRing e timed 4096))

/-- NET_RX_PRODUCER_WRITE (R387). -/
def execNetRxProducerWrite (p : Port) (e : EthId) (v : W32) (s : State) : Host.Outcome State Fault Refusal :=
  done s (s.ethRow p e (s.setEth e { s.eth[e] with rxProd := v }))

/-! ## Transmitting (R388 to R390, R395) -/

/-- A transmit descriptor (Table NET-3) as a number. -/
def txField (d : List Byte) (lo w : Nat) : Nat := bfield d lo w

/-- A descriptor keeps every row of Table NET-3. -/
def State.txOk (s : State) (timed : Bool) (d : List Byte) : Bool :=
  let mode := txField d 53 2
  txField d 40 11 ≤ 1518 && txField d 51 1 == (if timed then 1 else 0) && mode ≠ 3 && txField d 63 1 == 0 && txField d 112 16 == 0 &&
  (mode = 2 || txField d 128 64 == 0) && txField d 192 64 == 0 && s.mapped (txField d 0 40) (max 1 (txField d 40 11)) &&
  txField d 0 40 + txField d 40 11 ≤ windowBase

/-- The head of a transmit ring, if a frame is queued. -/
def State.txHead (s : State) (e : EthId) (timed : Bool) : Option (List Byte) :=
  let x := s.eth[e]
  let reg := if timed then x.txtBase else x.txgBase
  let prod := if timed then x.txtProd else x.txgProd
  let dn := if timed then x.txtDone else x.txgDone
  match ringOf reg with
  | some (base, host, k) => if prod = dn then none else some (s.ethRead x host (entryAddr base k dn) 32)
  | none => none

/-- The launch count of a timed descriptor (R171). -/
def State.txLaunch (s : State) (d : List Byte) : Nat := near48 s.now (txField d 64 48)

/-- The frame of a descriptor, padded to 60 bytes, and the state after its read (log entries 71, 78). -/
def State.txRead (s : State) (d : List Byte) : List Byte × State :=
  let (r, t) := s.devLoad (txField d 0 40) (txField d 40 11)
  let bs := plain (r.getD [])
  (bs ++ repByte (60 - bs.length) 0, t)

/-- Length of a descriptor's frame without FCS. -/
def txLen (d : List Byte) : Nat := max 60 (txField d 40 11)

/-- Ten times the line rate in Gb/s. -/
def rate10 (speed : Nat) : Nat := if speed = 1 then 10 else if speed = 2 then 25 else if speed = 3 then 50 else 100

/-- w(L) for a frame of a length without FCS (R388). -/
def wireTime (speed : Nat) (len : Nat) : Nat := cdiv ((len + 4 + 20) * 512) (10 * rate10 speed)

/-- The next launch count of a station at or after a count (R362). -/
def Station.nextLaunch (x : Station) (c : Nat) : Nat :=
  let l0 := x.phase + x.launchOff
  if c ≤ l0 then l0 else l0 + cdiv (c - l0) x.period * x.period

/-- The next station launch count on a port at or after a count. -/
def State.nextReserved (s : State) (e : EthId) (c : Nat) : Option Nat :=
  let ls := (allFin 32).filterMap fun st =>
    let x := s.stations[st]
    if (x.state == .run || x.state == .halted) && x.port == e then some (x.nextLaunch c) else none
  match ls with
  | [] => none
  | l :: rest => some (rest.foldl min l)

/-- No reserved count comes before a count. -/
def clearUntil (r : Option Nat) (c : Nat) : Bool :=
  match r with
  | some l => decide (c ≤ l)
  | none => true

/-- A correctionField grown by a value in two's complement (R395). -/
def addCorrection (f : List Byte) (off : Nat) (v : Int) : List Byte :=
  let old := leNat (bytesAt f (off + 8) 8).reverse
  overlay f (off + 8) (beBytes 8 (((old : Int) + v) % (2 ^ 64 : Nat)).toNat)

/-- One's-complement sum of 16-bit words folded. -/
def fold16 : (fuel : Nat) → Nat → Nat
  | 0, x => x
  | fuel + 1, x => if x < 65536 then x else fold16 fuel (x / 65536 + x % 65536)

/-- A UDP checksum corrected for one changed 16-bit word (RFC 1624). -/
def csumWord (hc m m' : Nat) : Nat := 65535 - fold16 4 ((65535 - hc) + (65535 - m) + m')

/-- A frame's nonzero UDP checksum corrected for the bytes that changed (R395). -/
def fixUdp (old new : List Byte) : List Byte :=
  match udpOf old with
  | some (_, _, o) =>
    let at_ := o - 2
    let hc := leNat (bytesAt old at_ 2).reverse
    if hc = 0 then new
    else
      let words := (List.range ((old.length - o + 1) / 2)).map fun i => o + 2 * i
      let hc' := words.foldl (fun c w =>
        let a := leNat (bytesAt old w 2).reverse
        let b := leNat (bytesAt new w 2).reverse
        if a = b then c else csumWord c a b) hc
      overlay new at_ (beBytes 2 hc')
  | none => new

/-- One-step insertion at a start count (R395); a header that does not lie whole in the frame takes none (log entry 78). -/
def State.insertPtp (s : State) (d : List Byte) (f : List Byte) (c : Nat) : List Byte :=
  let off := txField d 55 8
  let t := s.tb.time c
  if f.length < off + (if txField d 53 2 = 1 then 44 else 16) then f
  else if txField d 53 2 = 1 then
    let n := t / 65536
    let f1 := overlay f (off + 34) (beBytes 6 (n / 1000000000) ++ beBytes 4 (n % 1000000000))
    fixUdp f (addCorrection f1 off (t % 65536 : Nat))
  else if txField d 53 2 = 2 then
    fixUdp f (addCorrection f off ((t : Int) - s.tb.time (txField d 128 64)))
  else f

/-- A frame leaves a port at the present count. -/
def State.sendEth (s : State) (e : EthId) (f : List Byte) : State :=
  let t := s.emit (.ethFrame e s.now f)
  { t with eth := vmod t.eth e fun x => { x with busy := s.now + wireTime x.speed f.length } }

/-- The drive frame with the lowest station number among those whose launch count is the present one. -/
def State.driveNow (s : State) (e : EthId) : Option DriveFrame :=
  (s.eth[e].drives.filter fun f => f.launch = s.now).foldl (fun best f => match best with
    | some b => if f.station.val < b.station.val then some f else best
    | none => some f) none

/-- The head of a ring leaves at the present count with a status. -/
def State.sendHead (s : State) (e : EthId) (timed : Bool) (d : List Byte) (st : St) : State :=
  let (f, t) := s.txRead d
  (t.sendEth e (s.insertPtp d f s.now)).txDone e timed st s.now

/-- A refused descriptor (R386). -/
def State.badDesc (s : State) (e : EthId) (timed : Bool) : State := (s.txDone e timed .badCommand 0).flag (netErr e) 2

/-- Rule 3 of R388 for the head of the timed ring when it is late and may be sent late, and for the head of the general ring, which goes when that one
is too long to start. -/
def State.sendSpare (s : State) (e : EthId) (head : Option (List Byte)) : State :=
  let x := s.eth[e]
  let launch := head.map s.txLaunch
  let spare := fun (d : List Byte) (timedToo : Bool) =>
    let c := s.now + wireTime x.speed (txLen d) + 16
    clearUntil (s.nextReserved e s.now) c && (!timedToo || clearUntil launch c)
  match (if x.lateHead then head.filter fun d => spare d false else none) with
  | some d => s.sendHead e true d .late
  | none =>
    match s.txHead e false with
    | some g => if spare g (!x.lateHead) then s.sendHead e false g .ok else s
    | none => s

/-- TRANSMIT_START (R388): an idle port that is UP starts the frame named by the first rule that applies; a head whose descriptor breaks Table
NET-3 completes unsent first. -/
def execTransmitStart (e : EthId) (s : State) : Host.Outcome State Fault Refusal :=
  let x := s.eth[e]
  let timed := s.txHead e true
  let general := s.txHead e false
  if x.state != .up then done s s
  else if (timed.any fun d => !s.txOk true d) then done s (s.badDesc e true)
  else if (general.any fun d => !s.txOk false d) then done s (s.badDesc e false)
  else if s.now < x.busy then done s s
  else
    match s.driveNow e with
    | some f =>
      let s1 := s.setEth e { x with drives := x.drives.filter fun g => g != f }
      let y := s.stations[f.station]
      done s ((s1.setStation f.station { y with seq := BitVec.ofNat 32 f.k }).sendEth e (f.frame ++ repByte (60 - f.frame.length) 0))
    | none =>
      match timed with
      | some d =>
        if s.txLaunch d = s.now && !x.lateHead && clearUntil (s.nextReserved e s.now) (s.now + wireTime x.speed (txLen d) + 16) then
          done s (s.sendHead e true d .ok)
        else done s (s.sendSpare e timed)
      | none => done s (s.sendSpare e timed)

/-- A drive frame that did not start at its count (R375, R389): late on an UP port, and not sent in any case. -/
def State.lateDrive (s : State) (e : EthId) (f : DriveFrame) : State :=
  let x := s.eth[e]
  let s1 := s.flag (.lpe (dieOfStation f.station)) 12
  if x.state == .up then (s1.setEth e { x with late := satAdd 8 x.late 1 }).flag (netErr e) 3 else s1

/-- LAUNCH_LATE (R389): drive frames and the timed head whose launch counts have passed without a start. -/
def execLaunchLate (e : EthId) (s : State) : Host.Outcome State Fault Refusal :=
  let gone := s.eth[e].drives.filter fun f => f.launch < s.now
  let s1 := s.setEth e { s.eth[e] with drives := s.eth[e].drives.filter fun f => s.now ≤ f.launch }
  let s2 := gone.foldl (fun t f => t.lateDrive e f) s1
  let x := s2.eth[e]
  match s2.txHead e true with
  | some d =>
    if x.state == .up && s2.txOk true d && s2.txLaunch d < s.now && !x.lateHead then
      let s3 := (s2.setEth e { x with late := satAdd 8 x.late 1 }).flag (netErr e) 3
      if txField d 52 1 = 0 then done s (s3.txDone e true .missed 0) else done s (s3.setEth e { s3.eth[e] with lateHead := true })
    else done s s2
  | none => done s s2

/-! ## Reset (R398) -/

/-- What a device reset does to the ports and the timebase: every port OFF, rings, filters and NET_ registers cleared, PPS_OUT stopped and the
latches cleared; a fence stays (R463). -/
def State.ethReset (s : State) : State :=
  { s with
    eth := Vector.ofFn fun e =>
      let x := s.eth[e]
      { state := if x.state == .fenced then .fenced else if x.state == .notReady then .notReady else .off, mac := s.defaultMac e }
    ports := s.ports.map fun h => { h with nowCnt := 0, nowTime := 0 }
    tb := { s.tb with ppsLevel := false, ppsStopped := true } }

end Sys2Proof.Machine
end

