-- ==== Sys2Proof/Machine/Tables.lean ====
section
/-! DEFINITION. Accessors shared by the operand chapters: the stream table and groups, signal counters, planar tensors (R218), and copied field checks. -/
namespace Sys2Proof.Machine

/-! ## Streams and groups (R250, R251, R254) -/

/-- The entry of a stream; none while it was never opened since the device reset. -/
def State.stream? (s : State) (n : Nat) : Option Stream := s.streams.find? fun x => x.num == n

/-- The state of a stream: CLOSE when it has no entry. -/
def State.streamState (s : State) (n : Nat) : SState :=
  match s.stream? n with
  | some x => x.state
  | none => .close

/-- An entry put into the table, which stays sorted. -/
def putStream (x : Stream) : List Stream → List Stream
  | [] => [x]
  | y :: ys => if x.num < y.num then x :: y :: ys else if x.num = y.num then x :: ys else y :: putStream x ys

/-- The state with one entry replaced or added. -/
def State.setStream (s : State) (x : Stream) : State := { s with streams := putStream x s.streams }

/-- A group. -/
def State.group? (s : State) (n : Nat) : Option Group := s.groups.find? fun g => g.num == n

/-- The die whose sequencer holds a stream (R250). -/
def dieOfStream (n : Nat) : Die := if n < 131072 then 0 else 1

/-- Counts of a chunk: P of R259. -/
def chunkCounts (chunk20 : Bool) : Nat := if chunk20 then 12800000 else 6400000

/-- F of R270. -/
def Stream.frames (x : Stream) : Nat := if x.chunk20 then 2 else 1

/-! ## Planar tensors (R218) -/

/-- Reflect mode of R221 on an axis of extent n. -/
def reflect (n : Nat) (i : Int) : Nat :=
  if n ≤ 1 then 0
  else
    let p := 2 * (n - 1)
    let m := (i % (p : Int)).toNat
    if m < n then m else p - m

/-- Blocks in a plane row of w columns. -/
def planeBlocks (w : Nat) : Nat := cdiv w 32

/-- A plane row with its columns from w to wp - 1 at +0. -/
def padRow (w : Nat) (r : List W32) : List W32 := r ++ List.replicate (32 * planeBlocks w - r.length) 0

/-- Bytes of the data of a planar tensor of `rows` plane rows of w columns, and of its full scales. -/
def planarData (fmt rows w : Nat) : Nat :=
  if 3 ≤ fmt then rows * planeBlocks w * 4 * codeWidth fmt else rows * planeBlocks w * 32 * plainSize fmt
def planarScales (fmt rows w : Nat) : Nat := if 3 ≤ fmt then 4 * rows * planeBlocks w else 0

/-- Plane rows in the order of R218 as the bytes of their data and of their full scale entries, from block b0. -/
def planarBytes (fmt w b0 : Nat) (rows : List (List W32)) : Coded :=
  let padded := rows.map (padRow w)
  if 3 ≤ fmt then codeRows fmt b0 padded
  else { bytes := padded.flatMap fun r => r.flatMap fun x => leBytes (plainSize fmt) (plainBits fmt x) }

end Sys2Proof.Machine
end

