-- ==== Sys2Proof/Machine/Image.lean ====
section
/-! DEFINITION. Image coordinates and samples shared by the image operators and the strainer: padding (R221) and the samples of a box (R234). -/
namespace Sys2Proof.Machine

/-- Where a coordinate on an axis of extent n reads the image: none where it lies in padding of zero or constant mode (R221). Modes: 0 zero,
1 constant, 2 replicate, 3 reflect. -/
def padMap (mode n : Nat) (i : Int) : Option Nat :=
  if 0 ≤ i && i < n then some i.toNat
  else if mode = 2 then some (min (max i 0) ((n : Int) - 1)).toNat
  else if mode = 3 then some (reflect n i)
  else none

/-- An image of FP32 values: its extents and the value of a pixel of a channel. -/
structure Img where
  h : Nat
  w : Nat
  px : Nat → Nat → Nat → W32

/-- A pixel at any coordinates; `pad` is the value of padding in zero and constant mode. -/
def Img.read (im : Img) (mode : Nat) (pad : W32) (c : Nat) (y x : Int) : W32 :=
  match padMap mode im.h y, padMap mode im.w x with
  | some a, some b => im.px c a b
  | _, _ => pad

/-- 0.5. -/
def fHalf : W32 := 0x3F000000

/-- A sample's coordinate on one axis (R234): position `k = i × sr + a` of `n = ho × sr` in the box from e0 to e1. -/
def sampleCoord (e0 e1 : W32) (k n : Nat) : W32 :=
  let u := fadd (fpCvt k) fHalf
  let st := fdiv (fsub e1 e0) (fpCvt n)
  fsub (ffma u st e0) fHalf

/-- The sample of a channel at coordinates (R234): nearest, or bilinear. -/
def Img.sample (im : Img) (bilinear : Bool) (mode : Nat) (pad : W32) (c : Nat) (y x : W32) : W32 :=
  if bilinear then
    let iy := ffloor y
    let ix := ffloor x
    let fy := fsub y (fpCvt iy)
    let fx := fsub x (fpCvt ix)
    let v := fun (dy dx : Int) => im.read mode pad c (iy + dy) (ix + dx)
    let top := ffma fx (fsub (v 0 1) (v 0 0)) (v 0 0)
    let bot := ffma fx (fsub (v 1 1) (v 1 0)) (v 1 0)
    ffma fy (fsub bot top) top
  else im.read mode pad c (ffloor (fadd y fHalf)) (ffloor (fadd x fHalf))

end Sys2Proof.Machine
end

