-- ==== Sys2Proof/Machine/Intake.lean ====
section
/-! DEFINITION. Camera and audio intake (chapter INT): camera ports, the pixel front end, frames and their records; bindings, packets and chunks. -/
namespace Sys2Proof.Machine

/-! ## Camera ports (R322 to R325) -/

/-- Fields of the camera block (Table INT-3). -/
def Camera.gear (x : Camera) : Nat := fieldAt x.blk 0 1
def Camera.vc (x : Camera) : Nat := fieldAt x.blk 1 1
def Camera.dtype (x : Camera) : Nat := fieldAt x.blk 2 1
def Camera.cfa (x : Camera) : Nat := fieldAt x.blk 3 1
def Camera.width (x : Camera) : Nat := fieldAt x.blk 4 2
def Camera.height (x : Camera) : Nat := fieldAt x.blk 6 2
def Camera.decX (x : Camera) : Nat := fieldAt x.blk 8 1
def Camera.decY (x : Camera) : Nat := fieldAt x.blk 9 1
def Camera.outFmt (x : Camera) : Nat := fieldAt x.blk 10 1
def Camera.part (x : Camera) : PartId := Fin.ofNat 16 (fieldAt x.blk 11 1)
def Camera.black (x : Camera) (q : Nat) : Nat := fieldAt x.blk (12 + 2 * q) 2
def Camera.gain (x : Camera) (q : Nat) : Nat := fieldAt x.blk (20 + 2 * q) 2
def Camera.m (x : Camera) (i : Nat) : W32 := f32At x.blk (28 + 4 * i)
def Camera.off (x : Camera) (c : Nat) : W32 := f32At x.blk (64 + 4 * c)
def Camera.outScale (x : Camera) : W32 := f32At x.blk 76
def Camera.outBias (x : Camera) : W32 := f32At x.blk 80
def Camera.nbuf (x : Camera) : Nat := fieldAt x.blk 84 1
def Camera.counter (x : Camera) : Nat := fieldAt x.blk 85 1
def Camera.trigger (x : Camera) : Bool := bfield x.blk 688 1 == 1
def Camera.bufBase (x : Camera) : Nat := fieldAt x.blk 88 8
def Camera.bufStride (x : Camera) : Nat := fieldAt x.blk 96 4
def Camera.recBase (x : Camera) : Nat := fieldAt x.blk 104 8
def Camera.trigPeriod (x : Camera) : Nat := fieldAt x.blk 118 4

/-- Output extents and channels (R326). -/
def Camera.wOut (x : Camera) : Nat := x.width / x.decX
def Camera.hOut (x : Camera) : Nat := x.height / x.decY
def isRaw (dtype : Nat) : Bool := dtype == 0x2A || dtype == 0x2B || dtype == 0x2C || dtype == 0x2E
def Camera.chans (x : Camera) : Nat := if isRaw x.dtype && x.cfa == 0 then 1 else 3

/-- Where the scale entries of a buffer begin, and its size (R329). -/
def Camera.scaleOff (x : Camera) : Nat := cdiv (planarData x.outFmt (x.hOut * x.chans) x.wOut) 64 * 64
def Camera.bufBytes (x : Camera) : Nat :=
  if 3 ≤ x.outFmt then x.scaleOff + planarScales x.outFmt (x.hOut * x.chans) x.wOut
  else planarData x.outFmt (x.hOut * x.chans) x.wOut

/-- Die and power domain of a camera port (Table ORG-2). -/
def dieOfCam (v : CamId) : Die := if v.val < 12 then 0 else 1
def camPd (v : CamId) : PdId := Fin.ofNat 128 (114 + v.val / 6)
/-- Sticky register of a camera port. -/
def camErr (v : CamId) : Sticky := .intk (dieOfCam v)

/-- The state with one camera port replaced. -/
def State.setCam (s : State) (v : CamId) (x : Camera) : State := { s with cams := s.cams.set v x }

/-- A host port may write a camera port's registers: that of the partition of its loaded block, and any attached one while it is OFF (R325). -/
def State.mayCam (s : State) (p : Port) (v : CamId) : Bool :=
  let x := s.cams[v]
  if x.state == .off then (s.port p).attached else !x.blk.isEmpty && s.owns p x.part

/-- A place that intake may write (R328): mapped main memory, a pool unit of the partition, or the well of one of its cores. -/
def State.intakePlace (s : State) (q : PartId) (a len : Nat) : Bool :=
  a + len ≤ poolBase + 8 * poolBytes && s.mayName q a len true

/-- The fields of a camera block lie in their ranges (Table INT-3). -/
def cameraOk (b : List Byte) : Bool :=
  let x : Camera := { blk := b }
  let long := isRaw x.dtype || x.dtype == 0x1E || x.dtype == 0x24
  1 ≤ x.gear && x.gear ≤ 3 && x.vc ≤ 15 && long && x.cfa ≤ 4 && 2 ≤ x.width && x.width ≤ 8192 && 2 ≤ x.height && x.height ≤ 8192 &&
  1 ≤ x.decX && x.decX ≤ 4 && 1 ≤ x.decY && x.decY ≤ 4 &&
  x.outFmt ≤ 9 && fieldAt b 11 1 ≤ 15 && 1 ≤ x.nbuf && x.nbuf ≤ 16 && x.counter ≤ 63 && fieldAt b 86 1 ≤ 1 && fieldAt b 87 1 == 0 &&
  x.bufBase < 2 ^ 40 && x.bufBase % 64 == 0 && x.bufStride % 64 == 0 && fieldAt b 100 4 == 0 && x.recBase < 2 ^ 40 && x.recBase % 64 == 0 &&
  fieldAt b 122 6 == 0 && (!x.trigger || 640000 ≤ x.trigPeriod) &&
  (x.cfa == 0 || (isRaw x.dtype && x.width % 2 == 0 && x.height % 2 == 0))

/-! ## The pixel front end (R326) -/

/-- Groups of n bytes as lists of components. -/
def groupsOf (n : Nat) (f : List Nat → List (List Nat)) (bs : List Byte) : List (List Nat) :=
  ((chunks n bs).filter fun g => g.length == n).flatMap fun g => f (g.map (·.toNat))

/-- The pixels of a line payload, each with its components (R326 step 1; the byte packing of each type is that of CSI-2, log entry 33). -/
def unpack (dtype : Nat) (bs : List Byte) : List (List Nat) :=
  let at_ := fun (g : List Nat) i => g.getD i 0
  if dtype = 0x2A then bs.map fun b => [b.toNat]
  else if dtype = 0x2B then groupsOf 5 (fun g => (List.range 4).map fun i => [at_ g i * 4 + at_ g 4 / 4 ^ i % 4]) bs
  else if dtype = 0x2C then groupsOf 3 (fun g => [[at_ g 0 * 16 + at_ g 2 % 16], [at_ g 1 * 16 + at_ g 2 / 16]]) bs
  else if dtype = 0x2E then groupsOf 2 (fun g => [[at_ g 0 * 256 + at_ g 1]]) bs
  else if dtype = 0x24 then groupsOf 3 (fun g => [[at_ g 2, at_ g 1, at_ g 0]]) bs
  else groupsOf 4 (fun g => [[at_ g 1, at_ g 0, at_ g 2], [at_ g 3, at_ g 0, at_ g 2]]) bs

/-- Components of a pixel of a line as received. -/
def Camera.compsIn (x : Camera) : Nat := if isRaw x.dtype then 1 else 3

/-- A line's components in order: those of the pixels that came sound, the others taken from the previous line (R332). -/
def Camera.lineOf (x : Camera) (prev : List Nat) (sound : Bool) (px : List (List Nat)) : List Nat :=
  let got := if sound then px.take x.width else []
  let n := x.compsIn
  let flat := got.flatten
  flat ++ (prev ++ List.replicate (x.width * n) 0).drop flat.length |>.take (x.width * n)

/-- Black level and gain at a pixel (R326 step 2). -/
def Camera.gained (x : Camera) (y c u : Nat) : Nat :=
  let q := 2 * (y % 2) + c % 2
  min 65535 (((u - x.black q) * x.gain q + 128) / 256)

/-- A raw component after black and gain at any coordinates of a frame, in reflect mode; a line that the frame never received has a value that the
spec does not state (log entry 34). -/
def Camera.raw (x : Camera) (v : CamId) (f : CamFrame) (y c : Int) : Nat :=
  let yy := reflect x.height y
  let cc := reflect x.width c
  match f.lines[yy]? with
  | some l => x.gained yy cc (l.1.getD cc 0)
  | none => Config.openVal 326 [v.val, f.f.toNat, yy, cc] % 65536

/-- Row and column of the R sites of a colour filter array. -/
def cfaRed (cfa : Nat) : Nat × Nat := if cfa = 1 then (0, 0) else if cfa = 2 then (0, 1) else if cfa = 3 then (1, 0) else (1, 1)

/-- The three components of a pixel of a colour filter array (R326 step 3). -/
def Camera.demosaic (x : Camera) (v : CamId) (f : CamFrame) (y c : Nat) : List Nat :=
  let p := fun (dy dx : Int) => x.raw v f (y + dy) (c + dx)
  let (ry, rc) := cfaRed x.cfa
  let redRow := y % 2 == ry
  let redCol := c % 2 == rc
  let cross := (p (-1) 0 + p 1 0 + p 0 (-1) + p 0 1 + 2) / 4
  let diag := (p (-1) (-1) + p (-1) 1 + p 1 (-1) + p 1 1 + 2) / 4
  let horiz := (p 0 (-1) + p 0 1 + 1) / 2
  let vert := (p (-1) 0 + p 1 0 + 1) / 2
  if redRow && redCol then [p 0 0, cross, diag]
  else if !redRow && !redCol then [diag, cross, p 0 0]
  else if redRow then [horiz, p 0 0, vert]
  else [vert, p 0 0, horiz]

/-- The components of an input pixel (R326 steps 1 to 3). -/
def Camera.pixel (x : Camera) (v : CamId) (f : CamFrame) (y c : Nat) : List Nat :=
  if isRaw x.dtype then (if x.cfa = 0 then [x.raw v f y c] else x.demosaic v f y c)
  else
    match f.lines[y]? with
    | some l => (List.range 3).map fun i => l.1.getD (3 * c + i) 0
    | none => (List.range 3).map fun i => Config.openVal 326 [v.val, f.f.toNat, y, c, i] % 256

/-- The channels of an output pixel (R326 steps 4 and 5). -/
def Camera.outPixel (x : Camera) (v : CamId) (f : CamFrame) (y c : Nat) : List W32 :=
  let n := x.decX * x.decY
  let px := (List.range n).map fun i => x.pixel v f (y * x.decY + i / x.decX) (c * x.decX + i % x.decX)
  let comp := fun k => fint? ((px.foldl (fun a l => a + l.getD k 0) 0 + n / 2) / n)
  (List.range x.chans).map fun ch =>
    let out :=
      if x.chans = 3 then
        ffma (x.m (3 * ch + 2)) (comp 2) (ffma (x.m (3 * ch + 1)) (comp 1) (ffma (x.m (3 * ch)) (comp 0) (x.off ch)))
      else ffma (x.m 0) (comp 0) (x.off 0)
    ffma out x.outScale x.outBias
where
  /-- A component in FP32. -/
  fint? (n : Nat) : W32 := fpCvt n

/-- Output rows received in full from the lines that came. -/
def Camera.rowsOf (x : Camera) (f : CamFrame) : Nat := min x.hOut (f.lines.length / x.decY)

/-- The plane rows of a frame in the order of R218: the rows received, then the last of them repeated (R332). Of a frame that received no row the
spec states no values (log entry 34). -/
def Camera.planeRows (x : Camera) (v : CamId) (f : CamFrame) : List (List W32) :=
  let rows := x.rowsOf f
  (List.range x.hOut).flatMap fun y =>
    let px := (List.range x.wOut).map fun c =>
      if rows = 0 then (List.range x.chans).map fun ch => BitVec.ofNat 32 (Config.openVal 332 [v.val, f.f.toNat, y, c, ch])
      else x.outPixel v f (min y (rows - 1)) c
    (List.range x.chans).map fun ch => px.map fun l => l.getD ch 0

/-- Output rows that contain a concealed line (R330, log entry 35). -/
def Camera.concealed (x : Camera) (f : CamFrame) : Nat :=
  ((List.range (x.rowsOf f)).filter fun y => (List.range x.decY).any fun i => match f.lines[y * x.decY + i]? with
    | some l => l.2
    | none => false).length

/-! ## Frames (R329 to R332) -/

/-- The record of a frame (Table INT-4). -/
def Camera.frameRecord (x : Camera) (f : CamFrame) (st : St) (eof : Nat) : List Byte :=
  let rows := x.rowsOf f
  leBytes 4 f.f.toNat ++ leBytes 2 st.code ++ leBytes 2 f.csi ++ leBytes 8 f.sof ++ leBytes 8 eof ++ leBytes 2 rows ++ leBytes 2 (x.concealed f) ++
  leBytes 2 (if rows < x.hOut then rows else 0xFFFF) ++ leBytes 1 (f.f.toNat % x.nbuf) ++ repByte 33 0

/-- The writes of a frame's buffer, at most 4 KiB each: its data, and the full scales of a TBF-32 one (R328, R329). -/
def Camera.framePuts (x : Camera) (v : CamId) (f : CamFrame) : List IoJob :=
  let c := planarBytes x.outFmt x.wOut 0 (x.planeRows v f)
  let a := x.bufBase + f.f.toNat % x.nbuf * x.bufStride
  cutPuts x.part a (clean c.bytes) ++ if 3 ≤ x.outFmt then cutPuts x.part (a + x.scaleOff) (clean c.entries) else []

/-- What a camera port does once a frame has ended: it writes the buffer, and then, where one is due, the record (R328 to R330). -/
def Camera.frameJobs (x : Camera) (v : CamId) (f : CamFrame) (st : St) (eof : Nat) (record : Bool) : List IoJob :=
  x.framePuts v f ++
    if record then [.record x.part x.counter (x.recBase + f.f.toNat % x.nbuf * 64) (clean (x.frameRecord f st eof))] else []

/-- The status of a frame (R332): `early` when a new Frame Start, the loss of the link, a disable or the like ended it. -/
def Camera.frameStatus (x : Camera) (f : CamFrame) (fenced early : Bool) : St :=
  if fenced then .fenced else if early || f.lines.length < x.height then .truncated else if f.lines.any (·.2) then .concealed else .ok

/-- The frame in progress ends: its writes are put in hand, its concealed rows are counted, and its record waits for them (R329, R330, R332). -/
def State.endFrame (s : State) (v : CamId) (fenced early : Bool) (eof : Nat) (record : Bool) : State :=
  let x := s.cams[v]
  match x.cur with
  | some f =>
    let y := { x with
      cur := none, inFrame := false, concRows := satAdd 16 x.concRows (x.concealed f)
      jobs := x.jobs ++ x.frameJobs v f (x.frameStatus f fenced early) eof record }
    (s.setCam v y).ioAll (.cam v)
  | none => s.setCam v { x with inFrame := false }

/-- The trigger's uplink GPIO released. -/
def State.gpioLow (s : State) (v : CamId) : State :=
  if s.cams[v].gpio then (s.setCam v { s.cams[v] with gpio := false }).emit (.gpio v false) else s

/-- A camera port stops what it does: its frame ends as by a disable, and its trigger is released (R332, R340). -/
def State.camStop (s : State) (v : CamId) (record : Bool) : State := (s.endFrame v false true s.now record).gpioLow v

/-! ## Configuration (R324, R325) -/

/-- A camera block may be loaded by a port (R324). -/
def State.cameraMay (s : State) (p : Port) (addr : Nat) (b : List Byte) : Bool :=
  let y : Camera := { blk := b }
  let bufs := (List.range y.nbuf).all fun i => s.intakePlace y.part (y.bufBase + i * y.bufStride) y.bufBytes
  cameraOk b && addr + 128 ≤ s.mainEnd && s.owns p y.part && y.bufBytes ≤ y.bufStride && bufs && s.intakePlace y.part y.recBase (64 * y.nbuf)

/-- The effect of op 0b01 of INT_V_CTL (R324): a port that is training or running stops and is loaded anew; one that is fenced stays so (R340, log entry
52). -/
def State.camLoad (s : State) (p : Port) (v : CamId) : State :=
  let x := s.cams[v]
  if !s.diePresent (dieOfCam v) then s
  else if !s.mayCam p v then s.flag (camErr v) 1
  else if x.state == .fenced then s
  else if !s.domainOn (camPd v) then s.setCam v { x with state := .notReady }
  else
    let t := s.camStop v true
    let y := t.cams[v]
    let (blk, t1) := t.readBlock x.cfgAddr.toNat 128
    match blk with
    | none => (t1.setCam v { y with state := .off }).flag (camErr v) 0
    | some b =>
      if t.cameraMay p x.cfgAddr.toNat b then t1.setCam v { y with state := .training, blk := b, frames := 0, enabledAt := s.now }
      else (t1.setCam v { y with state := .off }).flag (camErr v) 0

/-- CAMERA_LOAD: op 0b01 of INT_V_CTL (R324, R325). -/
def execCameraLoad (p : Port) (v : CamId) (s : State) : Host.Outcome State Fault Refusal := done s (s.hostRow p (s.camLoad p v))

/-- A packet that the port takes: RUNNING, of the block's virtual channel. -/
def State.camTakes (s : State) (v : CamId) (vc : Nat) : Bool := s.cams[v].state == .running && s.cams[v].vc == vc

/-- APHY_LINK_UP: a port in training runs (Table INT-1). -/
def execAphyLinkUp (v : CamId) (s : State) : Host.Outcome State Fault Refusal :=
  if s.cams[v].state == .training then done s (s.setCam v { s.cams[v] with state := .running }) else done s s

/-- APHY_LINK_LOST (R332): the frame in progress ends, and the port retrains. -/
def execAphyLinkLost (v : CamId) (s : State) : Host.Outcome State Fault Refusal :=
  if s.cams[v].state == .running then
    let t := s.endFrame v false true s.now true
    done s ((t.setCam v { t.cams[v] with state := .training }).flag (camErr v) 2)
  else done s s

/-- FRAME_START (R323, R329, R332): a frame in progress ends early; the new one takes the next number, and is dropped when its buffer is not free. -/
def execFrameStart (v : CamId) (vc number stamp : Nat) (s : State) : Host.Outcome State Fault Refusal :=
  if !s.camTakes v vc then done s s
  else
    let t := s.endFrame v false true s.now true
    let x := t.cams[v]
    let f := x.frames
    if (f - x.cons).toNat < x.nbuf then
      done s (t.setCam v { x with frames := f + 1, inFrame := true, cur := some { f := f, csi := number, sof := stamp } })
    else done s (t.setCam v { x with frames := f + 1, inFrame := true, dropped := satAdd 8 x.dropped 1 })

/-- FRAME_END (R323, R330, R332). -/
def execFrameEnd (v : CamId) (vc stamp : Nat) (s : State) : Host.Outcome State Fault Refusal :=
  if !s.camTakes v vc then done s s else done s (s.endFrame v false false stamp true)

/-- CSI_LINE_PACKET (R323, R327, R332): a long packet of the configured type gives the next line of the frame being written. A line that finds the line
buffer full, since rows could not be written in time, is concealed. -/
def execCsiLinePacket (v : CamId) (vc dtype : Nat) (headerOk crcOk : Bool) (line : CsiLine) (s : State) : Host.Outcome State Fault Refusal :=
  let x := s.cams[v]
  if x.state != .running then done s s
  else if !headerOk then done s (s.flag (camErr v) 3)
  else if vc ≠ x.vc || dtype ≠ x.dtype then done s s
  else
    match x.cur with
    | some f =>
      if x.height ≤ f.lines.length then done s s
      else
        let px := unpack dtype line.payload
        let short := decide (px.length < x.width)
        let prev := match f.lines.getLast? with
          | some l => l.1
          | none => []
        let comps := x.lineOf prev (crcOk && !line.full) px
        let y := { x with
          cur := some { f with lines := f.lines ++ [(comps, !crcOk || short || line.full)] }
          crcLines := if crcOk then x.crcLines else satAdd 8 x.crcLines 1 }
        done s ((((s.setCam v y).flagIf (!crcOk) (camErr v) 4).flagIf short (camErr v) 5).flagIf line.full (camErr v) 6)
    | none => done s s

/-- FRAME_RECORD_WRITE (R330): once its frame's writes have landed, the oldest record is written; when that has landed the frame is signalled. -/
def execFrameRecordWrite (v : CamId) (s : State) : Host.Outcome State Fault Refusal :=
  done s ((s.ioAll (.cam v)).camRecord v)

/-- The effect of op 0b10 of INT_V_CTL (R324, R332). -/
def State.camOff (s : State) (p : Port) (v : CamId) : State :=
  let x := s.cams[v]
  if !s.diePresent (dieOfCam v) then s
  else if !s.mayCam p v then s.flag (camErr v) 1
  else if x.state == .training || x.state == .running then
    let t := s.camStop v true
    t.setCam v { t.cams[v] with state := .off }
  else s

/-- CAMERA_DISABLE: op 0b10 of INT_V_CTL (R324, R332). -/
def execCameraDisable (p : Port) (v : CamId) (s : State) : Host.Outcome State Fault Refusal := done s (s.hostRow p (s.camOff p v))

/-- A camera port fenced (R332, R340). -/
def State.camFence (s : State) (v : CamId) : State :=
  let t := (s.endFrame v true true s.now true).gpioLow v
  t.setCam v { t.cams[v] with state := .fenced }

/-- A camera port whose partition closes (R332, R340): OFF, with no record of the frame it ended; it shows NOT_READY while its domain is off. -/
def State.camClose (s : State) (v : CamId) : State :=
  let t := s.camStop v false
  let x := t.cams[v]
  t.setCam v { x with state := if x.state == .fenced then .fenced else if s.domainOn (camPd v) then .off else .notReady }

/-- A camera port whose power domain goes off (R324). -/
def State.camDark (s : State) (v : CamId) : State :=
  let t := s.camStop v true
  t.setCam v { t.cams[v] with state := if t.cams[v].state == .fenced then .fenced else .notReady }

/-- A camera port whose power domain is on again stays NOT_READY until its block is loaded again; one that never had a block is OFF (R324, log entry 84). -/
def State.camLight (s : State) (v : CamId) : State :=
  let x := s.cams[v]
  if x.state == .notReady && x.blk.isEmpty then s.setCam v { x with state := .off } else s

/-- TRIGGER_PULSE (R331): the uplink GPIO rises at each count trig_start + k × trig_period that falls after the enable. -/
def execTriggerPulse (v : CamId) (s : State) : Host.Outcome State Fault Refusal :=
  let x := s.cams[v]
  let start := near48 x.enabledAt (fieldAt x.blk 112 6)
  if (x.state == .training || x.state == .running) && x.trigger && start ≤ s.now && x.enabledAt < s.now &&
      (s.now - start) % x.trigPeriod == 0 then
    done s ((s.setCam v { x with gpio := true, gpioRose := s.now }).emit (.gpio v true))
  else done s s

/-- TRIGGER_END (R331): 64 µs later it falls. -/
def execTriggerEnd (v : CamId) (s : State) : Host.Outcome State Fault Refusal :=
  if s.cams[v].gpio && s.cams[v].gpioRose + 40960 ≤ s.now then done s (s.gpioLow v) else done s s

/-- CCI_TRANSACTION: a write of INT_V_CCI (R325, R333); a write while a transaction is in progress starts none (log entry 36). -/
def execCciTransaction (p : Port) (v : CamId) (value : W32) (s : State) : Host.Outcome State Fault Refusal :=
  let x := s.cams[v]
  done s (s.hostRow p (
    if !s.diePresent (dieOfCam v) then s
    else if !s.mayCam p v then s.flag (camErr v) 1
    else if x.cciBusy then s
    else (s.setCam v { x with cci := value, cciBusy := true }).emit (.cci v value)))

/-- CCI_DONE (R333). -/
def execCciDone (v : CamId) (ack : Bool) (data : Byte) (s : State) : Host.Outcome State Fault Refusal :=
  let x := s.cams[v]
  if !x.cciBusy then done s s
  else
    let cci := if ack && x.cci.getLsbD 31 then BitVec.ofNat 32 (x.cci.toNat / 256 * 256 + data.toNat) else x.cci
    done s ((s.setCam v { x with cci := cci, cciBusy := false, cciNack := !ack }).flagIf (!ack) (camErr v) 7)

/-! ## Audio: media time and runs (R336, R339) -/

/-- fs of a binding, in samples per second. -/
def Binding.fs (b : Binding) : Nat := if b.r = 3 then 48000 else 16000

/-- Q of R336. -/
def Binding.q (b : Binding) (frames : Nat) : Nat := 160 * frames * b.r

/-- The media index at a count (R336). -/
def State.mediaAt (s : State) (fs c : Nat) : Nat := s.tb.time c * fs / (65536 * 1000000000)

/-- Fields of INT_TDM_CFG (Table INT-7). -/
def TdmPort.enable (t : TdmPort) : Bool := t.cfg.getLsbD 0
def TdmPort.master (t : TdmPort) : Bool := t.cfg.getLsbD 1
def TdmPort.fs (t : TdmPort) : Nat := if t.cfg.getLsbD 2 then 48000 else 16000
def TdmPort.slot (t : TdmPort) : Nat := t.cfg.toNat / 8 % 4
/-- The rate of the BCLK that a port drives, in hertz (R339): 0 unless it is an enabled master. -/
def TdmPort.bclk (t : TdmPort) : Nat :=
  if t.enable && t.master then t.fs * 16 * (if t.slot = 0 then 16 else if t.slot = 1 then 24 else 32) else 0

/-- The TDM port of a binding. -/
def Binding.tdmPort (b : Binding) : TdmId := Fin.ofNat 4 b.port

/-- A binding of a TDM slave: its media index counts frames, not network time (R339). -/
def State.isSlave (s : State) (b : Binding) : Bool := b.isTdm && !(s.tdm[b.tdmPort]).master

/-- Rate factor and rate of a binding's source: those of its TDM port for a TDM one. -/
def State.srcR (s : State) (b : Binding) : Nat := if b.isTdm then (if (s.tdm[b.tdmPort]).fs = 48000 then 3 else 1) else b.r
def State.srcFs (s : State) (b : Binding) : Nat := if b.isTdm then (s.tdm[b.tdmPort]).fs else b.fs

/-- The present media index of a binding's source. -/
def State.mediaNow (s : State) (b : Binding) : Nat :=
  if s.isSlave b then (s.tdm[b.tdmPort]).frames else s.mediaAt (s.srcFs b) s.now

/-- The first chunk of q samples, by the media index of its start, that starts at the present moment or later, or later only when `after` (R336). The
next frame of a TDM slave is still to come. -/
def State.nextChunk (s : State) (b : Binding) (q : Nat) (after : Bool) : Nat :=
  if s.isSlave b then cdiv (s.tdm[b.tdmPort]).frames q * q
  else
    let t := s.tb.time s.now * s.srcFs b
    let u := q * (65536 * 1000000000)
    (if after then t / u + 1 else cdiv t u) * q

/-- A stream state in which intake writes the ring (R338). -/
def SState.fed (x : SState) : Bool := x == .opened || x == .run || x == .pause || x == .park

/-- The binding of a stream: the one with the lowest index. -/
def State.bindingOf (s : State) (n : Nat) : Option Binding := s.bindings.find? fun b => b.stream == n

/-- The run of a stream started afresh, at the first chunk that starts now or later, or later only after an IMPORT (R336). -/
def State.audioStart (s : State) (n : Nat) (imported : Bool) : State :=
  match s.bindingOf n, s.stream? n with
  | some b, some x =>
    if x.state.fed && x.ringLog2 ≠ 0 then
      let next := s.nextChunk b (160 * x.frames * s.srcR b) imported
      { s with audio := s.audio.filter (fun r => r.stream != n) ++ [{ stream := n, next := next, first := next }] }
    else s
  | _, _ => s

/-- A stream's run ended (R338). -/
def State.audioStop (s : State) (n : Nat) : State := { s with audio := s.audio.filter fun r => r.stream != n }

/-! ## Bindings (R335) -/

/-- A binding's fields lie in their ranges (Table INT-5). -/
def bindingOk (b : Binding) : Bool :=
  b.f 30 2 == 0 && b.f 126 2 == 0 && bfield b.entry 176 64 == 0 && bfield b.entry 240 16 == 0 && b.delay ≤ 20000 &&
  (if b.isTdm then b.port ≤ 3 else b.port ≤ 5 && 1 ≤ b.nch && b.nch ≤ 8 && b.channel < b.nch)

/-- The die whose audio registers a binding's source uses: that of its Ethernet port, or die 1 for a TDM port (R339, log entry 37). -/
def Binding.die (b : Binding) : Die := if b.isTdm then 1 else dieOfEth (Fin.ofNat 6 b.port)

/-- The RTP session that a binding receives: its port and addresses, payload type and, when it matches one, SSRC; none for a TDM binding (R334, log entry
225). -/
def Binding.session (b : Binding) : Option (Nat × Nat × Nat × Nat) :=
  if b.isTdm then none else some (b.port, b.f 32 48, b.f 80 8, if b.f 87 1 = 1 then b.f 88 32 else 0)

/-- RTP sessions among bindings: at most 2,048 (R334). -/
def sessionsOf (bs : List Binding) : Nat := (bs.filterMap (·.session)).eraseDups.length

/-- A binding put into the table, which stays sorted. -/
def putBinding (x : Binding) : List Binding → List Binding
  | [] => [x]
  | y :: ys => if x.index < y.index then x :: y :: ys else if x.index = y.index then x :: ys else y :: putBinding x ys

/-- The effect of op 0b01 of INT_AUD_CTL (R335). A source of an absent die is out of range, and flagged on die 0 (R486, log entry 37). -/
def State.bindLoad (s : State) (p : Port) (index : Nat) : State :=
  let i := index % 4096
  let (blk, s1) := s.readBlock (s.audTable.toNat + 32 * i) 32
  match blk with
  | some e =>
    let b : Binding := { index := i, entry := e }
    let inPart := match s.stream? b.stream with
      | some x => x.state != .close && x.part == b.part
      | none => false
    let all := putBinding b s1.bindings
    if s.audTable.toNat + 32 * i + 32 ≤ s.mainEnd && s.owns p b.part && inPart && bindingOk b && s.diePresent b.die && sessionsOf all ≤ 2048 then
      let t := { s1 with bindings := all }
      if s.audio.any fun r => r.stream == b.stream then t else t.audioStart b.stream false
    else s1.flag (.aud (if s.diePresent b.die then b.die else 0)) 0
  | none => s1.flag (.aud 0) 0

/-- BINDING_LOAD: op 0b01 of INT_AUD_CTL (R335). -/
def execBindingLoad (p : Port) (index : Nat) (s : State) : Host.Outcome State Fault Refusal := done s (s.hostRow p (s.bindLoad p index))

/-- The effect of op 0b10 of INT_AUD_CTL (R335); a stream left with no binding gets no further chunk. -/
def State.bindClear (s : State) (index : Nat) : State :=
  let i := index % 4096
  match s.bindings.find? fun b => b.index == i with
  | some b =>
    let t := { s with bindings := s.bindings.filter fun x => x.index != i }
    if (t.bindingOf b.stream).isSome then t else t.audioStop b.stream
  | none => s

/-- BINDING_CLEAR: op 0b10 of INT_AUD_CTL (R335). -/
def execBindingClear (p : Port) (index : Nat) (s : State) : Host.Outcome State Fault Refusal := done s (s.hostRow p (s.bindClear index))

/-- FIR_LOAD: a write of INT_AUD_FIR copies the 72 coefficients (R337); an address that cannot be read copies nothing (log entry 38). -/
def execFirLoad (p : Port) (addr : Nat) (s : State) : Host.Outcome State Fault Refusal :=
  let t := { s with audFir := BitVec.ofNat 40 addr }
  let (blk, s1) := t.readBlock (addr % 2 ^ 40) 288
  done s (s.hostRow p (match blk with
    | some bs => { s1 with fir := (List.range 72).map fun i => f32At bs (4 * i) }
    | none => s1))

/-! ## Packets (R334, R336 to R338) -/

/-- A signed sample of `bits` bits in FP32 (R337): exact. -/
def sampleVal (bits raw : Nat) : W32 := roundFp ((intVal (signed bits raw)).scale (1 - (bits : Int)))

/-- One's-complement sum of the 16-bit words of a byte string, most significant byte first. -/
def sum16 (bs : List Byte) : Nat :=
  fold16 4 ((chunks 2 bs).foldl (fun a w => a + 256 * fieldAt w 0 1 + fieldAt w 1 1) 0)

/-- The UDP datagram of a frame is sound: its length fits and its checksum, when nonzero, verifies (R334). -/
def udpSound (f : List Byte) : Bool :=
  match udpOf f with
  | some (_, _, o) =>
    let (ip, _) := etherOf f
    let len := leNat (bytesAt f (o - 4) 2).reverse
    let ck := leNat (bytesAt f (o - 2) 2).reverse
    8 ≤ len && o - 8 + len ≤ f.length &&
    (ck = 0 || sum16 (bytesAt f (ip + 12) 8 ++ beBytes 2 17 ++ beBytes 2 len ++ bytesAt f (o - 8) len) == 65535)
  | none => false

/-- The RTP payload of a frame: its timestamp and its bytes, with CSRC lists, extensions and padding taken off; none when it is no RTP version 2
packet. -/
def rtpOf (f : List Byte) : Option (Nat × List Byte) :=
  match udpOf f with
  | some (_, _, o) =>
    let len := leNat (bytesAt f (o - 4) 2).reverse - 8
    let b0 := fieldAt f o 1
    let h0 := 12 + 4 * (b0 % 16)
    let ext := if b0 / 16 % 2 = 1 then 4 + 4 * leNat (bytesAt f (o + h0 + 2) 2).reverse else 0
    let pad := if b0 / 32 % 2 = 1 then fieldAt f (o + len - 1) 1 else 0
    let h := h0 + ext
    if b0 / 64 = 2 && 12 ≤ len && h + pad ≤ len then some (leNat (bytesAt f (o + 4) 4).reverse, bytesAt f (o + h) (len - h - pad)) else none
  | none => none

/-- Samples of a packet's payload for its channels: none when its size breaks R334 (6 to 192 samples at 48 kHz, the same time at 16 kHz). -/
def Binding.samplesIn (b : Binding) (payload : List Byte) : Option Nat :=
  let unit := b.nch * (if b.l24 then 3 else 2)
  let n := payload.length / unit
  let lo := if b.r = 3 then 6 else 2
  if payload.length % unit = 0 && lo ≤ n && n ≤ 64 * b.r then some n else none

/-- The media index of an RTP timestamp: that which lies within 2^31 samples of the present (R336). -/
def Binding.mediaOf (b : Binding) (ts present : Nat) : Nat :=
  let low := (ts + 2 ^ 32 - b.tsOffset) % 2 ^ 32
  let base := present / 2 ^ 32 * 2 ^ 32 + low
  if base + 2 ^ 31 < present then base + 2 ^ 32 else if present + 2 ^ 31 ≤ base && 2 ^ 32 ≤ base then base - 2 ^ 32 else base

/-- A sample put into a run; the first copy stands (R338). -/
def AudioRun.put (r : AudioRun) (i : Nat) (v : W32) : AudioRun :=
  if i < r.next || r.samples.any (fun x => x.1 == i) then r else { r with samples := r.samples ++ [(i, v)] }

/-- Some of the n samples from index m on fall in a chunk of the run that is completed (R338). -/
def AudioRun.late (r : AudioRun) (m n : Nat) : Bool := decide (max m r.first < min (m + n) r.next)

/-- What a packet does to the run of one binding: its samples are taken, or it is discarded by time (true). -/
def State.takePacket (s : State) (b : Binding) (ts : Nat) (payload : List Byte) : State × Bool :=
  match s.audio.find? fun r => r.stream == b.stream, b.samplesIn payload with
  | some r, some n =>
    let present := s.mediaNow b
    let m := b.mediaOf ts present
    if r.late m n || present + b.fs + 1 < m + n then (s, true)
    else
      let w := if b.l24 then 3 else 2
      let r1 := (List.range n).foldl (fun (a : AudioRun) i =>
        a.put (m + i) (sampleVal (8 * w) (leNat (bytesAt payload ((i * b.nch + b.channel) * w) w).reverse))) r
      ({ s with audio := s.audio.map fun x => if x.stream == r.stream then r1 else x }, false)
  | _, _ => (s, false)

/-- AUDIO_PACKET (R334, R336, R338): the oldest frame that Table NET-2 sent to the intake from a port. -/
def execAudioPacket (e : EthId) (s : State) : Host.Outcome State Fault Refusal :=
  let x := s.eth[e]
  let d := dieOfEth e
  match x.toAudio with
  | (_, f) :: rest =>
    let s1 := s.setEth e { x with toAudio := rest }
    let bs := s.bindings.filter fun b => b.matches e f
    match rtpOf f with
    | some (ts, payload) =>
      if !udpSound f || bs.any (fun b => (b.samplesIn payload).isNone) then done s (s1.flag (.aud d) 1)
      else
        let (t, late) := bs.foldl (fun (acc : State × Bool) b =>
          let (u, l) := acc.1.takePacket b ts payload
          (u, acc.2 || l)) (s1, false)
        done s (if late then { t with cnts := { t.cnts with audLate := vbump 16 t.cnts.audLate d 1 } }.flag (.aud d) 2 else t)
    | none => done s (s1.flag (.aud d) 1)
  | [] => done s s

/-! ## Chunks (R336 to R340) -/

/-- A source sample at a media index: +0 where none came, or before the stream's first chunk (R337, R338). -/
def AudioRun.at_ (r : AudioRun) (i : Int) : W32 :=
  if i < r.first then 0
  else match r.samples.find? fun x => (x.1 : Int) == i with
    | some x => x.2
    | none => 0

/-- The 16 kHz samples of the chunk that starts at a run's next index (R337). -/
def State.chunkSamples (s : State) (r : AudioRun) (rate frames : Nat) : List W32 :=
  (List.range (160 * frames)).map fun (k : Nat) =>
    if rate = 1 then r.at_ ((r.next + k : Nat) : Int)
    else (List.range 72).foldl (fun acc (t : Nat) => ffma (s.fir.getD t 0) (r.at_ ((r.next + 3 * k + 2 : Nat) - (t : Int))) acc) 0

/-- A chunk completes: its ring slot is written, arrived advances and last_stamp takes its due count (R336); a chunk that lacks a sample is counted and
flagged (R338). `zeros` completes it with zeros (R339). -/
def State.completeChunk (s : State) (b : Binding) (x : Stream) (r : AudioRun) (due : Nat) (zeros : Bool) : State :=
  let q := 160 * x.frames * s.srcR b
  let r0 := if zeros then { r with samples := [] } else r
  let data := if zeros then List.replicate (160 * x.frames) 0 else s.chunkSamples r0 (s.srcR b) x.frames
  let lacks := zeros || (List.range q).any fun i => !(r.samples.any fun y => y.1 == r.next + i)
  let slot := x.ring + x.arrived.toNat % 2 ^ x.ringLog2 * (640 * x.frames)
  let s1 := s.devStore slot (clean (data.flatMap f32Bytes))
  let s2 := s1.setStream { x with arrived := x.arrived + 1, lastStamp := due % 2 ^ 48 }
  let next := if zeros then r.next else r.next + q
  let r1 := { r0 with next := next, samples := r0.samples.filter fun y => next ≤ y.1 + 72 }
  let s3 := { s2 with audio := s2.audio.map fun y => if y.stream == r.stream then r1 else y }
  if lacks then { s3 with cnts := { s3.cnts with audConc := vbump 16 s3.cnts.audConc b.die 1 } }.flag (.aud b.die) 3 else s3

/-- The first count at which network time, by the conversion in force at count `now`, is at most `back` units of 2^-16 ns short of its value there (R336,
R391). -/
def Tb.countBack (t : Tb) (now back : Nat) : Nat :=
  let num : Int := ((now : Int) * 102400 + t.rateTerm now - back) * (2 ^ 48 : Nat) + t.anchor.toNat * t.rate.toInt * 102400
  (-((-num) / (102400 * ((2 ^ 48 : Nat) + t.rate.toInt)))).toNat

/-- The count from which a stream fed by a TDM slave without FSYNC counts P: its last chunk's, or that of the last FSYNC before its first (R339). -/
def Stream.lastCount (x : Stream) (now fsync : Nat) : Nat := if x.arrived = 0 then fsync else near48 now x.lastStamp

/-- AUDIO_CHUNK_DUE (R336, R339): a bound stream's chunk completes once network time has passed its end by link_delay; while a TDM slave has no
FSYNC, every P counts. -/
def execAudioChunkDue (n : Nat) (s : State) : Host.Outcome State Fault Refusal :=
  match s.bindingOf n, s.stream? n, s.audio.find? fun r => r.stream == n with
  | some b, some x, some r =>
    if !x.state.fed then done s s
    else if s.isSlave b then
      let due := x.lastCount s.now (s.tdm[b.tdmPort]).last + chunkCounts x.chunk20
      if (s.tdm[b.tdmPort]).lost && due ≤ s.now then done s (s.completeChunk b x r due true) else done s s
    else
      let fin := cdiv ((r.next + 160 * x.frames * s.srcR b) * (65536 * 1000000000)) (s.srcFs b) + b.delay * 1000 * 65536
      let t := s.tb.time s.now
      if fin ≤ t then done s (s.completeChunk b x r (s.tb.countBack s.now (t - fin)) false) else done s s
  | _, _, _ => done s s

/-- A TDM slot word as a sample: its top 16 bits, or its top 24 (R339). -/
def tdmSample (slot w : Nat) : W32 :=
  if slot = 0 then sampleVal 16 (w % 2 ^ 16) else if slot = 1 then sampleVal 24 (w % 2 ^ 24) else sampleVal 24 (w / 2 ^ 8 % 2 ^ 24)

/-- TDM_FRAME (R339): a frame of 16 slots of an enabled port, its slots given as words of the slot width. A slave's FSYNC counts frames, and its
chunks complete at their Q-th FSYNC; after a loss, counting resumes at the next chunk boundary. A master's is the module's own. -/
def execTdmFrame (t : TdmId) (samples : List Nat) (s : State) : Host.Outcome State Fault Refusal :=
  let x := s.tdm[t]
  if !x.enable || !s.domainOn 127 || !s.diePresent 1 then done s s
  else
    let j := if x.master then s.mediaAt x.fs s.now else x.frames
    let mine := s.bindings.filter fun b => b.isTdm && b.tdmPort == t
    let s1 := { s with tdm := s.tdm.set t { x with frames := x.frames + 1, last := s.now, lost := false } }
    done s (mine.foldl (fun (u : State) b =>
      match u.audio.find? (fun r => r.stream == b.stream), u.stream? b.stream with
      | some r, some y =>
        let q := 160 * y.frames * u.srcR b
        let r0 := if x.lost && !x.master then { r with next := cdiv j q * q } else r
        let r1 := if r0.next ≤ j then r0.put j (tdmSample x.slot (samples.getD b.channel 0)) else r0
        let u1 := { u with audio := u.audio.map fun z => if z.stream == r.stream then r1 else z }
        if !x.master && r1.next + q ≤ j + 1 && y.state.fed then u1.completeChunk b y r1 u1.now false else u1
      | _, _ => u) (if x.master then s1.emit (.tdmSync t j) else s1))

/-- TDM_FSYNC_LOSS (R339): two frame periods without FSYNC on an enabled slave. -/
def execTdmFsyncLoss (t : TdmId) (s : State) : Host.Outcome State Fault Refusal :=
  let x := s.tdm[t]
  if x.enable && !x.master && !x.lost && x.last * x.fs + 2 * 640000000 ≤ s.now * x.fs then
    done s ({ s with tdm := s.tdm.set t { x with lost := true } }.flag (.aud 1) 4)
  else done s s

/-! ## Closing and reset (R340) -/

/-- PART_CLOSE turns the partition's camera ports OFF. -/
def State.camsClose (s : State) (p : PartId) : State :=
  (allFin 24).foldl (fun (t : State) v => if !t.cams[v].blk.isEmpty && t.cams[v].part == p && t.cams[v].state != .off then t.camClose v else t) s

/-- PART_CLOSE clears the partition's bindings. -/
def State.bindingsClose (s : State) (p : PartId) : State :=
  let gone := s.bindings.filter fun b => b.part == p
  gone.foldl (fun t b => t.audioStop b.stream) { s with bindings := s.bindings.filter fun b => b.part != p }

/-- A device reset turns every camera port OFF and clears every binding, every INT_ register and the coefficients; a fence stays (R463). -/
def State.intakeReset (s : State) : State :=
  { s with
    cams := Vector.ofFn fun v =>
      let x := s.cams[v]
      { state := if x.state == .fenced then .fenced else if s.domainOn (camPd v) then .off else .notReady }
    audTable := 0, audFir := 0, fir := List.replicate 72 0, bindings := [], audio := [], tdm := .replicate 4 {} }

end Sys2Proof.Machine
end

