-- ==== Sys2Proof/Machine/Streams.lean ====
section
/-! DEFINITION. Recurrent streams (chapter STR): groups, records and slots, the checks of a row, the lifecycle operations, the three steps RSTEP, LSTEP
and FEAT, and how streams leave and come (EXPORT, IMPORT). -/
namespace Sys2Proof.Machine

/-! ## The operand area (Table STR-3) -/

def Cmd.sCtl (c : Cmd) : Nat := ofield c.desc 0 4
def Cmd.sGroup (c : Cmd) : Nat := ofield c.desc 4 12
def Cmd.sBlock (c : Cmd) : Nat := ofield c.desc 16 40
def Cmd.sRows (c : Cmd) : Nat := ofield c.desc 56 40
def Cmd.sReport (c : Cmd) : Nat := ofield c.desc 96 40
def Cmd.sNrows (c : Cmd) : Nat := ofield c.desc 136 10
def Cmd.sChunk (c : Cmd) : Nat := ofield c.desc 146 32
def Cmd.sRel (c : Cmd) : Bool := ofield c.desc 178 1 == 1
def Cmd.sFlag (c : Cmd) : Bool := ofield c.desc 179 1 == 1

/-- The operation of a stream opcode with a ctl code (Table STR-5): none for a code that is refused. -/
def streamKind (step : CmdKind) (ctl : Nat) : CmdKind :=
  match ctl with
  | 0 => step
  | 1 => .streamGroup
  | 2 => .streamOpen
  | 3 => .streamPause
  | 4 => .streamResume
  | 5 => .streamPark
  | 6 => .streamReset
  | 7 => .streamExport
  | 8 => .streamImport
  | 9 => .streamClose
  | _ => .unknown

/-- A row list entry (Table STR-4). -/
structure SRow where
  num : Nat
  mark : Nat
  epoch : Nat
  deriving DecidableEq, Repr

/-- The row of 8 bytes. -/
def srowOf (b : List Byte) : SRow := { num := bfield b 0 18, mark := bfield b 24 8, epoch := bfield b 32 16 }

/-- The copied block and rows of a stream command. -/
def Cmd.sBlk (c : Cmd) : List Byte := c.copied 0
def Cmd.sRowList (c : Cmd) : List SRow := (chunks 8 (c.copied 1)).map srowOf

/-- The notes of a stream command: whether a copy was poisoned, the counter at admission, and from its issue on the code of each row's status. -/
def Cmd.sAdmitted (c : Cmd) : Nat := c.notes.getD 1 0
def Cmd.sCodes (c : Cmd) : List Nat := c.notes.drop 2
def Cmd.withCodes (c : Cmd) (codes : List Nat) : Cmd := { c with notes := [c.notes.getD 0 0, c.sAdmitted] ++ codes }

/-! ## Groups, slots and records (R251 to R254) -/

/-- Bytes of a record. -/
def Group.recBytes (g : Group) : Nat := 64 * g.slotUnits
/-- Address of a slot. -/
def Group.slotAddr (g : Group) (i : Nat) : Nat := wellAddr g.core (g.slotBase + i * g.recBytes)
/-- Bytes of the slot area. -/
def Group.slotArea (g : Group) : Nat := g.nslots * g.recBytes

/-- The die whose STR registers a stream's events use: that of its sequencer, or die 0 when that die is absent. -/
def State.strDie (s : State) (n : Nat) : Die := if s.diePresent (dieOfStream n) then dieOfStream n else 0

/-- The header of a stream's record (R252). -/
def Stream.header (x : Stream) : List Byte := leBytes 4 x.num ++ leBytes 2 x.epoch.toNat ++ repByte 58 0

/-- Where a stream's record stands. -/
def Stream.recAddr (x : Stream) (g : Group) : Nat :=
  match x.slot with
  | some i => g.slotAddr i
  | none => x.home

/-- Bytes that the sequencer reads at an address; poisoned zeros where part of the range is not there. -/
def State.strLoad (s : State) (a len : Nat) : List PByte × State :=
  match s.devLoad a len with
  | (some b, t) => (b, t)
  | (none, t) => (lostBytes len, t)

/-- The init image installed in a stream's slot or home with its header (R251, R252); with whether the image was poisoned, which poisons the whole record
(Table STR-6). -/
def State.install (s : State) (g : Group) (x : Stream) : State × Bool :=
  let (im, t) := s.strLoad g.initAddr g.recBytes
  (t.devStore (x.recAddr g) (tintIf (anyPoison im) (clean x.header ++ im.drop 64)), anyPoison im)

/-- A slot of a group that no resident stream occupies. -/
def State.freeSlot (s : State) (g : Group) : Option Nat :=
  (List.range g.nslots).find? fun i => !s.streams.any fun x => x.group == g.num && x.slot == some i && x.state != .close

/-- The resident stream of a group stepped least recently among those that a command does not name; of equals, the lowest number (R253). -/
def State.victim (s : State) (g : Group) (named : List Nat) : Option Stream :=
  (s.streams.filter fun x => x.group == g.num && x.slot.isSome && x.state != .close && !named.contains x.num).foldl
    (fun best x => match best with
      | some b => if x.last < b.last then some x else some b
      | none => some x) none

/-- A resident record written home, and its slot freed. -/
def State.swapOut (s : State) (g : Group) (x : Stream) : State :=
  match x.slot with
  | some i =>
    let (bs, t) := s.load (g.slotAddr i) g.recBytes
    (t.devStore x.home bs).setStream { x with slot := none }
  | none => s

/-- A stream's record brought into a slot (R253); with whether its home was poisoned. A stream that is resident stays. -/
def State.swapIn (s : State) (g : Group) (n : Nat) (named : List Nat) : State × Bool :=
  match s.stream? n with
  | some x =>
    if x.slot.isSome then (s, false)
    else
      let s1 := match s.freeSlot g with
        | some _ => s
        | none => match s.victim g named with
          | some v => s.swapOut g v
          | none => s
      match s1.freeSlot g with
      | some i =>
        let (bs, t) := s1.strLoad x.home g.recBytes
        let t1 := (t.devStore (g.slotAddr i) bs).setStream { x with slot := some i }
        ({ t1 with cnts := { t1.cnts with strSwap := vbump 16 t1.cnts.strSwap (s.strDie n) 1 } }, anyPoison bs)
      | none => (s1, false)
  | none => (s, false)

/-- A mark or RESET counted (Table STR-16). -/
def State.countMark (s : State) (n : Nat) : State :=
  { s with cnts := { s.cnts with strMarks := vbump 8 s.cnts.strMarks (s.strDie n) 1 } }

/-! ## Admission (R255 to R257, R276) -/

/-- A home of a stream: in mapped main memory, or in a class-0 cistern region of the partition (R276). -/
def State.homeOk (s : State) (p : PartId) (a len : Nat) : Bool :=
  s.inMain a len ||
    match s.locOf a with
    | .cistern r => r.cls == 0 && a + len ≤ r.loc + r.len && s.mayName p a len true && s.mayName p a len false
    | .main => false
    | .well _ _ => false
    | .pool _ _ => false
    | .window _ => false
    | .unmapped => false

/-- Fields of GROUP's block (Table STR-1). -/
def groupOf (n : Nat) (p : PartId) (b : List Byte) : Group :=
  { num := n, part := p, core := Fin.ofNat 32 (fieldAt b 0 1), classB := fieldAt b 1 1 == 1, nslots := fieldAt b 2 2, slotBase := fieldAt b 4 4
    slotUnits := fieldAt b 8 2, stagingBase := fieldAt b 12 4, stagingBytes := fieldAt b 16 4, initAddr := fieldAt b 24 8 }

/-- GROUP's block keeps the rules of Table STR-1 for a partition (R251): its ranges, its core, and its two areas within the well and apart. -/
def State.groupOk (s : State) (p : PartId) (b : List Byte) : Bool :=
  let g := groupOf 0 p b
  fieldAt b 0 1 ≤ 31 && s.parts[p].hasCore g.core && fieldAt b 1 1 ≤ 1 && g.nslots ≤ 4096 && g.slotBase % 64 == 0 &&
  2 ≤ g.slotUnits && g.slotUnits ≤ 16384 && fieldAt b 10 2 == 0 && g.stagingBase % 64 == 0 && g.stagingBytes % 64 == 0 &&
  fieldAt b 20 4 == 0 && g.initAddr % 64 == 0 && s.inMain g.initAddr g.recBytes && fieldAt b 32 32 == 0 &&
  g.slotBase + g.slotArea ≤ wellBytes && g.stagingBase + g.stagingBytes ≤ wellBytes &&
  !overlap g.slotBase g.slotArea g.stagingBase g.stagingBytes

/-- The areas of a group overlap those of another group on the same core (R251). -/
def State.groupClash (s : State) (g : Group) : Bool :=
  s.groups.any fun x => x.num != g.num && x.core == g.core &&
    (overlap g.slotBase g.slotArea x.slotBase x.slotArea || overlap g.slotBase g.slotArea x.stagingBase x.stagingBytes ||
     overlap g.stagingBase g.stagingBytes x.slotBase x.slotArea || overlap g.stagingBase g.stagingBytes x.stagingBase x.stagingBytes)

/-- Fields of the control block of OPEN, EXPORT and IMPORT (Table STR-8) for row i. -/
def ocHome (b : List Byte) (i : Nat) : Nat := fieldAt b 8 8 + i * fieldAt b 4 4
def ocRing (b : List Byte) (i : Nat) : Nat := fieldAt b 16 8 + i * fieldAt b 24 4
def ocBlob (b : List Byte) (i : Nat) : Nat := fieldAt b 32 8 + i * fieldAt b 28 4

/-- The control block of an operation keeps the rules of Table STR-8. -/
def State.ctlBlockOk (s : State) (c : Cmd) (g : Group) (b : List Byte) : Bool :=
  let opn := c.kind == .streamOpen
  let imp := c.kind == .streamImport
  let blob := !opn
  let rows := List.range c.sNrows
  let zero := fun (used : Bool) (off len : Nat) => used || fieldAt b off len == 0
  fieldAt b 3 1 == 0 && fieldAt b 40 24 == 0 && zero opn 0 1 && zero opn 1 1 && zero (opn || imp) 2 1 && zero (opn || imp) 4 4 &&
  zero (opn || imp) 8 8 && zero (opn || imp) 16 8 && zero (opn || imp) 24 4 && zero blob 28 4 && zero blob 32 8 &&
  fieldAt b 0 1 ≤ 8 && fieldAt b 1 1 ≤ 1 && fieldAt b 2 1 ≤ 6 && fieldAt b 4 4 % 64 == 0 && fieldAt b 8 8 % 64 == 0 &&
  fieldAt b 32 8 % 64 == 0 && fieldAt b 28 4 % 64 == 0 &&
  (!(opn || imp) || rows.all fun i => s.homeOk c.part (ocHome b i) g.recBytes && decide (ocRing b i < 2 ^ 40)) &&
  (!blob || (64 + g.recBytes ≤ fieldAt b 28 4 && rows.all fun i => s.mayName c.part (ocBlob b i) (64 + g.recBytes) (!imp)))

/-- The blob ranges of EXPORT and IMPORT. -/
def Cmd.blobRanges (c : Cmd) (g : Group) (b : List Byte) : List Rng :=
  if c.kind == .streamExport || c.kind == .streamImport then
    (List.range c.sNrows).map fun i => ⟨ocBlob b i, 64 + g.recBytes, c.kind == .streamExport⟩
  else []

/-- A range lies in the well of a core. -/
def inWellOf (n : CoreId) (r : Rng) : Bool :=
  inWells r.lo && (r.lo - wellBase) / 0x800000 == n.val && (r.lo - wellBase) % 0x800000 + r.len ≤ wellBytes

/-- Bytes of E4M3 blocks with full scale entries over H elements. -/
def e4m3Bytes (h : Nat) : Nat := h + h / 8

/-- An area of a record lies behind its header. -/
def Group.inRecord (g : Group) (off len : Nat) : Bool := 64 ≤ off && off + len ≤ g.recBytes

/-! ### RSTEP's block (Table STR-9) -/

def rKind (b : List Byte) : Nat := fieldAt b 0 1
def rFrames (b : List Byte) : Nat := fieldAt b 1 1
def rFlags (b : List Byte) : Nat := fieldAt b 2 1
def rKin (b : List Byte) : Nat := fieldAt b 4 2
def rHid (b : List Byte) : Nat := fieldAt b 6 2
def rHoff (b : List Byte) : Nat := fieldAt b 8 4
def rCoff (b : List Byte) : Nat := fieldAt b 12 4

/-- Columns of the weights. -/
def rCols (g : Group) (b : List Byte) : Nat := rKin b + if g.classB then 2 * rHid b else rHid b

/-- Bytes of h in the record. -/
def rHbytes (g : Group) (b : List Byte) : Nat := if g.classB then 4 * rHid b else e4m3Bytes (rHid b)

/-- Staging need of an RSTEP (Table STR-13). -/
def rStaging (g : Group) (b : List Byte) (nrows : Nat) : Nat :=
  let k := rKin b
  let h := rHid b
  if g.classB then nrows * (2 * (k + 2 * h) + 16 * h + 8 * h) else nrows * (9 * (k + h) / 8 + if rKind b = 1 then 4 * h else 0)

/-- The tensors of an RSTEP: input, weights, output, bias (R260). -/
def rRanges (g : Group) (b : List Byte) (nrows : Nat) (x w y : Hdr) : List Rng :=
  x.reads (rFrames b * nrows) (rKin b) ++ w.reads (4 * rHid b) (rCols g b) ++ y.outs (rFrames b * nrows) (rHid b) (rHid b) ++
  if rFlags b / 2 % 2 = 1 then [⟨fieldAt b 40 8, 16 * rHid b, false⟩] else []

/-- A header names a tensor of one format packed without side list. -/
def Hdr.only (h : Hdr) (fmt : Nat) : Bool := h.fmt == fmt && h.sidx == 0

/-- RSTEP's block and headers keep their rules for a group (Table STR-9, R263). -/
def rBlockOk (g : Group) (b : List Byte) (nrows : Nat) (xb wb yb : List Byte) : Bool :=
  let x := hdrOf xb
  let w := hdrOf wb
  let y := hdrOf yb
  let lstm := rKind b == 1
  let lo := f32At b 48
  let hi := f32At b 52
  (rKind b == 1 || rKind b == 2) && 1 ≤ rFrames b && rFrames b ≤ 8 && rFlags b < 4 && fieldAt b 3 1 == 0 &&
  rKin b % 32 == 0 && 32 ≤ rKin b && rKin b ≤ 4096 && rHid b % 32 == 0 && 32 ≤ rHid b && rHid b ≤ 4096 &&
  g.inRecord (rHoff b) (rHbytes g b) && (if lstm then g.inRecord (rCoff b) (4 * rHid b) else rCoff b == 0) && fieldAt b 56 8 == 0 &&
  (rFlags b % 2 == 0 || (fFinite lo && fFinite hi && fle lo hi)) && (rFlags b / 2 == 1 || fieldAt b 40 8 == 0) &&
  hdrOk xb && hdrOk wb && hdrOk yb &&
  (if g.classB then x.only 1 && w.only 1 && y.only 0
   else x.only 3 && w.narrow && y.only 3 && !y.compact) &&
  (rRanges g b nrows x w y).all (inWellOf g.core) && rStaging g b nrows ≤ g.stagingBytes

/-! ### LSTEP's block (Table STR-10) -/

def lKind (b : List Byte) : Nat := fieldAt b 0 1
def lFrames (b : List Byte) : Nat := fieldAt b 1 1
def lSecs (b : List Byte) : Nat := fieldAt b 2 1
def lCols (b : List Byte) : Nat := fieldAt b 4 2
def lSoff (b : List Byte) : Nat := fieldAt b 8 4
/-- State words and coefficients of a section of a lane. -/
def lW (b : List Byte) : Nat := if lKind b = 3 then 2 else 1
def lNc (b : List Byte) : Nat := if lKind b = 1 then 1 else if lKind b = 2 then 3 else if lKind b = 3 then 5 else 4
/-- Bytes of the state. -/
def lBytes (b : List Byte) : Nat := 4 * lSecs b * lCols b * lW b

/-- The tensors of an LSTEP. -/
def lRanges (g : Group) (b : List Byte) (nrows : Nat) : List Rng :=
  let n := 4 * lFrames b * nrows * lCols b
  [⟨wellAddr g.core (fieldAt b 12 4), n, false⟩, ⟨wellAddr g.core (fieldAt b 20 4), 4 * lSecs b * lCols b * lNc b, false⟩,
   ⟨wellAddr g.core (fieldAt b 16 4), n, true⟩]

/-- LSTEP's block keeps its rules (Table STR-10). -/
def lBlockOk (g : Group) (b : List Byte) (nrows : Nat) : Bool :=
  1 ≤ lKind b && lKind b ≤ 4 && 1 ≤ lFrames b && lFrames b ≤ 64 &&
  (if lKind b = 2 || lKind b = 3 then 1 ≤ lSecs b && lSecs b ≤ 8 else lSecs b == 1) && fieldAt b 3 1 == 0 &&
  1 ≤ lCols b && lCols b ≤ 4096 && fieldAt b 6 2 == 0 && g.inRecord (lSoff b) (lBytes b) && fieldAt b 24 40 == 0 &&
  [12, 16, 20].all (fun o => fieldAt b o 4 < 2 ^ 23) &&
  (lRanges g b nrows).all (inWellOf g.core) && nrows * lBytes b ≤ g.stagingBytes

/-! ### FEAT's block (Table STR-11) -/

def eWin (b : List Byte) : Nat := fieldAt b 0 2
def eBins (b : List Byte) : Nat := fieldAt b 2 2
def eMel (b : List Byte) : Nat := fieldAt b 4 2
def eLook (b : List Byte) : Nat := fieldAt b 6 1
def eOff (b : List Byte) : Nat := fieldAt b 8 4
/-- Np and Pp. -/
def eNp (b : List Byte) : Nat := 32 * cdiv (eWin b) 32
def ePp (b : List Byte) : Nat := 32 * cdiv (eBins b) 32
/-- Bytes of the feature area (R270). -/
def eBytes (b : List Byte) : Nat := 4 * 352 + 4 * eLook b * eMel b

/-- The tensors of a FEAT over chunks of F frames. -/
def eRanges (g : Group) (b : List Byte) (nrows f : Nat) (ba fb y : Hdr) : List Rng :=
  [⟨wellAddr g.core (fieldAt b 12 4), 4 * eWin b, false⟩] ++ ba.reads (2 * eBins b) (2 * eNp b) ++ fb.reads (eMel b) (2 * ePp b) ++
  y.outs (f * nrows) ((eLook b + 1) * eMel b) ((eLook b + 1) * eMel b)

/-- FEAT's block and headers keep their rules (Table STR-11). -/
def eBlockOk (g : Group) (b : List Byte) (nrows f : Nat) (bb fbb yb : List Byte) : Bool :=
  let ba := hdrOf bb
  let fb := hdrOf fbb
  let y := hdrOf yb
  160 ≤ eWin b && eWin b ≤ 512 && 1 ≤ eBins b && eBins b ≤ 512 && 1 ≤ eMel b && eMel b ≤ 256 && eLook b ≤ 8 && fieldAt b 7 1 == 0 &&
  g.inRecord (eOff b) (eBytes b) && fieldAt b 12 4 < 2 ^ 23 && fieldAt b 52 12 == 0 &&
  fFinite (f32At b 40) && flt 0 (f32At b 40) && hdrOk bb && hdrOk fbb && hdrOk yb && ba.only 1 && fb.only 1 &&
  (!y.narrow || (!y.compact && y.sidx == 0)) &&
  (eRanges g b nrows f ba fb y).all (inWellOf g.core) &&
  nrows * (4 * (352 + 160 * f) + 4 * eLook b * eMel b + f * (4 * eNp b + 8 * eBins b + 4 * ePp b + 4 * eMel b)) ≤ g.stagingBytes

/-- F of a FEAT: that of the first of its rows' streams that is open (log entry 42); 1 when none is. -/
def State.featFrames (s : State) (rows : List SRow) : Nat :=
  match rows.findSome? fun r => match s.stream? r.num with
    | some x => if x.state != .close then some x else none
    | none => none with
  | some x => x.frames
  | none => 1

/-- The checks of a stream command's operand area (R255 to R257, R276). -/
def State.admitStream (s : State) (c : Cmd) : Admit :=
  let ctl := c.sCtl
  let g? := s.group? c.sGroup
  let isGroup := ctl == 1
  let own := match g? with
    | some g => g.part == c.part
    | none => false
  let usesBlock := ctl ≤ 2 || ctl == 7 || ctl == 8
  let n := c.sNrows
  let (cb, badB) := if usesBlock then s.copyAll c.part [(c.sBlock, 64, 64, 34)] else ([(0, [])], badIf (c.sBlock ≠ 0) 34)
  let (cr, badR) := if isGroup then ([(0, [])], []) else s.copyAll c.part [(c.sRows, 8 * n, 8, 39)]
  let b := plain ((cb.getD 0 (0, [])).2)
  let rb := plain ((cr.getD 0 (0, [])).2)
  let rows := (chunks 8 rb).map srowOf
  let wrongCore := if ctl = 0 then c.coreField ≠ 0x3F && (match g? with
      | some g => c.coreField != g.core.val
      | none => false) else c.coreField ≠ 0x3F
  let bad := badIf (if ctl = 0 then c.que ≠ 2 && c.que ≠ 0 else c.que ≠ 2) 0 ++ badIf wrongCore 6 ++ badIf (c.f0a ≠ 0) 9 ++ badIf (c.f0b ≠ 0) 10 ++
    badIf (9 < ctl || (!isGroup && !own)) 32 ++ badB ++ badR ++
    badIf ((chunks 8 rb).any fun e => bfield e 18 6 ≠ 0 || bfield e 48 16 ≠ 0) 39 ++
    badIf (c.sReport ≠ 0 && (c.sReport % 8 ≠ 0 || !s.mayName c.part c.sReport (8 * n) true)) 44 ++
    badIf (if isGroup then n ≠ 0 else n = 0 || 512 < n || match g? with
      | some g => decide (g.nslots < n)
      | none => false) 49 ++
    badIf ((c.sRel && ctl = 0 && c.que = 0) || (c.sFlag && ctl ≠ 7 && ctl ≠ 4) || ofield c.desc 180 76 ≠ 0) 54
  let rep : List Rng := if c.sReport = 0 || isGroup then [] else [⟨c.sReport, 8 * n, true⟩]
  let note := fun (p : List Nat) => [if p.isEmpty then 0 else 1, s.now]
  let both := cb ++ cr
  if !bad.isEmpty then { bad := bad, copies := plainCopies both, notes := note (poisonNote both) }
  else if isGroup then
    { bad := badIf (!s.groupOk c.part b) 34, copies := plainCopies both, notes := note (poisonNote both) }
  else match g? with
    | none => { bad := [32], copies := plainCopies both, notes := note (poisonNote both) }
    | some g =>
      if ctl ≠ 0 then
        { bad := badIf (usesBlock && !s.ctlBlockOk c g b) 34, ranges := rep ++ c.blobRanges g b, copies := plainCopies both
          notes := note (poisonNote both) }
      else
        let own : List Rng := [⟨wellAddr g.core g.slotBase, g.slotArea, true⟩, ⟨wellAddr g.core g.stagingBase, g.stagingBytes, true⟩] ++ rep
        if c.kind == .lstep then
          { bad := badIf (!lBlockOk g b n) 34, ranges := lRanges g b n ++ own, copies := plainCopies both, notes := note (poisonNote both) }
        else
          let h0 := fieldAt b 16 8
          let h1 := fieldAt b 24 8
          let h2 := fieldAt b 32 8
          let (ch, badH) := s.copyAll c.part [(h0, 32, 32, 34), (h1, 32, 32, 34), (h2, 32, 32, 34)]
          let hb := fun i => plain ((ch.getD i (0, [])).2)
          let f := s.featFrames rows
          let ok := badH.isEmpty && h0 < 2 ^ 40 && h1 < 2 ^ 40 && h2 < 2 ^ 40 &&
            (if c.kind == .rstep then rBlockOk g b n (hb 0) (hb 1) (hb 2) else eBlockOk g b n f (hb 0) (hb 1) (hb 2))
          let tensors := if c.kind == .rstep then rRanges g b n (hdrOf (hb 0)) (hdrOf (hb 1)) (hdrOf (hb 2))
            else eRanges g b n f (hdrOf (hb 0)) (hdrOf (hb 1)) (hdrOf (hb 2))
          { bad := badIf (!ok) 34, ranges := if ok then tensors ++ own else [], copies := plainCopies (both ++ ch)
            notes := note (poisonNote (both ++ ch)) }

/-! ## Order, gates and deadlines (R259, R260) -/

/-- A command names a stream. -/
def Cmd.namesStream (c : Cmd) (n : Nat) : Bool :=
  (c.kind.isStreamCtl || c.kind.isStreamStep) && c.kind != .streamGroup && c.sRowList.any fun r => r.num == n

/-- No command admitted before one and not complete names a stream that it names (R260); a forced EXPORT acts at once (R278). -/
def State.streamsFree (s : State) (c : Cmd) : Bool :=
  (c.kind == .streamExport && c.sFlag) ||
  !s.cmds.any fun x => x.adm < c.adm && x.life != .ended && (x.kind.isStreamCtl || x.kind.isStreamStep) && c.sRowList.any fun r => x.namesStream r.num

/-- The streams that gate a step in Q_STREAM: its rows' that have a ring and are not PAUSE. -/
def State.gating (s : State) (c : Cmd) : List Stream :=
  if c.que = 2 then
    c.sRowList.filterMap fun r => match s.stream? r.num with
      | some x => if x.ringLog2 ≠ 0 && x.state != .pause && x.state != .close then some x else none
      | none => none
  else []

/-- The gate of a step: every gating stream's chunk has arrived (R259). -/
def State.chunksIn (s : State) (c : Cmd) : Bool := (s.gating c).all fun x => c.sChunk < x.arrived.toNat

/-- The stamp of a chunk of a stream (R259). -/
def Stream.stampOf (x : Stream) (n : Nat) : Int :=
  (x.lastStamp : Int) - ((x.arrived.toNat : Int) - 1 - n) * chunkCounts x.chunk20

/-- The effective deadline of a stream command whose rel bit is set, its deadline field holding the offset d (R259). -/
def State.relDeadline (s : State) (c : Cmd) (d : Nat) : Nat :=
  match s.gating c with
  | [] => c.sAdmitted + d
  | x :: xs => (xs.foldl (fun m y => max m (y.stampOf c.sChunk)) (x.stampOf c.sChunk) + (d : Int)).toNat

/-! ## The outcome of a row (R258) -/

/-- The status of a code. -/
def stOfCode (n : Nat) : St :=
  if n = 0x01 then .notReady else if n = 0x02 then .late else if n = 0x03 then .missed else if n = 0x10 then .scaleSkew
  else if n = 0x11 then .poisoned else if n = 0x20 then .staleEpoch else if n = 0x70 then .badCommand else .ok

/-- The states that an operation's rows may be in (Table STR-5). -/
def stateAllowed (k : CmdKind) (x : SState) : Bool :=
  let live := x == .opened || x == .run || x == .pause || x == .park
  if k.isStreamStep then x == .opened || x == .run || x == .park
  else if k == .streamOpen then x == .close
  else if k == .streamPause then x == .opened || x == .run
  else if k == .streamResume then x == .pause || x == .park
  else if k == .streamPark then x == .opened || x == .run || x == .pause
  else if k == .streamReset then live
  else if k == .streamExport then live
  else if k == .streamImport then x == .close || x == .exported
  else x != .close

/-- Frames of a step, for the largest mark. -/
def Cmd.stepFrames (c : Cmd) (f : Nat) : Nat :=
  if c.kind == .rstep then rFrames c.sBlk else if c.kind == .lstep then lFrames c.sBlk else f

/-- The first row of Table STR-6 that applies to row i at issue, down to the overrun: its status, ST_OK when none does. -/
def State.rowCheck (s : State) (c : Cmd) (i : Nat) : St :=
  let rows := c.sRowList
  let r := rows.getD i ⟨0, 0, 0⟩
  let absent := !s.diePresent (dieOfStream r.num)
  let twice := (rows.take i).any fun x => x.num == r.num
  let x := (s.stream? r.num).getD { num := r.num }
  let closed := x.state == .close
  let other := !closed && (x.part != c.part || x.group != c.sGroup)
  let ep := if r.epoch ≠ 0 then r.epoch else c.epoch.toNat
  let f := s.featFrames rows
  if absent || twice || other then .badCommand
  else if !closed && ep ≠ 0 && ep ≠ x.epoch.toNat then .staleEpoch
  else if !stateAllowed c.kind x.state then (if closed then .badCommand else .notReady)
  else if c.kind.isStreamStep && c.stepFrames f < r.mark then .badCommand
  else if c.kind == .feat then
    if x.lookahead ≠ eLook c.sBlk || x.frames ≠ f then .badCommand
    else if c.sChunk ≠ x.stepped.toNat then .badCommand
    else if x.ringLog2 ≠ 0 && c.sChunk + 2 ^ x.ringLog2 < x.arrived.toNat then .missed
    else .ok
  else .ok

/-- What the check of a row flags and counts. -/
def State.rowFlags (s : State) (p : PartId) (n : Nat) (st : St) : State :=
  let d := s.strDie n
  if st == .badCommand then s.flag (.str d) 0
  else if st == .staleEpoch then
    let x := s.parts[p]
    (s.setPart p { x with staleCmds := BitVec.ofNat 16 (satAdd 16 x.staleCmds.toNat 1) }).flag (.str d) 7
  else s

/-- Every row of a stream command checked as it issues (R258): the codes are kept with the command. -/
def State.checkRows (s : State) (c : Cmd) : State × Cmd :=
  let idx := List.range c.sRowList.length
  let sts := idx.map fun i => s.rowCheck c i
  let t := (c.sRowList.zip sts).foldl (fun (u : State) x => u.rowFlags c.part x.1.num x.2) s
  (t, c.withCodes (sts.map St.code))

/-- Bytes sent by the sequencer to any address, those in remote windows included. -/
def State.strStore (s : State) (a : Nat) (bs : List PByte) : State :=
  (s.windowWrites a bs).foldl (fun (t : State) x => t.sendWrite x) (s.devStore a bs)

/-- The statuses of a stream command's rows once it retires: a row that would carry ST_OK carries ST_LATE when the command is late (Table STR-6). -/
def Cmd.rowStatuses (c : Cmd) (late : Bool) : List St :=
  c.sCodes.map fun k => if stOfCode k == .ok && late then .late else stOfCode k

/-- The row reports of a command that completes (R256, Table STR-4). -/
def State.strReports (s : State) (c : Cmd) (late : Bool) : State :=
  if c.sReport = 0 || c.sCodes.isEmpty then s
  else
    let ch := if c.kind.isStreamStep then c.sChunk % 65536 else 0
    let bs := (c.sRowList.zip (c.rowStatuses late)).flatMap fun (r, st) => leBytes 4 r.num ++ leBytes 2 st.code ++ leBytes 2 ch
    s.strStore (if c.kind.isStreamStep then c.at_ c.sReport else c.sReport) (clean bs)

/-! ## Control operations (R251, R262, R276 to R279) -/

/-- A row of a stream command: nothing unless that command is in the table and may run; `body` gives the state and the command with its rows' codes
and its conditions. -/
def State.streamRow (s : State) (p : PartId) (q : QueId) (n : Nat) (k : CmdKind) (body : Cmd → State → State × Cmd) : State :=
  match s.findCmd p q n with
  | some c =>
    if c.kind == k && s.mayRun c then
      let (s1, c1) := s.startCmd c
      let (s2, c2) := body c1 s1
      s2.putCmd { c2 with life := .ran }
    else s
  | none => s

/-- GROUP's effect (R251). -/
def State.groupBody (c : Cmd) (s : State) : State × Cmd :=
  let g := groupOf c.sGroup c.part c.sBlk
  let other := match s.group? c.sGroup with
    | some x => x.part != c.part
    | none => false
  let openOnes := s.streams.any fun x => x.group == c.sGroup && x.state != .close
  if other then (s, c.cond .noResource)
  else if (g.nslots = 0 && openOnes) || (g.nslots ≠ 0 && s.groupClash g) then (s, { c.cond .badCommand with badField := 34 })
  else
    let rest := s.groups.filter fun x => x.num != g.num
    if g.nslots = 0 then ({ s with groups := rest }, c)
    else ({ s with groups := rest.filter (fun x => x.num < g.num) ++ [g] ++ rest.filter fun x => g.num < x.num }, c)

/-- STREAM_GROUP. -/
def execStreamGroup (p : PartId) (q : QueId) (n : Nat) (s : State) : Host.Outcome State Fault Refusal :=
  done s (s.streamRow p q n .streamGroup State.groupBody)

/-- A control operation over its rows: `act` is done for each row that its check let pass, in order, and gives the row's status. -/
def State.ctlBody (act : Group → Nat → Stream → State → State × St) (c : Cmd) (s : State) : State × Cmd :=
  match s.group? c.sGroup with
  | none => (s, c.cond .badCommand)
  | some g =>
    let rows := c.sRowList
    let (t, codes) := ((List.range rows.length).zip (rows.zip c.sCodes)).foldl
      (fun (acc : State × List Nat) x =>
        if x.2.2 = 0 then
          let st := (acc.1.stream? x.2.1.num).getD { num := x.2.1.num }
          let (u, r) := act g x.1 st acc.1
          (u, acc.2 ++ [r.code])
        else (acc.1, acc.2 ++ [x.2.2])) (s, [])
    (t, c.withCodes codes)

/-- A row whose home, init image or blob read returned poison: its status and flag (Table STR-6). -/
def State.poisonRow (s : State) (n : Nat) (bad : Bool) : State × St :=
  if bad then (s.flag (.str (s.strDie n)) 4, .poisoned) else (s, .ok)

/-- OPEN of a row (R262, R276). -/
def State.openRow (c : Cmd) (g : Group) (i : Nat) (x0 : Stream) (s : State) : State × St :=
  let b := c.sBlk
  let r := c.sRowList.getD i ⟨0, 0, 0⟩
  let x : Stream := {
    num := x0.num, state := .opened, classB := g.classB, part := c.part, epoch := if r.epoch = 0 then 1 else BitVec.ofNat 16 r.epoch
    group := g.num, lookahead := fieldAt b 0 1, chunk20 := fieldAt b 1 1 == 1, ringLog2 := fieldAt b 2 1, home := ocHome b i, ring := ocRing b i }
  let (t, bad) := (s.setStream x).install g x
  (t.audioStart x.num false).poisonRow x.num bad

/-- STREAM_OPEN (R262). -/
def execStreamOpen (p : PartId) (q : QueId) (n : Nat) (s : State) : Host.Outcome State Fault Refusal :=
  done s (s.streamRow p q n .streamOpen fun c t => State.ctlBody (State.openRow c) c t)

/-- STREAM_PAUSE (R262). -/
def execStreamPause (p : PartId) (q : QueId) (n : Nat) (s : State) : Host.Outcome State Fault Refusal :=
  done s (s.streamRow p q n .streamPause fun c t => State.ctlBody (fun _ _ x u => (u.setStream { x with state := .pause }, .ok)) c t)

/-- STREAM_RESUME (R262): with flag set, the stream skips to the newest chunk. -/
def execStreamResume (p : PartId) (q : QueId) (n : Nat) (s : State) : Host.Outcome State Fault Refusal :=
  done s (s.streamRow p q n .streamResume fun c t => State.ctlBody (fun _ _ x u =>
    (u.setStream { x with state := .run, stepped := if c.sFlag then x.arrived else x.stepped }, .ok)) c t)

/-- PARK of a row (R262): the record is written home if resident, and its slot freed. -/
def State.parkRow (g : Group) (x : Stream) (s : State) : State × St := ((s.swapOut g x).setStream { x with state := .park, slot := none }, .ok)

/-- STREAM_PARK (R262). -/
def execStreamPark (p : PartId) (q : QueId) (n : Nat) (s : State) : Host.Outcome State Fault Refusal :=
  done s (s.streamRow p q n .streamPark fun c t => State.ctlBody (fun g _ x u => u.parkRow g x) c t)

/-- RESET of a row (R262): the init image is installed in slot or home. -/
def State.resetRow (g : Group) (x : Stream) (s : State) : State × St :=
  let (t, bad) := s.install g x
  ((t.setStream { x with nonfinite := false }).countMark x.num).poisonRow x.num bad

/-- STREAM_RESET (R262). -/
def execStreamReset (p : PartId) (q : QueId) (n : Nat) (s : State) : Host.Outcome State Fault Refusal :=
  done s (s.streamRow p q n .streamReset fun c t => State.ctlBody (fun g _ x u => u.resetRow g x) c t)

/-- A stream closed (R262): its slot, home and ring go back. -/
def State.closeStream (s : State) (x : Stream) : State := (s.setStream { x with state := .close, slot := none }).audioStop x.num

/-- STREAM_CLOSE (R262). -/
def execStreamClose (p : PartId) (q : QueId) (n : Nat) (s : State) : Host.Outcome State Fault Refusal :=
  done s (s.streamRow p q n .streamClose fun c t => State.ctlBody (fun _ _ x u => (u.closeStream x, .ok)) c t)

/-- A blob's header (Table STR-14) with its checksum. -/
def blobHeader (g : Group) (x : Stream) (epoch : W16) (forced : Bool) (rec_ : List Byte) : List Byte :=
  let flags := (if x.classB then 1 else 0) + (if x.chunk20 then 2 else 0) + (if x.nonfinite then 4 else 0) + (if forced then 8 else 0)
  let h := leBytes 4 0x57A70001 ++ leBytes 4 g.recBytes ++ leBytes 4 x.num ++ leBytes 2 epoch.toNat ++ leBytes 1 x.lookahead ++ leBytes 1 flags ++
    leBytes 4 x.arrived.toNat ++ leBytes 4 x.stepped.toNat ++ leBytes 6 x.lastStamp ++ repByte 26 0
  h ++ leBytes 4 (crc32c (h ++ rec_)) ++ repByte 4 0

/-- The stream epoch after an advance (R278). -/
def nextEpoch (e : W16) : W16 := if e = 0xFFFF then 1 else e + 1

/-- The rows of issued steps that name a stream and have not run are lost to a forced EXPORT (R278). -/
def State.loseRows (s : State) (n : Nat) : State :=
  let hit := fun (c : Cmd) => c.inFlight && c.life != .ran && c.kind.isStreamStep && c.namesStream n
  let live := fun (c : Cmd) => (c.sRowList.zip c.sCodes).any fun x => x.1.num == n && (x.2 = 0 || x.2 = 3)
  let lost := s.cmds.filter fun c => hit c && live c
  let drop := fun (c : Cmd) => c.withCodes ((c.sRowList.zip c.sCodes).map fun x => if x.1.num == n && (x.2 = 0 || x.2 = 3) then St.staleEpoch.code else x.2)
  let s1 := { s with cmds := s.cmds.map fun c => if hit c && live c then drop c else c }
  lost.foldl (fun (t : State) c => t.setPart c.part { t.parts[c.part] with
    staleResults := BitVec.ofNat 16 (satAdd 16 (t.parts[c.part]).staleResults.toNat 1) }) s1

/-- A row's blob as EXPORT writes it, and the reading of its record: a poisoned record poisons all of it (R277, Table STR-6). -/
def State.blobOut (s : State) (c : Cmd) (g : Group) (x : Stream) : List PByte × State :=
  let (rec_, t) := s.strLoad (x.recAddr g) g.recBytes
  (tintIf (anyPoison rec_) (clean (blobHeader g x (nextEpoch x.epoch) c.sFlag (plain rec_) ++ plain rec_)), t)

/-- A row's blob lies in a remote window in part. -/
def State.blobFar (s : State) (c : Cmd) (g : Group) (i : Nat) : Bool := !(s.windowPieces (ocBlob c.sBlk i) (64 + g.recBytes)).isEmpty

/-- EXPORT of a row (R277, R278); a blob for a remote window leaves in pump operations. -/
def State.exportRow (c : Cmd) (g : Group) (i : Nat) (x : Stream) (s : State) : State × St :=
  let (blob, s1) := s.blobOut c g x
  let bad := anyPoison blob
  let s2 := if s.blobFar c g i then s1 else s1.devStore (ocBlob c.sBlk i) blob
  let s3 := if c.sFlag then (s2.loseRows x.num).flag (.str (s.strDie x.num)) 6 else s2
  let s4 := (s3.setStream { x with state := .exported, epoch := nextEpoch x.epoch, slot := none }).audioStop x.num
  (s4.flagIf (bad && x.slot.isNone) (.str (s.strDie x.num)) 4, if bad then .poisoned else .ok)

/-- The blobs of an EXPORT that go to remote windows, in pieces of at most 4 KiB. -/
def State.exportPieces (s : State) (c : Cmd) (g : Group) : List (Nat × List Byte) :=
  ((List.range c.sNrows).zip (c.sRowList.zip c.sCodes)).flatMap fun y =>
    if y.2.2 = 0 && s.blobFar c g y.1 then
      match s.stream? y.2.1.num with
      | some x => (pieces (cdiv (64 + g.recBytes) 4096) (ocBlob c.sBlk y.1) (s.blobOut c g x).1).map fun z => (z.1, plain z.2)
      | none => []
    else []

/-- A piece of a blob belongs to a row whose record was poisoned. -/
def Cmd.pieceBad (c : Cmd) (g : Group) (a : Nat) : Bool :=
  ((List.range c.sNrows).zip c.sCodes).any fun y => y.2 == St.poisoned.code && ocBlob c.sBlk y.1 ≤ a && a < ocBlob c.sBlk y.1 + 64 + g.recBytes

/-- The operations that carry an EXPORT's blobs to remote windows made, as far as there are entries (R276); its effect is done once all are made. -/
def State.sendBlobs (s : State) (c : Cmd) (g : Group) : State × Cmd :=
  let ps := c.copies.drop 2
  let (t, c1) := s.makeOps c g.core (fun i => ((ps.getD i (0, [])).1, (ps.getD i (0, [])).2.length)) (fun i u =>
    let x := ps.getD i (0, [])
    u.newOp c.part (.cmd c.adm) g.core .put 0 x.1 x.2.length (c.pieceBad g x.1) (some (clean x.2))) (ps.length - c.nextOp)
  (t, if ps.length ≤ c1.nextOp || c1.conds.contains .windowClosed then { c1 with life := .ran } else c1)

/-- STREAM_EXPORT (R278): blobs for remote windows are sent as entries become free, and the row comes again for those that are left. -/
def execStreamExport (p : PartId) (q : QueId) (n : Nat) (s : State) : Host.Outcome State Fault Refusal :=
  match s.findCmd p q n with
  | some c =>
    if c.kind == .streamExport && s.mayRun c then
      match s.group? c.sGroup with
      | some g =>
        if c.life == .issued then
          let (s1, c1) := s.startCmd c
          let (s2, c2) := State.ctlBody (State.exportRow c1) c1 s1
          let (s3, c3) := s2.sendBlobs { c2 with copies := c2.copies.take 2 ++ s1.exportPieces c1 g } g
          done s (s3.putCmd c3)
        else
          let (s3, c3) := s.sendBlobs c g
          done s (s3.putCmd c3)
      | none => done s (s.putCmd { c.cond .badCommand with life := .ran })
    else done s s
  | none => done s s

/-- IMPORT of a row from its blob as read (R279). -/
def State.importRow (c : Cmd) (g : Group) (i : Nat) (x0 : Stream) (blob : List PByte) (s : State) : State × St :=
  let b := c.sBlk
  let bs := plain blob
  let rec_ := (bs.drop 64).take g.recBytes
  let d := s.strDie x0.num
  let fl := fieldAt bs 15 1
  let shut := s.setStream { x0 with state := .close, slot := none }
  if anyPoison blob then (shut.flag (.str d) 4, .poisoned)
  else if fieldAt bs 0 4 ≠ 0x57A70001 || fieldAt bs 4 4 ≠ g.recBytes || (fl % 2 == 1) != g.classB ||
      fieldAt bs 56 4 ≠ crc32c (bs.take 56 ++ rec_) then (shut.flag (.str d) 5, .poisoned)
  else
    let x : Stream := {
      num := x0.num, state := .park, classB := g.classB, part := c.part, epoch := BitVec.ofNat 16 (fieldAt bs 12 2), group := g.num
      nonfinite := fl / 4 % 2 == 1, lookahead := fieldAt bs 14 1, chunk20 := fl / 2 % 2 == 1, ringLog2 := fieldAt b 2 1
      home := ocHome b i, ring := ocRing b i, arrived := BitVec.ofNat 32 (fieldAt bs 16 4), stepped := BitVec.ofNat 32 (fieldAt bs 20 4)
      lastStamp := fieldAt bs 24 6 }
    (((s.setStream x).devStore x.home (clean (x.header ++ rec_.drop 64))).audioStart x.num true, .ok)

/-- The pieces of an IMPORT's blobs that lie in remote windows. -/
def State.importPieces (s : State) (c : Cmd) (g : Group) : List (Nat × Nat) :=
  (List.range c.sNrows).flatMap fun i =>
    if s.blobFar c g i then
      (List.range (cdiv (64 + g.recBytes) 4096)).map fun k => (ocBlob c.sBlk i + 4096 * k, min 4096 (64 + g.recBytes - 4096 * k))
    else []

/-- A row's blob: read from memory or the cistern, or pieced together from what the operations brought, lost where they brought nothing. -/
def State.blobIn (s : State) (c : Cmd) (g : Group) (i : Nat) : List PByte × State :=
  let a := ocBlob c.sBlk i
  let len := 64 + g.recBytes
  if s.blobFar c g i || (c.copies.drop 2).any fun x => a ≤ x.1 && x.1 < a + len then
    (layPieces (lostBytes len) (((c.copies.drop 2).filter fun x => a ≤ x.1 && x.1 < a + len).map fun x =>
      (x.1 - a, ((List.range x.2.length).zip x.2).map fun y =>
        let b := x.1 + y.1
        (y.2, (c.notes.drop (2 + c.sNrows)).contains (b / granule b * granule b)))), s)
  else s.strLoad a len

/-- The streams that an IMPORT brings in are in IMPORT while their blobs come (Table STR-7). -/
def State.importing (s : State) (c : Cmd) : State :=
  (c.sRowList.zip c.sCodes).foldl (fun (t : State) y =>
    if y.2 = 0 then
      let x := (t.stream? y.1.num).getD { num := y.1.num }
      t.setStream { x with state := .imported, part := c.part, group := c.sGroup, slot := none }
    else t) s

/-- The blobs of an IMPORT read and its rows brought in (R279). -/
def State.importAll (s : State) (c : Cmd) : State × Cmd :=
  State.ctlBody (fun g i x u =>
    let (blob, v) := u.blobIn c g i
    v.importRow c g i x blob) c s

/-- STREAM_IMPORT (R279): blobs in remote windows are fetched first, and the row comes again to go on. -/
def execStreamImport (p : PartId) (q : QueId) (n : Nat) (s : State) : Host.Outcome State Fault Refusal :=
  match s.findCmd p q n with
  | some c =>
    if c.kind == .streamImport && s.mayRun c then
      match s.group? c.sGroup with
      | some g =>
        let (s1, c1) := s.startCmd c
        let ps := s1.importPieces c1 g
        if c1.nextOp < ps.length && !c1.conds.contains .windowClosed then
          let (s2, c2) := (if c.life == .issued then s1.importing c1 else s1).makeOps c1 g.core (fun i => ps.getD i (0, 0)) (fun i u =>
            let x := ps.getD i (0, 0)
            u.newOp c.part (.cmd c.adm) g.core .fetch x.1 0 x.2 false none) (ps.length - c1.nextOp)
          done s (s2.putCmd c2)
        else if s1.opsOver c1 then
          let (s2, c2) := s1.importAll c1
          done s (s2.putCmd { c2 with life := .ran })
        else done s (s1.putCmd c1)
      | none => done s (s.putCmd { c.cond .badCommand with life := .ran })
    else done s s
  | none => done s s

/-! ## Steps (R253, R258, R260) -/

/-- What a step computes for one row: the words written back to the record, the output bytes at their addresses, and what it met. -/
structure StepOut where
  parts : List (Nat × List Byte) := []
  outs : List (Nat × List Byte) := []
  /-- A NaN or infinity is written into the record. -/
  nonfinite : Bool := false
  /-- Sticky bits of ENG_ERR to set. -/
  eng : List Nat := []
  /-- Checks of the row's own blocks that failed, and poison in its own input (R261, log entry 97). -/
  fails : List (List St) := []
  poisoned : Bool := false

/-- The step of one row: its position, mark, record and init image. -/
abbrev StepFn := Nat → SRow → List Byte → List Byte → StepOut

/-- What a kind of step has read: the function of a row over it, the statuses of failed checks of the operands that the rows share and whether one of
those was poisoned, and the busy cycles of the array and of the lanes. -/
structure StepEnv where
  fn : StepFn
  fails : List (List St) := []
  poisoned : Bool := false
  mx : Nat := 0
  vx : Nat := 0

/-- What a kind of step is: the parts of a record that it names, the write ranges of a row's outputs, and what it reads for the rows that run. -/
structure StepKind where
  parts : Group → Cmd → List (Nat × Nat)
  outRanges : Group → Cmd → State → Nat → List Rng
  env : Group → List Nat → Cmd → State → StepEnv × State

/-- Some poison in the parts of a record, with the effects of reading them. -/
def State.partsBad (s : State) (a : Nat) : List (Nat × Nat) → Bool × State
  | [] => (false, s)
  | x :: xs =>
    let (bs, t) := s.load (a + x.1) x.2
    let (p, u) := t.partsBad a xs
    (anyPoison bs || p, u)

/-- A row taken by a step: RUN, stepped just now, and resident; the parts of its record that the step names are gathered (R260). With its code afterwards
(Table STR-6). -/
def State.takeRow (s : State) (g : Group) (parts : List (Nat × Nat)) (named : List Nat) (n : Nat) : State × Nat :=
  let (s1, bad) := s.swapIn g n named
  match s1.stream? n with
  | some x =>
    let s2 := s1.setStream { x with state := .run, last := s.now }
    let (hdr, s3) := s2.load (x.recAddr g) 64
    let (pz, s4) := s3.partsBad (x.recAddr g) parts
    if plain hdr ≠ x.header then (s4.flag (.str (s.strDie n)) 1, St.scaleSkew.code)
    else if bad then (s4.flag (.str (s.strDie n)) 4, St.poisoned.code)
    else if anyPoison hdr || pz then (s4, St.poisoned.code)
    else (s4, 0)
  | none => (s1, 0)

/-- A row that an overrun ends (Table STR-6). -/
def State.overrunRow (s : State) (g : Group) (chunk n : Nat) : State × Nat :=
  match s.stream? n with
  | some x =>
    let (t, bad) := s.install g x
    let u := t.setStream { x with state := .run, stepped := BitVec.ofNat 32 (chunk + 1) }
    let v := ({ u with cnts := { u.cnts with strOver := vbump 8 u.cnts.strOver (s.strDie n) 1 } }).flag (.str (s.strDie n)) 3
    (v.flagIf bad (.str (s.strDie n)) 4, St.missed.code)
  | none => (s, St.missed.code)

/-- Every row prepared: overruns ended, and the others brought in and checked; with the codes. -/
def State.prepareRows (s : State) (c : Cmd) (g : Group) (parts : List (Nat × Nat)) : State × List Nat :=
  let named := c.sRowList.map (·.num)
  (c.sRowList.zip c.sCodes).foldl (fun (acc : State × List Nat) x =>
    if x.2 = 0 then
      let (t, k) := acc.1.takeRow g parts named x.1.num
      (t, acc.2 ++ [k])
    else if x.2 = St.missed.code && c.kind == .feat then
      let (t, k) := acc.1.overrunRow g c.sChunk x.1.num
      (t, acc.2 ++ [k])
    else (acc.1, acc.2 ++ [x.2])) (s, [])

/-- The outputs and record of a row poisoned (Table STR-6). -/
def State.poisonOut (s : State) (g : Group) (outs : List Rng) (n : Nat) : State :=
  let t := s.poisonWrites outs
  match t.stream? n with
  | some x => t.poisonRange (x.recAddr g) g.recBytes
  | none => t

/-- A row's results written: outputs, and the parts of its record scattered back (R260). -/
def State.scatterRow (s : State) (c : Cmd) (g : Group) (r : SRow) (o : StepOut) : State :=
  match s.stream? r.num with
  | some x =>
    let a := x.recAddr g
    let s1 := o.outs.foldl (fun (t : State) w => t.storeB w.1 w.2) s
    let s2 := o.parts.foldl (fun (t : State) w => t.storeB (a + w.1) w.2) s1
    let s3 := o.eng.foldl (fun (t : State) b => t.flag (.eng c.clus) b) s2
    let s4 := if r.mark ≠ 0 then s3.countMark r.num else s3
    (s4.setStream { x with nonfinite := x.nonfinite || o.nonfinite }).flagIf o.nonfinite (.str (s.strDie r.num)) 2
  | none => s

/-- FEAT has taken its chunk of a row's stream (R271). -/
def State.advanceRow (s : State) (c : Cmd) (n : Nat) : State :=
  if c.kind == .feat then
    match s.stream? n with
    | some x => s.setStream { x with stepped := BitVec.ofNat 32 (c.sChunk + 1) }
    | none => s
  else s

/-- A row that ran ends: its results are written, and poisoned when it was; a failed check of its own leaves it without results (R72, R261, Table STR-6).
With its code. -/
def State.endRow (s : State) (c : Cmd) (g : Group) (outs : List Rng) (initBad : Bool) (r : SRow) (o : StepOut) : State × Nat :=
  if initBad && r.mark ≠ 0 then
    (((s.flag (.str (s.strDie r.num)) 4).poisonOut g outs r.num).advanceRow c r.num, St.poisoned.code)
  else if !o.fails.isEmpty then
    let (t, f) := s.meetFails c.clus o.fails
    ((t.poisonOut g outs r.num).advanceRow c r.num, (St.choose (f ++ if o.poisoned then [.poisoned] else [])).code)
  else
    let t := s.scatterRow c g r o
    if o.poisoned then ((t.poisonOut g outs r.num).advanceRow c r.num, St.poisoned.code) else (t.advanceRow c r.num, 0)

/-- The effect of a step (R258, R260): swap-ins, gather, compute and scatter. -/
def State.stepBody (k : StepKind) (c : Cmd) (s : State) : State × Cmd :=
  match s.group? c.sGroup with
  | none => (s, c.cond .badCommand)
  | some g =>
    let (s1, codes) := s.prepareRows c g (k.parts g c)
    let rows := (List.range c.sRowList.length).zip (c.sRowList.zip codes)
    let runs := rows.filter fun x => x.2.2 = 0
    let outsOf := k.outRanges g c s
    let bad := rows.filter fun x => x.2.2 = St.scaleSkew.code || x.2.2 = St.poisoned.code
    let s2 := bad.foldl (fun (t : State) x => (t.poisonOut g (outsOf x.1) x.2.1.num).advanceRow c x.2.1.num) s1
    if runs.isEmpty then (s2, c.withCodes codes)
    else
      let (env, s3) := k.env g (runs.map (·.1)) c s2
      let marked := runs.any fun x => x.2.1.mark ≠ 0
      let (init, s4) := if marked then s3.strLoad g.initAddr g.recBytes else ([], s3)
      let (s5, fails) := s4.meetFails c.clus env.fails
      let s6 := (s5.mxBusy c.coreId env.mx).vxBusy c.coreId env.vx
      let cond := (if env.poisoned then [St.poisoned] else []) ++ fails
      if !fails.isEmpty then (s6, { (c.withCodes codes) with conds := c.conds ++ cond })
      else
        let (s7, codes2) := runs.foldl (fun (acc : State × List Nat) x =>
          let rec_ := match s6.stream? x.2.1.num with
            | some y => s6.bytes (y.recAddr g) g.recBytes
            | none => []
          let (t, code) := acc.1.endRow c g (outsOf x.1) (anyPoison init) x.2.1 (env.fn x.1 x.2.1 rec_ (plain init))
          (t, acc.2.set x.1 code)) (s6, codes)
        (s7, { (c.withCodes codes2) with conds := c.conds ++ cond })

/-- The places that a step marks when it fails as a whole: what it declares as written but the group's slots, and the records of the rows that it took
(R11, R253, R261). -/
def State.stepMarks (s : State) (c : Cmd) : List Rng :=
  s.lostWrites c ++
  match s.group? c.sGroup with
  | some g => ((c.sRowList.zip c.sCodes).filter fun x => x.2 = 0).filterMap fun x => (s.stream? x.1.num).map fun y => ⟨y.recAddr g, g.recBytes, true⟩
  | none => []

/-- The row of a step: the refusal of closed writes, unit faults, and conditions of the whole command that poison what it writes (R11, R135, R217). -/
def State.stepRun (flt : UnitFault) (k : StepKind) (c : Cmd) (s : State) : State × Cmd :=
  let closed := c.writes.filter fun r => !s.mayWrite true c.adm r.lo r.len
  if !closed.isEmpty then (closed.foldl (fun (t : State) r => t.flagClosed r.lo r.len) s, c.cond .windowClosed)
  else if flt != .none then
    let t := (s.flag (.eng c.clus) (unitFaultBit flt)).poisonWrites (s.stepMarks c)
    (if flt == .microcode then { t with scHalt := t.scHalt.set c.coreId true } else t, c.cond .internal)
  else
    let (t, c1) := State.stepBody k c s
    if c1.conds.any (·.taints) then (t.poisonWrites (t.stepMarks c1), c1) else (t, c1)

/-! ## RSTEP (R263 to R266) -/

/-- A scale entry restamped for a staging position (R264). -/
def restamp (e j : Nat) : Nat := e % 2048 + j % 64 * 2 ^ 11 + j / 64 % 1024 * 2 ^ 17 + e / 2 ^ 27 * 2 ^ 27

/-- Block j of an operand without side list: its values and its failed checks (R69, R72). -/
def blockOf (h : Hdr) (j : Nat) (data sraw : List Byte) : List Fp × List St :=
  let b := readBlockAt h 0 j data sraw
  let (vs, fs, _) := blockVals h 0 j b 0 b.codes []
  (vs, b.fails ++ fs)

/-- E4M3 blocks with full scale entries, as a record and the staging hold h. -/
def stateHdr : Hdr := ⟨0, 0, 0, 0, 3, false⟩

/-- The gate program of an RSTEP as a program block (R264). -/
def gateProg (b : List Byte) : List Byte :=
  leBytes 1 (rKind b) ++ leBytes 1 0 ++ leBytes 1 (8 * (rFlags b % 2) + rFlags b / 2 * 2) ++ leBytes 1 0 ++ repByte 4 0 ++ bytesAt b 48 8 ++ repByte 48 0

/-- What an RSTEP has read. -/
structure REnv where
  x : List PByte
  xs : List PByte
  w : List (List Fp)
  bias : Option (List W32)

/-- The state of a gated stream between frames: h as the product sees it (exact values with failed checks), its FP32 values, and the cell state. -/
structure RState where
  hv : List Fp
  h : List W32
  c : List W32
  hBytes : List Byte
  fails : List (List St) := []

/-- FP32 values laid in a record. -/
def f32List (bs : List Byte) (off n : Nat) : List W32 := (List.range n).map fun i => BitVec.ofNat 32 (fieldAt bs (off + 4 * i) 4)

/-- hi and lo of R265, as BF16 patterns. -/
def hiBits (v : W32) : Nat := plainBits 1 v
def loBits (v : W32) : Nat := plainBits 1 (fsub v (plainVal 1 (hiBits v)))
/-- hi of a row, then lo, each padded with zeros to n columns: exact values. -/
def splitRow (v : List W32) (n : Nat) : List Fp :=
  let pad := List.replicate (n - v.length) (Fp.fin false 0 0)
  (v.map fun x => fpVal (plainVal 1 (hiBits x))) ++ pad ++ (v.map fun x => fpVal (plainVal 1 (loBits x))) ++ pad

/-- The state of a gated stream read from a record, its h blocks checked at their places there (R264, log entry 227). -/
def rState (g : Group) (b rec_ : List Byte) : RState :=
  let hid := rHid b
  let c := if rKind b = 1 then f32List rec_ (rCoff b) hid else []
  if g.classB then
    let h := f32List rec_ (rHoff b) hid
    { hv := splitRow h hid, h := h, c := c, hBytes := bytesAt rec_ (rHoff b) (4 * hid) }
  else
    let blocks := (List.range (hid / 32)).map fun j => blockOf stateHdr j (bytesAt rec_ (rHoff b) hid) (bytesAt rec_ (rHoff b + hid) (hid / 8))
    { hv := blocks.flatMap (·.1), h := blocks.flatMap fun x => x.1.map roundFp, c := c, hBytes := bytesAt rec_ (rHoff b) (e4m3Bytes hid)
      fails := (blocks.map (·.2)).filter fun f => !f.isEmpty }

/-- The x row (f, i) of an RSTEP as exact values, with the failed checks of its blocks at their places in x (R72, log entry 227). -/
def rInput (g : Group) (b : List Byte) (h : Hdr) (e : REnv) (row : Nat) : List Fp × List (List St) :=
  let k := rKin b
  if g.classB then ((List.range k).map fun i => fpVal (plainVal 1 (fieldAt (plain ((e.x.drop (2 * (row * k + i))).take 2)) 0 2)), [])
  else
    let blocks := (List.range (k / 32)).map fun j => blockOf h (row * (k / 32) + j) (plain e.x) (plain e.xs)
    (blocks.flatMap (·.1), (blocks.map (·.2)).filter fun f => !f.isEmpty)

/-- One frame of one row of an RSTEP: the new state and what was met (R264, R265). -/
def rFrame (g : Group) (b : List Byte) (e : REnv) (x : List Fp) (st : RState) : RState × List Nat :=
  let z := e.w.map fun w => dot (x ++ st.hv) w
  let bias := e.bias.getD []
  let zb := ((List.range z.length).zip z).map fun (j, v) => scaleBias v none (if rFlags b / 2 % 2 = 1 then some (bias.getD j 0) else none)
  let s0 := if rKind b = 1 then st.c else st.h
  let out := gateRow (gateProg b) zb s0
  let h := out.map (·.1)
  let c := if rKind b = 1 then out.map (·.2) else []
  let bad := (h ++ c).any (fun v => !fFinite v) || gateRowBad (gateProg b) zb s0
  let mxBad := z.any fun v => !fFinite v
  let eng := (if mxBad then [0] else []) ++ if bad then [if g.classB then 8 else 16] else []
  if g.classB then
    ({ hv := splitRow h (rHid b), h := h, c := c, hBytes := h.flatMap f32Bytes }, eng)
  else
    let cs := codeRows 3 0 [h]
    let vals := (List.range (rHid b / 32)).map fun j => (blockOf stateHdr j cs.bytes cs.entries).1
    ({ hv := vals.flatten, h := vals.flatMap fun v => v.map roundFp, c := c, hBytes := cs.bytes ++ cs.entries },
      eng ++ (if cs.sat ≠ 0 then [17] else []) ++ if cs.nan ≠ 0 then [18] else [])

/-- The output row of h at tensor row `row` (R263). -/
def rOutput (g : Group) (b : List Byte) (y : Hdr) (row : Nat) (hBytes : List Byte) : List (Nat × List Byte) :=
  let hid := rHid b
  if g.classB then [(y.data + 4 * hid * row, hBytes)]
  else
    let nb := hid / 32
    let entries := (List.range nb).flatMap fun j => leBytes 4 (restamp (fieldAt hBytes (hid + 4 * j) 4) (row * nb + j))
    [(y.data + hid * row, hBytes.take hid), (y.scale + 4 * nb * row, entries)]

/-- An x row of an RSTEP, or its scale entries, were poisoned. -/
def rInputPoison (g : Group) (b : List Byte) (h : Hdr) (e : REnv) (row : Nat) : Bool :=
  let k := rKin b
  let bx := k / 32
  if g.classB then anyPoison ((e.x.drop (2 * row * k)).take (2 * k))
  else anyPoison ((e.x.drop (row * k)).take k) ||
    if h.compact then (List.range bx).any fun j => anyPoison ((e.xs.drop (96 * ((row * bx + j) / 64))).take 96)
    else anyPoison ((e.xs.drop (4 * row * bx)).take (4 * bx))

/-- One row of an RSTEP over its frames. -/
def rRow (g : Group) (b : List Byte) (nrows : Nat) (x y : Hdr) (e : REnv) : StepFn := fun i r rec_ init =>
  let (st, out) := (List.range (rFrames b)).foldl (fun (acc : RState × StepOut) f =>
    let st0 := if r.mark = f + 1 then rState g b init else acc.1
    let (xv, xf) := rInput g b x e (f * nrows + i)
    let (st1, eng) := rFrame g b e xv st0
    let nf := (st1.h ++ st1.c).any fun v => !fFinite v
    (st1, { acc.2 with
      outs := acc.2.outs ++ rOutput g b y (f * nrows + i) st1.hBytes
      nonfinite := nf, eng := acc.2.eng ++ eng, fails := acc.2.fails ++ xf ++ st0.fails
      poisoned := acc.2.poisoned || rInputPoison g b x e (f * nrows + i) })) (rState g b rec_, {})
  { out with parts := [(rHoff b, st.hBytes)] ++ if rKind b = 1 then [(rCoff b, st.c.flatMap f32Bytes)] else [] }

/-- The reads of an RSTEP and its row function (R263 to R265). -/
def State.rEnv (g : Group) (_runs : List Nat) (c : Cmd) (s : State) : StepEnv × State :=
  let b := c.sBlk
  let n := c.sNrows
  let f := rFrames b
  let hx := hdrOf (c.copied 2)
  let hw := hdrOf (c.copied 3)
  let hy := hdrOf (c.copied 4)
  let nx := f * n
  let (x, s1) := s.load hx.data (if g.classB then nx * rKin b * 2 else nx * rKin b)
  let (xs, s2) := if g.classB then ([], s1) else s1.load hx.scale (hx.scaleBytes (nx * rKin b / 32))
  let (w, s3) := s2.readOperand hw (4 * rHid b) (rCols g b) 0
  let (bias, pb, s4) := s3.progRow (rFlags b / 2 % 2 == 1) (fieldAt b 40 8) (4 * rHid b)
  let e : REnv := { x := x, xs := xs, w := w.rows, bias := bias }
  ({ fn := rRow g b n hx hy e
     fails := w.fails
     poisoned := w.poisoned || pb
     mx := f * (cdiv n 32 * cdiv (4 * rHid b) 64 * cdiv (rCols g b) 128 * 16 * phi2 hx.fmt hw.fmt)
     vx := if g.classB then f * (n * cdiv (rHid b) 16 * if rKind b = 1 then 5 else 3) else 0 }, s4)

/-- RSTEP as a step. -/
def rStep : StepKind := {
  parts := fun g c => [(rHoff c.sBlk, rHbytes g c.sBlk)] ++ if rKind c.sBlk = 1 then [(rCoff c.sBlk, 4 * rHid c.sBlk)] else []
  outRanges := fun g c _ i => (List.range (rFrames c.sBlk)).flatMap fun k =>
    (rOutput g c.sBlk (hdrOf (c.copied 4)) (k * c.sNrows + i) (repByte (rHbytes g c.sBlk) 0)).map fun o => ⟨o.1, o.2.length, true⟩
  env := State.rEnv }

/-- RSTEP. -/
def execRstep (p : PartId) (q : QueId) (n : Nat) (flt : UnitFault) (s : State) : Host.Outcome State Fault Refusal :=
  done s (s.streamRow p q n .rstep (State.stepRun flt rStep))

/-! ## LSTEP (R267 to R269) -/

/-- One section of a recurrence on one lane: its state, coefficients and input give the output and the new state (R268). -/
def lSection (kind : Nat) (st co : List W32) (x : W32) : W32 × List W32 :=
  let k := fun i => co.getD i 0
  let z := fun i => st.getD i 0
  if kind = 1 then
    let s1 := ffma (k 0) (fsub x (z 0)) (z 0)
    (s1, [s1])
  else if kind = 2 then
    let y := ffma (k 0) x (z 0)
    (y, [ffma (k 1) x (fneg (fmul (k 2) y))])
  else if kind = 3 then
    let y := ffma (k 0) x (z 0)
    (y, [ffma (k 1) x (ffma (fneg (k 3)) y (z 1)), ffma (k 2) x (fneg (fmul (k 4) y))])
  else
    let s1 := ffma (k 0) (z 0) (fmul (k 1) x)
    (ffma (k 2) s1 (fmul (k 3) x), [s1])

/-- The sections of a lane in turn, each with its coefficients (R268). -/
def lLane (kind : Nat) (secs : List (List W32 × List W32)) (u : W32) : W32 × List (List W32) :=
  secs.foldl (fun (acc : W32 × List (List W32)) x =>
    let (y, st) := lSection kind x.1 x.2 acc.1
    (y, acc.2 ++ [st])) (u, [])

/-- State of every lane, by section, from the state bytes of a record (R267). -/
def lState (b rec_ : List Byte) : List (List (List W32)) :=
  (List.range (lCols b)).map fun j => (List.range (lSecs b)).map fun q => f32List rec_ (lSoff b + 4 * (q * lCols b + j) * lW b) (lW b)

/-- The words of the state, in the record's order. -/
def lWords (b : List Byte) (st : List (List (List W32))) : List W32 :=
  (List.range (lSecs b)).flatMap fun q => st.flatMap fun lane => lane.getD q []

/-- One row of an LSTEP over its frames (R268, R269): every lane's coefficients by section, its input by tensor row and lane, and the
poison of a row's input. -/
def lRow (g : Group) (b : List Byte) (nrows : Nat) (co : List (List (List W32))) (u : Nat → Nat → W32) (pz : Nat → Bool) : StepFn := fun i r rec_ init =>
  let ya := wellAddr g.core (fieldAt b 16 4)
  let (st, outs) := (List.range (lFrames b)).foldl (fun (acc : List (List (List W32)) × List (Nat × List Byte)) f =>
    let st0 := if r.mark = f + 1 then lState b init else acc.1
    let row := f * nrows + i
    let res := ((List.range (lCols b)).zip (st0.zip co)).map fun (j, s0, k) => lLane (lKind b) (s0.zip k) (u row j)
    (res.map (·.2), acc.2 ++ [(ya + 4 * row * lCols b, (res.map (·.1)).flatMap f32Bytes)])) (lState b rec_, [])
  let words := lWords b st
  let yBad := outs.any fun o => (chunks 4 o.2).any fun e => !fFinite (f32At e 0)
  let nf := words.any fun v => !fFinite v
  { parts := [(lSoff b, words.flatMap f32Bytes)], outs := outs, nonfinite := nf, eng := if yBad || nf then [8] else []
    poisoned := (List.range (lFrames b)).any fun f => pz (f * nrows + i) }

/-- The reads of an LSTEP and its row function. -/
def State.lEnv (g : Group) (_runs : List Nat) (c : Cmd) (s : State) : StepEnv × State :=
  let b := c.sBlk
  let n := c.sNrows
  let f := lFrames b
  let cols := lCols b
  let (u, s1) := s.load (wellAddr g.core (fieldAt b 12 4)) (4 * f * n * cols)
  let (co, s2) := s1.load (wellAddr g.core (fieldAt b 20 4)) (4 * lSecs b * cols * lNc b)
  let cob := plain co
  let coef := (List.range cols).map fun j => (List.range (lSecs b)).map fun q => f32List cob (4 * (q * cols + j) * lNc b) (lNc b)
  let at_ := fun (row j : Nat) => BitVec.ofNat 32 (leNat (plain ((u.drop (4 * (row * cols + j))).take 4)))
  let sec := if lKind b = 1 then 2 else if lKind b = 2 then 3 * lSecs b else if lKind b = 3 then 5 * lSecs b else 4
  ({ fn := lRow g b n coef at_ fun r => anyPoison ((u.drop (4 * r * cols)).take (4 * cols))
     poisoned := anyPoison co
     vx := f * cdiv (n * cols) 64 * sec }, s2)

/-- LSTEP as a step. -/
def lStep : StepKind := {
  parts := fun _ c => [(lSoff c.sBlk, lBytes c.sBlk)]
  outRanges := fun g c _ i => (List.range (lFrames c.sBlk)).map fun k =>
    ⟨wellAddr g.core (fieldAt c.sBlk 16 4 + 4 * (k * c.sNrows + i) * lCols c.sBlk), 4 * lCols c.sBlk, true⟩
  env := State.lEnv }

/-- LSTEP. -/
def execLstep (p : PartId) (q : QueId) (n : Nat) (flt : UnitFault) (s : State) : Host.Outcome State Fault Refusal :=
  done s (s.streamRow p q n .lstep (State.stepRun flt lStep))

/-! ## FEAT (R270 to R272) -/

/-- LT of Table STR-12: the FP32 value nearest to log₂(1 + j ÷ 64). -/
def logTable : List W32 :=
  [0x00000000, 0x3CB73CB4, 0x3D35D69C, 0x3D8759C5, 0x3DB31FB8, 0x3DDE4212, 0x3E0462C4, 0x3E19574F,
   0x3E2E00D2, 0x3E42615F, 0x3E567AF1, 0x3E6A4F72, 0x3E7DE0B6, 0x3E88983F, 0x3E92203D, 0x3E9B8926,
   0x3EA4D3C2, 0x3EAE00D2, 0x3EB7110E, 0x3EC0052B, 0x3EC8DDD4, 0x3ED19BB0, 0x3EDA3F60, 0x3EE2C97D,
   0x3EEB3A9F, 0x3EF39355, 0x3EFBD42B, 0x3F01FED4, 0x3F060828, 0x3F0A0650, 0x3F0DF989, 0x3F11E20F] ++
  [0x3F15C01A, 0x3F1993E3, 0x3F1D5DA0, 0x3F211D84, 0x3F24D3C2, 0x3F28808C, 0x3F2C2411, 0x3F2FBE80,
   0x3F335004, 0x3F36D8CB, 0x3F3A58FF, 0x3F3DD0C8, 0x3F41404F, 0x3F44A7BA, 0x3F480731, 0x3F4B5ED7,
   0x3F4EAED0, 0x3F51F740, 0x3F553848, 0x3F587209, 0x3F5BA4A4, 0x3F5ED039, 0x3F61F4E5, 0x3F6512C7,
   0x3F6829FB, 0x3F6B3A9F, 0x3F6E44CD, 0x3F7148A1, 0x3F744636, 0x3F773DA4, 0x3F7A2F04, 0x3F7D1A71]

/-- log2 of R272, for a value above 0. -/
def flog2 (z : W32) : W32 :=
  match fpVal z with
  | .nan => fpNaN
  | .inf _ => fpInf false
  | .fin _ m e =>
    let k := e + m.log2
    let mz := roundFp (.fin false m (e - k))
    let j := m * 64 / 2 ^ m.log2 - 64
    let mm := roundFp (.fin false (64 + j) (-6))
    let r := fdiv (fsub mz mm) mm
    let p := ffma (ffma (ffma 0x3EF6384F r 0xBF38AA3B) r 0x3FB8AA3B) r (logTable.getD j 0)
    fadd (fpCvt k) p

/-- What a FEAT has read: window, basis and filterbank rows. -/
structure EEnv where
  win : List W32
  basis : List (List Fp)
  bank : List (List Fp)

/-- One feature frame of N samples (R271, steps 1 to 5); with whether a product was not finite. -/
def featFrame (b : List Byte) (e : EEnv) (x : List W32) : List W32 × Bool :=
  let v := (x.zip e.win).map fun (a, w) => fmul a w
  let row := splitRow v (eNp b)
  let spec := e.basis.map fun w => dot row w
  let p := (chunks 2 spec).map fun q => ffma (q.getD 0 0) (q.getD 0 0) (fmul (q.getD 1 0) (q.getD 1 0))
  let prow := splitRow p (ePp b)
  let mel := e.bank.map fun w => dot prow w
  (mel.map fun m => ffma (flog2 (fmax m (f32At b 40))) (f32At b 44) (f32At b 48), (spec ++ mel).any fun z => !fFinite z)

/-- The bytes of an output row at tensor row `row` of a header with `cols` columns (R212), with the sticky bits met. -/
def featOutput (h : Hdr) (cols row : Nat) (y : List W32) : List (Nat × List Byte) × List Nat :=
  let bad := y.any fun z => !fFinite z
  if h.narrow then
    let nb := bpr cols
    let cs := codeRows h.fmt (row * nb) [y]
    ([(h.data + row * nb * 4 * codeWidth h.fmt, cs.bytes), (h.scale + 4 * row * nb, cs.entries)],
      (if bad then [16] else []) ++ (if cs.sat ≠ 0 then [17] else []) ++ if cs.nan ≠ 0 then [18] else [])
  else
    let sz := plainSize h.fmt
    let bits := y.map (plainBits h.fmt)
    ([(h.data + row * cols * sz, bits.flatMap fun x => leBytes sz x)],
      if bad || bits.any fun x => !fFinite (plainVal h.fmt x) then [16] else [])

/-- One row of a FEAT over the frames of its chunk: `samples i` are the samples of row i's chunk (R271). -/
def eRow (b : List Byte) (nrows f : Nat) (y : Hdr) (e : EEnv) (samples : Nat → List PByte) : StepFn := fun i r rec_ init =>
  let hist := fun (bs : List Byte) => f32List bs (eOff b) 352
  let past := fun (bs : List Byte) => (List.range (eLook b)).map fun k => f32List bs (eOff b + 1408 + 4 * k * eMel b) (eMel b)
  let cols := (eLook b + 1) * eMel b
  let sm := (chunks 4 (plain (samples i))).map fun x => f32At x 0
  let ((h1, p1), out) := (List.range f).foldl (fun (acc : (List W32 × List (List W32)) × StepOut) k =>
    let (h0, p0) := if r.mark = k + 1 then (hist init, past init) else acc.1
    let all := h0 ++ (sm.drop (160 * k)).take 160
    let (yf, nf) := featFrame b e ((all.drop (512 - eWin b)).take (eWin b))
    let stack := p0 ++ [yf]
    let (w, eng) := featOutput y cols (k * nrows + i) stack.flatten
    ((all.drop 160, stack.drop 1), { acc.2 with
      outs := acc.2.outs ++ w
      eng := acc.2.eng ++ (if nf then [0] else []) ++ eng })) ((hist rec_, past rec_), {})
  let words := h1 ++ p1.flatten
  { out with parts := [(eOff b, words.flatMap f32Bytes)], nonfinite := words.any (fun v => !fFinite v), poisoned := anyPoison (samples i) }

/-- The samples of a row's chunk, from its stream's ring (R270); those of a stream without a ring are open (log entry 43). -/
def State.chunkOf (s : State) (n chunk : Nat) : List PByte × State :=
  match s.stream? n with
  | some x =>
    let len := 640 * x.frames
    let open_ := clean ((List.range len).map fun i => nb (Config.openVal 270 [n, chunk, i]))
    if x.ringLog2 = 0 then (open_, s)
    else match s.devLoad (x.ring + chunk % 2 ^ x.ringLog2 * len) len with
      | (some bs, t) => (bs, t)
      | (none, t) => (open_, t)
  | none => ([], s)

/-- The chunks of several rows. -/
def State.chunksOfRows (s : State) (rows : List SRow) (chunk : Nat) : List Nat → List (Nat × List PByte) × State
  | [] => ([], s)
  | i :: is =>
    let (bs, t) := s.chunkOf (rows.getD i ⟨0, 0, 0⟩).num chunk
    let (xs, u) := t.chunksOfRows rows chunk is
    ((i, bs) :: xs, u)

/-- The reads of a FEAT and its row function. -/
def State.eEnv (g : Group) (runs : List Nat) (c : Cmd) (s : State) : StepEnv × State :=
  let b := c.sBlk
  let n := c.sNrows
  let rows := c.sRowList
  let f := s.featFrames rows
  let hb := hdrOf (c.copied 2)
  let hf := hdrOf (c.copied 3)
  let hy := hdrOf (c.copied 4)
  let (win, pw, s1) := s.progRow true (wellAddr g.core (fieldAt b 12 4)) (eWin b)
  let (ba, s2) := s1.readOperand hb (2 * eBins b) (2 * eNp b) 0
  let (bk, s3) := s2.readOperand hf (eMel b) (2 * ePp b) 0
  let e : EEnv := { win := win.getD [], basis := ba.rows, bank := bk.rows }
  let (got, s4) := s3.chunksOfRows rows c.sChunk runs
  let m := f * n
  ({ fn := eRow b n f hy e fun i => ((got.find? fun x => x.1 == i).map (·.2)).getD []
     poisoned := pw || ba.poisoned || bk.poisoned
     mx := cdiv m 32 * cdiv (2 * eBins b) 64 * cdiv (2 * eNp b) 128 * 16 * phi2 1 1 + cdiv m 32 * cdiv (eMel b) 64 * cdiv (2 * ePp b) 128 * 16 * phi2 1 1
     vx := m * (3 * cdiv (eWin b) 64 + 3 * cdiv (eBins b) 64 + 4 * cdiv (eMel b) 16) }, s4)

/-- FEAT as a step. -/
def eStep : StepKind := {
  parts := fun _ c => [(eOff c.sBlk, eBytes c.sBlk)]
  outRanges := fun _ c s i =>
    let b := c.sBlk
    let cols := (eLook b + 1) * eMel b
    (List.range (s.featFrames c.sRowList)).flatMap fun k =>
      (featOutput (hdrOf (c.copied 4)) cols (k * c.sNrows + i) (List.replicate cols 0)).1.map fun o => ⟨o.1, o.2.length, true⟩
  env := State.eEnv }

/-- FEAT. -/
def execFeat (p : PartId) (q : QueId) (n : Nat) (flt : UnitFault) (s : State) : Host.Outcome State Fault Refusal :=
  done s (s.streamRow p q n .feat (State.stepRun flt eStep))

/-! ## The entry as software sees it, and the ends of partitions (R254, R262) -/

/-- A stream's state code (Table STR-2). -/
def SState.code : SState → Nat
  | .close => 0 | .opened => 1 | .run => 2 | .pause => 3 | .park => 4 | .exported => 5 | .imported => 6

/-- A stream table entry as 256 bits (Table STR-2). -/
def State.streamEntry (s : State) (n : Nat) : Nat :=
  match s.stream? n with
  | some x =>
    let bit := fun (b : Bool) (k : Nat) => if b then 2 ^ k else 0
    let busy := s.cmds.any fun c => c.inFlight && c.namesStream n
    x.state.code + bit x.classB 3 + x.part.val * 2 ^ 4 + x.epoch.toNat * 2 ^ 8 + x.group % 4096 * 2 ^ 24 + bit x.slot.isSome 36 + bit x.nonfinite 37 +
    bit busy 38 + x.lookahead % 16 * 2 ^ 40 + bit x.chunk20 44 + x.ringLog2 % 8 * 2 ^ 45 + x.slot.getD 0 % 4096 * 2 ^ 48 + x.home % 2 ^ 40 * 2 ^ 64 +
    x.ring % 2 ^ 40 * 2 ^ 104 + x.arrived.toNat * 2 ^ 144 + x.stepped.toNat * 2 ^ 176 + x.lastStamp % 2 ^ 48 * 2 ^ 208
  | none => 0

/-- Streams of a die's table that are not CLOSE: STR_OCC. -/
def State.streamsOpen (s : State) (d : Die) : Nat := (s.streams.filter fun x => x.state != .close && dieOfStream x.num == d).length

/-- The streams and groups of a partition that closes (R262). -/
def State.strClose (s : State) (p : PartId) : State :=
  let t := (s.streams.filter fun x => x.part == p && x.state != .close).foldl (fun (u : State) x => u.closeStream x) s
  { t with groups := t.groups.filter fun g => g.part != p }

/-- The streams and groups after a device reset (R262, R280). -/
def State.strReset (s : State) : State := { s with streams := [], groups := [], strPeek := 0, audio := [] }

end Sys2Proof.Machine
end

