-- ==== Sys2Proof/Machine/Attn.lean ====
section
/-! DEFINITION. Attention and the key-value cache (chapter ATN): heaps, sequences, page descriptors and the movement of pages, the control operations, and the
three modes of an attention step. -/
namespace Sys2Proof.Machine

/-! ## The operand area and the blocks (Tables ATN-2, ATN-5 to ATN-7) -/

def Cmd.aCtl (c : Cmd) : Nat := ofield c.desc 0 4
def Cmd.aMode (c : Cmd) : Nat := ofield c.desc 4 2
def Cmd.aBlock (c : Cmd) : Nat := ofield c.desc 16 40
def Cmd.aList (c : Cmd) : Nat := ofield c.desc 56 40
def Cmd.aNseq (c : Cmd) : Nat := ofield c.desc 96 7
def Cmd.aLayer (c : Cmd) : Nat := ofield c.desc 103 16
def Cmd.aReport (c : Cmd) : Nat := ofield c.desc 119 40

/-- What an ATTN does: its control operation, or the mode of its step (Table ATN-5). -/
def attnKind (ctl mode : Nat) : CmdKind :=
  match ctl with
  | 0 => if mode = 0 then .attnFinish else if mode = 1 then .attnNodes else if mode = 2 then .attnCombine else .unknown
  | 1 => .heap
  | 2 => .seqOpen
  | 3 => .seqClose
  | 4 => .pin
  | 5 => .unpin
  | 6 => .trim
  | _ => .unknown

/-- A sequence list entry (Table ATN-6). -/
structure AEntry where
  seq : Nat
  rows : Nat
  pos0 : Nat
  epoch : Nat
  append : Bool
  deriving DecidableEq, Repr

/-- The entry of 16 bytes. -/
def aentryOf (b : List Byte) : AEntry :=
  { seq := bfield b 0 40, rows := bfield b 40 10, pos0 := bfield b 64 32, epoch := bfield b 96 16, append := bfield b 112 1 == 1 }

/-- The copied block and list of an ATTN. -/
def Cmd.aBlk (c : Cmd) : List Byte := c.copied 0
def Cmd.aEntries (c : Cmd) : List AEntry := (chunks 16 (c.copied 1)).map aentryOf

/-- The notes of a step: whether a copy was poisoned; for each entry, whether an allocation failed at admission; from its issue on the code of each
entry's status; and then the descriptors of the pages whose loads it has waited for. -/
def Cmd.aFails (c : Cmd) : List Nat := (c.notes.drop 1).take c.aNseq
def Cmd.aCodes (c : Cmd) : List Nat := (c.notes.drop (1 + c.aNseq)).take c.aNseq
def Cmd.aWaited (c : Cmd) : List Nat := c.notes.drop (1 + 2 * c.aNseq)
def Cmd.withACodes (c : Cmd) (codes : List Nat) : Cmd := { c with notes := c.notes.take (1 + c.aNseq) ++ codes ++ c.aWaited }

/-- Fields of the step block (Table ATN-7). -/
def aScale (b : List Byte) : W32 := f32At b 32
def aWindow (b : List Byte) : Nat := fieldAt b 36 4
def aKv0 (b : List Byte) : Nat := fieldAt b 40 2
def aNkv (b : List Byte) : Nat := fieldAt b 42 1
def aGq (b : List Byte) : Nat := fieldAt b 43 1
def aPageLo (b : List Byte) : Nat := fieldAt b 56 2
def aPageHi (b : List Byte) : Nat := fieldAt b 58 2
def aStride (b : List Byte) : Nat := fieldAt b 60 4

/-- Record address and positions of a control block (R287). -/
def aSeqAddr (b : List Byte) : Nat := fieldAt b 0 8
def aPosA (b : List Byte) : Nat := fieldAt b 8 4
def aPosB (b : List Byte) : Nat := fieldAt b 12 4

/-! ## Heaps, sequences and page descriptors (R281 to R284) -/

/-- d of a dimension code (Table ATN-2). -/
def dimOf (k : Nat) : Nat := 64 * 2 ^ k

/-- Head dimension and page size of a heap. -/
def Heap.d (h : Heap) : Nat := dimOf h.dim
def Heap.pageBytes (h : Heap) : Nat := 576 * h.d
/-- Address of a slot. -/
def Heap.slotAddr (h : Heap) (k : Nat) : Nat := h.base + k * h.pageBytes

/-- A heap; an open sequence. -/
def State.heap? (s : State) (n : Nat) : Option Heap := s.heaps.find? fun h => h.num == n
def State.seq? (s : State) (a : Nat) : Option Seq := s.seqs.find? fun q => q.addr == a

/-- The state with one sequence replaced. -/
def State.putSeq (s : State) (q : Seq) : State := { s with seqs := s.seqs.map fun x => if x.addr = q.addr then q else x }

/-- A page descriptor (Table ATN-4). -/
structure Desc where
  addr : Nat
  state : Nat
  pinned : Bool
  fill : Nat
  page : Nat
  layer : Nat
  head : Nat
  deriving DecidableEq, Repr

/-- Page states (Table ATN-10). -/
def pgNone : Nat := 0
def pgResident : Nat := 1
def pgPending : Nat := 2
def pgSpilling : Nat := 3
def pgSpilled : Nat := 4
def pgReturning : Nat := 5
def pgLost : Nat := 6

/-- The descriptor of 16 bytes, and back. -/
def descOf (b : List Byte) : Desc :=
  { addr := bfield b 0 40, state := bfield b 40 3, pinned := bfield b 43 1 == 1, fill := bfield b 44 9, page := bfield b 64 32
    layer := bfield b 96 16, head := bfield b 112 8 }
def Desc.bytes (x : Desc) : List Byte :=
  leBytes 16 (x.addr % 2 ^ 40 + x.state * 2 ^ 40 + (if x.pinned then 2 ^ 43 else 0) + x.fill * 2 ^ 44 + x.page * 2 ^ 64 + x.layer * 2 ^ 96 + x.head * 2 ^ 112)

/-- The reserved bits of a descriptor are zero (Table ATN-4). -/
def descPlain (b : List Byte) : Bool := bfield b 53 11 == 0 && bfield b 120 8 == 0

/-- A descriptor as it stands in memory, and one written. -/
def State.desc (s : State) (a : Nat) : Desc := descOf (s.bytes a 16)
def State.putDesc (s : State) (a : Nat) (x : Desc) : State := s.storeB a x.bytes

/-- Address of the descriptor of page (j, l, h) (R283). -/
def Seq.descAddr (q : Seq) (j l h : Nat) : Nat := q.table + 16 * (((j - q.firstPage) * q.layers + l) * q.kvHeads + h)

/-- A page's place: its sequence, logical page, layer and head. -/
structure PageAt where
  seq : Seq
  j : Nat
  l : Nat
  h : Nat

/-- Address of the descriptor of a place. -/
def PageAt.addr (x : PageAt) : Nat := x.seq.descAddr x.j x.l x.h

/-- A place's descriptor names that place (R285). -/
def State.placed (s : State) (x : PageAt) : Bool :=
  let d := s.desc x.addr
  d.page == x.j && d.layer == x.l && d.head == x.h

/-- The table of a sequence has a place for page j. -/
def Seq.hasPage (q : Seq) (j : Nat) : Bool := q.firstPage ≤ j && j < q.firstPage + q.maxPages

/-- Every place of a sequence's table, by rising page, layer and head. -/
def Seq.places (q : Seq) : List PageAt :=
  (List.range q.maxPages).flatMap fun j => (List.range q.layers).flatMap fun l => (List.range q.kvHeads).map fun h => ⟨q, q.firstPage + j, l, h⟩

/-- Every place of the open sequences of a heap. -/
def State.placesOf (s : State) (heap : Nat) : List PageAt := (s.seqs.filter fun q => q.heap == heap).flatMap Seq.places

/-- The place whose descriptor stands at an address. -/
def State.placeAt (s : State) (a : Nat) : Option PageAt :=
  s.seqs.findSome? fun q =>
    let n := q.maxPages * q.layers * q.kvHeads
    if q.table ≤ a && a < q.table + 16 * n && (a - q.table) % 16 == 0 then
      let i := (a - q.table) / 16
      some ⟨q, q.firstPage + i / (q.layers * q.kvHeads), i / q.kvHeads % q.layers, i % q.kvHeads⟩
    else none

/-- A page state in which the page holds its slot. -/
def holdsSlot (st : Nat) : Bool := st == pgResident || st == pgPending || st == pgSpilling || st == pgReturning

/-- Slots of a heap that hold a page or are kept for a return. -/
def State.heldSlots (s : State) (h : Heap) : List Nat :=
  ((s.placesOf h.num).filterMap fun x =>
    let d := s.desc x.addr
    if holdsSlot d.state then some ((d.addr - h.base) / h.pageBytes) else none) ++
  (s.spills.filterMap fun x => match x.retSlot, s.placeAt x.desc with
    | some k, some y => if y.seq.heap = h.num then some k else none
    | _, _ => none)

/-- The lowest free slot of a heap (R298). -/
def State.freeHeapSlot (s : State) (h : Heap) : Option Nat :=
  let held := s.heldSlots h
  (List.range (min h.nslots (held.length + 1))).find? fun k => !held.contains k

/-- Free slots of a heap. -/
def State.freeHeapSlots (s : State) (h : Heap) : Nat := h.nslots - ((s.heldSlots h).eraseDups.filter fun k => k < h.nslots).length

/-! ## References (R297) -/

/-- First and last page + 1 that an entry's step reads: all those with a position that one of its queries sees, within the part of nodes mode. -/
def pageSpan (b : List Byte) (nodes : Bool) (q : Seq) (e : AEntry) : Nat × Nat :=
  let lo := if aWindow b = 0 then 0 else e.pos0 + 1 - aWindow b
  let s := cdiv (e.pos0 + e.rows) 256
  let a := max q.firstPage (if nodes then aPageLo b else 0)
  let hi := if nodes && !(aPageLo b = 0 && aPageHi b = 0) then min s (aPageHi b) else s
  (max a (lo / 256), min hi (q.firstPage + q.maxPages))

/-- The places that an entry of a step names: those it reads or appends to; a step in combine mode names none. -/
def State.namedBy (s : State) (c : Cmd) (e : AEntry) : List PageAt :=
  let b := c.aBlk
  match (if c.kind == .attnFinish || c.kind == .attnNodes then s.seq? e.seq else none) with
  | some q =>
    let (x, y) := pageSpan b (c.kind == .attnNodes) q e
    let rd := (List.range (y - x)).map (x + ·)
    let ap := if e.append then (List.range (cdiv (e.pos0 + e.rows) 256 - e.pos0 / 256)).map (e.pos0 / 256 + ·) else []
    ((rd ++ ap.filter fun j => !rd.contains j && q.hasPage j).flatMap fun j =>
      (List.range (aNkv b)).filterMap fun i => if c.aLayer < q.layers && aKv0 b + i < q.kvHeads then some ⟨q, j, c.aLayer, aKv0 b + i⟩ else none)
  | none => []

/-- The places that a step names. -/
def State.namedPlaces (s : State) (c : Cmd) : List PageAt := c.aEntries.flatMap fun e => s.namedBy c e

/-- An admitted step that is not complete holds a reference on a page, by its descriptor's address. -/
def State.referenced (s : State) (a : Nat) : Bool := s.cmds.any fun c => c.life != .ended && (s.namedPlaces c).any fun x => x.addr == a

/-! ## Victims and allocation (R298, R299) -/

/-- Cistern spans in use: of spilled pages, and of pages in movement. -/
def State.usedSpans (s : State) : List (Nat × Nat) :=
  (s.seqs.flatMap fun q => match s.heap? q.heap with
    | some h => q.places.filterMap fun x =>
        let d := s.desc x.addr
        if d.state = pgSpilled then some (d.addr, h.pageBytes) else none
    | none => []) ++
  (s.spills.filterMap fun x => match s.placeAt x.desc with
    | some y => (s.heap? y.seq.heap).map fun h => (x.span, h.pageBytes)
    | none => none) ++
  (s.returns.filterMap fun x => match s.placeAt x.desc with
    | some y => (s.heap? y.seq.heap).map fun h => (x.span, h.pageBytes)
    | none => none)

/-- The lowest free span of a size in a region. -/
def spanIn (used : List (Nat × Nat)) (r : Region) (size : Nat) : Option Nat :=
  let starts := (r.loc :: (used.map fun u => u.1 + u.2).filter fun a => r.loc ≤ a)
  (starts.filter fun a => a + size ≤ r.loc + r.len && !used.any fun u => overlap u.1 u.2 a size).foldl
    (fun best a => match best with
      | some b => some (min a b)
      | none => some a) none

/-- A span for a page in the partition's class-1 regions, taken from the regions by rising id (R157, R298). A region must let the page be written to it and
read back (log entry 228). -/
def State.findSpan (s : State) (p : PartId) (size : Nat) : Option Nat :=
  let rs := s.regions.filter fun r => r.cls == 1 && r.part == some p && !r.draining && r.rd && r.wr
  let used := s.usedSpans
  (List.range 64).findSome? fun id => (rs.find? fun r => r.id == id).bind fun r => spanIn used r size

/-- One place comes before another in the order of victims: ascending page, record address, layer, head. -/
def PageAt.before (x y : PageAt) : Bool :=
  if x.j ≠ y.j then x.j < y.j else if x.seq.addr ≠ y.seq.addr then x.seq.addr < y.seq.addr
  else if x.l ≠ y.l then x.l < y.l else x.h < y.h

/-- The victim of an allocation in a heap: the first RESIDENT page that is not pinned, not the last page of a tail record and not among the
excluded ones; in RELAXED mode one without references. In STRICT mode the last page is that of the admitted appends, run or not (R298, R299). A page whose
descriptor does not name it is no victim (R285). -/
def State.chooseVictim (s : State) (heap : Nat) (relaxed : Bool) (excl : List Nat) : Option PageAt :=
  ((s.placesOf heap).filter fun x =>
    let d := s.desc x.addr
    d.state == pgResident && s.placed x && !d.pinned && !(x.seq.tail && x.j + 1 == (if relaxed then x.seq.endPage else x.seq.endAdm)) &&
      !excl.contains x.addr && !(relaxed && s.referenced x.addr)).foldl
    (fun best x => match best with
      | some b => if x.before b then some x else some b
      | none => some x) none

/-- A page's bytes written to its span of the cistern, and the page SPILLING (R297). -/
def State.beginSpill (s : State) (x : Spill) : State :=
  match s.placeAt x.desc with
  | some y =>
    match s.heap? y.seq.heap with
    | some h =>
      let d := s.desc x.desc
      let (bs, t) := s.load d.addr h.pageBytes
      (match t.reach x.span with
        | .cistern r => t.cisternStore r x.span bs
        | .main => t
        | .well _ _ => t
        | .pool _ _ => t
        | .window _ => t
        | .unmapped => t).putDesc x.desc { d with state := pgSpilling }
    | none => s
  | none => s

/-- Pages that wait to be spilled and have lost their last reference begin to spill (R297). -/
def State.attnSweep (s : State) : State :=
  s.spills.foldl (fun (t : State) x =>
    if (t.desc x.desc).state = pgPending && !t.referenced x.desc then t.beginSpill x else t) s

/-- A page chosen as victim for an allocation, or for the water marks: SPILL_PENDING, and SPILLING at once when it has no reference. -/
def State.takeVictim (s : State) (x : PageAt) (taker : Option Nat) (span : Nat) : State :=
  let d := s.desc x.addr
  match s.heap? x.seq.heap with
  | some h =>
    let sp : Spill := { desc := x.addr, slot := (d.addr - h.base) / h.pageBytes, span := span, taker := taker }
    let t := { s.putDesc x.addr { d with state := pgPending } with spills := s.spills ++ [sp] }
    if t.referenced x.addr then t else t.beginSpill sp
  | none => s

/-- Victims chosen for the water marks after an allocation (R298); `fuel` bounds their number. -/
def State.refill (s : State) (h : Heap) (relaxed : Bool) (excl : List Nat) : (fuel : Nat) → State
  | 0 => s
  | fuel + 1 =>
    let leaving := (s.spills.filter fun x => match s.placeAt x.desc with
      | some y => y.seq.heap == h.num
      | none => false).length
    if h.high ≤ s.freeHeapSlots h + leaving then s
    else match s.chooseVictim h.num relaxed excl, s.findSpan h.part h.pageBytes with
      | some v, some sp => (s.takeVictim v none sp).refill h relaxed excl fuel
      | _, _ => s

/-- The die whose ATN registers a partition's events use (R282). -/
def State.atnDie (s : State) (p : PartId) : Die := s.parts[p].die

/-- A search for a victim reads the descriptors of the heap's pages: one that does not name its place is flagged (R285). -/
def State.searched (s : State) (h : Heap) : State := s.flagIf ((s.placesOf h.num).any fun x => !s.placed x) (.atn (s.atnDie h.part)) 1

/-- The water marks after an allocation. -/
def State.water (s : State) (h : Heap) (relaxed : Bool) (excl : List Nat) : State :=
  if s.freeHeapSlots h < h.low then (s.searched h).refill h relaxed excl h.nslots else s

/-- What an allocation found. -/
inductive Alloc where
  | slot (k : Nat)
  | wait
  | failed
  deriving DecidableEq, Repr

/-- An allocation for a page of a heap: the lowest free slot, or a victim whose slot it will take (R298). -/
def State.allocate (s : State) (h : Heap) (taker : Nat) (relaxed : Bool) (excl : List Nat) : Alloc × State :=
  match s.freeHeapSlot h with
  | some k => (.slot k, s)
  | none => match s.chooseVictim h.num relaxed excl, s.findSpan h.part h.pageBytes with
    | some v, some sp => (.wait, (s.searched h).takeVictim v (some taker) sp)
    | _, _ => (.failed, s.searched h)

/-- An allocation for a page is already under way: a victim's slot will come to it. -/
def State.awaited (s : State) (a : Nat) : Bool := s.spills.any fun x => x.taker == some a

/-- The earliest deadline of the admitted steps that name a page (R300). -/
def State.pageDue (s : State) (a : Nat) : Option Nat :=
  (s.cmds.filter fun c => c.life != .ended && (s.namedPlaces c).any fun x => x.addr == a).foldl (fun d c => if dueBefore c.deadline d then c.deadline else d) none

/-- A slot given to the page whose allocation it was (R297): a new page becomes RESIDENT, a spilled one RETURNING, and one still SPILLING keeps
the slot for its return. -/
def State.giveSlot (s : State) (a k : Nat) : State :=
  match s.placeAt a with
  | some x =>
    match s.heap? x.seq.heap with
    | some h =>
      let d := s.desc a
      if d.state = pgNone then
        s.putDesc a { addr := h.slotAddr k, state := pgResident, pinned := d.pinned, fill := 0, page := x.j, layer := x.l, head := x.h }
      else if d.state = pgSpilled then
        { s.putDesc a { d with state := pgReturning, addr := h.slotAddr k } with
          returns := s.returns ++ [{ desc := a, span := d.addr, deadline := s.pageDue a, at_ := s.now }] }
      else if d.state = pgSpilling then
        { s with spills := s.spills.map fun y => if y.desc = a then { y with ret := true, retSlot := some k } else y }
      else s
    | none => s
  | none => s

/-- An allocation made for a place that needs one: a NONE page that is to be appended to, or a page that must return. Gives none when it failed;
else the state and how many allocations were made. -/
def State.needSlot (s : State) (x : PageAt) (relaxed : Bool) (excl : List Nat) : Option (State × Nat) :=
  let a := x.addr
  let d := s.desc a
  let going := s.awaited a || (s.spills.any fun y => y.desc == a && y.ret)
  if (d.state = pgNone || d.state = pgSpilled || d.state = pgSpilling) && !going then
    match s.heap? x.seq.heap with
    | some h =>
      match s.allocate h a relaxed excl with
      | (.slot k, t) => some (((t.giveSlot a k).water h relaxed excl), 1)
      | (.wait, t) =>
        let u := { t with spills := t.spills.map fun (y : Spill) => if y.desc = a then { y with ret := true } else y }
        some (u.water h relaxed excl, 1)
      | (.failed, _) => none
    | none => none
  else some (s, 0)

/-- The allocations of a list of places, all or none. -/
def State.needAll (s : State) (relaxed : Bool) (excl : List Nat) : List PageAt → Option (State × Nat)
  | [] => some (s, 0)
  | x :: xs => match s.needSlot x relaxed excl with
    | some (t, k) => (t.needAll relaxed excl xs).map fun y => (y.1, y.2 + k)
    | none => none

/-- The places of an entry that need an allocation: pages it appends to that are NONE (when `fresh`), and pages it names that have left. -/
def State.wants (s : State) (c : Cmd) (e : AEntry) (fresh : Bool) : List PageAt :=
  (s.namedBy c e).filter fun x =>
    let st := (s.desc x.addr).state
    let app := e.append && e.pos0 / 256 ≤ x.j && x.j ≤ (e.pos0 + e.rows - 1) / 256
    s.placed x && ((st == pgNone && app && fresh) || st == pgSpilled || st == pgSpilling)

/-- An entry whose allocation failed after its step's admission: the step's note of it, and its status where it has issued (Table ATN-8). -/
def Cmd.failEntry (c : Cmd) (i : Nat) : Cmd :=
  let k := 1 + c.aNseq + i
  { c with notes := if c.notes.getD k 1 = 0 then (c.notes.set (1 + i) 1).set k St.noResource.code else c.notes.set (1 + i) 1 }

/-- The allocation of a page failed: every entry of a STRICT step that names the page ends without it. -/
def State.allocFails (s : State) (a : Nat) : State :=
  let names := fun (c : Cmd) (e : AEntry) => (s.namedBy c e).any fun x => x.addr == a
  let hit := fun (c : Cmd) => (c.aEntries.zip (List.range c.aEntries.length)).filterMap fun x => if !c.relaxed && names c x.1 then some x.2 else none
  let t := { s with
    cmds := s.cmds.map fun (c : Cmd) => (hit c).foldl (fun (y : Cmd) i => y.failEntry i) c
    spills := s.spills.map fun (y : Spill) => if y.desc = a && y.retSlot.isNone then { y with ret := false } else y }
  (s.cmds.filter fun c => !(hit c).isEmpty && c.life != .waiting).foldl (fun (u : State) c => u.flag (.atn (u.atnDie c.part)) 3) t

/-- The allocation that had chosen a page chooses again (R297): it takes no page that the new step names, nor one named by a step that was admitted after
its own command, so that it waits for earlier commands only (R299). -/
def State.chooseAgain (s : State) (h : Heap) (taker : Nat) (excl : List Nat) : State :=
  match s.cmds.find? fun c => c.life != .ended && (s.namedPlaces c).any fun x => x.addr == taker with
  | some c =>
    let later := (s.cmds.filter fun x => c.adm < x.adm && x.life != .ended).flatMap fun x => (s.namedPlaces x).map PageAt.addr
    match s.allocate h taker c.relaxed (excl ++ later ++ [taker]) with
    | (.slot k, t) => t.giveSlot taker k
    | (.wait, t) => t
    | (.failed, t) => t.allocFails taker
  | none => s

/-- A page that was SPILL_PENDING and is named by a newly admitted step is RESIDENT again, and the allocation that chose it, or the water marks, choose
again (R297). -/
def State.rescue (s : State) (c : Cmd) (excl : List Nat) (a : Nat) : State :=
  match s.spills.find? fun x => x.desc == a, s.placeAt a with
  | some sp, some x =>
    if (s.desc a).state = pgPending then
      let back := { s.putDesc a { s.desc a with state := pgResident } with spills := s.spills.filter fun y => y.desc != a }
      match s.heap? x.seq.heap with
      | some h => match sp.taker with
        | none => back.refill h c.relaxed excl h.nslots
        | some t => back.chooseAgain h t excl
      | none => back
    else s
  | _, _ => s

/-- Where no other step that names a sequence is admitted, the admitted appends have all run or failed. -/
def State.syncSeq (s : State) (c : Cmd) (a : Nat) : State :=
  if s.cmds.any fun x => x.adm != c.adm && x.life != .ended && x.kind.isAttnStep && x.aEntries.any fun e => e.seq == a then s
  else match s.seq? a with
    | some q => s.putSeq { q with lenAdm := q.length, endAdm := q.endPage }
    | none => s

/-- The append of an entry that continues the admitted ones; none for another entry. -/
def State.nextAppend (s : State) (e : AEntry) : Option Seq :=
  (s.seq? e.seq).bind fun q => if e.append && q.tail && e.pos0 == q.lenAdm && q.hasPage ((e.pos0 + e.rows - 1) / 256) then some q else none

/-- The sequence of an admitted append: what it will come to. -/
def Seq.admitted (q : Seq) (e : AEntry) : Seq := { q with lenAdm := e.pos0 + e.rows, endAdm := max q.endAdm (cdiv (e.pos0 + e.rows) 256) }

/-- What the admission of an attention step does (R297, R299, R300): pages that were about to leave stay, returns start, and in STRICT mode every
allocation is made, entry by entry. The step is in the table already. -/
def State.attnAdmit (s : State) (c : Cmd) : State :=
  if c.kind == .attnFinish || c.kind == .attnNodes then
    let s0 := c.aEntries.foldl (fun (t : State) e => t.syncSeq c e.seq) s
    let excl := (s0.namedPlaces c).map PageAt.addr
    let s1 := excl.foldl (fun (t : State) a => t.rescue c excl a) s0
    let (s2, flags, k) := c.aEntries.foldl (fun (acc : State × List Nat × Nat) e =>
      let next := acc.1.nextAppend e
      match acc.1.needAll c.relaxed excl (acc.1.wants c e (!c.relaxed && next.isSome)) with
      | some (t, n) => (match next with
        | some q => t.putSeq (q.admitted e)
        | none => t, acc.2.1 ++ [0], acc.2.2 + n)
      | none => (acc.1, acc.2.1 ++ [if c.relaxed then 0 else 1], acc.2.2)) (s1, [], 0)
    let s3 := if c.relaxed then (List.range k).foldl (fun (t : State) _ => t.countNdc c.part) s2 else s2
    s3.putCmd { c with notes := [c.notes.getD 0 0] ++ flags, ndc := if c.relaxed then c.ndc + k else c.ndc }
  else s.putCmd { c with notes := [c.notes.getD 0 0] ++ List.replicate c.aNseq 0 }

/-! ## Pages on their way (R297, R155, R156) -/

/-- A page lost: counted and flagged. -/
def State.losePage (s : State) (a : Nat) : State :=
  match s.placeAt a with
  | some x =>
    let d := s.atnDie x.seq.part
    let t := s.putDesc a { s.desc a with state := pgLost }
    ({ t with cnts := { t.cnts with atnLost := vbump 8 t.cnts.atnLost d 1 } }).flag (.atn d) 4
  | none => s

/-- The slot of a page that has left goes to the allocation that chose it. -/
def State.passSlot (s : State) (x : Spill) : State :=
  match x.taker with
  | some t => s.giveSlot t x.slot
  | none => s

/-- SPILL_ACKNOWLEDGED (R297): the page is SPILLED, or RETURNING when its return was requested and has its slot; its slot goes to the allocation
that chose it. -/
def execSpillAcknowledged (a : Nat) (s : State) : Host.Outcome State Fault Refusal :=
  match s.spills.find? fun x => x.desc == a with
  | some x =>
    let d := s.desc a
    if d.state ≠ pgSpilling then done s s
    else
      let s1 := { s.putDesc a { d with state := pgSpilled, addr := x.span } with spills := s.spills.filter fun y => y.desc != a }
      let s2 := match s1.placeAt a with
        | some y => { s1 with cnts := { s1.cnts with atnSpills := vbump 16 s1.cnts.atnSpills (s1.atnDie y.seq.part) 1 } }
        | none => s1
      let s3 := s2.passSlot x
      done s (match x.retSlot with
        | some k => s3.giveSlot a k
        | none => s3)
  | none => done s s

/-- A queued cistern access of the same port has an earlier deadline than a return: it is sent first (R157, R300, log entry 220). -/
def State.returnWaits (s : State) (x : PageReturn) : Bool :=
  let p := s.spanPort x.span
  p.isSome &&
  ((s.returns.any fun y => dueBefore y.deadline x.deadline && s.spanPort y.span == p) ||
    s.ops.any fun o => s.opClear o && !s.opSilent o && dueBefore (s.opDue o) x.deadline && (s.opPorts o).any fun q => some q == p)

/-- A page that returns is read from its region: RESIDENT with the poison it left with, or LOST where the completion is poisoned or never comes (R155), or where
its region is gone. -/
def State.landPage (s : State) (x : PageReturn) (h : Heap) (poisoned : Bool) : State :=
  let d := s.desc x.desc
  match s.reach x.span with
  | .cistern r =>
    let (bs, t) := s.cisternLoad r x.span h.pageBytes poisoned
    if poisoned || s.cisternFails r x.span h.pageBytes then t.losePage x.desc
    else (t.store d.addr bs).putDesc x.desc { d with state := pgResident }
  | _ => s.losePage x.desc

/-- RETURN_LANDED (R297). -/
def execReturnLanded (a : Nat) (poisoned : Bool) (s : State) : Host.Outcome State Fault Refusal :=
  match s.returns.find? fun x => x.desc == a with
  | some x =>
    if s.returnWaits x then done s s
    else
      let s1 := { s with returns := s.returns.filter fun y => y.desc != a }
      match (s.placeAt a).bind fun y => s.heap? y.seq.heap with
      | some h => done s (s1.landPage x h poisoned)
      | none => done s s1
  | none => done s s

/-- The read of a page that returns reaches 10 ms (R155, R297): the page is LOST. -/
def State.pageTimeout (s : State) (a : Nat) : State :=
  match s.returns.find? fun x => x.desc == a with
  | some x =>
    match s.spanPort x.span with
    | some p =>
      if x.at_ + 6400000 ≤ s.now then
        ({ s with returns := s.returns.filter fun y => y.desc != a }.flag (.mem (dieOfPort p)) 7).losePage a
      else s
    | none => s
  | none => s

/-- CISTERN_TIMEOUT (R155): a cistern read reaches 10 ms, that of a pump operation by its number, or that of a page return by its descriptor. -/
def execCisternTimeout (read : CisternRead) (s : State) : Host.Outcome State Fault Refusal :=
  done s (match read with
    | .op id => s.opTimeout id
    | .page desc => s.pageTimeout desc)

/-- The loss of a cistern region (R156, R297): pages on their way to it or from it are LOST. -/
def State.attnRegionLost (s : State) (r : Region) : State :=
  let inside := fun (a : Nat) => r.loc ≤ a && a < r.loc + r.len
  let out := s.spills.filter fun x => inside x.span && (s.desc x.desc).state == pgSpilling
  let s1 := { s with spills := s.spills.filter fun x => !out.any fun y => y.desc == x.desc }
  let s2 := out.foldl (fun (t : State) x => (t.losePage x.desc).passSlot x) s1
  let back := s.returns.filter fun x => inside x.span
  let s3 := { s2 with returns := s2.returns.filter fun x => !inside x.span }
  back.foldl (fun (t : State) x => t.losePage x.desc) s3

/-! ## Admission (R282, R286 to R289) -/

/-- d of a command's tensors: that of the heap of the first entry whose sequence is open and the partition's; else the one that all heaps of the partition share; else
the spec gives none, and it is open (log entry 44). -/
def State.attnDim (s : State) (c : Cmd) (es : List AEntry) : Nat × Nat :=
  match (if c.kind == .attnCombine then none else es.findSome? fun e => (s.seq? e.seq).bind fun q => if q.part = c.part then s.heap? q.heap else none) with
  | some h => (h.d, h.fmt)
  | none =>
    match s.heaps.filter fun h => h.part == c.part with
    | h :: hs => if hs.all fun x => x.dim == h.dim && x.fmt == h.fmt then (h.d, h.fmt) else (dimOf (Config.openVal 296 [c.adm, 0] % 3), 3 + Config.openVal 296 [c.adm, 1] % 2)
    | [] => (dimOf (Config.openVal 296 [c.adm, 0] % 3), 3 + Config.openVal 296 [c.adm, 1] % 2)

/-- HEAP's block keeps the rules of Table ATN-2 (R282). -/
def State.heapOk (s : State) (b : List Byte) : Bool :=
  let n := fieldAt b 4 4
  let size := 576 * dimOf (fieldAt b 2 1)
  fieldAt b 0 1 ≤ 15 && (fieldAt b 1 1 == 3 || fieldAt b 1 1 == 4) && fieldAt b 2 1 ≤ 2 && fieldAt b 3 1 == 0 && n ≤ 16777215 &&
  fieldAt b 8 8 % 65536 == 0 && fieldAt b 8 8 < 2 ^ 40 && (n == 0 || s.inMain (fieldAt b 8 8) (n * size)) &&
  fieldAt b 16 4 ≤ n && fieldAt b 16 4 ≤ fieldAt b 20 4 && fieldAt b 20 4 ≤ n && fieldAt b 24 40 == 0

/-- Rows of the entries before each entry (R_e of R289), and of all. -/
def rowsBefore (es : List AEntry) (k : Nat) : Nat := (es.take k).foldl (fun a e => a + e.rows) 0

/-- Bytes of a node record. -/
def nodeBytes (d : Nat) : Nat := 16 + 4 * d

/-- The checks of an ATTN's operand area (R286 to R289). -/
def State.admitAttn (s : State) (c : Cmd) : Admit :=
  let ctl := c.aCtl
  let n := c.aNseq
  let (cb, badB) := s.copyAll c.part [(c.aBlock, 64, 64, 34)]
  let b := plain ((cb.getD 0 (0, [])).2)
  let (cl, badL) := if ctl = 0 then s.copyAll c.part [(c.aList, 16 * n, 16, 39)] else ([(0, [])], badIf (c.aList ≠ 0) 39)
  let lb := plain ((cl.getD 0 (0, [])).2)
  let es := (chunks 16 lb).map aentryOf
  let bad := badIf (c.que ≠ 0) 0 ++ badIf (ctl ≠ 0 && c.coreField ≠ 0x3F) 6 ++ badIf (c.f0a ≠ 0) 9 ++ badIf (c.f0b ≠ 0) 10 ++
    badIf (6 < ctl || c.aMode = 3 || (ctl ≠ 0 && c.aMode ≠ 0)) 32 ++ badIf (ofield c.desc 6 10 ≠ 0) 32 ++ badB ++ badL ++
    badIf (if ctl = 0 then n = 0 || 64 < n else n ≠ 0) 44 ++
    badIf (c.aReport ≠ 0 && (c.aReport % 8 ≠ 0 || !s.mayName c.part c.aReport (8 * n) true)) 46 ++ badIf (ofield c.desc 159 97 ≠ 0) 51
  let both := cb ++ cl
  let note := fun (xs : List (Nat × List PByte)) => [if (poisonNote xs).isEmpty then 0 else 1]
  if !bad.isEmpty then { bad := bad, copies := plainCopies both, notes := note both }
  else if ctl = 1 then { bad := badIf (!s.heapOk b) 34, copies := plainCopies both, notes := note both }
  else if ctl ≠ 0 then
    let ok := aSeqAddr b < 2 ^ 40 && fieldAt b 16 48 == 0 && (ctl ≠ 6 || aPosB b == 0)
    { bad := badIf (!ok) 34, copies := plainCopies both, notes := note both }
  else
    let fin := c.kind == .attnFinish
    let nodes := c.kind == .attnNodes
    let comb := c.kind == .attnCombine
    let anyApp := es.any fun e => e.append
    let hasK := !comb && (anyApp || fieldAt b 8 8 ≠ 0)
    let hasV := !comb && (anyApp || fieldAt b 16 8 ≠ 0)
    let hdrs := (if comb then [] else [(fieldAt b 0 8, 32, 32, 34)]) ++ (if hasK then [(fieldAt b 8 8, 32, 32, 34)] else []) ++
      (if hasV then [(fieldAt b 16 8, 32, 32, 34)] else []) ++ if nodes then [] else [(fieldAt b 24 8, 32, 32, 34)]
    let (ch, badH) := s.copyAll c.part hdrs
    let take := fun (used : Bool) (i : Nat) => if used then plain ((ch.getD i (0, [])).2) else []
    let qb := take (!comb) 0
    let kb := take hasK 1
    let vb := take hasV (if hasK then 2 else 1)
    let yb := take (!nodes) (hdrs.length - 1)
    let qh := hdrOf qb
    let kh := hdrOf kb
    let vh := hdrOf vb
    let yh := hdrOf yb
    let (d, fmt) := s.attnDim c es
    let total := rowsBefore es es.length
    let g := aGq b
    let nkv := aNkv b
    let rows := total * nkv * g
    let whole := fun (h : Hdr) => !h.compact && h.sidx == 0
    let heapsOk := comb || es.all fun e => match s.seq? e.seq with
      | some q => q.part != c.part || ((match s.heap? q.heap with
        | some h => h.d == d && (h.fmt == fmt || !anyApp)
        | none => true) && aKv0 b + nkv ≤ q.kvHeads)
      | none => true
    let maxRows := es.foldl (fun m e => max m (e.rows * g)) 0
    let blockOk := badH.isEmpty && hdrs.all (fun h => h.1 < 2 ^ 40) && heapsOk &&
      (comb || (hdrOk qb && (qh.fmt == 3 || qh.fmt == 4) && !qh.compact && qh.sidx == 0)) &&
      (!hasK || (hdrOk kb && kh.fmt == fmt && whole kh)) && (!hasV || (hdrOk vb && vh.fmt == fmt && whole vh)) &&
      (nodes || (hdrOk yb && (!yh.narrow || whole yh))) &&
      (!comb || fieldAt b 0 8 < 2 ^ 40) && (!nodes || fieldAt b 24 8 < 2 ^ 40) &&
      1 ≤ nkv && aKv0 b + nkv ≤ 64 && 1 ≤ g && g ≤ 16 && fieldAt b 44 4 % 64 == 0 && fieldAt b 48 4 % 64 == 0 &&
      2 ≤ fieldAt b 52 1 && fieldAt b 52 1 ≤ 8 && fieldAt b 53 3 == 0 && (nodes || (aPageLo b == 0 && aPageHi b == 0)) &&
      aStride b % 16 == 0 && (!fin || aStride b == 0) &&
      fieldAt b 52 1 * 576 * d + min 512 maxRows * (1320 + 4 * d) ≤ fieldAt b 48 4
    let listOk := es.all (fun e => 1 ≤ e.rows && e.rows ≤ 512 && e.pos0 + e.rows ≤ 4194304) && (es.filter fun e => 1 < e.rows).length ≤ 1 &&
      (chunks 16 lb).all fun x => bfield x 50 14 == 0 && bfield x 113 15 == 0
    let hcop := fun (used : Bool) (off : Nat) (x : List Byte) => [((if used then fieldAt b off 8 else 0), x)]
    let copies := plainCopies both ++ hcop (!comb) 0 qb ++ hcop hasK 8 kb ++ hcop hasV 16 vb ++ hcop (!nodes) 24 yb
    if !blockOk || !listOk then { bad := badIf (!blockOk) 34 ++ badIf (!listOk) 39, copies := copies, notes := note (both ++ ch) }
    else
      let ins := (if comb then [⟨fieldAt b 0 8, rows * aStride b, false⟩] else qh.reads rows d) ++
        (if hasK then kh.reads (total * nkv) d else []) ++ if hasV then vh.reads (total * nkv) d else []
      let outs := if nodes then [⟨fieldAt b 24 8, rows * aStride b, true⟩] else yh.outs rows d d
      let named := ((ins ++ outs).head?.bind fun r => wellCore r.lo).getD 0
      let work : Rng := ⟨wellAddr (if c.isPlace then named else Fin.ofNat 32 c.coreField) (fieldAt b 44 4), fieldAt b 48 4, true⟩
      let rep : List Rng := if c.aReport = 0 then [] else [⟨c.aReport, 8 * n, true⟩]
      let writes := outs ++ [work]
      { bad := c.wellFails ((ins ++ writes).map fun r => (r, 34)) ++ badIf (writesMeet (writes ++ rep) ins) 34
        ranges := ins ++ writes ++ rep, copies := copies, notes := note (both ++ ch) }

/-! ## Order (R287, R301) -/

/-- A command names a sequence. -/
def Cmd.namesSeq (c : Cmd) (a : Nat) : Bool :=
  if c.kind == .attnFinish || c.kind == .attnNodes then c.aEntries.any fun e => e.seq == a
  else c.kind.isAttnCtl && c.kind != .heap && aSeqAddr c.aBlk == a

/-- A control operation waits for every earlier command that names its sequence (R287). -/
def State.seqFree (s : State) (c : Cmd) : Bool :=
  !(c.kind.isAttnCtl && c.kind != .heap) || !s.cmds.any fun x => x.adm < c.adm && x.life != .ended && x.namesSeq (aSeqAddr c.aBlk)

/-- A step holds a prefill chunk. -/
def Cmd.holdsChunk (c : Cmd) : Bool := c.kind.isAttnStep && c.aEntries.any fun e => 1 < e.rows

/-- No other step of the partition that holds a chunk is issued and incomplete (R301). -/
def State.chunkFree (s : State) (c : Cmd) : Bool :=
  !c.holdsChunk || !s.cmds.any fun x => x.adm != c.adm && x.part == c.part && x.inFlight && x.holdsChunk

/-! ## Control operations (R282, R287) -/

/-- A control operation that ends in one run. -/
def State.attnCtl (s : State) (p : PartId) (q : QueId) (n : Nat) (k : CmdKind) (body : Cmd → State → State × List St) : State :=
  match s.findCmd p q n with
  | some c =>
    if c.kind == k && s.mayRun c then
      let (s1, c1) := s.startCmd c
      let (s2, conds) := body c1 s1
      s2.ranCmd { c1 with badField := if conds.contains .badCommand then 34 else c1.badField } conds
    else s
  | none => s

/-- HEAP's effect (R282). -/
def State.heapBody (c : Cmd) (s : State) : State × List St :=
  let b := c.aBlk
  let h : Heap := { num := fieldAt b 0 1, part := c.part, fmt := fieldAt b 1 1, dim := fieldAt b 2 1, nslots := fieldAt b 4 4, base := fieldAt b 8 8
                    low := fieldAt b 16 4, high := fieldAt b 20 4 }
  let holds := (s.placesOf h.num).any fun x => (s.desc x.addr).state != pgNone
  let rest := s.heaps.filter fun x => x.num != h.num
  let put := { s with heaps := if h.nslots = 0 then rest else rest.filter (fun x => x.num < h.num) ++ [h] ++ rest.filter fun x => h.num < x.num }
  match s.heap? h.num with
  | some o =>
    let conds : List St := (if o.part ≠ c.part then [.noResource] else []) ++
      if holds && (h.nslots = 0 || h.fmt ≠ o.fmt || h.dim ≠ o.dim) then [.badCommand] else []
    if conds.isEmpty then (put, []) else (s, conds)
  | none => (put, [])

/-- HEAP (R282). -/
def execHeap (p : PartId) (q : QueId) (n : Nat) (s : State) : Host.Outcome State Fault Refusal := done s (s.attnCtl p q n .heap State.heapBody)

/-- A sequence record in 64 bytes (Table ATN-3). -/
def seqOf (a : Nat) (p : PartId) (b : List Byte) : Seq :=
  { addr := a, part := p, table := fieldAt b 0 8, length := fieldAt b 8 4, firstPage := fieldAt b 12 2, maxPages := fieldAt b 14 2, endPage := fieldAt b 16 2
    layers := fieldAt b 18 2, kvHeads := fieldAt b 20 1, heap := fieldAt b 21 1, tail := fieldAt b 22 1 % 2 == 1, epoch := BitVec.ofNat 16 (fieldAt b 24 2)
    lenAdm := fieldAt b 8 4, endAdm := fieldAt b 16 2 }

/-- A record's own fields lie in their ranges, and its table in main memory (Table ATN-3). -/
def State.seqFieldsOk (s : State) (q : Seq) (b : List Byte) : Bool :=
  q.table % 16 == 0 && q.table < 2 ^ 40 && 1 ≤ q.maxPages && q.maxPages ≤ 16384 && 1 ≤ q.layers && 1 ≤ q.kvHeads && q.kvHeads ≤ 64 && q.heap ≤ 15 &&
  fieldAt b 22 1 ≤ 1 && fieldAt b 23 1 == 0 && q.epoch != 0 && fieldAt b 26 38 == 0 && q.length ≤ 4194304 &&
  q.firstPage ≤ q.endPage && q.endPage ≤ q.firstPage + q.maxPages && s.inMain q.table (16 * q.maxPages * q.layers * q.kvHeads)

/-- Every descriptor of a record is NONE or RESIDENT in a slot of its own, and full but in the last page (R284). -/
def State.descsOk (s : State) (q : Seq) (h : Heap) : Bool :=
  let ds := q.places.map fun x => (x, s.desc x.addr)
  let res := ds.filter fun x => x.2.state == pgResident
  let slots := res.map fun x => (x.2.addr - h.base) / h.pageBytes
  ds.all (fun x => (x.2.state == pgNone || x.2.state == pgResident) && descPlain (s.bytes x.1.addr 16)) &&
  res.all (fun x => h.base ≤ x.2.addr && (x.2.addr - h.base) % h.pageBytes == 0 && (x.2.addr - h.base) / h.pageBytes < h.nslots &&
    (x.2.fill == 256 || (x.1.j + 1 == q.endPage && x.2.fill ≤ 256))) &&
  slots.eraseDups.length == slots.length && !slots.any fun k => (s.heldSlots h).contains k

/-- SEQ_OPEN's effect (R284, R285, R287); a record that is open already fails (log entry 45). A descriptor that does not name its place fails it as skew, and
a poisoned one as poison (log entry 229). -/
def State.seqOpenBody (c : Cmd) (s : State) : State × List St :=
  let a := aSeqAddr c.aBlk
  if !s.inMain a 64 || (s.seq? a).isSome then (s, [.badCommand])
  else
    let (bs, s1) := s.load a 64
    let b := plain bs
    let q := seqOf a c.part b
    if anyPoison bs then (s1, [.poisoned])
    else match s.heap? q.heap with
    | some h =>
      if s.seqFieldsOk q b && h.part == c.part then
        let (tb, s2) := s1.load q.table (16 * q.maxPages * q.layers * q.kvHeads)
        let skew := q.places.any fun x => !s2.placed x
        let conds : List St := (if anyPoison tb then [.poisoned] else []) ++ (if skew then [.scaleSkew] else []) ++
          if s2.descsOk q h then [] else [.badCommand]
        if conds.isEmpty then ({ s2 with seqs := s2.seqs ++ [q] }, []) else (s2.flagIf skew (.atn (s2.atnDie c.part)) 1, conds)
      else (s1, [.badCommand])
    | none => (s1, [.badCommand])

/-- SEQ_OPEN (R287). -/
def execSeqOpen (p : PartId) (q : QueId) (n : Nat) (s : State) : Host.Outcome State Fault Refusal := done s (s.attnCtl p q n .seqOpen State.seqOpenBody)

/-- A page freed (R297): NONE, its slot passed on when it waited to be spilled. -/
def State.freePage (s : State) (x : PageAt) : State :=
  let a := x.addr
  let t := s.putDesc a { addr := 0, state := pgNone, pinned := false, fill := 0, page := x.j, layer := x.l, head := x.h }
  match s.spills.find? fun y => y.desc == a with
  | some sp => ({ t with spills := t.spills.filter fun y => y.desc != a }).passSlot sp
  | none => t

/-- A control operation that frees pages: it waits while one of them is SPILLING or RETURNING (R297), and comes again. A descriptor on its way that does not
name its place is reported as skew (R285, log entry 229). -/
def State.freeing (s : State) (p : PartId) (q : QueId) (n : Nat) (k : CmdKind) (pick : Cmd → Seq → List PageAt) (after : Seq → State → State) : State :=
  match s.findCmd p q n with
  | some c =>
    if c.kind == k && s.mayRun c then
      let (s1, c1) := s.startCmd c
      match s1.seq? (aSeqAddr c.aBlk) with
      | some x =>
        if x.part ≠ c.part then s1.ranCmd { c1 with badField := 34 } [.badCommand]
        else
          let at_ := pick c1 x
          let pages := at_.filter fun y => (s1.desc y.addr).state != pgNone
          if pages.any fun y => (s1.desc y.addr).state == pgSpilling || (s1.desc y.addr).state == pgReturning then s1
          else
            let skew := at_.any fun y => !s1.placed y
            ((after x (pages.foldl (fun (t : State) y => t.freePage y) s1)).flagIf skew (.atn (s1.atnDie c.part)) 1).ranCmd c1
              (if skew then [.scaleSkew] else [])
      | none => s1.ranCmd { c1 with badField := 34 } [.badCommand]
    else s
  | none => s

/-- SEQ_CLOSE (R287): every page is freed and the record is software's again. -/
def execSeqClose (p : PartId) (q : QueId) (n : Nat) (s : State) : Host.Outcome State Fault Refusal :=
  done s (s.freeing p q n .seqClose (fun _ x => x.places) fun x t => { t with seqs := t.seqs.filter fun y => y.addr != x.addr })

/-- TRIM (R287): pages wholly below pos_a are freed. -/
def execTrim (p : PartId) (q : QueId) (n : Nat) (s : State) : Host.Outcome State Fault Refusal :=
  done s (s.freeing p q n .trim (fun c x => x.places.filter fun y => 256 * (y.j + 1) ≤ aPosA c.aBlk) fun _ t => t)

/-- PIN and UNPIN (R287); a descriptor that does not name its place is left as it is and reported as skew (R285, log entry 229). -/
def State.pinBody (on : Bool) (c : Cmd) (s : State) : State × List St :=
  let b := c.aBlk
  match s.seq? (aSeqAddr b) with
  | some x =>
    if x.part ≠ c.part then (s, [.badCommand])
    else
      let hit := x.places.filter fun y => 256 * y.j < aPosB b && aPosA b < 256 * (y.j + 1) && aPosA b < aPosB b
      let skew := hit.any fun y => !s.placed y
      (((hit.filter s.placed).foldl (fun (t : State) y => t.putDesc y.addr { t.desc y.addr with pinned := on }) s).flagIf skew (.atn (s.atnDie c.part)) 1,
        if skew then [.scaleSkew] else [])
  | none => (s, [.badCommand])

/-- PIN. -/
def execPin (p : PartId) (q : QueId) (n : Nat) (s : State) : Host.Outcome State Fault Refusal := done s (s.attnCtl p q n .pin (State.pinBody true))

/-- UNPIN. -/
def execUnpin (p : PartId) (q : QueId) (n : Nat) (s : State) : Host.Outcome State Fault Refusal := done s (s.attnCtl p q n .unpin (State.pinBody false))

/-! ## Nodes and their combination (R290, R291, R295, R296) -/

/-- A node: m, l and o. -/
structure Node where
  m : W32
  l : W32
  o : List W32
  deriving DecidableEq, Repr

/-- combine of R291; none is empty. -/
def combine (x y : Option Node) : Option Node :=
  match x, y with
  | none, b => b
  | a, none => a
  | some p, some q =>
    let m := fmax p.m q.m
    let a := fexp (fsub p.m m)
    let b := fexp (fsub q.m m)
    some { m := m, l := ffma p.l a (fmul q.l b), o := (p.o.zip q.o).map fun (u, v) => ffma u a (fmul v b) }

/-- The tree of R83 over nodes. -/
def nodeTree (l : List (Option Node)) : Option Node := (treeFrom combine l.length l).headD none

/-- The E4M3 values of P from the exponentials of a page (R290). -/
def probs (e : List W32) : List Fp :=
  (chunks 32 e).flatMap fun v =>
    let p := planBlock 3 v 0 (fmtTop 3).2.2
    (codesOf 3 v p fun _ => none).map fun c => scaled p.code (narrowVal 3 c)

/-- The exact one. -/
def fpExactOne : Fp := .fin false 1 0

/-- A page as loaded: the K and V rows of its written positions. -/
structure PageVal where
  k : List (List Fp)
  v : List (List Fp)

/-- The node of a page for a query (R290): `first` is the page's first position, the query sees positions lo to pq. -/
def pageNode (d : Nat) (scale : W32) (qrow : List Fp) (pv : PageVal) (first lo pq : Nat) : Option Node :=
  let seen := fun t => lo ≤ first + t && first + t ≤ pq
  let idx := (List.range 256).filter fun t => seen t && t < pv.k.length
  match idx with
  | [] => none
  | t0 :: rest =>
    let sc := fun t => fmul (segmentSum (qrow.zip (pv.k.getD t []))) scale
    let m := rest.foldl (fun x t => fmax x (sc t)) (sc t0)
    let e := (List.range 256).map fun t => if idx.contains t then fexp (fsub (sc t) m) else 0
    let ps := probs e
    let l := segmentSum (ps.map fun x => (x, fpExactOne))
    let o := (List.range d).map fun c => segmentSum (ps.zip ((List.range 256).map fun t => (pv.v.getD t []).getD c (.fin false 0 0)))
    some { m := m, l := l, o := o }

/-- The root level of a tree over n pages. -/
def rootLevel (n : Nat) : Nat := ((List.range 24).find? fun l => n ≤ 2 ^ l).getD 24

/-- The canonical nodes that cover [x, b) of S pages: level and first page (R295); `fuel` bounds their number. -/
def canonical (sPages b : Nat) : (fuel : Nat) → Nat → List (Nat × Nat)
  | 0, _ => []
  | fuel + 1, x =>
    if b ≤ x then []
    else
      let ok := fun l => x % 2 ^ l == 0 && min (x + 2 ^ l) sPages ≤ b
      let l := ((List.range (rootLevel sPages + 1)).filter ok).foldl max 0
      (l, x) :: canonical sPages b fuel (min (x + 2 ^ l) sPages)

/-- A node record (Table ATN-9). -/
def nodeRecord (d : Nat) (nd : Option Node) (first level n : Nat) : List Byte :=
  match nd with
  | some x => f32Bytes x.m ++ f32Bytes x.l ++ leBytes 2 first ++ leBytes 1 level ++ [0] ++ leBytes 4 n ++ x.o.flatMap f32Bytes
  | none => repByte 8 0 ++ leBytes 2 first ++ leBytes 1 level ++ [1] ++ leBytes 4 n ++ repByte (4 * d) 0

/-- The finished output of a root (R291). -/
def finishRow (d : Nat) (root : Option Node) : List W32 :=
  match root with
  | some x => x.o.map fun o => fmul o (fdiv fpOne x.l)
  | none => List.replicate d 0

/-- The value of node i of level L of the tree over S pages, each supplied node taken in place of those it covers (R296). -/
def supplied (sPages : Nat) (given : List ((Nat × Nat) × Option Node)) : (level : Nat) → Nat → Option Node
  | 0, i => ((given.find? fun x => x.1 == (0, i)).map (·.2)).getD none
  | l + 1, i =>
    match given.find? fun x => x.1 == (l + 1, i * 2 ^ (l + 1)) with
    | some x => x.2
    | none =>
      let a := supplied sPages given l (2 * i)
      if (2 * i + 1) * 2 ^ l < sPages then combine a (supplied sPages given l (2 * i + 1)) else a

/-- What the node records of a row give. -/
inductive NodesRead where
  /-- The nodes, and whether one is marked poisoned. -/
  | nodes (l : List ((Nat × Nat) × Option Node)) (poison : Bool)
  /-- The records are out of step (R296). -/
  | skew
  /-- The row's area ends before its nodes do (Table ATN-8). -/
  | short

/-- The node records of row n read from its area (R296). -/
def readNodes (bs : List Byte) (d sPages n : Nat) : (fuel : Nat) → Nat → Nat → NodesRead
  | 0, _, x => if x = sPages then .nodes [] false else .skew
  | fuel + 1, off, x =>
    if x = sPages then .nodes [] false
    else if bs.length < off + nodeBytes d then .short
    else
      let r := bytesAt bs off (nodeBytes d)
      let l := fieldAt r 10 1
      let fl := fieldAt r 11 1
      if fieldAt r 8 2 ≠ x || rootLevel sPages < l || x % 2 ^ l ≠ 0 || fieldAt r 12 4 ≠ n then .skew
      else
        let nd : Option Node := if fl % 2 = 1 then none else some { m := f32At r 0, l := f32At r 4, o := f32List r 16 d }
        match readNodes bs d sPages n fuel (off + nodeBytes d) (min (x + 2 ^ l) sPages) with
        | .nodes ys p => .nodes (((l, x), nd) :: ys) ((fl / 2 % 2 == 1) || p)
        | .skew => .skew
        | .short => .short

/-! ## The outcome of an entry (Table ATN-8) -/

/-- The nodes that a row of an entry in nodes mode writes (R295), the entry's own append made. -/
def entryNodes (b : List Byte) (q : Seq) (e : AEntry) : List (Nat × Nat) :=
  let s := cdiv (e.pos0 + e.rows) 256
  let a := max (aPageLo b) q.firstPage
  let held := max q.endPage (if e.append then s else 0)
  let y := min (if aPageLo b = 0 && aPageHi b = 0 then held else min (aPageHi b) held) s
  canonical s y (y - a + 1) a

/-- The rows of Table ATN-8 that are decided before the step runs: the status of entry i, ST_OK when none applies. -/
def State.entryCheck (s : State) (c : Cmd) (i : Nat) : St :=
  let es := c.aEntries
  let e := es.getD i ⟨0, 0, 0, 0, false⟩
  let b := c.aBlk
  if c.kind == .attnCombine then (if aStride b < nodeBytes (s.attnDim c es).1 then .badCommand else .ok)
  else match s.seq? e.seq with
    | none => .badCommand
    | some q =>
      let d := (s.attnDim c es).1
      let ep := if e.epoch ≠ 0 then e.epoch else c.epoch.toNat
      let otherDim := match s.heap? q.heap with
        | some h => h.d != d
        | none => true
      if q.part ≠ c.part || (es.take i).any (fun x => x.seq == e.seq) || q.layers ≤ c.aLayer || q.kvHeads < aKv0 b + aNkv b || otherDim then .badCommand
      else if ep ≠ 0 && ep ≠ q.epoch.toNat then .staleEpoch
      else if (e.append && (!q.tail || e.pos0 ≠ q.length)) || (c.kind == .attnFinish && q.firstPage ≠ 0) ||
          (c.kind == .attnNodes && aStride b < (entryNodes b q e).length * nodeBytes d) then .badCommand
      else if !e.append && q.length < e.pos0 + e.rows then .notReady
      else if c.aFails.getD i 0 = 1 || (e.append && !q.hasPage ((e.pos0 + e.rows - 1) / 256)) then .noResource
      else .ok

/-- What the check of an entry flags and counts. -/
def State.entryFlags (s : State) (p : PartId) (st : St) : State :=
  let d := s.atnDie p
  if st == .badCommand then s.flag (.atn d) 0
  else if st == .staleEpoch then
    let x := s.parts[p]
    (s.setPart p { x with staleCmds := BitVec.ofNat 16 (satAdd 16 x.staleCmds.toNat 1) }).flag (.atn d) 6
  else if st == .noResource then s.flag (.atn d) 3
  else s

/-- Every entry of a step checked as it issues. -/
def State.checkEntries (s : State) (c : Cmd) : State × Cmd :=
  let sts := (List.range c.aEntries.length).map fun i => s.entryCheck c i
  (sts.foldl (fun (t : State) st => t.entryFlags c.part st) s, c.withACodes (sts.map St.code))

/-- The status of an entry's code. -/
def aStatus (k : Nat) : St := if k = 0x71 then .noResource else stOfCode k

/-- The statuses of a step's entries once it retires. -/
def Cmd.entryStatuses (c : Cmd) (late : Bool) : List St := c.aCodes.map fun k => if aStatus k == .ok && late then .late else aStatus k

/-- The entry reports of a step that completes (R288); the length of an entry that has no open sequence is open (log entry 46). -/
def State.attnReports (s : State) (c : Cmd) (late : Bool) : State :=
  if c.aReport = 0 || c.aCodes.isEmpty then s
  else
    let bs := (c.aEntries.zip (c.entryStatuses late)).flatMap fun (e, st) =>
      let len := match (if c.kind == .attnCombine then none else s.seq? e.seq) with
        | some q => q.length
        | none => Config.openVal 288 [c.adm, e.seq] % 2 ^ 32
      leBytes 2 st.code ++ leBytes 4 len ++ repByte 2 0
    s.strStore (c.at_ c.aReport) (clean bs)

/-! ## The step (R289 to R296) -/

/-- Header i of an attention step as it uses it: 0 Q, 1 K_new, 2 V_new, 3 Y. -/
def Cmd.aHdr (c : Cmd) (i : Nat) : Hdr := (hdrOf (c.copied (2 + i))).onCore c.at_

/-- Rows first to first + n - 1 of a tensor of `total` rows of d columns, its block 0 in frame 0. -/
def State.readRows (s : State) (h : Hdr) (first n d total : Nat) : Operand × State := s.readTbf h (first * (d / 32)) n d 0 (total * (d / 32))

/-- The write ranges of output row n: Y's row, or its node area. -/
def Cmd.aRowOut (c : Cmd) (d n : Nat) : List Rng :=
  if c.kind == .attnNodes then [⟨c.at_ (fieldAt c.aBlk 24 8) + n * aStride c.aBlk, aStride c.aBlk, true⟩]
  else ((featOutput (c.aHdr 3) d n (List.replicate d 0)).1).map fun o => ⟨o.1, o.2.length, true⟩

/-- The rows of entry k: its queries by heads and query heads (R289), each with query index i and head offset. -/
def entryRows (b : List Byte) (es : List AEntry) (k : Nat) : List (Nat × Nat × Nat) :=
  let e := es.getD k ⟨0, 0, 0, 0, false⟩
  let r := rowsBefore es k
  (List.range (aNkv b)).flatMap fun h => (List.range e.rows).flatMap fun i => (List.range (aGq b)).map fun g =>
    (((r + i) * aNkv b + h) * aGq b + g, i, h)

/-- New keys or values of an entry appended to their pages, restamped (R281, R290); `off` is 0 for K and 256 for V in units of d. -/
def State.appendRows (s : State) (c : Cmd) (q : Seq) (k : Nat) (d hdr dataOff scaleOff : Nat) : State :=
  let b := c.aBlk
  let es := c.aEntries
  let e := es.getD k ⟨0, 0, 0, 0, false⟩
  let h := c.aHdr hdr
  let nb := d / 32
  let r := rowsBefore es k
  (List.range e.rows).foldl (fun (t : State) i => (List.range (aNkv b)).foldl (fun (u : State) hh =>
    let pos := e.pos0 + i
    let row := (r + i) * aNkv b + hh
    let ds := u.desc (q.descAddr (pos / 256) c.aLayer (aKv0 b + hh))
    let t0 := pos % 256
    let (bad, u0) := u.readRows h row 1 d (rowsBefore es es.length * aNkv b)
    let (codes, u1) := u0.load (h.data + row * d) d
    let (sc, u2) := u1.load (h.scale + 4 * row * nb) (4 * nb)
    let tint := !bad.fails.isEmpty
    let entries := (List.range nb).flatMap fun j =>
      let raw := (sc.drop (4 * j)).take 4
      (leBytes 4 (restamp (leNat (plain raw)) (t0 * nb + j))).map fun y => (y, tint || anyPoison raw)
    (u2.store (ds.addr + dataOff + t0 * d) (codes.map fun y => (y.1, y.2 || tint))).store (ds.addr + scaleOff + 4 * t0 * nb) entries) t) s

/-- An entry's append (R290): keys and values, and then fill, length and end_page. -/
def State.appendEntry (s : State) (c : Cmd) (q : Seq) (k d : Nat) : State :=
  let b := c.aBlk
  let e := c.aEntries.getD k ⟨0, 0, 0, 0, false⟩
  let last := e.pos0 + e.rows
  let s1 := (s.appendRows c q k d 1 0 (512 * d)).appendRows c q k d 2 (256 * d) (544 * d)
  let pages := (List.range (cdiv last 256 - e.pos0 / 256)).map (e.pos0 / 256 + ·)
  let s2 := pages.foldl (fun (t : State) j => (List.range (aNkv b)).foldl (fun (u : State) hh =>
    let a := q.descAddr j c.aLayer (aKv0 b + hh)
    let ds := u.desc a
    u.putDesc a { ds with fill := max ds.fill (min 256 (last - 256 * j)) }) t) s1
  let q1 := { q with
    length := max q.length last, endPage := max q.endPage (cdiv last 256), lenAdm := max q.lenAdm last, endAdm := max q.endAdm (cdiv last 256) }
  ((s2.putSeq q1).storeB (q.addr + 8) (leBytes 4 q1.length)).storeB (q.addr + 16) (leBytes 2 q1.endPage)

/-- What reading an entry's inputs met. -/
structure Met where
  skew : Bool := false
  poison : Bool := false
  nodeSkew : Bool := false
  fails : List (List St) := []
  deriving DecidableEq, Repr

/-- The page of a place loaded (R285): its descriptor and its written blocks checked; none for a NONE page. -/
def State.loadPage (s : State) (x : PageAt) (h : Heap) (m : Met) : Option PageVal × Met × State :=
  let ds := s.desc x.addr
  if !s.placed x then (none, { m with skew := true }, s)
  else if ds.state = pgNone then (none, m, s)
  else if ds.state = pgLost then (none, { m with poison := true }, s)
  else
    let (k, s1) := s.readTbf ⟨ds.addr, ds.addr + 512 * h.d, 0, 0, h.fmt, false⟩ 0 ds.fill h.d 0 (8 * h.d)
    let (v, s2) := s1.readTbf ⟨ds.addr + 256 * h.d, ds.addr + 544 * h.d, 0, 0, h.fmt, false⟩ 0 ds.fill h.d 0 (8 * h.d)
    (some ⟨k.rows, v.rows⟩,
      { m with skew := m.skew || !k.fails.isEmpty || !v.fails.isEmpty, poison := m.poison || k.poisoned || v.poisoned, fails := m.fails ++ k.fails ++ v.fails }, s2)

/-- The pages of an entry for each head, by head offset and page. -/
def State.loadPages (s : State) (c : Cmd) (q : Seq) (h : Heap) (e : AEntry) (m : Met) : List ((Nat × Nat) × PageVal) × Met × State :=
  let b := c.aBlk
  let (x, y) := pageSpan b (c.kind == .attnNodes) q e
  ((List.range (aNkv b)).flatMap fun hh => (List.range (y - x)).map fun k => (hh, x + k)).foldl
    (fun (acc : List ((Nat × Nat) × PageVal) × Met × State) z =>
      let (pv, m1, t) := acc.2.2.loadPage ⟨q, z.2, c.aLayer, aKv0 b + z.1⟩ h acc.2.1
      (match pv with
        | some p => acc.1 ++ [(z, p)]
        | none => acc.1, m1, t)) ([], m, s)

/-- The page nodes of a query row of an entry, by page 0 to S - 1 (R290). -/
def rowNodes (b : List Byte) (d : Nat) (e : AEntry) (pages : List ((Nat × Nat) × PageVal)) (qrow : List Fp) (i hh : Nat) : List (Option Node) :=
  let pq := e.pos0 + i
  let lo := if aWindow b = 0 then 0 else pq + 1 - aWindow b
  (List.range (cdiv (e.pos0 + e.rows) 256)).map fun j =>
    match pages.find? fun x => x.1 == (hh, j) with
    | some x => pageNode d (aScale b) qrow x.2 (256 * j) lo pq
    | none => none

/-- Output row n written: y by R212, with what its conversion sets (R291). -/
def State.putY (s : State) (c : Cmd) (d n : Nat) (root : Option Node) : State :=
  let y := finishRow d root
  let (outs, eng) := featOutput (c.aHdr 3) d n y
  let s1 := outs.foldl (fun (t : State) w => t.storeB w.1 w.2) s
  let s2 := eng.foldl (fun (t : State) k => t.flag (.eng c.clus) k) s1
  s2.flagIf (y.any fun v => !fFinite v) (.atn (s.atnDie c.part)) 5

/-- The node records of output row n written (R295). -/
def State.putNodes (s : State) (c : Cmd) (d n : Nat) (q : Seq) (e : AEntry) (nodes : List (Option Node)) : State :=
  let b := c.aBlk
  let sp := cdiv (e.pos0 + e.rows) 256
  let recs := (entryNodes b q e).map fun (l, x) => nodeRecord d (nodeTree ((nodes.drop x).take (min (x + 2 ^ l) sp - x))) x l n
  s.storeB (c.at_ (fieldAt b 24 8) + n * aStride b) recs.flatten

/-- The rows of an entry poisoned (Table ATN-8); node records of nodes mode are marked. -/
def State.poisonEntry (s : State) (c : Cmd) (d k : Nat) : State :=
  let b := c.aBlk
  let e := c.aEntries.getD k ⟨0, 0, 0, 0, false⟩
  (entryRows b c.aEntries k).foldl (fun (t : State) r =>
    let t1 := match (if c.kind == .attnNodes then t.seq? e.seq else none) with
      | some q => ((List.range (entryNodes b q e).length).zip (entryNodes b q e)).foldl (fun (u : State) (x : Nat × Nat × Nat) =>
          u.storeB (c.at_ (fieldAt b 24 8) + r.1 * aStride b + x.1 * nodeBytes d + 8)
            (leBytes 2 x.2.2 ++ leBytes 1 x.2.1 ++ [2] ++ leBytes 4 r.1)) t
      | none => t
    t1.poisonWrites (c.aRowOut d r.1)) s

/-- The new keys (1) or values (2) of an entry, read from the step's operand; an entry without an append has none. -/
def State.newRows (s : State) (c : Cmd) (e : AEntry) (hdr r d : Nat) : Operand × State :=
  if e.append then s.readRows (c.aHdr hdr) (r * aNkv c.aBlk) (e.rows * aNkv c.aBlk) d (rowsBefore c.aEntries c.aEntries.length * aNkv c.aBlk)
  else ({}, s)

/-- The pages that an entry appends to. -/
def Cmd.tailPages (c : Cmd) (e : AEntry) (q : Seq) : List PageAt :=
  if e.append then (List.range (cdiv (e.pos0 + e.rows) 256 - e.pos0 / 256)).flatMap fun j => (List.range (aNkv c.aBlk)).map fun hh =>
    ⟨q, e.pos0 / 256 + j, c.aLayer, aKv0 c.aBlk + hh⟩
  else []

/-- An append writes into a LOST page. -/
def State.tailLost (s : State) (c : Cmd) (e : AEntry) (q : Seq) : Bool := (c.tailPages e q).any fun x => (s.desc x.addr).state == pgLost

/-- A descriptor of a page that an append writes into does not name its place (R285). -/
def State.tailSkew (s : State) (c : Cmd) (e : AEntry) (q : Seq) : Bool := (c.tailPages e q).any fun x => !s.placed x

/-- The entry's append made, where it has one, every page of it is placed and none is LOST. -/
def State.appended (s : State) (c : Cmd) (e : AEntry) (q : Seq) (k d : Nat) : State :=
  if e.append && !s.tailLost c e q && !s.tailSkew c e q then s.appendEntry c q k d else s

/-- What follows from an entry's pages and what reading its inputs met (R290, R291, R295): the status code; `base` is its first query row. -/
def State.attend (s : State) (c : Cmd) (k d base : Nat) (q : Seq) (e : AEntry) (qo : Operand) (pages : List ((Nat × Nat) × PageVal)) (m : Met) : State × Nat :=
  if m.skew then ((s.flag (.atn (s.atnDie c.part)) 1).poisonEntry c d k, St.scaleSkew.code)
  else if m.poison then (s.poisonEntry c d k, St.poisoned.code)
  else
    ((entryRows c.aBlk c.aEntries k).foldl (fun (t : State) x =>
      let nodes := rowNodes c.aBlk d e pages (qo.rows.getD (x.1 - base) []) x.2.1 x.2.2
      if c.kind == .attnNodes then t.putNodes c d x.1 q e nodes else t.putY c d x.1 (nodeTree nodes)) s, 0)

/-- The work an entry makes of its engines: `np` pages of heads of a heap, `rr` query rows of each head. -/
def State.attnBusy (s : State) (c : Cmd) (d : Nat) (h : Heap) (np rr : Nat) : State :=
  (s.mxBusy c.coreId (np * (cdiv rr 32 * 4 * cdiv d 128 * 16 * phi2 (c.aHdr 0).fmt h.fmt + cdiv rr 32 * cdiv d 64 * 2 * 16 * phi2 3 h.fmt))).vxBusy
    c.coreId (np * rr * (32 + 2 * cdiv d 64))

/-- One entry of a step in finish or nodes mode (R290, R291, R295): its status code. -/
def State.runEntry (s : State) (c : Cmd) (k d : Nat) : State × Nat :=
  let b := c.aBlk
  let es := c.aEntries
  let e := es.getD k ⟨0, 0, 0, 0, false⟩
  match s.seq? e.seq with
  | none => (s, St.badCommand.code)
  | some q0 =>
    match s.heap? q0.heap with
    | none => (s, St.badCommand.code)
    | some h =>
      let r := rowsBefore es k
      let (kn, s1) := s.newRows c e 1 r d
      let (vn, s2) := s1.newRows c e 2 r d
      let lostTail := s2.tailLost c e q0
      let skewTail := s2.tailSkew c e q0
      let s3 := s2.appended c e q0 k d
      let q := (s3.seq? e.seq).getD q0
      let base := r * aNkv b * aGq b
      let (qo, s4) := s3.readRows (c.aHdr 0) base (e.rows * aNkv b * aGq b) d (rowsBefore es es.length * aNkv b * aGq b)
      let m0 : Met := { skew := skewTail || !qo.fails.isEmpty || !kn.fails.isEmpty || !vn.fails.isEmpty, poison := qo.poisoned || kn.poisoned || vn.poisoned || lostTail
                        fails := qo.fails ++ kn.fails ++ vn.fails }
      let (pages, m, s5) := s4.loadPages c q h e m0
      let (s6, _) := s5.meetFails c.clus m.fails
      (s6.attnBusy c d h pages.length (e.rows * aGq b)).attend c k d base q e qo pages m

/-- One entry of a step in combine mode (R296). -/
def State.combineEntry (s : State) (c : Cmd) (k d : Nat) : State × Nat :=
  let b := c.aBlk
  let e := c.aEntries.getD k ⟨0, 0, 0, 0, false⟩
  let sp := cdiv (e.pos0 + e.rows) 256
  let rows := entryRows b c.aEntries k
  let (ins, s1) := rows.foldl (fun (acc : List (Nat × List PByte) × State) x =>
    let (bs, t) := acc.2.load (c.at_ (fieldAt b 0 8) + x.1 * aStride b) (aStride b)
    (acc.1 ++ [(x.1, bs)], t)) ([], s)
  let read := ins.map fun x => (x.1, readNodes (plain x.2) d sp x.1 (sp + 1) 0 0)
  let short := read.any fun x => match x.2 with
    | .short => true
    | _ => false
  let skew := read.any fun x => match x.2 with
    | .skew => true
    | _ => false
  let poison := ins.any (fun x => anyPoison x.2) || read.any fun x => match x.2 with
    | .nodes _ p => p
    | _ => false
  let s2 := s1.vxBusy c.coreId (rows.length * (32 + 2 * cdiv d 64))
  if short then (s2.flag (.atn (s.atnDie c.part)) 0, St.badCommand.code)
  else if skew then ((s2.flag (.atn (s.atnDie c.part)) 2).poisonEntry c d k, St.scaleSkew.code)
  else if poison then (s2.poisonEntry c d k, St.poisoned.code)
  else
    (read.foldl (fun (t : State) x => match x.2 with
      | .nodes ys _ => t.putY c d x.1 (supplied sp ys (rootLevel sp) 0)
      | _ => t) s2, 0)

/-- Pages that a step needs and that are not in their slots yet. -/
def State.outstanding (s : State) (c : Cmd) : List PageAt :=
  (c.aEntries.zip c.aCodes).flatMap fun (e, k) =>
    if k ≠ 0 then [] else
    (s.namedBy c e).filter fun x =>
      let st := (s.desc x.addr).state
      s.placed x && (st == pgSpilled || st == pgSpilling || st == pgReturning ||
        (st == pgNone && e.append && e.pos0 / 256 ≤ x.j && x.j ≤ (e.pos0 + e.rows - 1) / 256))

/-- Allocations that a step still lacks when it runs: all of a RELAXED one's appends, and those of sequences that were opened after its admission. -/
def State.lateAllocs (s : State) (c : Cmd) : State × Cmd :=
  if c.kind == .attnCombine then (s, c)
  else
    let excl := (s.namedPlaces c).map PageAt.addr
    let (t, codes, n) := (c.aEntries.zip c.aCodes).foldl (fun (acc : State × List Nat × Nat) x =>
      if x.2 ≠ 0 then (acc.1, acc.2.1 ++ [x.2], acc.2.2)
      else match acc.1.needAll c.relaxed excl (acc.1.wants c x.1 true) with
        | some (u, k) => (u, acc.2.1 ++ [0], acc.2.2 + k)
        | none => (acc.1.flag (.atn (s.atnDie c.part)) 3, acc.2.1 ++ [St.noResource.code], acc.2.2)) (s, [], 0)
    let u := if c.relaxed then (List.range n).foldl (fun (v : State) _ => v.countNdc c.part) t else t
    (u, { (c.withACodes codes) with ndc := if c.relaxed then c.ndc + n else c.ndc })

/-- The page loads that wait for a return, each counted once in its step, and in full (R300, Table ATN-12). -/
def State.countWaits (s : State) (c : Cmd) (xs : List PageAt) : State :=
  let new := ((xs.filter fun x => (s.desc x.addr).state != pgNone).map PageAt.addr).filter fun a => !c.aWaited.contains a
  { s with cnts := { s.cnts with atnWaits := vmod s.cnts.atnWaits (s.atnDie c.part) fun k => k + new.length } }.putCmd
    { c with notes := c.notes ++ new }

/-- The row of an attention step: it waits while pages it needs are on their way and comes again; then its entries are handled in turn. -/
def State.attnStep (s : State) (p : PartId) (q : QueId) (n : Nat) (k : CmdKind) (flt : UnitFault) : State :=
  match s.findCmd p q n with
  | some c =>
    if c.kind == k && s.mayRun c then
      let (s1, c1) := s.startCmd c
      let closed := c1.writes.filter fun r => !s1.mayWrite true c1.adm r.lo r.len
      if !closed.isEmpty then (closed.foldl (fun (t : State) r => t.flagClosed r.lo r.len) s1).ranCmd c1 [.windowClosed]
      else if flt != .none then
        let t := (s1.flag (.eng c1.clus) (unitFaultBit flt)).poisonWrites c1.ranges
        (if flt == .microcode then { t with scHalt := t.scHalt.set c1.coreId true } else t).ranCmd c1 [.internal]
      else
        let (s2, c2) := s1.lateAllocs c1
        let out := s2.outstanding c2
        if !out.isEmpty then s2.countWaits c2 out
        else
          let d := (s2.attnDim c2 c2.aEntries).1
          let (s3, codes) := ((List.range c2.aEntries.length).zip c2.aCodes).foldl (fun (acc : State × List Nat) x =>
            if x.2 ≠ 0 then (acc.1, acc.2 ++ [x.2])
            else
              let (t, r) := if k == .attnCombine then acc.1.combineEntry c2 x.1 d else acc.1.runEntry c2 x.1 d
              (t, acc.2 ++ [r])) (s2, [])
          let c3 := c2.withACodes codes
          let s4 := if c3.conds.any (·.taints) then s3.poisonWrites c3.ranges else s3
          s4.putCmd { c3 with life := .ran }
    else s
  | none => s

/-- ATTN_STEP_FINISH (R290, R291). -/
def execAttnStepFinish (p : PartId) (q : QueId) (n : Nat) (flt : UnitFault) (s : State) : Host.Outcome State Fault Refusal :=
  done s (s.attnStep p q n .attnFinish flt)

/-- ATTN_STEP_NODES (R295). -/
def execAttnStepNodes (p : PartId) (q : QueId) (n : Nat) (flt : UnitFault) (s : State) : Host.Outcome State Fault Refusal :=
  done s (s.attnStep p q n .attnNodes flt)

/-- ATTN_STEP_COMBINE (R296). -/
def execAttnStepCombine (p : PartId) (q : QueId) (n : Nat) (flt : UnitFault) (s : State) : Host.Outcome State Fault Refusal :=
  done s (s.attnStep p q n .attnCombine flt)

/-! ## Ends and registers (R302) -/

/-- The heaps and sequences of a partition that closes, with their pages in movement. -/
def State.attnClose (s : State) (p : PartId) : State :=
  let mine := fun (a : Nat) => match s.placeAt a with
    | some x => x.seq.part == p
    | none => false
  { s with
    heaps := s.heaps.filter fun h => h.part != p
    seqs := s.seqs.filter fun q => q.part != p
    spills := s.spills.filter fun x => !mine x.desc
    returns := s.returns.filter fun x => !mine x.desc }

/-- A device reset deletes every heap and sequence. -/
def State.attnReset (s : State) : State := { s with heaps := [], seqs := [], spills := [], returns := [] }

/-- Pages of a heap that are SPILLING or SPILLED (ATN_HEAP word 3). -/
def State.spilledOf (s : State) (h : Heap) : Nat :=
  ((s.placesOf h.num).filter fun x => (s.desc x.addr).state == pgSpilling || (s.desc x.addr).state == pgSpilled).length

end Sys2Proof.Machine
end

