-- ==== Sys2Proof/Machine/Conv.lean ====
section
/-! DEFINITION. Convolution, pooling and image operators (chapter CNV): the geometry block, CONV, POOL, CROP, S2D and D2S on either unit, and the FRC
codec. -/
namespace Sys2Proof.Machine

/-! ## The geometry block (R219 to R221) -/

/-- Fields of a geometry block (Table CNV-1). -/
def gmCin (b : List Byte) : Nat := fieldAt b 0 2
def gmH (b : List Byte) : Nat := fieldAt b 2 2
def gmW (b : List Byte) : Nat := fieldAt b 4 2
def gmRow0 (b : List Byte) : Nat := fieldAt b 6 2
def gmHeld (b : List Byte) : Nat := fieldAt b 8 2
def gmORow0 (b : List Byte) : Nat := fieldAt b 10 2
def gmORows (b : List Byte) : Nat := fieldAt b 12 2
def gmKh (b : List Byte) : Nat := fieldAt b 14 1
def gmKw (b : List Byte) : Nat := fieldAt b 15 1
def gmSy (b : List Byte) : Nat := fieldAt b 16 1
def gmSx (b : List Byte) : Nat := fieldAt b 17 1
def gmDilY (b : List Byte) : Nat := fieldAt b 18 2
def gmDilX (b : List Byte) : Nat := fieldAt b 20 2
def gmPadT (b : List Byte) : Nat := fieldAt b 22 2
def gmPadB (b : List Byte) : Nat := fieldAt b 24 2
def gmPadL (b : List Byte) : Nat := fieldAt b 26 2
def gmPadR (b : List Byte) : Nat := fieldAt b 28 2
def gmMode (b : List Byte) : Nat := fieldAt b 30 1
def gmPadV (b : List Byte) : Nat := fieldAt b 32 2
def gmGroups (b : List Byte) : Nat := fieldAt b 34 2
def gmCout (b : List Byte) : Nat := fieldAt b 36 2
def gmOBlock0 (b : List Byte) : Nat := fieldAt b 40 4

/-- Blocks in a plane row of the image, and its row pitch. -/
def gmBw (b : List Byte) : Nat := planeBlocks (gmW b)
def gmWp (b : List Byte) : Nat := 32 * gmBw b
/-- Plane rows held. -/
def gmPlanes (b : List Byte) : Nat := gmHeld b * gmCin b

/-- The image, and the rows of it that the buffer holds, lie in their ranges. -/
def gmImageOk (b : List Byte) : Bool :=
  1 ≤ gmCin b && 1 ≤ gmH b && 1 ≤ gmW b && gmW b ≤ 16384 && 1 ≤ gmHeld b && gmRow0 b + gmHeld b ≤ gmH b && fieldAt b 31 1 == 0 &&
  fieldAt b 38 2 == 0 && fieldAt b 44 20 == 0

/-- The fields of rows, kernel, stride, dilation and padding are zero. -/
def gmNoWindow (b : List Byte) : Bool := fieldAt b 10 20 == 0
/-- The CONV fields are zero. -/
def gmNoConv (b : List Byte) : Bool := fieldAt b 34 4 == 0 && fieldAt b 40 4 == 0
/-- The padding mode and value are zero. -/
def gmNoPad (b : List Byte) : Bool := fieldAt b 30 1 == 0 && fieldAt b 32 2 == 0

/-- A window on one axis: extent, kernel, stride, dilation and padding before and after. A POOL kernel extent of 0 takes the whole axis with
stride 1 and no padding (R231). -/
structure Win where
  n : Nat
  k : Nat
  st : Nat
  dil : Nat
  lo : Nat
  hi : Nat
  deriving DecidableEq, Repr

/-- The windows of a geometry block. -/
def gmWinY (b : List Byte) : Win :=
  if gmKh b = 0 then ⟨gmH b, gmH b, 1, gmDilY b, 0, 0⟩ else ⟨gmH b, gmKh b, gmSy b, gmDilY b, gmPadT b, gmPadB b⟩
def gmWinX (b : List Byte) : Win :=
  if gmKw b = 0 then ⟨gmW b, gmW b, 1, gmDilX b, 0, 0⟩ else ⟨gmW b, gmKw b, gmSx b, gmDilX b, gmPadL b, gmPadR b⟩

/-- Output extent of a window (R220). -/
def Win.out (x : Win) : Int := ((x.n : Int) + x.lo + x.hi - x.dil * ((x.k : Int) - 1) - 1) / x.st + 1

/-- Coordinate of tap d of output o (R220). -/
def Win.tap (x : Win) (o d : Nat) : Int := (o : Int) * x.st - x.lo + d * x.dil

/-- A degenerate axis (R230). -/
def Win.degenerate (x : Win) : Bool := decide (x.n ≤ x.dil)

/-- The counted case of R230. -/
def gmDegenerate (b : List Byte) : Bool :=
  let ws := [gmWinY b, gmWinX b].filter fun x => decide (1 < x.k)
  !ws.isEmpty && ws.all Win.degenerate

/-- The windows lie in their ranges and R220 gives the rows asked for. -/
def gmWindowOk (b : List Byte) : Bool :=
  let y := gmWinY b
  let x := gmWinX b
  1 ≤ gmSy b && gmSy b ≤ 16 && 1 ≤ gmSx b && gmSx b ≤ 16 && 1 ≤ gmDilY b && 1 ≤ gmDilX b && gmMode b ≤ 3 && 1 ≤ gmORows b &&
  1 ≤ y.out && 1 ≤ x.out && (gmORow0 b + gmORows b : Int) ≤ y.out

/-- Columns of the output. -/
def gmWOut (b : List Byte) : Nat := (gmWinX b).out.toNat

/-- Some tap of some output lies in the image on the column axis, or is mapped into it. -/
def gmColHit (b : List Byte) : Bool :=
  let x := gmWinX b
  (List.range x.k).any fun d => (List.range (gmWOut b)).any fun o => (padMap (gmMode b) x.n (x.tap o d)).isSome

/-- Every tap that lies in the image, or that is mapped into it, falls in a held row (R224). -/
def gmTapsHeld (b : List Byte) : Bool :=
  let y := gmWinY b
  !gmColHit b || (List.range (gmORows b)).all fun o => (List.range y.k).all fun d =>
    match padMap (gmMode b) y.n (y.tap (gmORow0 b + o) d) with
    | some r => decide (gmRow0 b ≤ r) && decide (r < gmRow0 b + gmHeld b)
    | none => true

/-- First block of a buffer in its image, which starts a frame that f0_a names (R224). -/
def gmFrameOk (b : List Byte) (f0a : Nat) : Bool :=
  let f := gmRow0 b * gmCin b * gmBw b
  f % 64 == 0 && f0a == f / 64 % 1024

/-- The rows of a planar buffer as read: row (y − row0) × cin + c holds channel c of image row y. -/
def pixelOf {α : Type} (zero : α) (b : List Byte) (rows : List (List α)) (c y x : Nat) : α := (rows.getD ((y - gmRow0 b) * gmCin b + c) []).getD x zero

/-! ## CONV (R222 to R229) -/

def Cmd.cvAcc (c : Cmd) : Bool := ofield c.desc 200 1 == 1
def Cmd.cvInf (c : Cmd) : Nat := ofield c.desc 120 40

/-- K of R223. -/
def gmK (b : List Byte) : Nat := gmCin b / gmGroups b * gmKh b * gmKw b

/-- A constant padding value suits the input's format (R221). -/
def padValueOk (fmt v : Nat) : Bool :=
  if 3 ≤ fmt then v % 256 < 2 ^ codeWidth fmt && v % 256 ≠ escCode fmt && v / 256 ≠ 255 else true

/-- The checks of CONV's operand area (R222 to R227). -/
def State.admitConv (s : State) (c : Cmd) : Admit :=
  let inf := c.cvInf
  let (cp, bad0) := s.copyAll c.part ([(ofield c.desc 160 40, 64, 64, 52), (ofield c.desc 0 40, 32, 32, 32), (ofield c.desc 40 40, 32, 32, 37),
    (ofield c.desc 80 40, 32, 32, 42)] ++ if inf = 0 then [] else [(inf, 64, 64, 47)])
  let b := fun i => plain ((cp.getD i (0, [])).2)
  let g := b 0
  let hx := hdrOf (b 1)
  let hw := hdrOf (b 2)
  let hy := hdrOf (b 3)
  let prog := if inf = 0 then [] else b 4
  let cout := gmCout g
  let geom := gmImageOk g && 1 ≤ gmKh g && gmKh g ≤ 16 && 1 ≤ gmKw g && gmKw g ≤ 16 && gmWindowOk g && 1 ≤ gmGroups g && 1 ≤ cout &&
    gmCin g % gmGroups g == 0 && cout % gmGroups g == 0 && gmK g ≤ 1048575 && (gmMode g ≠ 1 || padValueOk hx.fmt (gmPadV g)) &&
    (!hx.narrow || gmFrameOk g c.f0a) && gmTapsHeld g &&
    (!hy.narrow || (gmOBlock0 g == gmORow0 g * cout * planeBlocks (gmWOut g) && gmOBlock0 g % 64 == 0))
  let bad1 := bad0 ++ badIf (ofield c.desc 201 55 ≠ 0) 57 ++ badIf (!geom) 52 ++
    badIf (!hdrOk (b 1) || !(hx.fmt == 1 || hx.narrow)) 32 ++ badIf (!hdrOk (b 2) || !pairOk hx.fmt hw.fmt) 37 ++
    badIf (!hdrOk (b 3) || (hy.narrow && (hy.compact || hy.sidx ≠ 0))) 42 ++ badIf (c.cvAcc && hy.fmt ≠ 0) 57 ++
    badIf (!prog.isEmpty && (!progOk prog cout c.cvAcc || pgKind prog ≠ 0)) 47
  if !bad1.isEmpty then { bad := bad1, copies := plainCopies cp, notes := poisonNote cp }
  else
    let rows := gmORows g * cout
    let wp := 32 * planeBlocks (gmWOut g)
    let outs := hy.outs rows wp wp
    let res : List Rng := if !prog.isEmpty && pgRes prog then [⟨pgAddr prog 32, 4 * rows * wp, false⟩] else []
    let vecs := if prog.isEmpty then [] else progVecs prog cout
    let pr := vecs ++ res
    let ins := (hx.reads (gmPlanes g) (gmWp g)).map (fun r => (r, 32)) ++ (hw.reads cout (gmK g)).map fun r => (r, 37)
    let accR : List Rng := if c.cvAcc then outs.map fun r => { r with wr := false } else []
    let all := ins ++ pr.map (fun r => (r, 47)) ++ outs.map fun r => (r, 42)
    let clash := writesMeet outs (ins.map (·.1) ++ vecs) || outs.any fun w => res.any fun r => if hy.fmt = 0 then w.crosses r else w.meets r
    { bad := c.wellFails all ++ badIf clash 42, ranges := ins.map (·.1) ++ pr ++ outs ++ accR, copies := plainCopies cp, notes := poisonNote cp }

/-- The value of a padding tap in constant mode, for an input of a format (R221); none in zero mode, whose taps are zero terms (R223). -/
def padTap (g : List Byte) (fmt : Nat) : Option Fp :=
  if gmMode g ≠ 1 then none
  else if 3 ≤ fmt then some (scaled (gmPadV g / 256) (narrowVal fmt (gmPadV g % 256)))
  else some (fpVal (plainVal 1 (gmPadV g)))

/-- The activations of an output's reduction, in the order of k (R223). -/
def convTaps (g : List Byte) (pad : Option Fp) (rows : List (List Fp)) (grp o p : Nat) : List (Option Fp) :=
  let cg := gmCin g / gmGroups g
  let y := gmWinY g
  let x := gmWinX g
  (List.range cg).flatMap fun ci => (List.range (gmKh g)).flatMap fun dy => (List.range (gmKw g)).map fun dx =>
    match padMap (gmMode g) y.n (y.tap o dy), padMap (gmMode g) x.n (x.tap p dx) with
    | some a, some b => some (pixelOf (.fin false 0 0) g rows (grp * cg + ci) a b)
    | _, _ => pad

/-- The terms of a reduction: a zero padding tap is a zero term whatever its weight (R223). -/
def convTerms (taps : List (Option Fp)) (w : List Fp) : List (Fp × Fp) :=
  (taps.zip w).map fun (t, v) => match t with
    | some x => (x, v)
    | none => (.fin false 0 0, .fin false 0 0)

/-- The raw products of CONV by plane row (o − out_row0) × cout + c. -/
def convRows (g : List Byte) (pad : Option Fp) (x w : List (List Fp)) : List (List W32) :=
  (List.range (gmORows g)).flatMap fun o => (List.range (gmCout g)).map fun ch => (List.range (gmWOut g)).map fun p =>
    dotTerms (convTerms (convTaps g pad x (ch / (gmCout g / gmGroups g)) (gmORow0 g + o) p) (w.getD ch []))

/-- CNV_CNT.degenerate (R230). -/
def State.countDegenerate (s : State) (c : Cmd) (g : List Byte) : State :=
  if gmDegenerate g then { s with cnts := { s.cnts with cnvDegen := vbump 16 s.cnts.cnvDegen (dieOfCore c.coreId) 1 } } else s

/-- Plane rows written from data_base of an output (R218, R225), from block b0 of the whole tensor; with the infuser's flags. -/
def State.putPlanes (s : State) (k : ClusId) (h : Hdr) (b0 w : Nat) (rows : List (List W32)) : State :=
  let bits := rows.map fun r => r.map (plainBits h.fmt)
  let bad := anyNonfinite rows || (!h.narrow && bits.any fun r => r.any fun x => !fFinite (plainVal h.fmt x))
  let c := planarBytes h.fmt w b0 rows
  let t := s.storeB h.data c.bytes
  let u := if h.narrow then t.storeB h.scale c.entries else t
  ((u.flagIf bad (.eng k) 16).flagIf (c.sat ≠ 0) (.eng k) 17).flagIf (c.nan ≠ 0) (.eng k) 18

/-- T_r of R228. -/
def convTiles (g : List Byte) : Nat :=
  let cg := gmCout g / gmGroups g
  cdiv (gmWOut g) 32 * if cg ≤ 64 then cdiv (gmGroups g) (64 / cg) else gmGroups g * cdiv cg 64

/-- The effect of a CONV (R222 to R226). -/
def State.convBody (c : Cmd) (s : State) : State × List St :=
  let g := c.copied 0
  let hd := fun i => (hdrOf (c.copied i)).onCore c.at_
  let prog := c.copied 4
  let cout := gmCout g
  let wOut := gmWOut g
  let rows := gmORows g * cout
  let wp := 32 * planeBlocks wOut
  let (x, s1) := s.readOperand (hd 1) (gmPlanes g) (gmWp g) c.f0a
  let (w, s2) := s1.readOperand (hd 2) cout (gmK g) c.f0b
  let s2 := (s2.mxBusy c.coreId (gmORows g * convTiles g * cdiv (gmK g) 128 * 16 * phi2 (hd 1).fmt (hd 2).fmt)).countDegenerate c g
  let (s3, fails) := s2.meetFails c.clus (x.fails ++ w.fails)
  let pz := x.poisoned || w.poisoned
  if !fails.isEmpty then (s3, fails ++ if pz then [.poisoned] else [])
  else
    let prod := convRows g (padTap g (hd 1).fmt) x.rows w.rows
    let (old, p1, s4) := if c.cvAcc then s3.readPlain (hd 3).data 0 rows wOut wp else ([], false, s3)
    let z := if c.cvAcc then addRows prod old else prod
    let s5 := s4.flagIf (anyNonfinite z) (.eng c.clus) 0
    let (sc, p2, s6) := s5.progRow (!prog.isEmpty && pgScale prog) (c.at_ (pgAddr prog 16)) cout
    let (bi, p3, s7) := s6.progRow (!prog.isEmpty && pgBias prog) (c.at_ (pgAddr prog 24)) cout
    let useRes := !prog.isEmpty && pgRes prog
    let (rs, p4, s8) := if useRes then s7.readPlain (c.at_ (pgAddr prog 32)) 0 rows wOut wp else ([], false, s7)
    let pick := fun (v : Option (List W32)) (j : Nat) => v.map fun l => l.getD j 0
    let out := if prog.isEmpty then z
      else ((List.range rows).zip z).map fun (i, r) => ((List.range r.length).zip r).map fun (j, v) =>
        infuse prog v (pick sc (i % cout)) (pick bi (i % cout)) (if useRes then some ((rs.getD i []).getD j 0) else none)
    (s8.putPlanes c.clus (hd 3) (gmOBlock0 g) wOut out, if pz || p1 || p2 || p3 || p4 then [.poisoned] else [])

/-- CONV. -/
def execConv (p : PartId) (q : QueId) (n : Nat) (flt : UnitFault) (s : State) : Host.Outcome State Fault Refusal :=
  s.engineRow p q n .conv flt State.convBody

/-! ## POOL (R231, R232) -/

/-- A plain planar image as read. -/
def planeImg (g : List Byte) (rows : List (List W32)) : Img := { h := gmH g, w := gmW g, px := fun c y x => pixelOf 0 g rows c y x }

/-- A plain header of a well tensor is accepted. -/
def plainHdrOk (b : List Byte) : Bool := hdrOk b && (hdrOf b).fmt ≤ 2

/-- The checks of POOL's operand area (R231). -/
def State.admitPool (s : State) (c : Cmd) : Admit :=
  let (cp, bad0) := s.copyAll c.part [(ofield c.desc 80 40, 64, 64, 42), (ofield c.desc 0 40, 32, 32, 32), (ofield c.desc 40 40, 32, 32, 37)]
  let b := fun i => plain ((cp.getD i (0, [])).2)
  let g := b 0
  let hx := hdrOf (b 1)
  let hy := hdrOf (b 2)
  let geom := gmImageOk g && gmWindowOk g && gmNoConv g && gmTapsHeld g
  let bad1 := bad0 ++ badIf (!geom) 42 ++ badIf (!plainHdrOk (b 1)) 32 ++ badIf (!plainHdrOk (b 2)) 37 ++
    badIf (1 < ofield c.desc 120 2 || ofield c.desc 123 133 ≠ 0) 47
  if !bad1.isEmpty then { bad := bad1, copies := plainCopies cp, notes := poisonNote cp }
  else
    let wp := 32 * planeBlocks (gmWOut g)
    let r := hx.reads (gmPlanes g) (gmWp g)
    let w := hy.outs (gmORows g * gmCin g) wp wp
    { bad := c.wellFails (r.map (fun x => (x, 32)) ++ w.map fun x => (x, 37))
      ranges := r ++ w, copies := plainCopies cp, notes := poisonNote cp }

/-- One POOL output from its included taps (R232). -/
def poolFold (avg : Bool) : List W32 → W32
  | [] => 0
  | t :: ts => if avg then fdiv (ts.foldl fadd t) (fpCvt (ts.length + 1 : Nat)) else ts.foldl fmax t

/-- The included taps of an output in ascending (dy, dx) order (R232). -/
def poolTaps (g : List Byte) (im : Img) (withPad : Bool) (ch o p : Nat) : List W32 :=
  let y := gmWinY g
  let x := gmWinX g
  (List.range y.k).flatMap fun dy => (List.range x.k).filterMap fun dx =>
    let a := y.tap o dy
    let b := x.tap p dx
    let inside := 0 ≤ a && a < y.n && 0 ≤ b && b < x.n
    if inside || withPad then some (im.read (gmMode g) (if gmMode g = 1 then plainVal 1 (gmPadV g) else 0) ch a b) else none

/-- Plain plane rows written, with the vector engine's flag. -/
def State.putPlain (s : State) (k : ClusId) (h : Hdr) (w : Nat) (rows : List (List W32)) : State :=
  let bad := anyNonfinite rows || rows.any fun r => r.any fun x => !fFinite (plainVal h.fmt (plainBits h.fmt x))
  (s.storeB h.data (planarBytes h.fmt w 0 rows).bytes).flagIf bad (.eng k) 8

/-- The effect of a POOL (R231, R232). -/
def State.poolBody (c : Cmd) (s : State) : State × List St :=
  let g := c.copied 0
  let hd := fun i => (hdrOf (c.copied i)).onCore c.at_
  let avg := ofield c.desc 120 2 == 1
  let withPad := ofield c.desc 122 1 == 1
  let (x, p1, s1) := s.readPlain (hd 1).data (hd 1).fmt (gmPlanes g) (gmWp g) (gmWp g)
  let im := planeImg g x
  let wOut := gmWOut g
  let rows := (List.range (gmORows g)).flatMap fun o => (List.range (gmCin g)).map fun ch => (List.range wOut).map fun p =>
    poolFold avg (poolTaps g im withPad ch (gmORow0 g + o) p)
  let cycles := gmORows g * gmCin g * ((gmWinY g).k * (gmWinX g).k * cdiv wOut 64 + if avg then cdiv wOut 8 else 0)
  (((s1.putPlain c.clus (hd 2) wOut rows).countDegenerate c g).vxBusy c.coreId cycles, if p1 then [.poisoned] else [])

/-- POOL. -/
def execPool (p : PartId) (q : QueId) (n : Nat) (flt : UnitFault) (s : State) : Host.Outcome State Fault Refusal :=
  s.engineRow p q n .pool flt State.poolBody

/-! ## CROP (R233 to R236) -/

def Cmd.crBox (c : Cmd) : Nat := ofield c.desc 120 40
def Cmd.crN (c : Cmd) : Nat := ofield c.desc 160 16
def Cmd.crHo (c : Cmd) : Nat := ofield c.desc 176 8
def Cmd.crWo (c : Cmd) : Nat := ofield c.desc 184 8
def Cmd.crBilinear (c : Cmd) : Bool := ofield c.desc 192 1 == 1
def Cmd.crSr (c : Cmd) : Nat := ofield c.desc 193 3
def Cmd.crMax (c : Cmd) : Bool := ofield c.desc 196 1 == 1

/-- The checks of CROP's operand area (R233). -/
def State.admitCrop (s : State) (c : Cmd) : Admit :=
  let (cp, bad0) := s.copyAll c.part [(ofield c.desc 80 40, 64, 64, 42), (ofield c.desc 0 40, 32, 32, 32), (ofield c.desc 40 40, 32, 32, 37)]
  let b := fun i => plain ((cp.getD i (0, [])).2)
  let g := b 0
  let hx := hdrOf (b 1)
  let hy := hdrOf (b 2)
  let geom := gmImageOk g && gmNoWindow g && gmNoConv g && gmMode g ≤ 3 && gmRow0 g == 0 && gmHeld g == gmH g
  let bad1 := bad0 ++ badIf (!geom) 42 ++ badIf (!plainHdrOk (b 1)) 32 ++ badIf (!plainHdrOk (b 2)) 37 ++ badIf (c.crBox % 16 ≠ 0) 47 ++
    badIf (c.crN = 0) 52 ++ badIf (c.crHo = 0) 54 ++ badIf (c.crWo = 0) 55 ++ badIf (c.crSr = 0 || 4 < c.crSr || ofield c.desc 197 59 ≠ 0) 56
  if !bad1.isEmpty then { bad := bad1, copies := plainCopies cp, notes := poisonNote cp }
  else
    let wp := 32 * planeBlocks c.crWo
    let r := hx.reads (gmPlanes g) (gmWp g)
    let bx : Rng := ⟨c.crBox, 16 * c.crN, false⟩
    let w := hy.outs (c.crN * c.crHo * gmCin g) wp wp
    { bad := c.wellFails (r.map (fun x => (x, 32)) ++ [(bx, 47)] ++ w.map fun x => (x, 37))
      ranges := r ++ [bx] ++ w, copies := plainCopies cp, notes := poisonNote cp }

/-- A coordinate that a sample cannot take: NaN, or a magnitude of 2^24 or more (R236). -/
def badCoord (x : W32) : Bool := fIsNaN x || fle (fpCvt 16777216) (fabs x)

/-- The coordinates of the samples of a cell, in order of a and then b (R234, R235). -/
def cropCoords (box : List Byte) (ho wo sr i j : Nat) : List (W32 × W32) :=
  let f := fun o => f32At box o
  (List.range sr).flatMap fun a => (List.range sr).map fun b =>
    (sampleCoord (f 0) (f 8) (i * sr + a) (ho * sr), sampleCoord (f 4) (f 12) (j * sr + b) (wo * sr))

/-- A cell is written as NaN (R236). -/
def cropNan (coords : List (W32 × W32)) : Bool := coords.any fun c => badCoord c.1 || badCoord c.2

/-- The value of a channel of a cell (R235, R236). -/
def cropCell (im : Img) (bil mx : Bool) (mode : Nat) (pad : W32) (coords : List (W32 × W32)) (ch : Nat) : W32 :=
  if cropNan coords then fpNaN
  else match coords.map fun c => im.sample bil mode pad ch c.1 c.2 with
    | [] => 0
    | v :: vs => if vs.isEmpty then v else if mx then vs.foldl fmax v else fdiv (vs.foldl fadd v) (fpCvt (vs.length + 1 : Nat))

/-- The effect of a CROP (R233 to R236). -/
def State.cropBody (c : Cmd) (s : State) : State × List St :=
  let g := c.copied 0
  let hd := fun i => (hdrOf (c.copied i)).onCore c.at_
  let (x, p1, s1) := s.readPlain (hd 1).data (hd 1).fmt (gmPlanes g) (gmWp g) (gmWp g)
  let (bx, s2) := s1.load (c.at_ c.crBox) (16 * c.crN)
  let im := planeImg g x
  let pad := if gmMode g = 1 then plainVal 1 (gmPadV g) else 0
  let boxes := chunks 16 (plain bx)
  let cells := boxes.flatMap fun b => (List.range c.crHo).map fun i => (List.range c.crWo).map fun j => cropCoords b c.crHo c.crWo c.crSr i j
  let rows := cells.flatMap fun r => (List.range (gmCin g)).map fun ch => r.map fun co => cropCell im c.crBilinear c.crMax (gmMode g) pad co ch
  let nans := (cells.flatten.filter cropNan).length
  let cycles := c.crN * (gmCin g * c.crHo * cdiv (c.crWo * c.crSr * c.crSr) (if c.crBilinear then 16 else 64))
  let s3 := (s2.putPlain c.clus (hd 2) c.crWo rows).vxBusy c.coreId cycles
  ({ s3 with cnts := { s3.cnts with cnvNan := vbump 8 s3.cnts.cnvNan (dieOfCore c.coreId) nans } },
    if p1 || anyPoison bx then [.poisoned] else [])

/-- CROP. -/
def execCrop (p : PartId) (q : QueId) (n : Nat) (flt : UnitFault) (s : State) : Host.Outcome State Fault Refusal :=
  s.engineRow p q n .crop flt State.cropBody

/-! ## S2D and D2S (R237 to R240) -/

def Cmd.sdR (c : Cmd) : Nat := ofield c.desc 120 4

/-- Both operands lie in wells, so that a core's vector engine runs the command; else the first/last-layer engine does (Table CNV-5). -/
def Cmd.sdOnCore (c : Cmd) : Bool := inWells (hdrOf (c.copied 1)).data && inWells (hdrOf (c.copied 2)).data

/-- Channels, rows and columns of the output (R237). -/
def sdOut (d2s : Bool) (g : List Byte) (r : Nat) : Nat × Nat × Nat :=
  if d2s then (gmCin g / (r * r), gmH g * r, gmW g * r) else (gmCin g * r * r, gmH g / r, gmW g / r)

/-- The checks of S2D's and D2S's operand area (R237 to R239). -/
def State.admitS2d (s : State) (c : Cmd) : Admit :=
  let (cp, bad0) := s.copyAll c.part [(ofield c.desc 80 40, 64, 64, 42), (ofield c.desc 0 40, 32, 32, 32), (ofield c.desc 40 40, 32, 32, 37)]
  let b := fun i => plain ((cp.getD i (0, [])).2)
  let g := b 0
  let hx := hdrOf (b 1)
  let hy := hdrOf (b 2)
  let r := c.sdR
  let d2s := c.kind == .d2s
  let okR := r == 2 || r == 4 || r == 8
  let shape := okR && (if d2s then gmCin g % (r * r) == 0 && gmW g * r ≤ 16384 else gmH g % r == 0 && gmW g % r == 0)
  let geom := gmImageOk g && gmNoWindow g && gmNoConv g && gmNoPad g && gmRow0 g == 0 && gmHeld g == gmH g && shape
  let bad1 := bad0 ++ badIf (!okR || ofield c.desc 124 132 ≠ 0) 47 ++ badIf (!geom) 42 ++ badIf (!hdrOk (b 1)) 32 ++
    badIf (!hdrOk (b 2) || hy.fmt ≠ hx.fmt || (hy.narrow && (hy.compact || hy.sidx ≠ 0))) 37
  if !bad1.isEmpty then { bad := bad1, copies := plainCopies cp, notes := poisonNote cp }
  else
    let (oc, oh, ow) := sdOut d2s g r
    let wp := 32 * planeBlocks ow
    let rd := hx.reads (gmPlanes g) (gmWp g)
    let wr := hy.outs (oc * oh) wp wp
    let all := rd.map (fun x => (x, 32)) ++ wr.map fun x => (x, 37)
    let out : Admit := { ranges := rd ++ wr, copies := plainCopies cp, notes := poisonNote cp }
    if inWells hx.data && inWells hy.data then { out with bad := c.wellFails all }
    else
      let open_ := fun (a : Nat) => a < wellBase || (poolBase ≤ a && a < poolBase + 8 * poolBytes)
      let narrow := if d2s then gmCin g / (r * r) else gmCin g
      { out with bad := badIf (!c.isPlace) 6 ++ badIf (!(open_ hx.data || open_ hy.data)) 32 ++ badIf (16 < narrow || 8192 < gmW g) 42 ++
          (all.filter fun x => !(x.1.lo < poolBase + 8 * poolBytes && s.mayName c.part x.1.lo x.1.len x.1.wr)).map (·.2) }

/-- Source of an output element (R237): channel, row and column of the input. -/
def sdSource (d2s : Bool) (r ch y x : Nat) : Nat × Nat × Nat :=
  if d2s then (ch * r * r + y % r * r + x % r, y / r, x / r) else (ch / (r * r), y * r + ch / r % r, x * r + ch % r)

/-- The output's plane rows, each padded to its pitch, from the input's. -/
def sdRows {α : Type} (zero : α) (d2s : Bool) (g : List Byte) (r : Nat) (rows : List (List α)) : List (List α) :=
  let (oc, oh, ow) := sdOut d2s g r
  (List.range oh).flatMap fun y => (List.range oc).map fun ch =>
    ((List.range ow).map fun x =>
      let (ic, iy, ix) := sdSource d2s r ch y x
      pixelOf zero g rows ic iy ix) ++ List.replicate (32 * planeBlocks ow - ow) zero

/-- The bits of a plain tensor's rows. -/
def State.readBits (s : State) (base sz rows k : Nat) : List (List Nat) × Bool × State :=
  let (bs, t) := s.load base (rows * k * sz)
  (chunks k ((chunks sz (plain bs)).map leNat), anyPoison bs, t)

/-- The signs of the NaNs among the codes of a TBF-32 operand's rows, as E4M3 and E5M2 tell them (R93). -/
def State.nanSigns (s : State) (h : Hdr) (rows k : Nat) : List (List Bool) :=
  if h.fmt = 3 || h.fmt = 4 then chunks k ((s.bytes h.data (rows * k)).map fun b => decide (if h.fmt = 3 then b = 0xFF else 0xFD ≤ b.toNat))
  else List.replicate rows (List.replicate k false)

/-- What an S2D or D2S makes of its input (R237): the bytes of its output's data and scale entries, what the coding met, and what the reading met. -/
structure SdOut where
  data : List Byte := []
  entries : List Byte := []
  sat : Bool := false
  nan : Bool := false
  fails : List (List St) := []
  poisoned : Bool := false

/-- An S2D or D2S on the input that a state holds, and the state after the reading (R237). -/
def State.sdMake (s : State) (c : Cmd) : SdOut × State :=
  let g := c.copied 0
  let hx := (hdrOf (c.copied 1)).onCore c.at_
  let hy := (hdrOf (c.copied 2)).onCore c.at_
  let d2s := c.kind == .d2s
  if hx.narrow then
    let (x, t) := s.readTbf hx 0 (gmPlanes g) (gmWp g) c.f0a (gmPlanes g * bpr (gmWp g))
    let rows := (x.rows.zip (s.nanSigns hx (gmPlanes g) (gmWp g))).map fun (r, n) => r.zip n
    let o := codeBlocksFp hy.fmt 0 ((sdRows (.fin false 0 0, false) d2s g c.sdR rows).flatMap (chunks 32))
    ({ data := o.bytes, entries := o.entries, sat := o.sat ≠ 0, nan := o.nan ≠ 0, fails := x.fails, poisoned := x.poisoned }, t)
  else
    let sz := plainSize hx.fmt
    let (x, p, t) := s.readBits hx.data sz (gmPlanes g) (gmWp g)
    ({ data := (sdRows 0 d2s g c.sdR x).flatMap fun r => r.flatMap fun e => leBytes sz e, poisoned := p }, t)

/-- The condition of poisoned input. -/
def SdOut.poison (o : SdOut) : List St := if o.poisoned then [.poisoned] else []

/-- The pieces of memory that an S2D or D2S writes. -/
def SdOut.puts (o : SdOut) (hy : Hdr) : List (Nat × List Byte) := [(hy.data, o.data)] ++ if o.entries.isEmpty then [] else [(hy.scale, o.entries)]

/-- Cycles of a core's S2D or D2S (R239). -/
def Cmd.sdCycles (c : Cmd) : Nat :=
  let g := c.copied 0
  let f := (hdrOf (c.copied 1)).fmt
  cdiv (gmPlanes g * gmW g) (if 3 ≤ f then 32 else if f = 0 then 64 else 128)

/-- An S2D or D2S on the vector engine of a core (R237, R238). -/
def State.sdCore (c : Cmd) (s : State) : State × List St :=
  let (o, s1) := s.sdMake c
  let (s2, fails) := s1.meetFails c.clus o.fails
  if !fails.isEmpty then (s2.vxBusy c.coreId c.sdCycles, fails ++ o.poison)
  else
    let s3 := (o.puts ((hdrOf (c.copied 2)).onCore c.at_)).foldl (fun (t : State) x => t.storeB x.1 x.2) s2
    (((s3.flagIf o.sat (.eng c.clus) 17).flagIf o.nan (.eng c.clus) 18).vxBusy c.coreId c.sdCycles, o.poison)

/-! ### On the first/last-layer engine (R239) -/

/-- Pieces of at most 4,096 bytes of a range; `fuel` bounds their number. -/
def opPieces : (fuel : Nat) → Nat → Nat → List (Nat × Nat)
  | 0, _, _ => []
  | fuel + 1, a, len => if len = 0 then [] else (a, min 4096 len) :: opPieces fuel (a + 4096) (len - 4096)

/-- The operations that fetch the input. -/
def Cmd.sdFetches (c : Cmd) : List (Nat × Nat) :=
  let rs := (c.ranges.take (c.ranges.length - c.nranges)).filter fun (r : Rng) => !r.wr
  rs.flatMap fun r => opPieces (r.len / 4096 + 1) r.lo r.len

/-- A memory that holds the bytes fetched and nothing else. -/
def Cmd.sdInput (c : Cmd) : State :=
  { ({} : State) with
    sys := { ({} : Sys) with die1 := true }
    hw := .replicate 64 { st := .on }, pools := .replicate 8 { st := .on }
    mem := (c.copies.drop 3).foldl (fun m x => cellsWrite m x.1 x.2) [] }

/-- The operations that write the output. -/
def Cmd.sdWrites (c : Cmd) : List (Nat × List PByte) :=
  (((c.sdInput.sdMake c).1).puts ((hdrOf (c.copied 2)).onCore c.at_)).flatMap fun x =>
    (pieces (x.2.length / 4096 + 1) 0 (clean x.2)).map fun y => (x.1 + y.1, y.2)

/-- The operations of a command dropped. -/
def State.cutOps (s : State) (c : Cmd) : State := (s.ops.filter fun o => o.owner == .cmd c.adm).foldl (fun (t : State) o => t.endOp o) s

/-- A command on the first/last-layer engine done, with the conditions that it met; those that taint mark what it declared as written. -/
def State.sdEnd (s : State) (c : Cmd) (conds : List St) : State × Cmd :=
  let c1 := { c with life := .ran, conds := c.conds ++ conds }
  (if c1.conds.any (·.taints) then s.poisonWrites c.ranges else s, c1)

/-- The output of a first/last-layer engine that has its whole input: failed checks end the command, and else the output is put (R239, Table CNV-9). -/
def State.sdPut (s : State) (d : Die) (c : Cmd) : State × Cmd :=
  let o := (c.sdInput.sdMake c).1
  let poisoned := c.conds.contains .poisoned
  let t := s.flagIf poisoned (.cnv d) 1
  if !o.fails.isEmpty then
    let (u, fails) := t.pickFails o.fails
    u.sdEnd c fails
  else
    let k := c.sdFetches.length
    let ws := c.sdWrites
    let piece := fun (i : Nat) => ws.getD (i - k) (0, [])
    let (u, c1) := ((t.flagIf o.sat (.cnv d) 2).flagIf o.nan (.cnv d) 3).makeOps c (t.lowCore c.part) (fun i => ((piece i).1, (piece i).2.length)) (fun i v =>
      let w := piece i
      v.newOp c.part (.cmd c.adm) (v.lowCore c.part) .put 0 w.1 w.2.length poisoned (some w.2)) (k + ws.length - c.nextOp)
    if k + ws.length ≤ c1.nextOp && u.opsOver c1 then u.sdEnd c1 [] else (u, c1)

/-- A first/last-layer engine works on (R239): operations on behalf of the partition's lowest-numbered core fetch its whole input, and when they have
retired others put its output. A unit fault is a parity error of the engine (Table CNV-9); without its whole input the command cannot go on. -/
def State.sdWork (s : State) (d : Die) (flt : UnitFault) (c : Cmd) : State × Cmd :=
  let fs := c.sdFetches
  if flt != .none then ((s.flag (.cnv d) 0).cutOps c).sdEnd c [.internal]
  else if c.nextOp < fs.length then
    s.makeOps c (s.lowCore c.part) (fun i => fs.getD i (0, 0)) (fun i t =>
      let x := fs.getD i (0, 0)
      t.newOp c.part (.cmd c.adm) (t.lowCore c.part) .fetch x.1 0 x.2 false none) (fs.length - c.nextOp)
  else if c.conds.contains .windowClosed || c.conds.contains .lateWrite then (if s.opsOver c then s.sdEnd c [] else (s, c))
  else if c.nextOp = fs.length && !s.opsOver c then (s, c)
  else s.sdPut d c

/-- An operation of a first/last-layer engine waits for an entry of its core (R120, R239). -/
def State.fleStalls (s : State) (c : Cmd) : Bool :=
  match c.place with
  | .fle _ => c.life == .started && s.mayRun c && entryLimit ≤ s.entriesOf (s.lowCore c.part) &&
      (c.nextOp < c.sdFetches.length || (s.opsOver c && c.nextOp < c.sdFetches.length + c.sdWrites.length))
  | .core _ => false
  | .quant _ => false
  | .corePump _ => false
  | .clusPump _ => false
  | .none => false

/-- The row of an S2D or D2S: on a core its effect is done at once; on the first/last-layer engine it starts, and run again it goes on. -/
def State.sdRow (s : State) (p : PartId) (q : QueId) (n : Nat) (k : CmdKind) (flt : UnitFault) : State :=
  match s.findCmd p q n with
  | some c =>
    match c.place with
    | .fle d =>
      if c.kind == k && s.mayRun c then
        let (s1, c1) := s.startCmd c
        let (s2, c2) := s1.sdWork d flt c1
        s2.putCmd c2
      else s
    | _ => s.runCmd p q n k (State.engineRun flt State.sdCore)
  | none => s

/-- S2D. -/
def execS2d (p : PartId) (q : QueId) (n : Nat) (flt : UnitFault) (s : State) : Host.Outcome State Fault Refusal := done s (s.sdRow p q n .s2d flt)

/-- D2S. -/
def execD2s (p : PartId) (q : QueId) (n : Nat) (flt : UnitFault) (s : State) : Host.Outcome State Fault Refusal := done s (s.sdRow p q n .d2s flt)

/-! ## The FRC codec (R241 to R248) -/

def Cmd.fcTiles (c : Cmd) : Nat := c.at_ (ofield c.desc 80 40)
def Cmd.fcScale (c : Cmd) : Nat := if ofield c.desc 120 40 = 0 then 0 else c.at_ (ofield c.desc 120 40)
def Cmd.fcDecode (c : Cmd) : Bool := ofield c.desc 160 1 == 1
def Cmd.fcQuarter (c : Cmd) : Bool := ofield c.desc 161 1 == 1

/-- Bytes of a tile. -/
def frcTile (quarter : Bool) : Nat := if quarter then 16 else 32
/-- Tiles of the rows held. -/
def frcTiles (g : List Byte) : Nat := cdiv (gmHeld g) 8 * gmCin g * 4 * gmBw g

/-- The checks of FRC's operand area (R242). -/
def State.admitFrc (s : State) (c : Cmd) : Admit :=
  let (cp, bad0) := s.copyAll c.part [(ofield c.desc 40 40, 64, 64, 37), (ofield c.desc 0 40, 32, 32, 32)]
  let b := fun i => plain ((cp.getD i (0, [])).2)
  let g := b 0
  let h := hdrOf (b 1)
  let geom := gmImageOk g && gmNoWindow g && gmNoConv g && gmNoPad g && gmRow0 g % 8 == 0 && (gmHeld g % 8 == 0 || gmRow0 g + gmHeld g == gmH g) &&
    (!c.fcDecode || gmFrameOk g c.f0a)
  let bad1 := bad0 ++ badIf (!geom) 37 ++ badIf (!hdrOk (b 1) || h.fmt ≠ 8 || h.compact || h.sidx ≠ 0) 32 ++
    badIf (c.fcDecode && c.fcScale = 0) 47 ++ badIf (ofield c.desc 162 94 ≠ 0) 52
  if !bad1.isEmpty then { bad := bad1, copies := plainCopies cp, notes := poisonNote cp }
  else
    let nb := gmPlanes g * gmBw g
    let tiles : Rng := ⟨ofield c.desc 80 40, frcTiles g * frcTile c.fcQuarter, !c.fcDecode⟩
    let sc : List Rng := if ofield c.desc 120 40 = 0 then [] else [⟨ofield c.desc 120 40, 4 * nb, !c.fcDecode⟩]
    let t := if c.fcDecode then h.outs (gmPlanes g) (gmWp g) (gmWp g) else h.reads (gmPlanes g) (gmWp g)
    let all := t ++ [tiles] ++ sc
    { bad := c.wellFails (t.map (fun x => (x, 32)) ++ [(tiles, 42)] ++ sc.map fun x => (x, 47))
      ranges := all, copies := plainCopies cp, notes := poisonNote cp }

/-- Least and greatest of some integers. -/
def minInt (l : List Int) : Int := l.foldl min (l.headD 0)
def maxInt (l : List Int) : Int := l.foldl max (l.headD 0)

/-- A quadrant word of 16 codes in raster order (R244). -/
def frcQuad (v : List Int) : Nat :=
  let lo := minInt v
  let sh := ((List.range 7).find? fun k => decide (maxInt v - lo ≤ 7 * 2 ^ k)).getD 6
  let hf : Int := if sh = 0 then 0 else 2 ^ (sh - 1)
  let q := v.map fun x => ((x - lo + hf) / 2 ^ sh).toNat
  (lo % 256).toNat + 2 ^ 8 * sh + 2 ^ 16 * q.foldr (fun x a => x + 8 * a) 0

/-- A 4:1 tile word of 16 cell means (R245). -/
def frcCells (m : List Int) : Nat :=
  let lo := minInt m
  let sh := if maxInt m - lo ≤ 127 then 0 else 1
  let q := m.map fun x => ((x - lo + sh) / 2 ^ sh).toNat
  (lo % 256).toNat + 2 ^ 8 * sh + 2 ^ 16 * q.foldr (fun x a => x + 128 * a) 0

/-- A tile encoded from its 64 codes by row and column (R244, R245). -/
def frcEncode (quarter : Bool) (at_ : Nat → Nat → Int) : List Byte :=
  if quarter then
    leBytes 16 (frcCells ((List.range 16).map fun k =>
      let y := k / 4 * 2
      let x := k % 4 * 2
      (at_ y x + at_ y (x + 1) + at_ (y + 1) x + at_ (y + 1) (x + 1) + 2) / 4))
  else (List.range 4).flatMap fun q =>
    leBytes 8 (frcQuad ((List.range 16).map fun k => at_ (q / 2 * 4 + k / 4) (q % 2 * 4 + k % 4)))

/-- A word of a tile is refused by a decode (R247). -/
def frcBad (quarter : Bool) (w : Nat) : Bool :=
  w % 256 == 128 || (if quarter then w / 2 ^ 9 % 2 ^ 7 ≠ 0 else w / 2 ^ 11 % 2 ^ 5 ≠ 0 || 6 < w / 2 ^ 8 % 8)

/-- The words of a tile. -/
def frcWords (quarter : Bool) (t : List Byte) : List Nat := if quarter then [leNat t] else (chunks 8 t).map leNat

/-- A decoded code at a row and column of a tile (R246). -/
def frcDecode (quarter : Bool) (t : List Byte) (y x : Nat) : Int :=
  let ws := frcWords quarter t
  let w := if quarter then ws.getD 0 0 else ws.getD (y / 4 * 2 + x / 4) 0
  let lo := signed 8 (w % 256)
  let sh := if quarter then w / 2 ^ 8 % 2 else w / 2 ^ 8 % 8
  let q := if quarter then w / 2 ^ (16 + 7 * (y / 2 * 4 + x / 2)) % 128 else w / 2 ^ (16 + 3 * (y % 4 * 4 + x % 4)) % 8
  min 127 (lo + (q : Int) * 2 ^ sh)

/-- The effect of an encode: codes are read with their checks and packed tile by tile (R242 to R245, R247). -/
def State.frcEncodeBody (c : Cmd) (s : State) : State × List St :=
  let g := c.copied 0
  let h := (hdrOf (c.copied 1)).onCore c.at_
  let nb := gmPlanes g * gmBw g
  let (x, s1) := s.readTbf h 0 (gmPlanes g) (gmWp g) c.f0a (gmPlanes g * bpr (gmWp g))
  let (s2, fails) := s1.meetFails c.clus x.fails
  let pz : List St := if x.poisoned then [.poisoned] else []
  if !fails.isEmpty then (s2, fails ++ pz)
  else
    let data := s2.bytes h.data (32 * nb)
    let rows := chunks (gmWp g) (data.map fun b => signed 8 b.toNat)
    let code := fun (ch y xx : Nat) => if gmHeld g ≤ y then 0 else (rows.getD (y * gmCin g + ch) []).getD xx 0
    let tiles := (List.range (cdiv (gmHeld g) 8)).flatMap fun ty => (List.range (gmCin g)).flatMap fun ch => (List.range (4 * gmBw g)).flatMap fun tx =>
      frcEncode c.fcQuarter fun y xx => code ch (8 * ty + y) (8 * tx + xx)
    let s3 := s2.storeB c.fcTiles tiles
    (if c.fcScale = 0 then s3 else s3.storeB c.fcScale (s2.bytes h.scale (4 * nb)), pz)

/-- The effect of a decode (R246, R247). -/
def State.frcDecodeBody (c : Cmd) (s : State) : State × List St :=
  let g := c.copied 0
  let h := (hdrOf (c.copied 1)).onCore c.at_
  let nb := gmPlanes g * gmBw g
  let tb := frcTile c.fcQuarter
  let (tr, s1) := s.load c.fcTiles (frcTiles g * tb)
  let (sr, s2) := s1.load c.fcScale (4 * nb)
  let pz : List St := if anyPoison tr || anyPoison sr then [.poisoned] else []
  let tiles := chunks tb (plain tr)
  let scales := (List.range nb).map fun j => scaleAt { h with compact := false } c.f0a j (plain sr)
  let fails := (scales.map fun x => x.2.2 ++ failIf (x.2.1 ≠ 0) .scaleSkew).filter (fun f => !f.isEmpty) ++
    ((tiles.filter fun t => (frcWords c.fcQuarter t).any (frcBad c.fcQuarter)).map fun _ => [St.scaleSkew])
  if !fails.isEmpty then (s2.countFail c.clus .scaleSkew, .scaleSkew :: pz)
  else
    let bw := gmBw g
    let tile := fun (ch y xx : Nat) => tiles.getD ((y / 8 * gmCin g + ch) * (4 * bw) + xx / 8) []
    let blocks := (List.range (gmPlanes g)).flatMap fun row => (List.range bw).map fun bx =>
      let y := row / gmCin g
      let ch := row % gmCin g
      (List.range 32).map fun i =>
        let xx := 32 * bx + i
        let v := scaled (scales.getD (row * bw + bx) (0, 0, [])).1 (intVal (frcDecode c.fcQuarter (tile ch y xx) (y % 8) (xx % 8)))
        (if gmW g ≤ xx then .fin false 0 0 else v, false)
    let o := codeBlocksFp 8 (gmRow0 g * gmCin g * bw) blocks
    ((s2.storeB h.data o.bytes).storeB h.scale o.entries, pz)

/-- The effect of an FRC (R242 to R248). -/
def State.frcBody (c : Cmd) (s : State) : State × List St :=
  let (t, conds) := if c.fcDecode then State.frcDecodeBody c s else State.frcEncodeBody c s
  let g := c.copied 0
  (t.vxBusy c.coreId (gmPlanes g * gmBw g), conds)

/-- FRC. -/
def execFrc (p : PartId) (q : QueId) (n : Nat) (flt : UnitFault) (s : State) : Host.Outcome State Fault Refusal :=
  s.engineRow p q n .frc flt State.frcBody

end Sys2Proof.Machine
end

