-- ==== Sys2Proof/Machine/Jpeg.lean ====
section
/-! DEFINITION. The strainer's JPEG decoder (R347 to R349): stream structure, entropy decoding, the bit-exact inverse DCT, and concealment. -/
namespace Sys2Proof.Machine

/-- A frame component: identifier, sampling factors and quantisation table. -/
structure JComp where
  id : Nat
  h : Nat
  v : Nat
  q : Nat
  deriving DecidableEq, Repr

/-- A Huffman table as its codes: length, code, symbol. -/
abbrev JHuff := List (Nat × Nat × Nat)

/-- What the segments before the scan set. -/
structure JHead where
  quant : List (Nat × List Nat) := []
  /-- Class (0 DC, 1 AC) and destination of each table. -/
  huff : List (Nat × Nat × JHuff) := []
  restart : Nat := 0
  height : Nat := 0
  width : Nat := 0
  comps : List JComp := []
  deriving DecidableEq, Repr

/-- A big-endian 16-bit number. -/
def be16 (bs : List Byte) (off : Nat) : Nat := 256 * fieldAt bs off 1 + fieldAt bs (off + 1) 1

/-- Quantisation tables of a DQT segment; none when one has 16-bit entries or the segment is malformed. -/
def jpegDqt : (fuel : Nat) → List Byte → List (Nat × List Nat) → Option (List (Nat × List Nat))
  | 0, _, _ => none
  | fuel + 1, bs, acc =>
    match bs with
    | [] => some acc
    | t :: rest =>
      if t.toNat / 16 ≠ 0 || 3 < t.toNat % 16 || rest.length < 64 then none
      else jpegDqt fuel (rest.drop 64) ((t.toNat % 16, (rest.take 64).map (·.toNat)) :: acc)

/-- Canonical codes: for each length in turn, its symbols take the next codes. -/
def jpegCodes : (len code : Nat) → List Nat → List Nat → JHuff
  | _, _, [], _ => []
  | len, code, n :: ns, syms =>
    ((List.range n).map fun i => (len, code + i, syms.getD i 0)) ++ jpegCodes (len + 1) (2 * (code + n)) ns (syms.drop n)

/-- Huffman tables of a DHT segment: destinations 0 and 1 only. -/
def jpegDht : (fuel : Nat) → List Byte → List (Nat × Nat × JHuff) → Option (List (Nat × Nat × JHuff))
  | 0, _, _ => none
  | fuel + 1, bs, acc =>
    match bs with
    | [] => some acc
    | t :: rest =>
      let counts := (bytesAt rest 0 16).map (·.toNat)
      let n := counts.foldl (· + ·) 0
      if 1 < t.toNat / 16 || 1 < t.toNat % 16 || rest.length < 16 + n then none
      else jpegDht fuel (rest.drop (16 + n)) ((t.toNat / 16, t.toNat % 16, jpegCodes 1 0 counts ((bytesAt rest 16 n).map (·.toNat))) :: acc)

/-- A SOF0 segment (R347). -/
def jpegSof (h : JHead) (bs : List Byte) : Option JHead :=
  let nf := fieldAt bs 5 1
  let comps := (List.range nf).map fun i =>
    ({ id := fieldAt bs (6 + 3 * i) 1, h := fieldAt bs (7 + 3 * i) 1 / 16, v := fieldAt bs (7 + 3 * i) 1 % 16, q := fieldAt bs (8 + 3 * i) 1 } : JComp)
  let ok := h.comps.isEmpty && fieldAt bs 0 1 == 8 && (nf == 1 || nf == 3) && bs.length == 6 + 3 * nf && be16 bs 1 ≠ 0 && be16 bs 3 ≠ 0
  match comps with
  | y :: rest =>
    let luma := (y.h == 1 && y.v == 1) || (y.h == 2 && y.v == 1) || (y.h == 2 && y.v == 2)
    if ok && luma && rest.all (fun c => c.h == 1 && c.v == 1) then some { h with height := be16 bs 1, width := be16 bs 3, comps := comps } else none
  | [] => none

/-- The scan's table selectors by frame component: one interleaved scan of every component. -/
def jpegSos (h : JHead) (bs : List Byte) : Option (List (Nat × Nat)) :=
  let n := h.comps.length
  if n = 0 || fieldAt bs 0 1 ≠ n || bs.length ≠ 4 + 2 * n || fieldAt bs (1 + 2 * n) 1 ≠ 0 || fieldAt bs (2 + 2 * n) 1 ≠ 63 || fieldAt bs (3 + 2 * n) 1 ≠ 0 then none
  else
    let sel := (List.range n).map fun i => (fieldAt bs (1 + 2 * i) 1, fieldAt bs (2 + 2 * i) 1)
    if sel.map (·.1) = h.comps.map (·.id) then some (sel.map fun s => (s.2 / 16, s.2 % 16)) else none

/-- The segments up to the scan: the header and, after SOS, the selectors and the bytes that follow; none for a stream outside R347. -/
def jpegSegments : (fuel : Nat) → JHead → List Byte → Option (JHead × List (Nat × Nat) × List Byte)
  | 0, _, _ => none
  | fuel + 1, h, bs =>
    match bs with
    | f :: m :: rest =>
      if f ≠ 0xFF then none
      else if m = 0xFF then jpegSegments fuel h (m :: rest)
      else
        let len := be16 rest 0
        let body := bytesAt rest 2 (len - 2)
        let after := rest.drop len
        let k := m.toNat
        if len < 2 || rest.length < len then none
        else if (0xE0 ≤ k && k ≤ 0xEF) || k = 0xFE then jpegSegments fuel h after
        else if k = 0xDB then
          match jpegDqt (body.length + 1) body h.quant with
          | some q => jpegSegments fuel { h with quant := q } after
          | none => none
        else if k = 0xC4 then
          match jpegDht (body.length + 1) body h.huff with
          | some t => jpegSegments fuel { h with huff := t } after
          | none => none
        else if k = 0xC0 then
          match jpegSof h body with
          | some g => jpegSegments fuel g after
          | none => none
        else if k = 0xDD then (if len = 4 then jpegSegments fuel { h with restart := be16 body 0 } after else none)
        else if k = 0xDA then
          match jpegSos h body with
          | some sel => some (h, sel, after)
          | none => none
        else none
    | _ => none

/-- The quantisation table of a component, and a Huffman table of a class and destination. -/
def JHead.quantOf (h : JHead) (c : JComp) : Option (List Nat) := (h.quant.find? fun q => q.1 == c.q).map (·.2)
def JHead.huffOf (h : JHead) (cls dst : Nat) : Option JHuff := (h.huff.find? fun t => t.1 == cls && t.2.1 == dst).map (·.2.2)

/-- A component ready to decode: sampling factors, quantisation table, DC and AC tables. -/
structure JPlan where
  h : Nat
  v : Nat
  quant : List Nat
  dc : JHuff
  ac : JHuff
  deriving DecidableEq, Repr

/-- A stream within R347, ready to decode. A single component has one block to an MCU. -/
structure JScan where
  height : Nat
  width : Nat
  restart : Nat
  plans : List JPlan
  data : List Byte
  deriving DecidableEq, Repr

/-- The plans of the components; none when a table is missing. -/
def jpegPlans (h : JHead) : List (JComp × (Nat × Nat)) → Option (List JPlan)
  | [] => some []
  | (c, (td, ta)) :: rest =>
    match h.quantOf c, h.huffOf 0 td, h.huffOf 1 ta, jpegPlans h rest with
    | some q, some d, some a, some ps =>
      some ({ h := if h.comps.length = 1 then 1 else c.h, v := if h.comps.length = 1 then 1 else c.v, quant := q, dc := d, ac := a } :: ps)
    | _, _, _, _ => none

/-- The structure of a stream (R347). -/
def jpegParse (bs : List Byte) : Option JScan :=
  if bytesAt bs 0 2 ≠ [0xFF, 0xD8] then none
  else match jpegSegments (bs.length + 1) {} (bs.drop 2) with
    | some (h, sel, data) =>
      (jpegPlans h (h.comps.zip sel)).map fun ps => { height := h.height, width := h.width, restart := h.restart, plans := ps, data := data }
    | none => none

/-! ## Entropy decoding -/

/-- What ends the reading of bits: an invalid code or a coefficient index beyond 63, a marker, or the end of the data. -/
inductive JErr where
  | bad
  | marker
  | ended
  deriving DecidableEq, Repr

/-- A bit reader: bytes not yet taken, the byte in use with its bits left, and the entropy-coded bytes consumed. -/
structure JBits where
  bytes : List Byte
  cur : Nat := 0
  left : Nat := 0
  used : Nat := 0
  deriving DecidableEq, Repr

/-- A result of reading, or what ended it with the reader at that moment. -/
abbrev JRead (α : Type) := Except (JErr × JBits) (α × JBits)

/-- The next bit. -/
def JBits.bit (r : JBits) : JRead Nat :=
  if 0 < r.left then .ok (r.cur / 2 ^ (r.left - 1) % 2, { r with left := r.left - 1 })
  else match r.bytes with
    | [] => .error (.ended, r)
    | b :: rest =>
      if b = 0xFF then
        match rest with
        | [] => .error (.ended, r)
        | z :: more => if z = 0 then .ok (1, { bytes := more, cur := 0xFF, left := 7, used := r.used + 2 }) else .error (.marker, r)
      else .ok (b.toNat / 128, { bytes := rest, cur := b.toNat, left := 7, used := r.used + 1 })

/-- The next n bits as a number. -/
def JBits.bits : (n : Nat) → Nat → JBits → JRead Nat
  | 0, acc, r => .ok (acc, r)
  | n + 1, acc, r =>
    match r.bit with
    | .ok (b, r1) => JBits.bits n (2 * acc + b) r1
    | .error e => .error e

/-- The next symbol of a Huffman table; `n` more lengths may be tried. -/
def JBits.symbol (t : JHuff) : (n len code : Nat) → JBits → JRead Nat
  | 0, _, _, r => .error (.bad, r)
  | n + 1, len, code, r =>
    match r.bit with
    | .ok (b, r1) =>
      let c := 2 * code + b
      match t.find? fun x => x.1 == len + 1 && x.2.1 == c with
      | some x => .ok (x.2.2, r1)
      | none => JBits.symbol t n (len + 1) c r1
    | .error e => .error e

/-- The value of s additional bits. -/
def extend (s v : Nat) : Int := if s = 0 then 0 else if v < 2 ^ (s - 1) then (v : Int) - (2 ^ s : Nat) + 1 else v

/-- AC coefficients from index k on, as zigzag index and value. -/
def jpegAc (t : JHuff) : (fuel k : Nat) → JBits → JRead (List (Nat × Int))
  | 0, _, r => .error (.bad, r)
  | fuel + 1, k, r =>
    if 64 ≤ k then .ok ([], r)
    else match JBits.symbol t 16 0 0 r with
      | .error e => .error e
      | .ok (rs, r1) =>
        let run := rs / 16
        let size := rs % 16
        if size = 0 then
          if run = 15 then (if 64 ≤ k + 16 then .error (.bad, r1) else jpegAc t fuel (k + 16) r1)
          else if run = 0 then .ok ([], r1)
          else .error (.bad, r1)
        else if 64 ≤ k + run then .error (.bad, r1)
        else match JBits.bits size 0 r1 with
          | .error e => .error e
          | .ok (v, r2) =>
            match jpegAc t fuel (k + run + 1) r2 with
            | .error e => .error e
            | .ok (cs, r3) => .ok ((k + run, extend size v) :: cs, r3)

/-- Natural position of each zigzag index. -/
def zigzag : List Nat :=
  [0, 1, 8, 16, 9, 2, 3, 10, 17, 24, 32, 25, 18, 11, 4, 5, 12, 19, 26, 33, 40, 48, 41, 34, 27, 20, 13, 6, 7, 14, 21, 28,
   35, 42, 49, 56, 57, 50, 43, 36, 29, 22, 15, 23, 30, 37, 44, 51, 58, 59, 52, 45, 38, 31, 39, 46, 53, 60, 61, 54, 47, 55, 62, 63]

/-- round(4,096 × cos(kπ / 16)) for k from 0 to 8. -/
def cosTable : List Int := [4096, 4017, 3784, 3406, 2896, 2276, 1567, 799, 0]

/-- c[x][u] of R348. -/
def dctC (x u : Nat) : Int :=
  if u = 0 then 2896
  else
    let k := (2 * x + 1) * u % 32
    if k ≤ 8 then cosTable.getD k 0 else if k ≤ 16 then -(cosTable.getD (16 - k) 0)
    else if k ≤ 24 then -(cosTable.getD (k - 16) 0) else cosTable.getD (32 - k) 0

/-- A sum of eight terms. -/
def sum8 (f : Nat → Int) : Int := (List.range 8).foldl (fun a i => a + f i) 0

/-- The samples of a block from its dequantised coefficients in natural order (R348). -/
def idct (f : List Int) : List Nat :=
  let t := (List.range 64).map fun i => (sum8 (fun u => dctC (i % 8) u * f.getD (8 * (i / 8) + u) 0) + 1024) / 2048
  (List.range 64).map fun i =>
    let v := (sum8 (fun v => dctC (i / 8) v * t.getD (8 * v + i % 8) 0) + 16384) / 32768
    (min 255 (max 0 (v + 128))).toNat

/-- One block: its samples, its DC value and the reader after it. -/
def jpegBlock (p : JPlan) (pred : Int) (r : JBits) : Except (JErr × JBits) (List Nat × Int × JBits) :=
  match JBits.symbol p.dc 16 0 0 r with
  | .error e => .error e
  | .ok (s, r1) =>
    match JBits.bits s 0 r1 with
    | .error e => .error e
    | .ok (v, r2) =>
      let dc := pred + extend s v
      match jpegAc p.ac 65 1 r2 with
      | .error e => .error e
      | .ok (cs, r3) =>
        let coefs := (0, dc) :: cs
        let f := (List.range 64).map fun i =>
          match coefs.find? fun c => zigzag.getD c.1 0 == i with
          | some c => c.2 * (p.quant.getD c.1 0 : Nat)
          | none => 0
        .ok (idct f, dc, r3)

/-- The budget of a sample in STRICT mode and the work done: none in RELAXED mode. Work is passed when it exceeds the budget (R352). -/
structure JWork where
  budget : Option Nat
  blocks : Nat := 0
  /-- Set once the work has passed the budget: its value at that moment. -/
  overrun : Option Nat := none
  deriving DecidableEq, Repr

/-- Work once the bytes up to `used` are consumed: a byte that takes it past the budget ends the sample at once (R352). -/
def JWork.bytes (w : JWork) (used : Nat) : JWork :=
  match w.overrun, w.budget with
  | none, some b => if b < used + 16 * w.blocks then { w with overrun := some (b + 1) } else w
  | _, _ => w

/-- Work after a block whose bytes end at `used` (R352). -/
def JWork.block (w : JWork) (used : Nat) : JWork :=
  let w1 := w.bytes used
  match w1.overrun, w1.budget with
  | none, some b =>
    let after := used + 16 * (w1.blocks + 1)
    { w1 with blocks := w1.blocks + 1, overrun := if b < after then some after else none }
  | _, _ => { w1 with blocks := w1.blocks + 1 }

/-- The blocks of one component in an MCU. -/
def jpegComp (p : JPlan) : (n : Nat) → Int → JBits → JWork → Except (JErr × JBits × JWork) (List (List Nat) × Int × JBits × JWork)
  | 0, pred, r, w => .ok ([], pred, r, w)
  | n + 1, pred, r, w =>
    match jpegBlock p pred r with
    | .error (e, r1) => .error (e, r1, w.bytes r1.used)
    | .ok (b, dc, r1) =>
      match jpegComp p n dc r1 (w.block r1.used) with
      | .error e => .error e
      | .ok (bs, pred', r2, w2) => .ok (b :: bs, pred', r2, w2)

/-- One MCU: its blocks by component. -/
def jpegMcu : List JPlan → List Int → JBits → JWork → Except (JErr × JBits × JWork) (List (List (List Nat)) × List Int × JBits × JWork)
  | [], _, r, w => .ok ([], [], r, w)
  | p :: ps, preds, r, w =>
    match jpegComp p (p.h * p.v) (preds.headD 0) r w with
    | .error e => .error e
    | .ok (bs, pred, r1, w1) =>
      match jpegMcu ps preds.tail r1 w1 with
      | .error e => .error e
      | .ok (rest, preds', r2, w2) => .ok (bs :: rest, pred :: preds', r2, w2)

/-- The next RST marker in the bytes: its number and the bytes after it; none when another marker that ends the image, or the end, comes first. -/
def nextRst : List Byte → Option (Nat × List Byte)
  | [] => none
  | b :: rest =>
    match rest with
    | [] => none
    | m :: more =>
      if b = 0xFF && 0xD0 ≤ m.toNat && m.toNat ≤ 0xD7 then some (m.toNat - 0xD0, more)
      else if b = 0xFF && m = 0xD9 then none
      else nextRst rest

/-- An MCU as decoded: its blocks by component, or concealed. -/
abbrev Mcu := Option (List (List (List Nat)))

/-- What decoding gives: the MCUs decoded or concealed so far, whether decoding ended before the last one, the work, and the bytes left. -/
structure JResult where
  mcus : List Mcu := []
  ended : Bool := false
  used : Nat := 0
  work : JWork
  rest : List Byte := []

/-- Resynchronisation in interval `k` (R349): the next RST marker's number tells the interval that it ends, and the decoder resumes after it. Gives
the number of the interval to resume with and the bytes after the marker. -/
def resync (k : Nat) (bs : List Byte) : Option (Nat × List Byte) :=
  (nextRst bs).map fun (n, rest) => (k + (n + 8 - k % 8) % 8 + 1, rest)

/-- MCUs from number m of `total` on; `preds` are the DC predictions. Restart intervals hold `ri` MCUs, 0 meaning none. -/
def jpegMcus (ps : List JPlan) (ri total : Nat) : (fuel m : Nat) → List Int → JBits → JWork → JResult
  | 0, _, _, r, w => { used := r.used, work := w, ended := true }
  | fuel + 1, m, preds, r, w =>
    if total ≤ m then { used := r.used, work := w, rest := r.bytes }
    else if w.overrun.isSome then { used := r.used, work := w, rest := r.bytes }
    else if ri ≠ 0 && m % ri = 0 && m ≠ 0 && preds ≠ [] then
      match resync (m / ri - 1) r.bytes with
      | some (k, bs) =>
        let m' := min total (k * ri)
        let q := jpegMcus ps ri total fuel (max m m') [] { bytes := bs, used := r.used } w
        { q with mcus := List.replicate (max m m' - m) none ++ q.mcus }
      | none => { used := r.used, work := w, ended := true }
    else
      match jpegMcu ps preds r w with
      | .ok (bs, preds', r1, w1) =>
        let q := jpegMcus ps ri total fuel (m + 1) (if preds'.isEmpty then [0] else preds') r1 w1
        { q with mcus := some bs :: q.mcus }
      | .error (e, r1, w1) =>
        if ri = 0 || e == .ended || w1.overrun.isSome then { used := r1.used, work := w1, ended := true }
        else match resync (m / ri) r1.bytes with
          | some (k, bs) =>
            let m' := max (m + 1) (min total (k * ri))
            let q := jpegMcus ps ri total fuel m' [] { bytes := bs, used := r1.used } w1
            { q with mcus := List.replicate (m' - m) none ++ q.mcus }
          | none => { used := r1.used, work := w1, ended := true }

/-- MCUs in a row and in a column. -/
def JScan.cols (j : JScan) : Nat := match j.plans with
  | p :: _ => cdiv j.width (8 * p.h)
  | [] => 0
def JScan.rows (j : JScan) : Nat := match j.plans with
  | p :: _ => cdiv j.height (8 * p.v)
  | [] => 0

/-- The MCUs of a stream. -/
def JScan.decode (j : JScan) (budget : Option Nat) : JResult :=
  let total := j.cols * j.rows
  jpegMcus j.plans j.restart total (2 * total + 2) 0 [] { bytes := j.data } { budget := budget }

/-- A second scan follows the first (R347). -/
def secondScan : (fuel : Nat) → List Byte → Bool
  | 0, _ => false
  | fuel + 1, bs =>
    match bs with
    | f :: m :: rest =>
      if f ≠ 0xFF then secondScan fuel (m :: rest)
      else if m = 0xDA then true
      else if m = 0xD9 then false
      else if m = 0xFF || m = 0 || (0xD0 ≤ m.toNat && m.toNat ≤ 0xD7) then secondScan fuel (m :: rest)
      else secondScan fuel (rest.drop (be16 rest 0))
    | _ => false

/-- The samples of block (by, bx) of component c: those of the block above it where its MCU is concealed, 128 in the top block row (R349). -/
def JScan.block (j : JScan) (mcus : List Mcu) (c : Nat) (p : JPlan) (bx : Nat) : (by_ : Nat) → List Nat
  | 0 => pick 0 (List.replicate 64 128)
  | b + 1 => pick (b + 1) (j.block mcus c p bx b)
where
  /-- The decoded samples of the block in block row `y`, or those given for a concealed one. -/
  pick (y : Nat) (above : List Nat) : List Nat :=
    match (mcus.getD (y / p.v * j.cols + bx / p.h) none) with
    | some bs => ((bs.getD c []).getD (y % p.v * p.h + bx % p.h) above)
    | none => above

/-- A sample of a component. -/
def JScan.sampleAt (j : JScan) (mcus : List Mcu) (c y x : Nat) : Nat :=
  match j.plans[c]? with
  | some p => (j.block mcus c p (x / 8) (y / 8)).getD (y % 8 * 8 + x % 8) 0
  | none => 0

/-- A channel of a pixel of the decoded image: grey, or red, green and blue (R348). -/
def JScan.pixel (j : JScan) (mcus : List Mcu) (ch y x : Nat) : Nat :=
  let lum := j.sampleAt mcus 0 y x
  match j.plans with
  | p :: _ :: _ =>
    let cb := (j.sampleAt mcus 1 (y / p.v) (x / p.h) : Int) - 128
    let cr := (j.sampleAt mcus 2 (y / p.v) (x / p.h) : Int) - 128
    let v : Int :=
      if ch = 0 then lum + (91881 * cr + 32768) / 65536
      else if ch = 1 then lum - (22554 * cb + 46802 * cr + 32768) / 65536
      else lum + (116130 * cb + 32768) / 65536
    (min 255 (max 0 v)).toNat
  | _ => lum

end Sys2Proof.Machine
end

