-- ==== Sys2Proof/Machine/Records.lean ====
section
/-! DEFINITION. Record decoding and augmentation (chapter REC): pipelines, jobs, TRC records, augmentation, budgets, outcomes and reports. -/
namespace Sys2Proof.Machine

/-! ## Pipelines (R342) -/

/-- Fields of the pipeline block (Table REC-1). -/
def Pipe.die (x : Pipe) : Die := if fieldAt x.blk 0 1 = 1 then 1 else 0
def Pipe.part (x : Pipe) : PartId := Fin.ofNat 16 (fieldAt x.blk 1 1)
def Pipe.counter (x : Pipe) : Nat := fieldAt x.blk 2 1
def Pipe.policy (x : Pipe) : Nat := fieldAt x.blk 3 1
def Pipe.outH (x : Pipe) : Nat := fieldAt x.blk 4 2
def Pipe.outW (x : Pipe) : Nat := fieldAt x.blk 6 2
def Pipe.outC (x : Pipe) : Nat := fieldAt x.blk 8 1
def Pipe.outFmt (x : Pipe) : Nat := fieldAt x.blk 9 1
def Pipe.op (x : Pipe) (i : Nat) : Bool := bfield x.blk (80 + i) 1 == 1
def Pipe.mult (x : Pipe) : Nat := if fieldAt x.blk 11 1 = 0 then 20 else fieldAt x.blk 11 1
def Pipe.nslots (x : Pipe) : Nat := fieldAt x.blk 12 4
def Pipe.slotBase (x : Pipe) : Nat := fieldAt x.blk 16 8
def Pipe.slotStride (x : Pipe) : Nat := fieldAt x.blk 24 4
def Pipe.reportBase (x : Pipe) : Nat := fieldAt x.blk 28 8
def Pipe.labelBase (x : Pipe) : Nat := fieldAt x.blk 36 8
def Pipe.indexBase (x : Pipe) : Nat := fieldAt x.blk 44 8
def Pipe.maxPixels (x : Pipe) : Nat := if fieldAt x.blk 52 4 = 0 then 67108864 else fieldAt x.blk 52 4
def Pipe.ceiling (x : Pipe) : Nat := if fieldAt x.blk 56 4 = 0 then 2 ^ 26 else fieldAt x.blk 56 4
def Pipe.fill (x : Pipe) : W32 := f32At x.blk 60
def Pipe.mean (x : Pipe) (c : Nat) : W32 := f32At x.blk (64 + 4 * c)
def Pipe.invStd (x : Pipe) (c : Nat) : W32 := f32At x.blk (76 + 4 * c)
def Pipe.seed (x : Pipe) : Nat := fieldAt x.blk 88 8
/-- a_min, a_max, r_min, r_max, p_flip, b_min, b_max, k_min, k_max, by their place. -/
def Pipe.range (x : Pipe) (i : Nat) : W32 := f32At x.blk (96 + 4 * i)
def Pipe.ringBase (x : Pipe) : Nat := fieldAt x.blk 132 8
def Pipe.ringEntries (x : Pipe) : Nat := fieldAt x.blk 140 4
def Pipe.paramBase (x : Pipe) : Nat := fieldAt x.blk 144 8

/-- Where a position's slot stands (R345). -/
def Pipe.slotAddr (x : Pipe) (pos : Nat) : Nat := x.slotBase + pos % x.nslots * x.slotStride

/-- Plane rows of a slot, bytes of its data, where its scale entries begin, and its size (R344). -/
def Pipe.planes (x : Pipe) : Nat := x.outH * x.outC
def Pipe.dataLen (x : Pipe) : Nat := planarData x.outFmt x.planes x.outW
def Pipe.scaleOff (x : Pipe) : Nat := cdiv x.dataLen 64 * 64
def Pipe.outBytes (x : Pipe) : Nat := if 3 ≤ x.outFmt then x.scaleOff + planarScales x.outFmt x.planes x.outW else x.dataLen

/-- The state with one pipeline replaced. -/
def State.setPipe (s : State) (i : PipeId) (x : Pipe) : State := { s with pipes := s.pipes.set i x }

/-- Power domain of a strainer (Table ORG-2). -/
def strainerPd (d : Die) : PdId := Fin.ofNat 128 (118 + d.val)

/-- A host port may write a pipeline's registers: that of the partition of its loaded block, and any attached one while it is OFF (R342, R325). -/
def State.mayPipe (s : State) (p : Port) (i : PipeId) : Bool :=
  let x := s.pipes[i]
  if x.state == .off then (s.port p).attached else !x.blk.isEmpty && s.owns p x.part

/-- A place that a pipeline's areas may take (R342). -/
def State.pipePlace (s : State) (q : PartId) (a len : Nat) : Bool := a + len ≤ poolBase + 8 * poolBytes && s.mayName q a len true

/-- The fields of a pipeline block lie in their ranges (Table REC-1). -/
def pipeOk (b : List Byte) : Bool :=
  let x : Pipe := { blk := b }
  let addr := fun (a al : Nat) => a < 2 ^ 40 && a % al == 0
  let pair := fun i => fFinite (x.range i) && fFinite (x.range (i + 1)) && fle (x.range i) (x.range (i + 1))
  fieldAt b 0 1 ≤ 1 && fieldAt b 1 1 ≤ 15 && x.counter ≤ 63 && x.policy ≤ 2 && 1 ≤ x.outH && x.outH ≤ 4096 && 1 ≤ x.outW && x.outW ≤ 4096 &&
  (x.outC == 1 || x.outC == 3) && x.outFmt ≤ 9 && bfield b 85 3 == 0 && 1 ≤ x.nslots && x.nslots ≤ 65535 && addr x.slotBase 64 &&
  x.slotStride % 64 == 0 && addr x.reportBase 64 && addr x.labelBase 64 && addr x.indexBase 8 && x.maxPixels ≤ 67108864 &&
  pair 0 && pair 2 && fFinite (x.range 4) && pair 5 && pair 7 && addr x.ringBase 32 &&
  16 ≤ x.ringEntries && x.ringEntries ≤ 65536 && 2 ^ x.ringEntries.log2 == x.ringEntries && addr x.paramBase 32 && fieldAt b 152 8 == 0

/-- Die whose register tells of a load: that of the block, or die 0 where it names none (log entry 39). -/
def loadDie (b : List Byte) : Die := if fieldAt b 0 1 = 1 then 1 else 0

/-- A pipeline stopped: the samples in progress end without a report (R342), and what was already released or decided is still written. -/
def State.stopPipe (s : State) (i : PipeId) : State := s.setPipe i { s.pipes[i] with state := .off, job := none }

/-- The areas that a pipeline block names may be used (R342). -/
def State.pipeAreas (s : State) (y : Pipe) : Bool :=
  s.pipePlace y.part y.slotBase ((y.nslots - 1) * y.slotStride + y.outBytes) && s.pipePlace y.part y.reportBase (64 * y.nslots) &&
  (y.labelBase == 0 || s.pipePlace y.part y.labelBase (256 * y.nslots)) && s.pipePlace y.part y.ringBase (32 * y.ringEntries)

/-- The state of a pipeline just loaded: that of its strainer when it is fenced or dark. -/
def State.pipeLoaded (s : State) (d : Die) : PipeState :=
  if s.isFenced 4 d.val then .fenced else if s.domainOn (strainerPd d) then .idle else .notReady

/-- The effect of op 0b01 of REC_P_CTL (R342): a pipeline at work stops and is loaded anew (log entry 52); one that is fenced stays so. -/
def State.pipeLoad (s : State) (p : Port) (i : PipeId) : State :=
  let x := s.pipes[i]
  if !s.mayPipe p i then s.flag (.reco x.die) 1
  else if x.state == .fenced then s
  else
    let t := s.stopPipe i
    let (blk, s1) := t.readBlock x.cfgAddr.toNat 160
    match blk with
    | none => s1.flag (.reco 0) 0
    | some b =>
      let y : Pipe := { blk := b }
      let d := loadDie b
      if pipeOk b && s.owns p y.part && s.pipeAreas y && y.outBytes ≤ y.slotStride && s.diePresent d then
        s1.setPipe i { t.pipes[i] with state := s.pipeLoaded d, blk := b }
      else s1.flag (.reco d) 0

/-- PIPELINE_LOAD: op 0b01 of REC_P_CTL (R342). -/
def execPipelineLoad (p : Port) (i : PipeId) (s : State) : Host.Outcome State Fault Refusal := done s (s.hostRow p (s.pipeLoad p i))

/-- The effect of op 0b10 of REC_P_CTL (R342): a pipeline that is fenced stays so. -/
def State.pipeOff (s : State) (p : Port) (i : PipeId) : State :=
  let x := s.pipes[i]
  if !s.mayPipe p i then s.flag (.reco x.die) 1
  else if x.state == .fenced then s
  else s.stopPipe i

/-- PIPELINE_STOP: op 0b10 of REC_P_CTL (R342). -/
def execPipelineStop (p : Port) (i : PipeId) (s : State) : Host.Outcome State Fault Refusal := done s (s.hostRow p (s.pipeOff p i))

/-! ## Jobs and samples (R343 to R345) -/

/-- JOB_TAKE (R343, R351): an idle pipeline takes its next job; a job that is refused ends at once. -/
def execJobTake (i : PipeId) (s : State) : Host.Outcome State Fault Refusal :=
  let x := s.pipes[i]
  if x.state != .idle || x.prod == x.jobs then done s s
  else
    let (e, s1) := s.devLoad (x.ringBase + 32 * (x.jobs.toNat % x.ringEntries)) 32
    let b := plain (e.getD [])
    let list := fieldAt b 0 8
    let first := fieldAt b 8 4
    let count := fieldAt b 12 4
    if e.isNone || anyPoison (e.getD []) || list ≥ 2 ^ 40 || fieldAt b 20 8 ≠ 0 || fieldAt b 28 4 ≠ 0 || count = 0 ||
        !s.mapped (list + 4 * first) (4 * count) then
      done s (((s1.setPipe i { x with jobs := x.jobs + 1 }).flag (.reco x.die) 0).flagIf (anyPoison (e.getD [])) (.reco x.die) 8)
    else
      let job : Job := { list := list, first := first, count := count, host := x.hostSrc, next := first }
      done s (s1.setPipe i { x with state := .running, avg := BitVec.ofNat 32 (fieldAt b 16 4), job := some job })

/-- The budget of the next sample (R352). -/
def Pipe.budget (x : Pipe) : Nat := if x.avg = 0 then x.ceiling else min x.ceiling (x.mult * x.avg.toNat)

/-- Lanes in use on a die. -/
def State.lanes (s : State) (d : Die) : Nat :=
  ((allFin 16).map fun i =>
    let x := s.pipes[i]
    match x.job with
    | some j => if x.die == d then (j.runs.filter fun r => !r.through).length else 0
    | none => 0).foldl (· + ·) 0

/-- A pipeline has a position that may start: its slot is free (R345). -/
def Pipe.starts (x : Pipe) : Bool :=
  x.state == .running && match x.job with
    | some j => j.next < j.first + j.count && (j.next : Int) - x.cons.toNat < x.nslots
    | none => false

/-- It is a pipeline's turn on its strainer: none between the one that started last and it has a position that may start (R345, log entry 251). -/
def State.pipeTurn (s : State) (i : PipeId) : Bool :=
  let d := s.pipes[i].die
  let gap := (i.val + 15 - s.recTurn[d]) % 16
  (List.range gap).all fun k =>
    let x := s.pipes[(Fin.ofNat 16 (s.recTurn[d] + 1 + k) : PipeId)]
    !(x.die == d && x.starts)

/-- SAMPLE_START (R345, R352): a free lane of the die takes the next position of the pipeline whose turn it is, once its slot is free. -/
def execSampleStart (i : PipeId) (s : State) : Host.Outcome State Fault Refusal :=
  let x := s.pipes[i]
  match x.job with
  | some j =>
    if x.starts && s.lanes x.die < 4 && s.pipeTurn i then
      let run : SampleRun := { pos := j.next, budget := x.budget, relaxed := s.parts[x.part].relaxed }
      done s ({ s with recTurn := s.recTurn.set x.die i.val }.setPipe i { x with job := some { j with next := j.next + 1, runs := j.runs ++ [run] } })
    else done s s
  | none => done s s

/-! ## TRC records (R346) -/

/-- Bytes of the header and the padded label. -/
def trcPayload (b : List Byte) : Nat := 32 + cdiv (fieldAt b 10 2) 8 * 8

/-- A record's header keeps Table REC-3 and its length is right. -/
def trcOk (b : List Byte) : Bool :=
  let raw := fieldAt b 8 1 == 1
  let ch := fieldAt b 9 1
  let w := fieldAt b 12 2
  let h := fieldAt b 14 2
  32 ≤ b.length && fieldAt b 0 4 == 0x31435254 && 1 ≤ fieldAt b 4 4 && fieldAt b 8 1 ≤ 1 && fieldAt b 10 2 ≤ 256 && bfield b 193 7 == 0 &&
  fieldAt b 25 3 == 0 && b.length == trcPayload b + fieldAt b 4 4 &&
  (if raw then (ch == 1 || ch == 3) && 1 ≤ w && 1 ≤ h && fieldAt b 4 4 == ch * w * h else ch == 0 && w == 0 && h == 0)

/-- A record's CRC, where it has one, is right. -/
def trcCrcOk (b : List Byte) : Bool :=
  bfield b 192 1 == 0 || fieldAt b 28 4 == crc32c (bytesAt b 0 28 ++ bytesAt b 32 (fieldAt b 10 2) ++ b.drop (trcPayload b))

/-- A record's label, its remaining bytes 0. -/
def trcLabel (b : List Byte) : List Byte := bytesAt (bytesAt b 32 (fieldAt b 10 2)) 0 256

/-! ## Augmentation (R350, R351) -/

/-- u_k of R351: bits [31:8] of a draw times 2^-24. -/
def unit24 (seed stream k : Nat) : W32 := fpRound false (steep seed stream k % 2 ^ 32 / 2 ^ 8) (-24)

/-- The parameter record of SEEDED mode for a source of h rows and w columns (R351). -/
def Pipe.seeded (x : Pipe) (pos h w : Nat) : List Byte :=
  let u := unit24 x.seed pos
  let fh := fpCvt h
  let fw := fpCvt w
  let span := fun i => fsub (x.range (i + 1)) (x.range i)
  let area := fmul (fmul fh fw) (ffma (u 0) (span 0) (x.range 0))
  let ratio := ffma (u 1) (span 2) (x.range 2)
  let cw := fmin fw (fsqrt (fmul area ratio))
  let ch := fmin fh (fsqrt (fdiv area ratio))
  let y0 := fmul (u 2) (fsub fh ch)
  let x0 := fmul (u 3) (fsub fw cw)
  f32Bytes y0 ++ f32Bytes x0 ++ f32Bytes (fadd y0 ch) ++ f32Bytes (fadd x0 cw) ++ f32Bytes (ffma (u 5) (span 5) (x.range 5)) ++
  f32Bytes (ffma (u 6) (span 7) (x.range 7)) ++ [if flt (u 4) (x.range 4) then 1 else 0] ++ repByte 7 0

/-- The parameters that a sample uses: those of an operation that is off take the neutral values (R350). -/
def Pipe.used (x : Pipe) (r : List Byte) (h w : Nat) : List Byte :=
  (if x.op 0 then bytesAt r 0 16 else f32Bytes 0 ++ f32Bytes 0 ++ f32Bytes (fpCvt h) ++ f32Bytes (fpCvt w)) ++
  (if x.op 2 then bytesAt r 16 8 else f32Bytes 0 ++ f32Bytes fpOne) ++ [if x.op 1 then BitVec.ofNat 8 (fieldAt r 24 1) else 0] ++ repByte 7 0

/-- A HOST parameter record is accepted (R351). -/
def paramOk (r : List Byte) : Bool := (List.range 6).all (fun i => fFinite (f32At r (4 * i))) && bfield r 193 7 == 0 && fieldAt r 25 7 == 0

/-- A channel of an output element (R350). The spec states no value for a sample whose coordinates are not finite (log entry 40). -/
def Pipe.augment (x : Pipe) (im : Img) (r : List Byte) (c i j : Nat) : W32 :=
  let f := fun o => f32At r o
  let jj := if fieldAt r 24 1 % 2 = 1 then x.outW - 1 - j else j
  let y := sampleCoord (f 0) (f 8) i x.outH
  let xx := sampleCoord (f 4) (f 12) jj x.outW
  let v := if fFinite y && fFinite xx then im.sample (x.op 4) 2 0 c y xx else BitVec.ofNat 32 (Config.openVal 350 [c, i, jj, y.toNat, xx.toNat])
  let z := ffma (fsub v (fpCvt 128)) (f 20) (fadd (fpCvt 128) (f 16))
  if x.op 3 then fmul (fsub z (x.mean c)) (x.invStd c) else z

/-- The plane rows of a sample in the order of R218. -/
def Pipe.augmentRows (x : Pipe) (im : Img) (r : List Byte) : List (List W32) :=
  (List.range x.outH).flatMap fun i => (List.range x.outC).map fun c => (List.range x.outW).map fun j => x.augment im r c i j

/-! ## Outcomes (R349, R352, R353) -/

/-- What a sample comes to: its status, sticky bits, record number, work, first missing and concealed MCUs, label, and, where its slot is
augmented, the parameters used and the slot's plane rows. -/
structure Verdict where
  st : St
  stick : List Nat := []
  rec_ : Nat := 0
  work : Nat := 0
  missing : Nat := 0xFFFFFFFF
  concealed : Nat := 0
  label : List Byte := []
  params : List Byte := []
  rows : List (List W32) := []

/-- The verdict on a record that was read whole (Table REC-5, from the third row on). `budget` is the budget in STRICT mode; in RELAXED mode it is
none, and `overrun` says that the lane passed its budget. -/
def Pipe.verdict (x : Pipe) (pos r : Nat) (b : List Byte) (host : Option (List Byte)) (budget : Option Nat) (overrun : Bool) (cycles : Nat) : Verdict :=
  if !trcOk b || (host.any fun h => !paramOk h) then { st := .badCommand, stick := [2], rec_ := r }
  else if !trcCrcOk b then { st := .badCommand, stick := [3], rec_ := r }
  else
    let label := trcLabel b
    let finish := fun (st : St) (stick : List Nat) (w miss conc : Nat) (im : Img) =>
      let pr := x.used (host.getD (x.seeded pos im.h im.w)) im.h im.w
      ({ st := st, stick := stick, rec_ := r, work := w, missing := miss, concealed := conc, label := label, params := pr
         rows := x.augmentRows im pr } : Verdict)
    if fieldAt b 8 1 = 1 then
      let w := fieldAt b 12 2
      let h := fieldAt b 14 2
      let ch := fieldAt b 9 1
      let px := b.drop (trcPayload b)
      let at_ := fun c y z => fpCvt ((fieldAt px (((if ch = x.outC then c else 0) * h + y) * w + z) 1 : Nat) : Int)
      let im : Img := { h := h, w := w, px := at_ }
      if x.maxPixels < w * h then { st := .dimLimit, stick := [4], rec_ := r, label := label }
      else if overrun then { st := .timeBudget, stick := [5], rec_ := r, work := cycles, label := label }
      else finish .ok [] (if budget.isSome then 0 else cycles) 0xFFFFFFFF 0 im
    else match jpegParse (b.drop (trcPayload b)) with
      | none => { st := .badCommand, stick := [2], rec_ := r }
      | some j =>
        if x.maxPixels < j.width * j.height then { st := .dimLimit, stick := [4], rec_ := r, label := label }
        else
          let q := j.decode budget
          let total := j.cols * j.rows
          let w := if budget.isSome then q.used + 16 * q.work.blocks else cycles
          let conc := (q.mcus.filter (·.isNone)).length + (total - q.mcus.length)
          let px := fun c y z => fpCvt ((if x.outC = 1 then j.sampleAt q.mcus 0 y z else j.pixel q.mcus c y z : Nat) : Int)
          let im : Img := { h := j.height, w := j.width, px := px }
          match q.work.overrun with
          | some k => { st := .timeBudget, stick := [5], rec_ := r, work := k, label := label }
          | none =>
            if overrun then { st := .timeBudget, stick := [5], rec_ := r, work := cycles, label := label }
            else if !q.ended && secondScan (q.rest.length + 1) q.rest then { st := .badCommand, stick := [2], rec_ := r }
            else if q.ended then finish .truncated [6] w q.mcus.length conc im
            else if conc ≠ 0 then finish .concealed [7] w 0xFFFFFFFF conc im
            else finish .ok [] w 0xFFFFFFFF 0 im

/-- The verdict on a position: list entry, index entry, parameter record and record are read, and any poison among them decides first. -/
def State.judge (s : State) (x : Pipe) (j : Job) (run : SampleRun) (budget : Option Nat) : Verdict × State :=
  let bad : Verdict := { st := .badCommand, stick := [2] }
  let pois : Verdict := { st := .poisoned, stick := [8] }
  let (le, s1) := s.devLoad (j.list + 4 * run.pos) 4
  match le with
  | none => (bad, s1)
  | some l =>
    if anyPoison l then (pois, s1)
    else
      let r := leNat (plain l)
      let (ie, s2) := s1.devLoad (x.indexBase + 8 * r) 8
      match ie with
      | none => ({ bad with rec_ := r }, s2)
      | some e =>
        if anyPoison e then ({ pois with rec_ := r }, s2)
        else
          let n := leNat (plain e)
          let (pe, s3) := if j.host then s2.devLoad (x.paramBase + 32 * run.pos) 32 else (some [], s2)
          let (re, s4) := s3.devLoad (n % 2 ^ 40) (n / 2 ^ 40)
          match pe, re with
          | some h, some b =>
            if anyPoison h || anyPoison b then ({ pois with rec_ := r }, s4)
            else (x.verdict run.pos r (plain b) (if j.host then some (plain h) else none) budget run.overrun run.cycles, s4)
          | _, _ => ({ bad with rec_ := r }, s4)

/-- A status after which A moves (R352). -/
def St.movesAvg (st : St) : Bool := st == .ok || st == .concealed || st == .truncated

/-- A after a sample of work w (R352). -/
def avgAfter (a : W32) (st : St) (w : Nat) : W32 :=
  if st.movesAvg then BitVec.ofInt 32 ((a.toNat : Int) + ((w : Int) - a.toNat) / 16) else a

/-- The report of a sample (Table REC-6). -/
def sampleReport (pos : Nat) (v : Verdict) (flags budget : Nat) (a : W32) : List Byte :=
  leBytes 4 pos ++ leBytes 4 v.rec_ ++ leBytes 2 v.st.code ++ leBytes 2 flags ++ leBytes 4 v.missing ++ leBytes 4 v.concealed ++ leBytes 4 v.work ++
  leBytes 4 budget ++ leBytes 4 a.toNat ++ bytesAt v.params 0 32

/-- The bytes of a slot: data, then scale entries. -/
def Pipe.slotBytes (x : Pipe) (rows : List (List W32)) : List Byte :=
  let c := planarBytes x.outFmt x.outW 0 rows
  c.bytes ++ c.entries

/-- A slot written by pump operations (R345). -/
def State.putSlot (s : State) (i : PipeId) (pos : Nat) (bs : List PByte) : State :=
  let x := s.pipes[i]
  let a := x.slotAddr pos
  s.ioAdd (.pipe i) (cutPuts x.part a (bs.take x.dataLen) ++ if 3 ≤ x.outFmt then cutPuts x.part (a + x.scaleOff) (bs.drop x.dataLen) else [])

/-- Bytes of a concealed slot. -/
def Pipe.concealBytes (x : Pipe) : List Byte := x.slotBytes (List.replicate x.planes (List.replicate x.outW x.fill))

/-- REC_CNT counts an outcome (Table REC-9). -/
def State.countSample (s : State) (d : Die) (st : St) : State :=
  let c := s.cnts
  if st == .timeBudget then { s with cnts := { c with recAband := vbump 8 c.recAband d 1 } }
  else if st == .dimLimit then { s with cnts := { c with recDim := vbump 8 c.recDim d 1 } }
  else if st == .truncated then { s with cnts := { c with recTrunc := vbump 8 c.recTrunc d 1 } }
  else if st == .concealed then { s with cnts := { c with recConc := vbump 8 c.recConc d 1 } }
  else s

/-- The sample's slot is filled by policy. -/
def Verdict.byPolicy (v : Verdict) : Bool := v.st == .badCommand || v.st == .dimLimit || v.st == .timeBudget

/-- What a verdict puts into the slot, if anything, and the report's flags (R353, Table REC-6). -/
def Pipe.slotFill (x : Pipe) (j : Job) (v : Verdict) : Option (List PByte) × Nat :=
  if v.st == .poisoned then (none, 0)
  else if v.byPolicy then
    if x.policy = 1 then (none, 1)
    else match x.policy, j.prev with
      | 2, some p => (some p, 6)
      | _, _ => (some (clean x.concealBytes), 4)
  else (some (clean (x.slotBytes v.rows)), 0)

/-- The outcome of a sample whose lane is through, once every earlier position of its job is decided (R353 to R355): slot, flags, counts, A and report. -/
def State.decide_ (s : State) (i : PipeId) (j : Job) (run : SampleRun) : State :=
  let x := s.pipes[i]
  let relaxed := run.relaxed
  let budget := if relaxed then run.budget else x.budget
  let judged := s.judge x j run (if relaxed then none else some budget)
  let v : Verdict := judged.1
  let s1 : State := judged.2
  let d := x.die
  let slotA := x.slotAddr run.pos
  let bs := (x.slotFill j v).1
  let flags := (x.slotFill j v).2
  let s2 := match bs with
    | some b => s1.putSlot i run.pos b
    | none => if v.st == St.poisoned then s1.poisonRange slotA x.outBytes else s1
  let a := if relaxed then run.avgAfter else avgAfter x.avg v.st v.work
  let prev : Option (List PByte) :=
    if x.policy ≠ 2 then none
    else if v.st == .poisoned then some (tinted true (s2.bytes slotA x.dataLen ++ s2.bytes (slotA + x.scaleOff) (x.outBytes - x.scaleOff)))
    else match bs with
      | some b => some b
      | none => j.prev
  let rep := sampleReport run.pos v (flags + if run.ndc then 8 else 0) budget a ++ v.label
  let job : Job := { j with prev := prev, runs := j.runs.map fun (r : SampleRun) => if r.pos = run.pos then { r with report := some rep } else r }
  let s3 := s2.setPipe i { s2.pipes[i] with job := some job, avg := if relaxed then s2.pipes[i].avg else a }
  v.stick.foldl (fun t b => t.flag (.reco d) b) (s3.countSample d v.st)

/-- Samples decided in ascending position while the first undecided one is through; `fuel` bounds their number. -/
def State.decideAll (s : State) (i : PipeId) : (fuel : Nat) → State
  | 0 => s
  | fuel + 1 =>
    match s.pipes[i].job with
    | some j =>
      match j.runs.find? fun r => r.report.isNone with
      | some r => if r.through then (s.decide_ i j r).decideAll i fuel else s
      | none => s
    | none => s

/-- A lane is through with a position after some cycles (R352); an abandonment for time in a RELAXED partition is a choice, counted as it is made (R308). -/
def State.throughWith (s : State) (i : PipeId) (pos cycles : Nat) (overrun : Bool) : State :=
  let x := s.pipes[i]
  match x.job with
  | some j =>
    match j.runs.find? fun r => r.pos = pos && !r.through with
    | some r =>
      let relaxed := r.relaxed
      let r1 := { r with through := true, cycles := cycles, overrun := overrun && relaxed }
      let v := (s.judge x j r1 none).1
      let a := if relaxed then avgAfter x.avg v.st v.work else x.avg
      let ndc := relaxed && v.st == .timeBudget
      let job := { j with runs := j.runs.map fun y => if y.pos = pos then { r1 with avgAfter := a, ndc := ndc } else y }
      let t := s.setPipe i { x with job := some job, avg := a }
      (if ndc then t.countNdc x.part else t).decideAll i (j.runs.length + 1)
    | none => s
  | none => s

/-- SAMPLE_DONE (R345, R352): the lane of a position has finished after `cycles` SCLK cycles. -/
def execSampleDone (i : PipeId) (pos cycles : Nat) (s : State) : Host.Outcome State Fault Refusal := done s (s.throughWith i pos cycles false)

/-- BUDGET_EXCEEDED (R352): the lane of a sample started in a RELAXED partition has passed the budget of its position, which is abandoned at once. -/
def execBudgetExceeded (i : PipeId) (pos cycles : Nat) (s : State) : Host.Outcome State Fault Refusal :=
  let x := s.pipes[i]
  match x.job with
  | some j =>
    match j.runs.find? fun r => r.pos = pos && !r.through with
    | some r => if r.relaxed && r.budget < cycles then done s (s.throughWith i pos cycles true) else done s s
    | none => done s s
  | none => done s s

/-- A report, and the label where it has one, released once the slot has landed, and then the signal (R344, R345). -/
def State.releaseReport (s : State) (i : PipeId) (pos : Nat) (rep : List Byte) : State :=
  let x := s.pipes[i]
  let k := pos % x.nslots
  s.ioAdd (.pipe i) ([.late x.part (x.reportBase + 64 * k) (clean (rep.take 64))] ++
    (if x.labelBase ≠ 0 && 64 < rep.length then [.put x.part (x.labelBase + 256 * k) (clean (rep.drop 64))] else []) ++ [.signal x.part x.counter])

/-- SAMPLE_REPORT_RELEASE (R345): the report of the lowest unreleased position, once decided; after the job's last one the job is finished. -/
def execSampleReportRelease (i : PipeId) (s : State) : Host.Outcome State Fault Refusal :=
  let x := s.pipes[i]
  match x.job with
  | some j =>
    match j.runs with
    | r :: rest =>
      match r.report with
      | some rep =>
        let s1 := s.releaseReport i r.pos rep
        let overrun := rest.isEmpty && j.next = j.first + j.count
        let y := s1.pipes[i]
        done s (s1.setPipe i (if overrun then { y with job := none, jobs := y.jobs + 1, state := .idle } else { y with job := some { j with runs := rest } }))
      | none => done s s
    | [] => done s s
  | none => done s s

/-! ## Fencing, power and reset -/

/-- Whether a job of a unit is a plain write that begins in the `len` bytes at `lo`. -/
def IoJob.putsIn (lo len : Nat) : IoJob → Bool
  | .put _ a _ => lo ≤ a && a < lo + len
  | _ => false

/-- A sample that a fence or a reset ends before its report (R353, R354): the report has the status, and what was still to be written of its slot is not
written.  Of a sample whose outcome was decided the other fields stay; how far the lane of another had come is not stated (log entry 41). -/
def State.endSample (s0 : State) (i : PipeId) (j : Job) (st : St) (r : SampleRun) : State :=
  let x := s0.pipes[i]
  let s := s0.setPipe i { x with writes := x.writes.filter fun w => !w.putsIn (x.slotAddr r.pos) x.outBytes }
  match r.report with
  | some rep => s.releaseReport i r.pos (overlay (rep.take 64) 8 (leBytes 2 st.code ++ leBytes 2 (if r.ndc then 8 else 0)))
  | none =>
    let (l, t) := s.devLoad (j.list + 4 * r.pos) 4
    t.releaseReport i r.pos (sampleReport r.pos
      { st := st, rec_ := leNat (plain (l.getD [])), work := Config.openVal 354 [i.val, r.pos] % 2 ^ 32 } (if r.ndc then 8 else 0)
      (if r.relaxed then r.budget else x.budget) x.avg)

/-- One pipeline whose samples in progress end with reports of one status and their signals (R354, R464). -/
def State.endPipe (s : State) (i : PipeId) (st : St) (after : PipeState) : State :=
  let s1 := match s.pipes[i].job with
    | some j => j.runs.foldl (fun (t : State) (r : SampleRun) => t.endSample i j st r) s
    | none => s
  s1.setPipe i { s1.pipes[i] with state := after, job := none }

/-- Every pipeline whose block names a die. -/
def State.pipesOf (s : State) (d : Die) : List PipeId :=
  (allFin 16).filter fun i => !s.pipes[i].blk.isEmpty && s.pipes[i].die == d && s.pipes[i].state != .off

/-- A strainer fenced, and returned. -/
def State.recFence (s : State) (d : Die) : State := (s.pipesOf d).foldl (fun (t : State) i => t.endPipe i .fenced .fenced) s
def State.recReturn (s : State) (d : Die) : State := (s.pipesOf d).foldl (fun t i => t.stopPipe i) s

/-- A strainer reset (R464): samples in progress get ST_INTERNAL reports, and the pipelines stand without a job. -/
def State.recEngineReset (s : State) (d : Die) : State :=
  ((s.pipesOf d).filter fun i => s.pipes[i].state == .running).foldl (fun (t : State) i => t.endPipe i .internal .idle) s

/-- A strainer whose domain goes off: its pipelines show NOT_READY, their samples ended. -/
def State.recDark (s : State) (d : Die) : State :=
  (s.pipesOf d).foldl (fun (t : State) i => if t.pipes[i].state == .fenced then t else t.setPipe i { t.pipes[i] with state := .notReady, job := none }) s

/-- PART_CLOSE turns the partition's pipelines OFF. -/
def State.recClose (s : State) (p : PartId) : State :=
  (allFin 16).foldl (fun (t : State) i =>
    if !t.pipes[i].blk.isEmpty && t.pipes[i].part == p && t.pipes[i].state != .off && t.pipes[i].state != .fenced then t.stopPipe i else t) s

/-- A device reset turns every pipeline OFF and clears every REC_ register; a fence stays (R463). -/
def State.recReset (s : State) : State :=
  { s with
    recTurn := .replicate 2 15
    pipes := Vector.ofFn fun (i : PipeId) => if s.pipes[i].state == .fenced then { state := .fenced, blk := s.pipes[i].blk } else {} }

end Sys2Proof.Machine
end

