-- ==== Sys2Proof/Machine/Determ.lean ====
section
/-! DEFINITION. Alignment of the counters of a Siphon pair (chapter DET, R311 to R321): offsets, the load of the counter, holds; and the value of
the DET_STEEP registers. -/
namespace Sys2Proof.Machine

/-- DET_STEEP_OUT (R309, R321). -/
def State.steepOut (s : State) : Nat := steep s.det.seed.toNat s.det.stream.toNat s.det.elem.toNat

/-- The state with DET's record replaced. -/
def State.setDet (s : State) (d : Det) : State := { s with det := d }

/-- A TIME message with this module's stamp (R315, Table PRG-7). -/
def State.sendTime (s : State) : State := s.siphonSend 0x10 0 0 0 0 0 s.now []

/-- A value put into a rising list of integers. -/
def insertInt (x : Int) : List Int → List Int
  | [] => [x]
  | y :: ys => if x ≤ y then x :: y :: ys else y :: insertInt x ys

/-- The median, the lower of the two middle values (R315). -/
def median (xs : List Int) : Int :=
  let l := xs.foldl (fun acc x => insertInt x acc) []
  l.getD ((l.length - 1) / 2) 0

/-- Half of a sum, rounded to the nearest integer with ties to even (R315). -/
def halfEven (x : Int) : Int :=
  if x % 2 = 0 then x / 2
  else
    let lo := x / 2
    if lo % 2 = 0 then lo else lo + 1

/-- DET_PAIR.residual keeps an offset within ±127. -/
def clamp127 (o : Int) : Int := max (-127) (min 127 o)

/-- The loader is quiet (R316). -/
def State.quiet (s : State) : Bool :=
  !(s.cmds.any fun c => c.launch.isSome && (c.life == .waiting || c.life == .issued || (c.life == .suspended && c.start == 0))) &&
  !(s.axes.toList.any Axis.live) &&
  !((allFin 6).any fun e => s.eth[e].state == .up && ((s.txHead e true).isSome || !s.eth[e].drives.isEmpty)) &&
  !(s.streams.any fun x => x.state != .close && x.ringLog2 != 0)

/-- Counts kept by the model to measure how much time has passed, moved with the counter when it is loaded: no timer sees the load (R316). -/
def State.shiftTimers (s : State) (o : Int) : State :=
  let mv := fun (n : Nat) => ((n : Int) + o).toNat
  { s with
    ports := s.ports.map fun h => { h with hbLast := mv h.hbLast }
    ops := s.ops.map fun (x : PumpOp) => { x with at_ := mv x.at_ }
    hw := s.hw.map fun x => { x with since := mv x.since }
    pools := s.pools.map fun x => { x with since := mv x.since }
    pdMoves := s.pdMoves.map fun m => { m with since := mv m.since }
    lpeBusy := s.lpeBusy.map mv
    eth := s.eth.map fun x => { x with busy := mv x.busy }
    cams := s.cams.map fun x => { x with gpioRose := mv x.gpioRose }
    tdm := s.tdm.map fun x => { x with last := mv x.last }
    tb := { s.tb with ppsRose := mv s.tb.ppsRose, ppsWatch := mv s.tb.ppsWatch }
    pm := { s.pm with raised := s.pm.raised.map fun x => x.map mv, pdTwins := s.pm.pdTwins.map fun x => (x.1, x.2.1, mv x.2.2) }
    returns := s.returns.map fun (x : PageReturn) => { x with at_ := mv x.at_ }
    sph := { s.sph with lastHeard := mv s.sph.lastHeard, beatAt := mv s.sph.beatAt, replay := s.sph.replay.map fun m => { m with sentAt := mv m.sentAt } } }

/-- An exchange begins (R315): the loader sends a TIME. -/
def State.exchange (s : State) : State := (s.setDet { s.det with sentAt := s.now, nextAt := none }).sendTime

/-- A new round of sixteen exchanges (R315). -/
def State.measure (s : State) (st : Align) : State := (s.setDet { s.det with state := st, samples := [], loadAt := none }).exchange

/-- The next exchange of a round begins once its count has come (R315). -/
def State.nextExchange (s : State) : State :=
  match s.det.nextAt with
  | some t => if t ≤ s.now then s.exchange else s
  | none => s

/-- Alignment begins at link-up (R314, R319): the module with the smaller counter loads; with equal counters the one that is not the single ACTIVE
module, and failing that the one with the higher serial number. -/
def State.alignBegin (s : State) (count serial : Nat) : State :=
  let oneActive := (s.sph.role = 0) != (s.sph.partnerRole = 0)
  let loads :=
    if s.now ≠ count then decide (s.now < count)
    else if oneActive then decide (s.sph.role ≠ 0)
    else decide (serial < Config.serial.toNat)
  let d := { s.det with
    state := .measuring, loader := false, loads := loads, verify := false, fails := 0, samples := [], nextAt := none, loadAt := none, owes := false
    relink := s.det.state == .lost, ofs := if loads then s.det.ofs else 0 }
  let t := s.setDet d
  if loads then t.exchange else t

/-- A loader that is not quiet waits, and measures again 10 ms later (R316). -/
def State.waitQuiet (s : State) : State := s.setDet { s.det with state := .waiting, loadAt := none, retryAt := s.now + 6400000, samples := [] }

/-- The loader has measured O: a small offset at a relink is slewed (R319), else it loads at the next multiple of 65,536 if it is quiet, and
measures again 10 ms later if not (R316). A load never decreases the counter (R311, log entry 222). -/
def State.planLoad (s : State) (o : Int) : State :=
  if s.det.relink && o.natAbs ≤ 65536 then
    (s.setDet { s.det with state := if o.natAbs ≤ 2 then .aligned else .slewing, offset := o, residual := clamp127 o, samples := [] }).flagIf (16 < o.natAbs) .det 1
  else
    let t := s.setDet { s.det with offset := max 0 o, residual := clamp127 o }
    if s.quiet then t.setDet { t.det with loadAt := some ((s.now / 65536 + 1) * 65536) } else t.waitQuiet

/-- The sixteen verifying exchanges are over (R317). -/
def State.verified (s : State) (os : List Int) : State :=
  let last := os.getLastD 0
  let s1 := { s with det := { s.det with residual := clamp127 last, verify := false, samples := [] } }
  if os.all fun o => o.natAbs ≤ 2 then { s1 with det := { s1.det with state := .aligned } }
  else if 3 ≤ s1.det.fails + 1 then { s1 with det := { s1.det with state := .failed, fails := s1.det.fails + 1 } }.flag .det 0
  else { s1 with det := { s1.det with fails := s1.det.fails + 1 } }.measure .measuring

/-- The loader has an exchange under way: measuring, waiting and asked to measure again, or verifying a load. -/
def Det.collects (d : Det) : Bool :=
  d.loads && d.loadAt.isNone && d.nextAt.isNone && (d.state == .measuring || (d.state == .waiting && d.retryAt == 0))

/-- A TIME message arrives with its stamp (R315): the loader in a round forms the exchange's offset from t2 − t1, which the reply's sender
measured, and t3 − t4, and the next one begins 64 µs after it; any other module replies. -/
def State.timeArrives (s : State) (t3 stamp : Nat) (path : Int) : State :=
  if s.det.collects then
    let o := halfEven (path + ((t3 : Int) - stamp))
    let os := s.det.samples ++ [o]
    let s1 := s.setDet { s.det with samples := os }
    if os.length < 16 then s1.setDet { s1.det with nextAt := some (s.det.sentAt + 40960) }
    else if s.det.verify then s1.verified os
    else s1.planLoad (median os)
  else s.sendTime

/-- ALIGNMENT_RETRY (R316): a waiting loader repeats the measurement every 10 ms. -/
def execAlignmentRetry (s : State) : Host.Outcome State Fault Refusal :=
  if s.det.state == .waiting && s.det.loads && s.det.retryAt ≠ 0 && s.det.retryAt ≤ s.now then
    let t := s.measure .waiting
    done s (t.setDet { t.det with retryAt := 0 })
  else done s s

/-- The counter loaded (R316, R393): it becomes L + O, the timebase moves so that network time does not, and sixteen verifying exchanges begin
(R317). -/
def State.loadCounter (s : State) : State :=
  let o := s.det.offset
  let s1 := { s.shiftTimers o with counter := s.counter + BitVec.ofInt 64 o }
  let s2 := { s1 with
    tb := { s1.tb with offset := s1.tb.offset - BitVec.ofInt 80 (o * 102400), anchor := s1.tb.anchor + BitVec.ofInt 64 o }
    det := { s1.det with ofs := BitVec.ofInt 64 o, loader := true, verify := true } }
  (s2.sendTimebase s2.now).measure .measuring

/-- COUNTER_LOAD (R316): at count L a loader that is still quiet loads; one that no longer is waits. -/
def execCounterLoad (s : State) : Host.Outcome State Fault Refusal :=
  match s.det.loadAt with
  | some l => if l = s.now then done s (if s.quiet then s.loadCounter else s.waitQuiet) else done s s
  | none => done s s

/-- What a measured pair offset makes of the alignment's state (R319): the loader's rounds decide while it measures. -/
def Det.stateAfter (d : Det) (o : Int) : Align :=
  let slewed := d.state == .aligned || d.state == .slewing || (d.state == .measuring && !d.loads && d.relink && o.natAbs ≤ 65536)
  if slewed && 16 < o.natAbs then .slewing
  else match d.state with
    | .slewing => if o.natAbs ≤ 2 then .aligned else .slewing
    | .measuring => if d.loads then .measuring else if o.natAbs ≤ 2 then .aligned else if slewed then .slewing else .measuring
    | .aligned => .aligned
    | .none => .none
    | .waiting => .waiting
    | .failed => .failed
    | .lost => .lost

/-- PAIR_OFFSET_MEASURE (R318, R319): the offsets of four exchanges, partner minus local. A module at least 1 count ahead owes a hold, unless it slews. -/
def execPairOffsetMeasure (offsets : List Int) (s : State) : Host.Outcome State Fault Refusal :=
  if s.sph.link ≠ 2 || offsets.isEmpty then done s s
  else
    let o := median offsets
    let st := s.det.stateAfter o
    done s ((s.setDet { s.det with
      state := st, residual := clamp127 o, offset := if s.det.loads && s.det.loadAt.isSome then s.det.offset else o
      owes := st != .slewing && (s.det.owes || decide (o ≤ -1)) }).flagIf (st == .slewing && 16 < o.natAbs) .det 1)

/-- COUNTER_HOLD (R318, R319): the module that is ahead holds its counter for one cycle, at its next count whose low 16 bits are 0xFFFF, or when
it slews once every 256 counts. -/
def execCounterHold (s : State) : Host.Outcome State Fault Refusal :=
  let due := (s.det.owes && s.now % 65536 == 65535) || (s.det.state == .slewing && decide (s.det.offset < -2) && s.now % 256 == 255)
  if s.sph.link = 2 && due && s.det.heldAt != some s.now then
    done s (s.setDet { s.det with holdNow := true, heldAt := some s.now, owes := false, holds := s.det.holds + 1, offset := s.det.offset + 1 })
  else done s s

end Sys2Proof.Machine
end

