-- ==== Sys2Proof/Machine/Siphon.lean ====
section
/-! DEFINITION. The Siphon link and its messages, roles, mirroring, heartbeats and takeover (chapter PRG, R415 to R425; chapter WEL, R129 to R132). -/
namespace Sys2Proof.Machine

/-- The state with the Siphon engine's record replaced. -/
def State.setSph (s : State) (x : Sph) : State := { s with sph := x }

/-! ## Ordering of sequence numbers -/

/-- A sequence number comes before another one (both free-running, R416). -/
def seqBefore (x y : W32) : Bool := x != y && (y - x).toNat < 2 ^ 31

/-- The next expected number advanced past those received ahead of it; `fuel` bounds the steps. -/
def advanceRx : (fuel : Nat) → W32 → List W32 → W32 × List W32
  | 0, n, ahead => (n, ahead)
  | fuel + 1, n, ahead => if ahead.contains n then advanceRx fuel (n + 1) (ahead.filter (· != n)) else (n, ahead)


/-- The fields of a header as Tables PRG-6 and PRG-7 lay them down for a type. -/
def headerOk (type : Nat) (m : Msg) : Bool :=
  let len := m.payload.length
  m.crcOk && m.reserved == 0 && m.length.toNat == len && len ≤ 4096 && m.flags.toNat < 4 && (!m.flags.getLsbD 0 || type == 0x04) &&
  (match type with
    | 0x01 => m.arg == 0
    | 0x02 => len == 0 && 1 ≤ m.arg.toNat && m.arg.toNat ≤ 4096
    | 0x03 => true
    | 0x04 => len == 0 && m.arg != 0
    | 0x05 => len == 0
    | 0x06 => len == 0
    | 0x08 => len == 0 && m.arg.toNat < 2 ^ 32
    | 0x09 => len == 0 && m.arg.toNat / 65536 % 65536 == 0
    | 0x10 => len == 0
    | 0x11 => len == 32
    | 0x18 => len == 32
    | 0x19 => true
    | 0x1A => len == 0 && m.arg.toNat % 4 != 3
    | _ => false)

/-- An ACK of the message with a sequence number (Table PRG-7). -/
def State.sendAck (s : State) (seq : W32) (st : St) : State := s.siphonSend 0x09 0 0 0 0 0 (st.code + seq.toNat * 2 ^ 32) []

/-! ## Windows closed (R131, R132) -/

/-- An operation dropped: every declared write range of its command is poisoned, and the command meets the conditions. -/
def State.dropOp (s : State) (o : PumpOp) (conds : List St) : State := ((s.ruin o).endOp o).creditOp o conds

/-- The operation has still to send something through a window of a set: a read that has not been asked for, or a write (R131). -/
def State.unsent (s : State) (o : PumpOp) (mine : Window → Bool) : Bool :=
  (o.data.isNone && !o.asked && (s.windowPieces o.src o.len).any fun x => mine x.1) ||
  (!o.sent && (o.kind == .move || o.kind == .put) && (s.windowPieces o.dst o.len).any fun x => mine x.1)

/-- A PUMP in flight that has still to make operations and whose ranges meet a set. -/
def Cmd.unmadeIn (c : Cmd) (hit : Rng → Bool) : Bool :=
  c.kind == .pump && (c.life == .issued || c.life == .started) && c.nextOp < c.pTotal && c.ranges.any hit

/-- The operations that such PUMPs have still to make are dropped before they are made: each PUMP meets ST_WINDOW_CLOSED, and its write ranges are
poisoned (R131, R132, R156); `f` flags it. -/
def State.dropComing (s : State) (hit : Rng → Bool) (f : Cmd → State → State) : State :=
  (s.cmds.filter fun c => c.unmadeIn hit).foldl (fun (t : State) c =>
    ((f c t).poisonWrites c.ranges).putCmd { c.cond .windowClosed with tint := true }) s

/-- A range meets a window. -/
def Window.hit (w : Window) (r : Rng) : Bool := overlap w.loc w.len r.lo r.len

/-- A window closed by abort: what has not been sent through it is dropped, and what has been sent lands (R131). -/
def State.abortWindow (s : State) (id : Nat) : State :=
  let mine := fun (w : Window) => w.id == id
  let s1 := (s.ops.filter fun o => s.unsent o mine).foldl (fun (t : State) o => (t.flag (.pmp (clusOfCore o.core)) 2).dropOp o [.windowClosed]) s
  let s2 := s1.dropComing (fun r => s.windows.any fun w => mine w && w.hit r) fun c t => t.flag (.pmp (clusOfCore c.pumpCore)) 2
  { s2 with windows := s2.windows.filter fun w => !mine w }

/-- An operation with a message that the partner has not answered when the link goes down (R132): the rows that a read feeds are poisoned; without its
index list, or the bytes that a unit waits for, nothing more of its command can be right. -/
def State.loseOp (s : State) (o : PumpOp) : State :=
  let t := s.flag (.pmp (clusOfCore o.core)) 1
  if o.sent then (t.endOp o).creditOp o [.windowClosed]
  else if o.kind == .move && (t.windowPieces o.dst o.len).isEmpty then ((t.poisonWrites o.writes).endOp o).creditOp o [.windowClosed]
  else t.dropOp o [.windowClosed]

/-- BAR2 reads that wait for the partner are answered with the zeros of their windows (log entry 128). -/
def State.answerBar2 (s : State) : State :=
  { s.bar2Reads.foldl (fun (t : State) b => t.emit (.readData (some b.port) b.data)) s with bar2Reads := [] }

/-- Every window closed with the link (R132): unanswered operations are lost, and those that have not been sent are dropped as by abort. -/
def State.loseWindows (s : State) : State :=
  let s1 := (s.ops.filter fun o => !o.waits.isEmpty || s.unsent o fun _ => true).foldl (fun (t : State) o =>
    if o.waits.isEmpty then t.dropOp o [.windowClosed] else t.loseOp o) s
  let s2 := s1.dropComing (fun r => s.windows.any fun w => w.hit r) fun _ t => t
  { s2.answerBar2 with windows := [] }

/-! ## Link down and takeover (R320, R415, R424) -/

/-- SIGNALs that the partner has not acknowledged end as with no partner linked (R182). -/
def State.loseSignals (s : State) : State :=
  { s with
    cmds := s.cmds.map fun c =>
      if c.kind == .signalRemote && c.life == .started then { c.cond .notReady with life := .ran } else c
    sph := { s.sph with sigOut := [] } }

/-- The link leaves UP: windows close, registrations and messages in flight are lost, and holds stop. -/
def State.linkDown (s : State) (lk : BitVec 2) : State :=
  let s1 := s.loseWindows.loseSignals
  let s2 := { s1 with
    mirrors := s1.mirrors.map fun (m : Mirror) => if m.enable then { m with state := .off } else m
    sph := { s1.sph with
      link := lk, alive := false, partnerKnown := false, partner := 0, replay := [], resends := 0, remoteRegs := [], lateRegs := [], regWait := [], rxAhead := []
      partnerLow := false } }
  (((s2.flag .sph 0).flag .det 2).log 0x0007 17 0 [1]).setDet { s2.det with state := .lost, owes := false, holdNow := false, loadAt := none, nextAt := none, samples := [], verify := false }

/-- A STANDBY module takes over from its ACTIVE partner, in one cycle (R424). -/
def State.takeOver (s : State) : State :=
  let s1 := if s.sph.link = 2 then s.linkDown 0 else s
  ({ s1 with sph := { s1.sph with txDark := true, role := 0, takenOver := true, conflict := false } }.flag .sph 6).log 0x0007 17 0 [2]

/-- A trigger of R424 applies to this module. -/
def Sph.mayTakeOver (x : Sph) : Bool := x.role == 1 && x.partnerKnown && x.partnerRole == 0

/-- The link goes dark; a standby with the dark trigger takes over unless the partner gave notice of a fence (R424). -/
def State.linkFalls (s : State) : State :=
  let t := s.linkDown 0
  if s.sph.mayTakeOver && s.sph.dark && !s.sph.fenceNotice then t.takeOver else t

/-- SIPHON_LINK_DOWN (R132, R320, R415, R424). -/
def execSiphonLinkDown (s : State) : Host.Outcome State Fault Refusal := if s.sph.link ≠ 2 then done s s else done s s.linkFalls

/-- The combination of roles is one that Table PRG-8 supports. -/
def rolesOk (mine partner : BitVec 2) : Bool := (mine == 0 && partner == 1) || (mine == 1 && partner == 0) || (mine == 2 && partner == 2)

/-- The roles compared: a conflict shows, and is flagged when it arises (R418). -/
def State.checkRoles (s : State) : State :=
  let bad := s.sph.partnerKnown && !rolesOk s.sph.role s.sph.partnerRole
  (s.setSph { s.sph with conflict := bad }).flagIf (bad && !s.sph.conflict) .sph 3

/-- A ROLE message with this module's role (R418). -/
def State.sendRole (s : State) (bits : Nat) : State := s.siphonSend 0x1A 0 0 0 0 0 (s.sph.role.toNat + bits) []

/-- SIPHON_LINK_UP (R314, R415, R418): the link of a powered, unfenced engine with its transmitters on comes up; the modules learn each
other's serial number, count and role, and alignment begins. -/
def execSiphonLinkUp (serial count : W64) (role : Nat) (s : State) : Host.Outcome State Fault Refusal :=
  if s.sys.rails == .on && s.sys.clocked && s.domainOn 122 && s.sph.link.toNat ≤ 1 && !s.sph.txDark then
    let t := s.setSph { s.sph with
      link := 2, partner := serial, partnerKnown := true, partnerRole := BitVec.ofNat 2 role, alive := true, lastHeard := s.now, fenceNotice := false
      txSeq := 0, rxSeq := 0, replay := [], resends := 0, rxAhead := [], beatAt := s.now }
    done s ((((t.log 0x0007 17 0 [0]).sendRole 0).checkRoles).alignBegin count.toNat serial.toNat)
  else done s s

/-- SIPHON_RETRANSMIT (R415, R416): with its oldest message not acknowledged for 8 µs the sender resends from it; a message that fails eight
retransmissions takes the link down. -/
def execSiphonRetransmit (s : State) : Host.Outcome State Fault Refusal :=
  match s.sph.replay with
  | m :: _ =>
    if s.sph.link = 2 && m.sentAt + 5120 ≤ s.now then
      if 8 ≤ s.sph.resends then done s (s.flag .sph 1).linkFalls
      else
        let again := sentPart s.sph.replay
        let t := again.foldl (fun (u : State) x => u.emit (.siphon x.type x.msg)) s
        done s (t.setSph { s.sph with
          replay := s.sph.replay.map fun x => { x with sentAt := s.now }
          resends := s.sph.resends + 1, retries := satAdd 16 s.sph.retries again.length })
    else done s s
  | [] => done s s

/-! ## Receiving (R416, R417) -/

/-- Messages that the partner has received leave the replay buffer, and those that waited for the room are sent (R416). -/
def State.trimReplay (s : State) (ack : W32) : State :=
  let rest := s.sph.replay.filter fun x => !seqBefore x.msg.seq ack
  let fresh := (sentPart rest).filter fun x => !(sentPart s.sph.replay).contains x
  let t := fresh.foldl (fun (u : State) x => u.emit (.siphon x.type x.msg)) s
  t.setSph { s.sph with
    replay := rest.map fun x => if fresh.contains x then { x with sentAt := s.now } else x
    resends := if rest.length = s.sph.replay.length then s.sph.resends else 0 }

/-- A message of a type arrives over an UP link. One that breaks a field is dropped and counted; one that came before, or before its turn, is
dropped; any other acts, and one that sends nothing back is acknowledged. -/
def State.hear (s : State) (type : Nat) (m : Msg) (act : State → State) : State :=
  if s.sph.link ≠ 2 then s
  else if !headerOk type m then { s with sph := { s.sph with bad := satAdd 8 s.sph.bad 1 } }.flag .sph 2
  else
    let s1 := (s.setSph { s.sph with lastHeard := s.now, alive := true }).trimReplay m.ackSeq
    let seen := seqBefore m.seq s.sph.rxSeq || s.sph.rxAhead.contains m.seq
    if seen then s1
    else if m.seq != s.sph.rxSeq && !mayOvertake type then s1
    else
      let (n, ahead) := advanceRx (s.sph.rxAhead.length + 2) s.sph.rxSeq (m.seq :: s.sph.rxAhead)
      let s2 := s1.setSph { s1.sph with rxSeq := n, rxAhead := ahead }
      let s3 := act s2
      if s3.sph.txSeq == s2.sph.txSeq && type != 0x09 then s3.sendAck m.seq .ok else s3

/-- The data of a message with its poison flag. -/
def msgData (m : Msg) : List PByte := tinted (m.flags.getLsbD 1) m.payload

/-- The registrations of the partner that a WRITE moves data under: it may move them, and the range holds them (R129). -/
def State.regsOf (s : State) (a len : Nat) : List W32 :=
  (s.sph.remoteRegs.filter fun x => x.2.wr && x.2.lo ≤ a && a + len ≤ x.2.lo + x.2.len && !s.sph.regWait.contains x.1).map (·.1)

/-- A half-well or pool takes a write of the partner: it is open, or CLOSING with a registration of it counted at closure (R134, R135). -/
def WellCtl.admits (x : WellCtl) (regs : List W32) : Bool := !x.shut || (x.st == .closing && regs.any fun k => x.regs.contains k)

/-- A WRITE lands here (R130, R134, R135, R416); the answer says whether it was refused, or came too late for a power-down gate. -/
def State.landWrite (s : State) (m : Msg) : State :=
  let a := m.addr.toNat
  let len := m.payload.length
  let regs := s.regsOf a len
  if len = 0 then s.sendAck m.seq .ok
  else if regs.any fun k => s.sph.lateRegs.contains k then s.sendAck m.seq .lateWrite
  else if s.mapped a len && a + len ≤ windowBase && (touched a len).all fun r => (s.wctl r).admits regs then
    (s.writeStretches (s.stretches a len) (msgData m)).sendAck m.seq .ok
  else (s.flagClosed a len).sendAck m.seq .windowClosed

/-- SIPHON_WRITE (R416). -/
def execSiphonWrite (m : Msg) (s : State) : Host.Outcome State Fault Refusal := done s (s.hear 0x01 m fun t => t.landWrite m)

/-- The bytes that a READ_REQ gets: those stored; zeros from a half-well or pool that takes no access; poisoned zeros where nothing is mapped or in a
remote window. -/
def State.remoteRead (s : State) (a len : Nat) : List PByte × State :=
  if !s.mapped a len then (lostBytes len, s)
  else if !s.takes a len then (clean (repByte len 0), s)
  else s.readStretches (s.stretches a len) false

/-- SIPHON_READ_REQ (R416): answered with READ_DATA. -/
def execSiphonReadReq (m : Msg) (s : State) : Host.Outcome State Fault Refusal :=
  done s (s.hear 0x02 m fun t =>
    let (bs, u) := t.remoteRead m.addr.toNat m.arg.toNat
    u.siphonSend 0x03 (if anyPoison bs then 2 else 0) 0 m.window.val 0 0 m.seq.toNat (plain bs))

/-- What waits for an answered message, and the offset of its piece. -/
def waitOf (waits : List (W32 × Nat)) (seq : Nat) : Option Nat := (waits.find? fun x => x.1.toNat == seq).map (·.2)

/-- The messages still unanswered. -/
def waitsLeft (waits : List (W32 × Nat)) (seq : Nat) : List (W32 × Nat) := waits.filter fun x => x.1.toNat != seq

/-- Bytes of the partner laid into those that a BAR2 read has so far, but for the ones of units that a command owned (R187). -/
def Bar2Read.lay (b : Bar2Read) (off : Nat) (bs : List Byte) : List Byte :=
  (b.data.zip (b.owned.zip (List.range b.data.length))).map fun (x, own, i) =>
    if own || i < off || off + bs.length ≤ i then x else bs.getD (i - off) 0

/-- The data of the partner for BAR2 reads: one that waits for nothing more goes back to the host. -/
def State.bar2Data (s : State) (seq : Nat) (bs : List Byte) : State :=
  match s.bar2Reads.find? fun b => (waitOf b.waits seq).isSome with
  | some b =>
    let b1 : Bar2Read := { b with data := b.lay ((waitOf b.waits seq).getD 0) bs, waits := waitsLeft b.waits seq }
    if b1.waits.isEmpty then { s with bar2Reads := s.bar2Reads.filter fun x => x != b }.emit (.readData (some b.port) b1.data)
    else { s with bar2Reads := s.bar2Reads.map fun x => if x == b then b1 else x }
  | none => s

/-- The data of a READ_REQ arrive: the operation that asked keeps them, or a BAR2 read does. -/
def State.takeData (s : State) (seq : Nat) (bs : List PByte) : State :=
  match s.ops.find? fun o => o.asked && !o.sent && (waitOf o.waits seq).isSome with
  | some o => s.setOp { o with waits := waitsLeft o.waits seq, got := o.got ++ [((waitOf o.waits seq).getD 0, bs)] }
  | none => s.bar2Data seq (plain bs)

/-- SIPHON_READ_DATA (R416): what asked gets its data, with poison when flagged. -/
def execSiphonReadData (m : Msg) (s : State) : Host.Outcome State Fault Refusal :=
  done s (s.hear 0x03 m fun t => t.takeData m.arg.toNat (msgData m))

/-- The die whose scoreboard holds a range of the partner. -/
def State.regDie (s : State) (r : Rng) : Die :=
  match s.locOf r.lo with
  | .well n _ => dieOfCore n
  | .pool c _ => dieOfClus c
  | .main => s.memDie r.lo
  | .cistern g => dieOfPort g.port
  | .window _ => 0
  | .unmapped => 0

/-- An entry of this module holds a range of the partner (R129, Table WEL-5): one in flight here, or a registration made before it. -/
def State.holdsRemote (s : State) (r : Rng) (before : List (W32 × Rng)) : Bool :=
  let d := s.regDie r
  s.ops.any (opHolds d [r]) || s.cmds.any (s.cmdHolds d none [r]) || before.any (remoteHolds [r])

/-- SIPHON_REGISTER (R129). -/
def execSiphonRegister (m : Msg) (s : State) : Host.Outcome State Fault Refusal :=
  done s (s.hear 0x04 m fun t =>
    let r : Rng := ⟨m.addr.toNat, m.arg.toNat, m.flags.getLsbD 0⟩
    let u := t.setSph { t.sph with remoteRegs := t.sph.remoteRegs ++ [(m.seq, r)] }
    if t.holdsRemote r t.sph.remoteRegs then u.setSph { u.sph with regWait := u.sph.regWait ++ [m.seq] }
    else u.siphonSend 0x05 0 0 m.window.val 0 0 m.seq.toNat [])

/-- Registrations that nothing holds any more are answered with REG_DONE (R129). -/
def State.regSweep (s : State) : State :=
  s.sph.regWait.foldl (fun (t : State) seq =>
    let before := t.sph.remoteRegs.takeWhile fun x => x.1 != seq
    match t.sph.remoteRegs.find? fun x => x.1 == seq with
    | some (_, r) =>
      if t.holdsRemote r before then t
      else (t.setSph { t.sph with regWait := t.sph.regWait.filter (· != seq) }).siphonSend 0x05 0 0 0 0 0 seq.toNat []
    | none => t) s

/-- SIPHON_REG_DONE (R129): the operation may move data. -/
def execSiphonRegDone (m : Msg) (s : State) : Host.Outcome State Fault Refusal :=
  done s (s.hear 0x05 m fun t =>
    { t with ops := t.ops.map fun (o : PumpOp) => { o with regWait := o.regWait.filter fun x => x.toNat != m.arg.toNat } })

/-- SIPHON_RELEASE (R416). -/
def execSiphonRelease (m : Msg) (s : State) : Host.Outcome State Fault Refusal :=
  done s (s.hear 0x06 m fun t => t.setSph { t.sph with
    remoteRegs := t.sph.remoteRegs.filter fun x => x.1.toNat != m.arg.toNat
    lateRegs := t.sph.lateRegs.filter fun x => x.toNat != m.arg.toNat
    regWait := t.sph.regWait.filter fun x => x.toNat != m.arg.toNat })

/-- SIPHON_SIGNAL (R417). -/
def execSiphonSignal (m : Msg) (s : State) : Host.Outcome State Fault Refusal :=
  done s (s.hear 0x08 m fun t =>
    if t.parts[m.partition].isOpen then (t.addSig m.partition m.counter.val (BitVec.ofNat 32 m.arg.toNat)).sendAck m.seq .ok
    else t.sendAck m.seq .notReady)

/-- The status of an ACK as a condition of its command. -/
def ackStatus (code : Nat) : St :=
  if code = 0 then .ok else if code = St.notReady.code then .notReady else if code = St.windowClosed.code then .windowClosed
  else if code = St.lateWrite.code then .lateWrite else .internal

/-- The WRITE of an operation is acknowledged; a write that a gate at the partner dropped poisons the outputs of its command (R134). -/
def State.ackWrite (s : State) (o : PumpOp) (seq : W32) (st : St) : State :=
  let t := s.setOp { o with waits := waitsLeft o.waits seq.toNat }
  if st == .ok then t else (if st == .lateWrite then t.ruin o else t).creditOp o [st]

/-- A SIGNAL is acknowledged: its command is done. That of a command which a PART_RESET has abandoned is a late result, dropped and counted (R192). -/
def State.ackSignal (s : State) (q : PartId) (seq : W32) (st : St) : State :=
  let t := s.setSph { s.sph with sigOut := s.sph.sigOut.filter fun x => x.1 != seq }
  let mine := fun (c : Cmd) => c.kind == .signalRemote && c.life == .started && c.notes == [seq.toNat]
  if t.cmds.any mine then { t with cmds := t.cmds.map fun c => if mine c then { c.cond st with life := .ran } else c }
  else
    let x := t.parts[q]
    (t.setPart q { x with staleResults := BitVec.ofNat 16 (satAdd 16 x.staleResults.toNat 1) }).flag (.par x.die) 1

/-- What an ACK completes: a SIGNAL, or the operation that sent the message (R417). -/
def State.takeAck (s : State) (seq : W32) (st : St) : State :=
  match s.sph.sigOut.find? fun x => x.1 == seq with
  | some (_, q) => s.ackSignal q seq st
  | none =>
    match s.ops.find? fun o => o.sent && (waitOf o.waits seq.toNat).isSome with
    | some o => s.ackWrite o seq st
    | none => s

/-- SIPHON_ACK (R417). -/
def execSiphonAck (m : Msg) (s : State) : Host.Outcome State Fault Refusal :=
  done s (s.hear 0x09 m fun t => t.takeAck (BitVec.ofNat 32 (m.arg.toNat / 2 ^ 32)) (ackStatus (m.arg.toNat % 65536)))

/-- SIPHON_TIME (R315): `path` is t2 − t1 of the exchange that this message ends, with the calibrated asymmetry removed. -/
def execSiphonTime (m : Msg) (stamp : Nat) (path : Int) (s : State) : Host.Outcome State Fault Refusal :=
  done s (s.hear 0x10 m fun t => t.timeArrives m.arg.toNat stamp path)

/-- SIPHON_TIMEBASE (R422): a following standby takes the active module's values. -/
def execSiphonTimebase (m : Msg) (s : State) : Host.Outcome State Fault Refusal :=
  done s (s.hear 0x11 m fun t =>
    if t.tbFollows && t.sph.partnerRole == 0 then
      { t with tb := { t.tb with
          offset := BitVec.ofNat 80 (fieldAt m.payload 0 10), rate := BitVec.ofNat 40 (fieldAt m.payload 12 5)
          anchor := BitVec.ofNat 64 (fieldAt m.payload 20 8) } }.ppsRestart
    else t)

/-- SIPHON_HEARTBEAT (R423, R441): the partner's role and its input-low flag. -/
def execSiphonHeartbeat (m : Msg) (s : State) : Host.Outcome State Fault Refusal :=
  done s (s.hear 0x18 m fun t =>
    (t.setSph { t.sph with partnerRole := BitVec.ofNat 2 (fieldAt m.payload 0 1), partnerKnown := true, partnerLow := fieldAt m.payload 3 1 % 2 == 1 }).checkRoles)

/-- SIPHON_MIRROR (R420): a standby applies the write and shows its count. -/
def execSiphonMirror (m : Msg) (s : State) : Host.Outcome State Fault Refusal :=
  done s (s.hear 0x19 m fun t =>
    if t.sph.role == 1 && t.sph.partnerRole == 0 && t.inMain m.addr.toNat m.payload.length then
      let u := t.devStore m.addr.toNat (msgData m)
      u.setSph { u.sph with mirAt := m.arg }
    else t)

/-- SIPHON_ROLE (R418, R423, R424): the partner's role, a fence notice, or a last gasp. -/
def execSiphonRole (m : Msg) (s : State) : Host.Outcome State Fault Refusal :=
  done s (s.hear 0x1A m fun t =>
    let t1 := (t.setSph { t.sph with
      partnerRole := BitVec.ofNat 2 (m.arg.toNat % 4), partnerKnown := true, fenceNotice := t.sph.fenceNotice || m.arg.getLsbD 9 }).checkRoles
    if m.arg.getLsbD 8 then
      let t2 := t1.flag .sph 5
      if t1.sph.mayTakeOver && t1.sph.lastgasp then t2.takeOver else t2
    else t1)

/-! ## Heartbeats (R423) -/

/-- The payload of a HEARTBEAT (Table PRG-7): role, FAULT_OUT level, clusters present, input-low flag, last mirror count applied. -/
def State.heartbeatBytes (s : State) : List Byte :=
  [nb s.sph.role.toNat, nb (if s.faultOut then 1 else 0), nb s.clustersPresent, nb (if s.sys.inputLow then 1 else 0)] ++ repByte 4 0 ++
  leBytes 8 s.sph.mirAt.toNat ++ repByte 16 0

/-- HEARTBEAT_SEND (R422, R423): every 100 µs (64,000 counts), with the timebase of an active module. -/
def execHeartbeatSend (s : State) : Host.Outcome State Fault Refusal :=
  if s.sph.link = 2 && decide (s.sph.beatAt + 64000 ≤ s.now) then
    done s (((s.setSph { s.sph with beatAt := s.now }).siphonSend 0x18 0 0 0 0 0 s.now s.heartbeatBytes).sendTimebase s.now)
  else done s s

/-- The partner counts as silent after this many counts (R423). -/
def Sph.silence (x : Sph) : Nat := (if x.hbTimeout = 0 then 10 else x.hbTimeout.toNat) * 64000

/-- PARTNER_SILENT (R423, R424). -/
def execPartnerSilent (s : State) : Host.Outcome State Fault Refusal :=
  if s.sph.link = 2 && s.sph.alive && s.sph.lastHeard + s.sph.silence ≤ s.now then
    let t := (s.setSph { s.sph with alive := false }).flag .sph 4
    done s (if s.sph.mayTakeOver && s.sph.silent then t.takeOver else t)
  else done s s

end Sys2Proof.Machine
end

