-- ==== Sys2Proof/Machine/Regions.lean ====
section
/-! DEFINITION. Cistern regions that go: by abort, by the detach of their port or a device reset, and by drain (R131, R154, R156). -/
namespace Sys2Proof.Machine

/-- An address lies in a region. -/
def Region.has (r : Region) (a : Nat) : Bool := r.loc ≤ a && a < r.loc + r.len

/-- A range meets a region. -/
def Region.hit (g : Region) (r : Rng) : Bool := overlap g.loc g.len r.lo r.len

/-- An operation still reads or writes a region. -/
def PumpOp.inRegion (o : PumpOp) (g : Region) : Bool :=
  (o.kind != .put && o.data.isNone && overlap g.loc g.len o.src o.len) || ((o.kind == .move || o.kind == .put) && overlap g.loc g.len o.dst o.len)

/-- A command in flight, other than a PUMP, that has still to read or write a region. -/
def Cmd.inRegion (c : Cmd) (g : Region) : Bool := c.kind != .pump && (c.life == .issued || c.life == .started) && c.ranges.any g.hit

/-- A saved context part of which lay in a region that goes is lost (R156). -/
def State.loseSaved (s : State) (r : Region) : State :=
  { s with parts := s.parts.map fun (x : Part) =>
      { x with saved := x.saved.map fun (v : Saved) => { v with lost := v.lost || v.segs.any fun g => r.has g.1 } } }

/-- A region leaves the map for good. -/
def State.dropRegion (s : State) (r : Region) : State :=
  let t := (s.attnRegionLost r).loseSaved r
  { t with
    regions := t.regions.filter fun x => x.id != r.id
    cisPoison := t.cisPoison.filter fun b => !r.has b }

/-- A region released as by abort: what has not been sent of the operations and commands on it is dropped (R131, R156). -/
def State.abortRegion (s : State) (g : Region) : State :=
  let d := dieOfPort g.port
  let s1 := (s.ops.filter fun o => o.inRegion g).foldl (fun (t : State) o => (t.flag (.mem d) 9).dropOp o [.windowClosed]) s
  let s2 := s1.dropComing g.hit fun _ t => t.flag (.mem d) 9
  let s3 := ((s2.cmds.filter fun c => c.inRegion g).foldl (fun (t : State) c => (t.flag (.mem d) 9).abandon c .windowClosed) s2).attnSweep
  s3.dropRegion g

/-- Every region of a port released as by abort (R156). -/
def State.abortPort (s : State) (p : Port) : State := (s.regions.filter fun r => r.port == p).foldl (fun (t : State) r => t.abortRegion r) s

/-- A region drains, and no operation, command or page on its way is left on it (R131, R154). -/
def State.idleRegion (s : State) (g : Region) : Bool :=
  g.draining && !(s.ops.any fun o => o.inRegion g) && !(s.cmds.any fun c => c.inRegion g || c.unmadeIn g.hit) &&
  !(s.spills.any fun x => g.has x.span) && !(s.returns.any fun x => g.has x.span)

/-- A window drains, and nothing is left in flight through it (R131). -/
def State.idleWindow (s : State) (w : Window) : Bool :=
  w.draining && !(s.ops.any fun o => o.windows.contains w.id) && !(s.cmds.any fun c => c.unmadeIn w.hit)

/-- Regions and windows that drain and have nothing left in flight are gone (R131, R154). -/
def State.drained (s : State) : State :=
  let s1 := (s.regions.filter s.idleRegion).foldl (fun (t : State) r => t.dropRegion r) s
  { s1 with windows := s1.windows.filter fun w => !s1.idleWindow w }

end Sys2Proof.Machine
end

