-- ==== Sys2Proof/Machine/Mailbox.lean ====
section
/-! DEFINITION. Mailboxes (chapter MBX, R42 to R49): the ring of a slot, the checks common to every message, answers, and the messages of that
chapter; attaching and detaching a port (R55, R56, R475). -/
namespace Sys2Proof.Machine

/-! ## Requests and answers (Tables MBX-6 to MBX-8) -/

def Slot.opcode (x : Slot) : Nat := fieldAt x.req 0 2
def Slot.len (x : Slot) : Nat := fieldAt x.req 2 2
def Slot.tag (x : Slot) : Nat := fieldAt x.req 4 4
def Slot.part (x : Slot) : Nat := fieldAt x.req 8 2
/-- A little-endian field of the payload. -/
def Slot.pay (x : Slot) (off len : Nat) : Nat := fieldAt x.req (16 + off) len
/-- Bytes of the payload. -/
def Slot.payBytes (x : Slot) (off len : Nat) : List Byte := bytesAt x.req (16 + off) len
/-- The partition named in the header. -/
def Slot.partId (x : Slot) : PartId := Fin.ofNat 16 x.part

/-- A request leaves the list of those that wait or run. -/
def State.dropReq (s : State) (p : Port) (i : SlotId) : State := { s with reqs := s.reqs.filter fun r => r != (p, i) }

/-- The response of a slot (Table MBX-7) with status, reason and offset; DONE sets as BUSY clears, and vector 0 is raised if enabled (R43). The
response of an orphaned request is discarded and its slot freed, the response area keeping what Goride wrote there last (R42, R55). -/
def State.respond (s : State) (p : Port) (i : SlotId) (st : St) (reason off : Nat) (payload : List Byte) : State :=
  let x := s.slot p i
  let t := s.dropReq p i
  if x.orphaned then t.setSlot p i { x with busy := false, done := false, orphaned := false, started := false, count := 0 }
  else
    let h := leBytes 2 x.opcode ++ leBytes 2 payload.length ++ leBytes 4 x.tag ++ leBytes 2 st.code ++ repByte 2 0 ++ leBytes 2 reason ++ leBytes 2 off
    let t1 := t.setSlot p i { x with resp := bytesAt (h ++ payload) 0 512, busy := false, done := true, started := false, count := 0 }
    if (t1.port p).doneIrqEn then t1.raise p 0 else t1


/-- Opcodes of the catalogue with the payload lengths that they require (Table MBX-9). -/
def catalogue : List (Nat × Nat × Nat) :=
  [(0x0001, 0, 0), (0x0002, 8, 8), (0x0003, 0, 0), (0x0004, 0, 0), (0x0005, 0, 0), (0x0006, 8, 8), (0x0010, 32, 32), (0x0011, 0, 0),
   (0x0012, 0, 0), (0x0013, 0, 0), (0x0014, 32, 32), (0x0020, 24, 24), (0x0021, 8, 8), (0x0022, 32, 32), (0x0023, 8, 8), (0x0030, 8, 8),
   (0x0031, 8, 8), (0x0032, 8, 8), (0x0033, 8, 8), (0x0040, 16, 496), (0x0041, 0, 0), (0x0042, 0, 0), (0x0043, 16, 496), (0x0044, 40, 40),
   (0x0045, 8, 8), (0x0046, 8, 8)]

/-- What a message needs of the partition in its header: nothing more than that a partition it names is open; its owner's port; an ORPHANED one; or
nothing at all (PART_OPEN, which names a CLOSED one). -/
inductive Need where
  | any | owner | adopt | nothing
  deriving DecidableEq, Repr

/-- The offset of a field that must be zero, when it is not (Table MBX-7: the offset of the field). -/
def nonzeroAt (bs : List Byte) (off len : Nat) : List Nat :=
  if (bytesAt bs off len).any fun b => b != 0 then [off] else []

/-- The least of two refusals. -/
def minBad (x y : Nat × Nat) : Nat × Nat := if x.1 < y.1 || (x.1 == y.1 && x.2 ≤ y.2) then x else y

/-- The refusal that comes first in Table MBX-8, and among the fields of one row the first. -/
def firstBad : List (Nat × Nat) → Option (Nat × Nat)
  | [] => none
  | x :: xs => some (xs.foldl minBad x)

/-- The refusals that the partition in the header gives (reason 0x0005, R47, R57, R484). -/
def State.partBad (s : State) (p : Port) (x : Slot) (need : Need) : List (Nat × Nat) :=
  if x.part = 0xFFFF then (if need == .owner || need == .adopt then [(5, 8)] else [])
  else if 16 ≤ x.part then [(4, 8)]
  else
    let y := s.parts[x.partId]
    match need with
    | .nothing => []
    | .any => if y.state == .closed || y.state == .orphaned then [(5, 8)] else []
    | .owner => if s.owns p x.partId then [] else [(5, 8)]
    | .adopt => if y.state == .orphaned then [] else [(5, 8)]

/-- The refusal of a request (R47): its length, its header, the fields that the message's own chapter finds failing, its partition, and whether
its port is attached. -/
def State.mailBad (s : State) (p : Port) (x : Slot) (need : Need) (fields : List (Nat × Nat)) : Option (Nat × Nat) :=
  match catalogue.find? fun c => c.1 == x.opcode with
  | none => some (1, 0)
  | some (_, lo, hi) =>
    if x.len < lo || hi < x.len then some (2, 2)
    else
      let free := x.opcode = 1 || x.opcode = 2 || x.opcode = 0x43
      firstBad ((nonzeroAt x.req 10 6).map (fun o => (3, o)) ++ fields ++ s.partBad p x need ++
        if (s.port p).attached || free then [] else [(6, 0xFFFF)])

/-- What a request names (R44; log entry 213): the partition of its header, or that of a determinism MODE_SET's scope; its mode set; the unit, core
or engine of its payload; the region or window that it releases; the one update buffer. -/
def Slot.names (x : Slot) : List Nat :=
  let op := x.opcode
  (if x.part < 16 then [x.part] else []) ++
  (if op = 0x0006 then (100 + x.pay 0 1) :: (if x.pay 0 1 = 1 && x.pay 2 2 < 16 then [x.pay 2 2] else []) else []) ++
  (if 0x30 ≤ op && op ≤ 0x32 then [1000 + x.pay 0 2] else []) ++
  (if op = 0x33 then [70000 + x.pay 0 2] else []) ++
  (if op = 0x21 then [140000 + x.pay 0 1] else []) ++
  (if op = 0x23 then [150000 + x.pay 0 1] else []) ++
  (if 0x40 ≤ op && op ≤ 0x43 then [900] else [])

/-- No earlier request names anything that this one names (R44). -/
def State.itsTurn (s : State) (p : Port) (i : SlotId) : Bool :=
  let mine := (s.slot p i).names
  !((s.reqs.takeWhile fun r => r != (p, i)).any fun r => (s.slot r.1 r.2).names.any fun k => mine.contains k)

/-- Goride, or the boot ROM, runs and answers the mailboxes. -/
def State.answers (s : State) : Bool := s.sys.boot != .stopped && s.sys.rails == .on

/-- A request may run now: its slot is BUSY, it has the row's opcode, and no earlier request names the same thing (R44). -/
def State.mailRuns (s : State) (p : Port) (i : SlotId) (opcode : Nat) : Bool :=
  (s.slot p i).busy && (s.slot p i).opcode == opcode && s.answers && s.itsTurn p i

/-- A request that no message's row takes: an opcode outside the catalogue, or a MODE_SET of a mode set or pairing value that does not exist (R47,
R49). -/
def Slot.rowless (x : Slot) : Bool :=
  !(catalogue.any fun c => c.1 == x.opcode) ||
  (x.opcode == 6 && (x.pay 0 1 == 3 || 6 < x.pay 0 1 || (x.pay 0 1 == 2 && 1 < x.pay 1 1)))

/-- Such a request answered. -/
def State.answerRowless (s : State) (p : Port) (i : SlotId) : State :=
  let x := s.slot p i
  if s.sys.fwState.toNat < 3 then s.respond p i .notReady 0 0xFFFF []
  else
    let field := if x.pay 0 1 == 2 then [(4, 17)] ++ (if 3 < x.pay 2 2 then [(4, 18)] else []) else [(4, 16)]
    match s.mailBad p x .any (field ++ (nonzeroAt x.req 20 4).map fun o => (3, o)) with
    | some (r, o) => s.respond p i .badCommand r o []
    | none => s

/-- The requests that no row takes, each answered when it is its turn (R44, R47). -/
def State.answerWaiting (s : State) : State :=
  s.reqs.foldl (fun (t : State) r =>
    if (t.slot r.1 r.2).busy && (t.slot r.1 r.2).rowless && t.answers && t.itsTurn r.1 r.2 then t.answerRowless r.1 r.2 else t) s

/-- A response, and the answers of the requests without a row whose turn has come with it (R43, R44). -/
def State.answer (s : State) (p : Port) (i : SlotId) (st : St) (reason off : Nat) (payload : List Byte) : State :=
  (s.respond p i st reason off payload).answerWaiting

/-- ST_OK with a payload. -/
def State.answerOk (s : State) (p : Port) (i : SlotId) (payload : List Byte) : State := s.answer p i .ok 0 0xFFFF payload
/-- A status other than ST_OK and ST_BAD_COMMAND, with no payload but the zeros given. -/
def State.answerSt (s : State) (p : Port) (i : SlotId) (st : St) : State := s.answer p i st 0 0xFFFF []
/-- ST_BAD_COMMAND with its reason and offset. -/
def State.answerBad (s : State) (p : Port) (i : SlotId) (reason off : Nat) : State := s.answer p i .badCommand reason off []

/-- A message's row: nothing unless the request may run; the answers of the boot (R45); a refusal (R47); or the message's own effect. A request
in progress is not checked again. A request that was rung but had not started when its port was detached is checked like any other, so that most are
refused with reason 6, and the answer is discarded (R55; log entry 212). -/
def State.mailRow (s : State) (p : Port) (i : SlotId) (opcode : Nat) (need : Need) (fields : List (Nat × Nat)) (body : State → State) : State :=
  let x := s.slot p i
  if !s.mailRuns p i opcode then s
  else if x.started then body s
  else if s.sys.fwState.toNat < 3 && opcode ≠ 1 && opcode ≠ 0x43 then s.answerSt p i .notReady
  else match s.mailBad p x need fields with
    | some (r, o) => s.answerBad p i r o
    | none => body s

/-- A request stays in progress. -/
def State.keepReq (s : State) (p : Port) (i : SlotId) : State := s.setSlot p i { s.slot p i with started := true }

/-- A slot rung: a free one becomes BUSY and joins the requests; any other ring is refused (R42, R45). -/
def State.ringSlot (s : State) (p : Port) (i : SlotId) : State :=
  let x := s.slot p i
  if s.sys.fwState = 4 || x.busy || x.done then s.flag .mbx 0
  else
    let t := (s.setSlot p i { x with busy := true, started := false, count := 0, orphaned := false })
    { t with reqs := t.reqs ++ [(p, i)] }.answerWaiting

/-- MBX_RING (R42 to R45). -/
def execMbxRing (p : Port) (mask : W32) (s : State) : Host.Outcome State Fault Refusal :=
  done s (s.hostRow p ((allFin 32).foldl (fun (t : State) i => if mask.getLsbD i.val then t.ringSlot p i else t) s))

/-! ## GET_INFO, HOST_ATTACH, HEARTBEAT (R48, R55) -/

/-- A bit mask of the partitions that meet a test. -/
def partBits (f : PartId → Bool) : Nat := (allFin 16).foldl (fun (m : Nat) p => if f p then m + 2 ^ p.val else m) 0

/-- GET_INFO (R48, Table MBX-10). -/
def execGetInfo (p : Port) (i : SlotId) (s : State) : Host.Outcome State Fault Refusal :=
  done s (s.mailRow p i 1 .any [] fun t =>
    t.answerOk p i (bytesAt t.trb.running 8 4 ++ bytesAt t.trb.running 12 4 ++ leBytes 8 Config.serial.toNat ++ leBytes 4 t.coresPresent ++
      leBytes 2 (partBits fun q => t.parts[q].isOpen) ++ leBytes 2 (partBits fun q => t.owns p q) ++ leBytes 8 t.mainEnd ++ leBytes 8 t.now ++ repByte 24 0))

/-- HOST_ATTACH (R55, R57, Table MBX-10): vector 2 tells the other port. -/
def execHostAttach (p : Port) (i : SlotId) (s : State) : Host.Outcome State Fault Refusal :=
  let x := s.slot p i
  let hb := x.pay 0 2
  let bad := (nonzeroAt x.req 19 5).map (fun o => (3, o)) ++ (if hb ≠ 0 && (hb < 10 || 10000 < hb) then [(4, 16)] else []) ++
    (if 1 < x.pay 2 1 then [(4, 18)] else [])
  done s (s.mailRow p i 2 .any bad fun t =>
    let t1 := t.setPort p { t.port p with attached := true, hbPeriod := hb, hbLast := t.now, policyClose := x.pay 2 1 == 1 }
    (t1.answerOk p i (leBytes 2 (partBits fun q => t1.parts[q].state == .orphaned) ++ repByte 2 0 ++ leBytes 4 t1.sys.resetCount.toNat)).raise p.other 2)

/-- HEARTBEAT (R55). -/
def execHeartbeat (p : Port) (i : SlotId) (s : State) : Host.Outcome State Fault Refusal :=
  done s (s.mailRow p i 4 .any [] fun t => (t.setPort p { t.port p with hbLast := t.now }).answerOk p i (leBytes 8 t.now))

/-! ## Detaching (R55, R56, R475) -/

/-- The state a partition would have were it not ORPHANED. -/
def Part.under (x : Part) : PState := if x.state == .orphaned then x.wasState else x.state

/-- The partition with that state replaced. -/
def Part.setUnder (x : Part) (st : PState) : Part := if x.state == .orphaned then { x with wasState := st } else { x with state := st }

/-- The update buffer emptied and unbound (R451). -/
def State.dropStaged (s : State) : State := { s with trb := { s.trb with staged := {}, stagedPort := none, verified := false } }

/-- Every semaphore that a port holds is released as broken; the mask of those (R55). -/
def State.breakSems (s : State) (p : Port) : State × Nat :=
  (allFin 64).foldl (fun (acc : State × Nat) (i : SemId) =>
    let x := acc.1.sems[i]
    if x.held && x.owner == p then ({ acc.1 with sems := acc.1.sems.set i { x with held := false, broken := true } }, acc.2 + 2 ^ i.val) else acc) (s, 0)

/-- Every partition that a port owns becomes ORPHANED with its policy (R55). -/
def State.orphan (s : State) (p : Port) : State :=
  (allFin 16).foldl (fun (t : State) q =>
    let x := t.parts[q]
    if t.owns p q then t.setPart q { x with wasState := x.state, state := .orphaned } else t) s

/-- A port is detached for a cause of Table TRB-7; its cistern regions go as by abort (R156), and the slot that carried a HOST_DETACH is kept for
its answer (R55). -/
def State.detach (s : State) (p : Port) (cause : Nat) (keep : Option SlotId) : State :=
  if !(s.port p).attached then s
  else
    let pn := p.idx.val
    let t0 := s.setPort p { s.port p with attached := false, hbPeriod := 0 }
    let t1 := { t0 with sys := { t0.sys with detachCount := t0.sys.detachCount + 1 } }
    let t2 := (t1.flagIf (cause == 4) .mbx (6 + pn)).flagIf (cause == 1 || cause == 5) .mbx (8 + pn)
    let (t3, mask) := t2.breakSems p
    let t4 := t3.log 0x0004 20 pn ([nb pn, nb cause] ++ leBytes 8 mask)
    let t5 := ((t4.orphan p).abortPort p).ethDetach p
    let t6 := (allFin 32).foldl (fun (u : State) i =>
      let x := u.slot p i
      if x.busy && keep != some i then u.setSlot p i { x with orphaned := true } else u) t5
    (if t6.trb.stagedPort == some p then t6.dropStaged else t6).raise p.other 2

/-- HOST_DETACH (R55): the port is detached and the request answered. -/
def execHostDetach (p : Port) (i : SlotId) (s : State) : Host.Outcome State Fault Refusal :=
  done s (s.mailRow p i 3 .any [] fun t => (t.detach p 0 (some i)).answerOk p i [])

/-- HEARTBEAT_LAPSE (R55): three heartbeat periods without a HEARTBEAT. -/
def execHeartbeatLapse (p : Port) (s : State) : Host.Outcome State Fault Refusal :=
  let h := s.port p
  if h.attached && h.hbPeriod ≠ 0 && h.hbLast + 3 * h.hbPeriod * 640000 ≤ s.now then done s (s.detach p 4 none) else done s s

/-- A port's link goes down. -/
def State.portLinkLost (s : State) (p : Port) : State := s.setPort p { s.port p with link := false }

/-- PCIE_LINK_DOWN (R55). -/
def execPcieLinkDown (p : Port) (s : State) : Host.Outcome State Fault Refusal :=
  if (s.port p).link then done s ((s.detach p 1 none).portLinkLost p) else done s s

/-- A function's configuration returns to reset as PCI Express requires (R35, R50); AER keeps what it holds, as it does over any reset but PERST (log
entry 209). -/
def State.resetFunction (s : State) (p : Port) : State :=
  let h := s.port p
  s.setPort p { h with bar2Base := 0, bar2Log2 := 34, doneIrqEn := false, msix := .replicate 64 {}, d3hot := false }

/-- PCIE_HOT_RESET (R35, R55). -/
def execPcieHotReset (p : Port) (s : State) : Host.Outcome State Fault Refusal :=
  if (s.port p).link then done s ((s.detach p 2 none).resetFunction p) else done s s

/-- D3HOT_ENTRY (R55, Table MBX-1): the port is detached, and its function is in D3hot until its host writes D0 (State.writeFunction). -/
def execD3hotEntry (p : Port) (s : State) : Host.Outcome State Fault Refusal :=
  if (s.port p).link then
    let t := s.detach p 3 none
    done s (t.setPort p { t.port p with d3hot := true })
  else done s s

/-- PERST_ASSERT (R475): the port is detached as by a link-down, logged with its own cause, and its link is held in reset. What AER
holds goes with the function's reset (log entry 209). -/
def execPerstAssert (p : Port) (s : State) : Host.Outcome State Fault Refusal :=
  let t := if (s.port p).link then ((s.detach p 5 none).resetFunction p).portLinkLost p else s
  done s (t.setPort p { t.port p with perst := true, aer := [] })

/-! ## MODE_SET (R12, R49, R306, R351, R418, R427) -/

/-- The checks of a MODE_SET: value below `values`, scope below `scopes`, or for `scopes` 0 a scope that must be zero. -/
def Slot.modeBad (x : Slot) (values scopes : Nat) : List (Nat × Nat) :=
  (nonzeroAt x.req 20 4).map (fun o => (3, o)) ++ (if values ≤ x.pay 1 1 then [(4, 17)] else []) ++
  (if scopes = 0 then (if x.pay 2 2 ≠ 0 then [(3, 18)] else []) else if scopes ≤ x.pay 2 2 then [(4, 18)] else [])

/-- The response of a MODE_SET: previous value and value in effect. -/
def modeAnswer (prev now : Nat) : List Byte := [nb prev, nb now] ++ repByte 6 0

/-- A MODE_SET row: the mode set of the row, and what its value does. -/
def State.modeRow (s : State) (p : Port) (i : SlotId) (set values scopes : Nat) (more : List (Nat × Nat)) (body : State → State) : State :=
  let x := s.slot p i
  if x.pay 0 1 = set then s.mailRow p i 6 .any (x.modeBad values scopes ++ more) body else s

/-- MODE_SET_POWER (R427). -/
def execModeSetPower (p : Port) (i : SlotId) (s : State) : Host.Outcome State Fault Refusal :=
  done s (s.modeRow p i 0 4 0 [] fun t =>
    let v := (t.slot p i).pay 1 1
    ({ t with pm := { t.pm with mode := BitVec.ofNat 2 v } }).answerOk p i (modeAnswer t.pm.mode.toNat v))

/-- A command or a strainer sample of a partition may still make a counted choice (R306, R308). -/
def State.mayChoose (s : State) (q : PartId) : Bool :=
  s.cmds.any (fun c => c.part == q && c.relaxed && c.life != .ended) ||
  (allFin 16).any fun i => !s.pipes[i].blk.isEmpty && s.pipes[i].part == q &&
    s.pipes[i].job.any fun j => j.runs.any fun r => r.relaxed && r.report.isNone

/-- MODE_SET_DETERMINISM (R49, R306): a change to STRICT is answered only when nothing started as RELAXED can make a counted choice any more. -/
def execModeSetDeterminism (p : Port) (i : SlotId) (s : State) : Host.Outcome State Fault Refusal :=
  let x := s.slot p i
  let q : PartId := Fin.ofNat 16 (x.pay 2 2)
  done s (s.modeRow p i 1 2 16 (if x.pay 2 2 < 16 && !s.owns p q then [(5, 18)] else []) fun t =>
    let was := t.parts[q].relaxed
    let v := x.pay 1 1 == 1
    if was && !v && t.mayChoose q then t.keepReq p i
    else (t.setPart q { t.parts[q] with relaxed := v }).answerOk p i (modeAnswer (if was then 1 else 0) (x.pay 1 1)))

/-- The port that may set a pipeline's augmentation source (R351). -/
def State.mayAugment (s : State) (p : Port) (pl : PipeId) : Bool :=
  s.pipes[pl].state == .off || s.owns p s.pipes[pl].part

/-- MODE_SET_AUGMENTATION (R49, R351). -/
def execModeSetAugmentation (p : Port) (i : SlotId) (s : State) : Host.Outcome State Fault Refusal :=
  let x := s.slot p i
  let pl : PipeId := Fin.ofNat 16 (x.pay 2 2)
  done s (s.modeRow p i 4 2 16 (if x.pay 2 2 < 16 && !s.mayAugment p pl then [(5, 18)] else []) fun t =>
    let y := t.pipes[pl]
    ({ t with pipes := t.pipes.set pl { y with hostSrc := x.pay 1 1 == 1 } }).answerOk p i (modeAnswer (if y.hostSrc then 1 else 0) (x.pay 1 1)))

/-- MODE_SET_INLINE_ECC (R12, R49): the value waits for the next device reset, and the response reports the old one. -/
def execModeSetInlineEcc (p : Port) (i : SlotId) (s : State) : Host.Outcome State Fault Refusal :=
  let x := s.slot p i
  done s (s.modeRow p i 5 2 0 [] fun t =>
    let old := if t.sys.eccOn then 0 else 1
    ({ t with sys := { t.sys with eccPending := some (x.pay 1 1 == 0) } }).answerOk p i (modeAnswer old old))

/-- MODE_SET_SIPHON_ROLE (R418, R424): the role takes effect, the transmitters come back on, and the partner is told. -/
def execModeSetSiphonRole (p : Port) (i : SlotId) (s : State) : Host.Outcome State Fault Refusal :=
  let x := s.slot p i
  done s (s.modeRow p i 6 3 0 [] fun t =>
    let v := x.pay 1 1
    let t0 := t.setSph { t.sph with role := BitVec.ofNat 2 v, txDark := false }
    let t1 := if t.sph.role.toNat = v then t0 else t0.log 0x0007 17 0 [3]
    ((t1.sendRole 0).checkRoles).answerOk p i (modeAnswer t.sph.role.toNat v))

end Sys2Proof.Machine
end

