-- ==== Sys2Proof/Machine/Pairing.lean ====
section
/-! DEFINITION. Paired clusters (chapter PRG, R400 to R414): entering and leaving PAIRED, a mismatch and the self-test after it, debug actions; and
the mirrored regions (R420). -/
namespace Sys2Proof.Machine

/-- The state with one pair replaced. -/
def State.setPair (s : State) (r : PairId) (x : Pair) : State := { s with pairs := s.pairs.set r x }

/-! ## Half-wells and pools of a cluster -/

/-- The half-wells and the pool of a cluster. -/
def partsOfClus (c : ClusId) : List WellPart := allParts.filter fun r => partClus r == c

/-- The part of the other cluster of a pair in the same place. -/
def twin : WellPart → WellPart
  | .half h => .half (Fin.ofNat 64 (h.val + 32))
  | .pool c => .pool (Fin.ofNat 8 (c.val + 4))

/-- A part that is ON loses its contents and becomes UNFILLED (R136, R408, R410). -/
def State.unfill (s : State) (r : WellPart) : State :=
  let x := s.wctl r
  if x.st == .on || x.st == .unfilled then (s.setWctl r { x with st := .unfilled }).undefine (partSpan r).1 (partSpan r).2 else s

/-- Every part of a cluster that is powered becomes UNFILLED. -/
def State.unfillClus (s : State) (c : ClusId) : State := (partsOfClus c).foldl (fun (t : State) r => t.unfill r) s

/-- Module memory copied with everything that belongs to it: bytes, undefined stretches, poison and stored bit errors. -/
def State.clone (s : State) (src dst len : Nat) : State :=
  let inSrc := fun a => src ≤ a && a < src + len
  let outDst := fun a => a < dst || dst + len ≤ a
  let up := fun a => a - src + dst
  let words := fun (l : List Nat) => (l.filter fun w => outDst (8 * w)) ++ (l.filter fun w => inSrc (8 * w)).map fun w => up (8 * w) / 8
  let moved := ((s.undef.filter fun u => overlap u.lo (u.hi - u.lo) src len).map fun u => { u with lo := up (max u.lo src), hi := up (min u.hi (src + len)) })
  { s with
    mem := (s.mem.filter fun c => c.1 < dst) ++ ((s.mem.filter fun c => inSrc c.1).map fun c => (up c.1, c.2)) ++ (s.mem.filter fun c => dst + len ≤ c.1)
    undef := moved ++ undefCut s.undef dst len
    poison := ((s.poison.filter inSrc).map up).foldl (fun l b => insertNat b l) (s.poison.filter outDst)
    ecc := { s.ecc with sbe := words s.ecc.sbe, dbe := words s.ecc.dbe } }

/-- A part's power state and contents taken over by the part in the same place of the other cluster (R406, R410). -/
def State.mirrorPart (s : State) (r : WellPart) : State :=
  let x := s.wctl r
  let t := s.setWctl (twin r) { s.wctl (twin r) with st := x.st, port := none, since := 0, ops := [], cmds := [] }
  let pd := partPd (twin r)
  let on := x.st == .on || x.st == .unfilled
  let u := { t with pdOn := if on then t.pdOn ||| BitVec.ofNat 128 (2 ^ pd.val) else t.pdOn &&& ~~~BitVec.ofNat 128 (2 ^ pd.val) }
  if x.st == .on then u.clone (partSpan r).1 (partSpan (twin r)).1 (partSpan r).2
  else if x.st == .unfilled then u.undefine (partSpan (twin r)).1 (partSpan (twin r)).2
  else u

/-- The logic domains of a cluster: its cores and its fabric (Table ORG-2). -/
def logicPds (c : ClusId) : List Nat := [4 * c.val, 4 * c.val + 1, 4 * c.val + 2, 4 * c.val + 3, 104 + c.val]

/-- The checker takes the power states and the contents of the main side (R406). -/
def State.mirrorClus (s : State) (main chk : ClusId) : State :=
  let t := (partsOfClus main).foldl (fun (u : State) r => u.mirrorPart r) s
  let bits := ((logicPds main).zip (logicPds chk)).foldl (fun (m : BitVec 128) x =>
    if t.pdOn.getLsbD x.1 then m ||| BitVec.ofNat 128 (2 ^ x.2) else m &&& ~~~BitVec.ofNat 128 (2 ^ x.2)) t.pdOn
  { t with pdOn := bits }

/-! ## Entering and leaving (R400, R401, R406 to R408) -/

/-- A core of a cluster belongs to an open partition. -/
def State.clusOwned (s : State) (c : ClusId) : Bool := (allFin 32).any fun n => clusOfCore n == c && (s.partOfCore n).isSome

/-- PRG_PAIR_SAVE names 50 MiB of mapped main memory aligned to 1 MiB. -/
def State.saveAreaOk (s : State) (x : Pair) : Bool := x.save.toNat % 0x100000 == 0 && s.inMain x.save.toNat 0x3200000

/-- An engine or quantisation command that has started on a cluster and has still to run. -/
def Cmd.runsOn (x : Cmd) (c : ClusId) : Bool :=
  x.life == .started && match x.place with
    | .core n => clusOfCore n == c
    | .quant n => clusOfCore n == c
    | .corePump _ => false
    | .clusPump _ => false
    | .fle _ => false
    | .none => false

/-- The running commands of a cluster are told to stop at their next pre-emption points, for its entry into PAIRED (Table PRG-4, step 2). -/
def State.stopClus (s : State) (c : ClusId) : State :=
  { s with cmds := s.cmds.map fun (x : Cmd) => if x.runsOn c && x.stop.isNone then { x with stop := some .pair } else x }

/-- The units of a cluster have come to rest: no command that runs on it has still to reach its point, no operation of its cores is in flight, and none of its
parts is in its power-down gate or powering up (Table PRG-4, steps 1 and 2). -/
def State.clusQuiet (s : State) (c : ClusId) : Bool :=
  !(s.ops.any fun o => clusOfCore o.core == c) && !(s.cmds.any fun x => x.runsOn c && x.stop.isSome) &&
  (partsOfClus c).all fun r => (s.wctl r).st != .closing && (s.wctl r).st != .powering

/-- The entry completes: the comparator test passed, and the pair is PAIRED; or it failed, and the main side goes on alone (R406, R407). -/
def State.enterPair (s : State) (p : Port) (i : SlotId) (r : PairId) (testOk : Bool) : State :=
  let x := s.pairs[r]
  if testOk then
    let t := s.mirrorClus (x.mainClus r) (x.checker r)
    ((t.setPair r { x with state := .paired, group := 0 }).applySkip).answerOk p i (modeAnswer 1 0)
  else
    let t := (s.setPair r { x with state := .split, refusals := satAdd 8 x.refusals 1 }).flag .prg 2
    t.answerSt p i .pairRefused

/-- MODE_SET_PAIRED (R401, R406, Table PRG-1). -/
def execModeSetPaired (p : Port) (i : SlotId) (testOk : Bool) (s : State) : Host.Outcome State Fault Refusal :=
  let m := s.slot p i
  let r : PairId := Fin.ofNat 4 (m.pay 2 2)
  if m.pay 0 1 ≠ 2 || m.pay 1 1 ≠ 0 then done s s
  else done s (s.modeRow p i 2 2 4 [] fun t =>
    let x := t.pairs[r]
    let side : Fin 2 := if x.main then 1 else 0
    if x.state == .entering && m.started then
      if t.clusQuiet (x.mainClus r) then t.enterPair p i r testOk else t
    else if x.state == .paired || x.state == .leaving then t.answerOk p i (modeAnswer 0 0)
    else if !t.sys.die1 || x.state == .testing || x.state == .resync || x.state == .entering then t.answerSt p i .notReady
    else if t.clusFenced (clusOfPair r 0) || t.clusFenced (clusOfPair r 1) then t.answerSt p i .fenced
    else
      let y := { x with mainDie := side, state := .entering }
      if t.clusOwned (y.checker r) || !t.saveAreaOk x then t.answerSt p i .noResource
      else
        let u := ((t.setPair r y).stopClus (y.mainClus r)).keepReq p i
        if u.clusQuiet (y.mainClus r) then u.enterPair p i r testOk else u)

/-- The checker let go: its engines idle, its state cleared, its parts UNFILLED; its skip value is its own again (R408). -/
def State.leavePair (s : State) (r : PairId) : State :=
  let x := s.pairs[r]
  ((s.unfillClus (x.checker r)).setPair r { x with state := .split }).applySkip

/-- MODE_SET_SPLIT (R408): the request records the count and the comparators judge every main cycle before it; run again, the checker is let go. -/
def execModeSetSplit (p : Port) (i : SlotId) (s : State) : Host.Outcome State Fault Refusal :=
  let m := s.slot p i
  let r : PairId := Fin.ofNat 4 (m.pay 2 2)
  if m.pay 0 1 ≠ 2 || m.pay 1 1 ≠ 1 then done s s
  else done s (s.modeRow p i 2 2 4 [] fun t =>
    let x := t.pairs[r]
    match x.state with
    | .paired => (t.setPair r { x with state := .leaving, splitWaits := some (p, i) }).keepReq p i
    | .leaving =>
      if m.started then
        let u := t.leavePair r
        (u.setPair r { u.pairs[r] with splitWaits := none }).answerOk p i (modeAnswer 0 1)
      else t
    | .testing => (t.setPair r { x with splitWaits := some (p, i) }).keepReq p i
    | .resync => (t.setPair r { x with splitWaits := some (p, i) }).keepReq p i
    | .entering => t
    | .split => t.answerOk p i (modeAnswer 1 1)
    | .degraded => (t.setPair r { x with state := .split }).answerOk p i (modeAnswer 1 1))

/-! ## Mismatch and self-test (R409 to R412) -/

/-- A command runs on a unit of a cluster. -/
def Cmd.onClus (c : Cmd) (k : ClusId) : Bool :=
  match c.place with
  | .core n => clusOfCore n == k
  | .quant n => clusOfCore n == k
  | .corePump n => clusOfCore n == k
  | .clusPump n => clusOfCore n == k
  | .fle _ => false
  | .none => false

/-- Bits of each signature group in a cycle (Table PRG-2). -/
def sigWidths : List Nat := [2048, 192, 96, 128, 64, 64]

/-- One bit of the CRC-64 register, the highest first (R404). -/
def crc64Bit (c : W64) : W64 := if c.msb then (c <<< 1) ^^^ 0x42F0E1EBA9EA3693 else c <<< 1

/-- The CRC-64 register after one byte. -/
def crc64Byte (c : W64) (b : Byte) : W64 := (List.range 8).foldl (fun r _ => crc64Bit r) (c ^^^ (BitVec.ofNat 64 b.toNat <<< 56))

/-- The CRC-64 of ECMA-182 over bytes: initial value 0, no reflection, no final inversion (R404). -/
def crc64 (bs : List Byte) : W64 := bs.foldl crc64Byte 0

/-- The bytes of the six groups' values in a cycle, in ascending order, each least significant byte first (R404); a group that a list leaves out is idle. -/
def sigBytes (gs : List Nat) : List Byte := (sigWidths.zip (List.range 6)).flatMap fun (w, i) => leBytes (w / 8) (gs.getD i 0 % 2 ^ w)

/-- The signature of a cluster in a cycle (R404). -/
def signature (gs : List Nat) : W64 := crc64 (sigBytes gs)

/-- The first group in which two clusters differ in a cycle. -/
def firstGroup (xs ys : List Nat) : Nat :=
  ((sigWidths.zip (List.range 6)).find? fun (w, i) => xs.getD i 0 % 2 ^ w != ys.getD i 0 % 2 ^ w).elim 0 (·.2)

/-- PAIR_MISMATCH (R404, R405, R409): `driven` holds the values that the two clusters drive in main cycle t. Where their signatures differ, the commands in
flight on the main cluster end at once and their write ranges are poisoned; each cluster is written to its half of the save area and the self-test begins. A
second mismatch during the flow adds nothing (R412). -/
def execPairMismatch (r : PairId) (t : Nat) (driven : Driven) (s : State) : Host.Outcome State Fault Refusal :=
  let x := s.pairs[r]
  if (x.state == .paired || x.state == .leaving) && signature driven.main != signature driven.chk then
    let k := x.mainClus r
    let hit := s.cmds.filter fun c => c.inFlight && c.onClus k
    let s1 := s.setPair r { x with
      state := .testing, mismatches := satAdd 8 x.mismatches 1, group := BitVec.ofNat 4 (firstGroup driven.main driven.chk), evt := BitVec.ofNat 64 t, ended := hit }
    let s2 := hit.foldl (fun (u : State) c => u.abandon c .pairMismatch) (s1.flag .prg 0)
    done s (s2.undefine x.save.toNat 0x3200000)
  else done s s

/-- A half-well, not a pool. -/
def WellPart.isHalf : WellPart → Bool
  | .half _ => true
  | .pool _ => false

/-- A cluster of the pair is fenced by the outcome: the march has left its wells UNFILLED, and its pool keeps its contents (R410, Table PRG-5). -/
def State.fenceClus (s : State) (c : ClusId) : State :=
  let t := { s with trb := { s.trb with fenced := ⟨0, c.val⟩ :: s.trb.fenced } }
  (((partsOfClus c).filter WellPart.isHalf).foldl (fun (u : State) r => u.unfill r) t).logUnit 0 c.val 0 .ok

/-- The partitions that hold cores of a cluster. -/
def State.holders (s : State) (c : ClusId) : List PartId :=
  (allFin 16).filter fun p => s.parts[p].isOpen && (s.parts[p].coreList.any fun n => clusOfCore n == c)

/-- A core of a moved cluster is replaced by the one 16 higher or lower. -/
def movedCore (k : ClusId) (n : CoreId) : CoreId := if clusOfCore n == k then Fin.ofNat 32 (n.val + 16) else n

/-- A core mask with the cores of a cluster replaced. -/
def movedMask (k : ClusId) (m : W32) : W32 :=
  (allFin 32).foldl (fun (v : W32) n => if m.getLsbD n.val then v ||| BitVec.ofNat 32 (2 ^ (movedCore k n).val) else v) 0

/-- A descriptor pinned to a core of a moved cluster names the core that replaced it. -/
def movedDesc (k : ClusId) (d : BitVec 512) : BitVec 512 :=
  let n := dfield d 48 6
  if n < 32 then d - BitVec.ofNat 512 (n * 2 ^ 48) + BitVec.ofNat 512 ((movedCore k (Fin.ofNat 32 n)).val * 2 ^ 48) else d

/-- A range that follows the cores of a moved cluster. -/
def movedRng (k : ClusId) (r : Rng) : Rng := { r with lo := movedAddr [k] r.lo }

/-- A pump operation whose well addresses follow the cores of a moved cluster. -/
def movedOp (k : ClusId) (o : PumpOp) : PumpOp :=
  { o with src := movedAddr [k] o.src, dst := movedAddr [k] o.dst, reads := o.reads.map (movedRng k), writes := o.writes.map (movedRng k) }

/-- Every partition's cores of a failed main cluster are replaced by those of the checker, with their keys, and well addresses follow
(Table PRG-5, policy CONTINUE). -/
def State.moveClus (s : State) (k : ClusId) : State :=
  let chk : ClusId := Fin.ofNat 8 (k.val + 4)
  let hold := s.holders k
  let s1 := hold.foldl (fun (t : State) p =>
    let y := t.parts[p]
    t.setPart p { y with
      cores := movedMask k y.cores
      grants := y.grants.set chk (y.grants[chk] ||| y.grants[k])
      moved := k :: y.moved
      lostKeys := y.lostKeys.map fun (key, n) => (key, movedCore k n)
      saved := y.saved.map fun v => { v with live := v.live.map fun (n, m) => (movedCore k n, m) } }) s
  { s1 with
    keys := s1.keys.map fun x => { x with core := movedCore k x.core }
    groups := s1.groups.map fun g => { g with core := movedCore k g.core, initAddr := movedAddr [k] g.initAddr }
    heaps := s1.heaps.map fun h => { h with base := movedAddr [k] h.base }
    ops := s1.ops.map fun o => if hold.contains o.part then movedOp k o else o
    cmds := s1.cmds.map fun c =>
      if hold.contains c.part then
        { c with desc := movedDesc k c.desc, moved := k :: c.moved, ranges := c.ranges.map (movedRng k) }
      else c }

/-- Commands that a transient mismatch ended and that may be re-issued (R411). -/
def Cmd.mayRerun (c : Cmd) : Bool :=
  !(c.writes.any fun w => c.ranges.any fun r => !r.wr && w.meets r) &&
  !(c.kind.isStreamStep || c.kind.isAttnStep || c.kind == .adapt || c.kind == .save || c.kind == .load)

/-- A command put back in its place of the table, ordered by admission. -/
def insertCmd (c : Cmd) : List Cmd → List Cmd
  | [] => [c]
  | x :: xs => if c.adm < x.adm then c :: x :: xs else x :: insertCmd c xs

/-- The commands ended by the mismatch are re-issued where they may be (R411). -/
def State.rerunEnded (s : State) (r : PairId) : State :=
  let x := s.pairs[r]
  let back := if x.rerun then x.ended.filter fun c => c.mayRerun && s.parts[c.part].isOpen else []
  let t := s.setPair r { x with ended := [], reruns := satAdd 8 x.reruns back.length }
  { t with cmds := back.foldl (fun l c => insertCmd { c with
      life := .waiting, place := .none, start := 0, launch := none, launchLate := false, conds := [], tint := false
      copies := if c.kind == .pump then [] else c.copies, ndc := 0, nextOp := 0, stop := none, rerun := true } l) t.cmds }

/-- A MODE_SET to SPLIT that waited for the flow is answered, with the pair SPLIT (R408). -/
def State.splitAnswered (s : State) (r : PairId) : State :=
  let x := s.pairs[r]
  match x.splitWaits with
  | some (p, i) =>
    let s1 := if x.state == .paired then s.leavePair r else s.setPair r { x with state := .split }
    (s1.setPair r { s1.pairs[r] with splitWaits := none }).answerOk p i (modeAnswer 0 1)
  | none => s

/-- The outcome with one cluster failed (Table PRG-5). -/
def State.oneFailed (s : State) (r : PairId) (mainFails : Bool) : State :=
  let x := s.pairs[r]
  let main := x.mainClus r
  let chk := x.checker r
  let continues := x.policy == 1
  let s1 := if mainFails then (s.mirrorClus main chk).fenceClus main else s.fenceClus chk
  if continues then (if mainFails then s1.moveClus main else s1)
  else s1.setPair r { s1.pairs[r] with barred := (s1.pairs[r].barred ++ s.holders main).eraseDups }

/-- PAIR_SELFTEST_DONE (R410, R411, Table PRG-5): `pass0` and `pass1` are the results of the sides on die 0 and die 1, `testOk` that of the
comparator test after a transient outcome. -/
def execPairSelftestDone (r : PairId) (pass0 pass1 testOk : Bool) (s : State) : Host.Outcome State Fault Refusal :=
  let x := s.pairs[r]
  if x.state != .testing then done s s
  else
    let mainOk := if x.mainDie = 0 then pass0 else pass1
    let chkOk := if x.mainDie = 0 then pass1 else pass0
    let out : BitVec 2 := if pass0 && pass1 then 1 else if pass0 || pass1 then 2 else 3
    let s0 := (s.setPair r { x with outcome := out, failD0 := !pass0, failD1 := !pass1 }).log 0x0006 18 r.val [nb r.val, nb x.group.toNat, nb out.toNat]
    let s1 := if mainOk && chkOk then
        let y := s0.pairs[r]
        let u := (s0.setPair r { y with
          transients := satAdd 8 y.transients 1, state := if testOk then .paired else .split
          refusals := if testOk then y.refusals else satAdd 8 y.refusals 1 }).flag .prg 4
        let v := if testOk then u.mirrorClus (x.mainClus r) (x.checker r) else (u.flag .prg 2).unfillClus (x.checker r)
        v.rerunEnded r
      else
        let u := (s0.setPair r { s0.pairs[r] with state := .degraded, ended := [] }).flag .prg 3
        if mainOk then u.oneFailed r false
        else if chkOk then u.oneFailed r true
        else (u.fenceClus (x.mainClus r)).fenceClus (x.checker r)
    done s ((s1.splitAnswered r).applySkip)

/-! ## Debug (R402, R414) -/

/-- A write by a debug action to bytes of a cluster's wells or pool, aligned or not (log entry 216). -/
def State.debugWrite (s : State) (c : ClusId) (a : Nat) (bs : List Byte) : State :=
  if !bs.isEmpty && (partsOfClus c).any fun r => (partSpan r).1 ≤ a && a + bs.length ≤ (partSpan r).1 + (partSpan r).2 then s.devStore a (clean bs) else s

/-- The address of the same byte in the other cluster of the pair. -/
def twinAddr (a : Nat) : Nat :=
  if inWells a then onCore (Fin.ofNat 32 ((a - wellBase) / 0x800000 + 16)) a
  else poolAddr (Fin.ofNat 8 ((a - poolBase) / poolBytes + 4)) ((a - poolBase) % poolBytes)

/-- DEBUG_ACTION (R414): applied on the main side and replayed on the checker 24 cycles later; one addressed to a checker is refused (R402). -/
def execDebugAction (c : ClusId) (act : DebugAct) (s : State) : Host.Outcome State Fault Refusal :=
  if s.isChecker c then done s (s.flag .prg 5)
  else if !s.diePresent (dieOfClus c) then done s s
  else
    let r := pairOfClus c
    let chk := s.pairs[r].checker r
    let s1 := s.emit (.debug c act false)
    let s2 := if s.pairs[r].joined then s1.emit (.debug chk act true) else s1
    match act with
    | .halt => done s { s2 with halted := s2.halted.set c true }
    | .resume => done s { s2 with halted := s2.halted.set c false }
    | .step => done s s2
    | .write a bs =>
      let s3 := s2.debugWrite c a bs
      done s (if s.pairs[r].joined then s3.debugWrite chk (twinAddr a) bs else s3)

/-! ## Mirrored regions (R420) -/

/-- The contents of a region as MIRROR messages, in address order, poison marks included. -/
def State.sendRegion (s : State) (base len : Nat) : State :=
  (List.range (len / 4096)).foldl (fun (t : State) k =>
    let (bs, u) := t.load (base + 4096 * k) 4096
    (evenPieces 4096 0 bs).foldl (fun (v : State) y => v.siphonSend 0x19 (if anyPoison y.2 then 2 else 0) (base + 4096 * k + y.1) 0 0 0 v.now (plain y.2)) u) s

/-- MIRROR_ENABLE (R420): a region that is no multiple of 64 KiB of mapped main memory, that the standby cannot map, or that no standby
can receive is refused; any other starts with its whole contents. -/
def execMirrorEnable (p : Port) (r : MirId) (partnerMaps : Bool) (s : State) : Host.Outcome State Fault Refusal :=
  let m := s.mirrors[r]
  let base := m.base.toNat
  let len := m.len.toNat * 65536
  let roles := s.sph.link == 2 && s.sph.role == 0 && s.sph.partnerKnown && s.sph.partnerRole == 1
  let fits := base % 65536 = 0 && 0 < len && s.inMain base len && partnerMaps && roles
  done s (s.hostRow p
    (if m.enable then s
    else if fits then { s with mirrors := s.mirrors.set r { m with enable := true, state := .syncing } }.sendRegion base len
    else { s with mirrors := s.mirrors.set r { m with enable := true, state := .refused } }.flag .sph 7))

/-- MIRROR_SYNC_DONE (R420): every message of the region has been received. -/
def execMirrorSyncDone (r : MirId) (s : State) : Host.Outcome State Fault Refusal :=
  let m := s.mirrors[r]
  let waits := s.sph.replay.any fun x => x.type == 0x19 && overlap x.msg.addr.toNat x.msg.payload.length m.base.toNat (m.len.toNat * 65536)
  if m.enable && m.state == .syncing && s.sph.link = 2 && !waits then
    done s { s with mirrors := s.mirrors.set r { m with state := .synced } }
  else done s s

end Sys2Proof.Machine
end

