-- ==== Sys2Proof/Machine/Quant.lean ====
section
/-! DEFINITION. The quantisation units and ADAPT (chapter QNT): QSCAN, QCONV and one optimiser step. -/
namespace Sys2Proof.Machine

/-! ## Reading and writing through the cluster pump (R90) -/

/-- Bytes written through the cluster pump. -/
def State.pumpStore (s : State) (a : Nat) (bs : List Byte) : State := s.writeAt a (clean bs)

/-- A range that a quantisation command may name: the partition's, and not in a remote window. -/
def State.quantMay (s : State) (p : PartId) (r : Rng) : Bool := r.lo < windowBase && s.mayName p r.lo r.len r.wr

/-- A quantisation command's run: a write into a closed part is refused (R135), and poisoned outputs are marked (R11, R103). -/
def State.quantRun (body : Cmd → State → State × List St) (c : Cmd) (s : State) : State × List St := s.engineRun .none body c

/-! ## Blocks of a source (R87) -/

/-- Address and elements of block b of a tensor of rows of k elements. -/
def srcBlock (base k fmt b : Nat) : Nat × Nat :=
  let q := b / bpr k
  let col := 32 * (b % bpr k)
  (base + (q * k + col) * plainSize fmt, min 32 (k - col))

/-- The source range of n blocks from block b. -/
def srcRange (base k fmt b n : Nat) : Rng :=
  let (lo, _) := srcBlock base k fmt b
  let (hi, len) := srcBlock base k fmt (b + n - 1)
  ⟨lo, hi + len * plainSize fmt - lo, false⟩

/-- The values of a block, padded to 32, from the bytes of a source range that starts at lo. -/
def srcVals (base k fmt b lo : Nat) (bs : List Byte) : List W32 :=
  let (a, n) := srcBlock base k fmt b
  ((chunks (plainSize fmt) (bytesAt bs (a - lo) (n * plainSize fmt))).map fun e => plainVal fmt (leNat e)) ++ List.replicate (32 - n) 0

/-- The values of n blocks from block b, whether anything read was poisoned, and what the reading did. -/
def State.srcAll (s : State) (base k fmt b n : Nat) : List (List W32) × Bool × State :=
  let r := srcRange base k fmt b n
  let (bs, t) := s.readAt r.lo (if n = 0 then 0 else r.len)
  ((List.range n).map fun i => srcVals base k fmt (b + i) r.lo (plain bs), anyPoison bs, t)

/-! ## QSCAN (R87, R92, R98, R100, Table QNT-4) -/

def Cmd.sSrc (c : Cmd) : Nat := c.at_ (ofield c.desc 0 40)
def Cmd.sScan (c : Cmd) : Nat := c.at_ (ofield c.desc 40 40)
def Cmd.sK (c : Cmd) : Nat := ofield c.desc 80 20
def Cmd.sFirst (c : Cmd) : Nat := ofield c.desc 100 28
def Cmd.sN (c : Cmd) : Nat := ofield c.desc 128 28
def Cmd.sSrcFmt (c : Cmd) : Nat := ofield c.desc 156 4
def Cmd.sDstFmt (c : Cmd) : Nat := ofield c.desc 160 4
def Cmd.sBudget (c : Cmd) : Nat := ofield c.desc 164 3
def Cmd.sGap (c : Cmd) : Nat := if ofield c.desc 167 5 = 0 then (fmtTop c.sDstFmt).2.2 else ofield c.desc 167 5

/-- The checks of QSCAN's operand area (R100). -/
def State.admitQscan (s : State) (c : Cmd) : Admit :=
  let bad1 :=
    badIf (c.sSrc % 8 ≠ 0) 32 ++ badIf (c.sScan % 32 ≠ 0) 37 ++ badIf (c.sK = 0) 42 ++ badIf (c.sFirst % 64 ≠ 0) 44 ++ badIf (c.sN = 0) 48 ++
    badIf (2 < c.sSrcFmt) 51 ++ badIf (c.sDstFmt < 3 || 9 < c.sDstFmt || 4 < c.sBudget) 52 ++ badIf (ofield c.desc 172 84 ≠ 0) 53
  if !bad1.isEmpty then { bad := bad1 }
  else
    let src := srcRange c.sSrc c.sK c.sSrcFmt c.sFirst c.sN
    let rec_ : Rng := ⟨c.sScan, 32 + 8 * c.sN, true⟩
    { bad := badIf (!s.quantMay c.part src) 32 ++ badIf (!s.quantMay c.part rec_) 37, ranges := [src, rec_] }

/-- The scan entry of a block (Table QNT-3). -/
def scanEntry (p : Plan) (b : Nat) : Nat :=
  scaleEntry p.code p.esc.length b + p.esc.foldl (fun m i => m + 2 ^ (32 + i)) 0

/-- The scan record header (Table QNT-2). -/
def scanHeader (src k first n sf df budget gap : Nat) (plans : List Plan) (vals : List (List W32)) : Nat :=
  let total := plans.foldl (fun a p => a + p.esc.length) 0
  let sat := plans.foldl (fun a p => a + p.sat.length) 0
  let nan := min 0xFFFF (plans.filter (·.nan)).length
  let top := (vals.flatten.filter fun v => fFinite v).foldl (fun a v => max a (v.toNat % 2 ^ 31)) 0
  let amax := if top = 0 then 0 else (expOf (fpVal (BitVec.ofNat 32 top)) + 150).toNat
  src + k * 2 ^ 40 + first * 2 ^ 60 + n * 2 ^ 88 + sf * 2 ^ 116 + df * 2 ^ 120 + budget * 2 ^ 124 + gap * 2 ^ 127 +
  total % 2 ^ 32 * 2 ^ 132 + amax * 2 ^ 164 + sat % 2 ^ 32 * 2 ^ 173 + nan * 2 ^ 205 + 0x0C5A * 2 ^ 240

/-- The effect of a QSCAN (R98, R103). -/
def State.qscanBody (c : Cmd) (s : State) : State × List St :=
  let (vals, p, s1) := s.srcAll c.sSrc c.sK c.sSrcFmt c.sFirst c.sN
  let plans := vals.map fun v => planBlock c.sDstFmt v c.sBudget c.sGap
  let hdr := scanHeader (ofield c.desc 0 40) c.sK c.sFirst c.sN c.sSrcFmt c.sDstFmt c.sBudget c.sGap plans vals
  let bytes := leBytes 32 hdr ++ ((List.range plans.length).zip plans).flatMap fun (i, x) => leBytes 8 (scanEntry x (c.sFirst + i))
  (((s1.pumpStore c.sScan bytes).flagIf p (.qnt c.clus) 3), if p then [.poisoned] else [])

/-- QSCAN. -/
def execQscan (p : PartId) (q : QueId) (n : Nat) (s : State) : Host.Outcome State Fault Refusal :=
  done s (s.runCmd p q n .qscan (State.quantRun State.qscanBody))

/-! ## QCONV (R100 to R104, Table QNT-5) -/

/-- Fields of a scan record header. -/
def shSrc (h : List Byte) : Nat := bfield h 0 40
def shK (h : List Byte) : Nat := bfield h 40 20
def shFirst (h : List Byte) : Nat := bfield h 60 28
def shN (h : List Byte) : Nat := bfield h 88 28
def shSrcFmt (h : List Byte) : Nat := bfield h 116 4
def shDstFmt (h : List Byte) : Nat := bfield h 120 4
def shBudget (h : List Byte) : Nat := bfield h 124 3
def shGap (h : List Byte) : Nat := bfield h 127 5
def shTotal (h : List Byte) : Nat := bfield h 132 32
def shTagOk (h : List Byte) : Bool := bfield h 221 19 == 0 && bfield h 240 16 == 0x0C5A
/-- The fields lie in the ranges that QSCAN accepts (R100). -/
def shOk (h : List Byte) : Bool :=
  shSrcFmt h ≤ 2 && 3 ≤ shDstFmt h && shDstFmt h ≤ 9 && shK h ≠ 0 && shN h ≠ 0 && shBudget h ≤ 4 && shGap h ≠ 0 && shFirst h % 64 == 0

def Cmd.qScan (c : Cmd) : Nat := c.at_ (ofield c.desc 0 40)
def Cmd.qPart (c : Cmd) : Nat := ofield c.desc 80 8
def Cmd.qStride (c : Cmd) : Nat := 8 * ofield c.desc 88 32
def Cmd.qStoch (c : Cmd) : Bool := ofield c.desc 120 1 == 1
def Cmd.qSeed (c : Cmd) : Nat := ofield c.desc 121 64
def Cmd.qStream (c : Cmd) : Nat := ofield c.desc 185 16

/-- The scan record headers of a conversion, part 0 first and this part's last. -/
def State.scanHeaders (s : State) (c : Cmd) : List (List PByte) :=
  (List.range (c.qPart + 1)).map fun i => (s.readAt (c.qScan - (c.qPart - i) * c.qStride) 32).1

/-- The ranges that a QCONV declares, from its header, its own scan header and the position of its first side entry (R100). -/
def convRanges (c : Cmd) (h : Hdr) (own : List Byte) (pos : Nat) (at_ : Nat → Nat) : List Rng :=
  let f := shFirst own
  let n := shN own
  let w := 4 * codeWidth h.fmt
  [srcRange (at_ (shSrc own)) (shK own) (shSrcFmt own) f n, ⟨c.qScan, 32 + 8 * n, false⟩] ++
  (List.range c.qPart).map (fun i => ⟨c.qScan - (i + 1) * c.qStride, 32, false⟩) ++
  [⟨h.data + f * w, n * w, true⟩,
   if h.compact then ⟨h.scale + 96 * (f / 64), 96 * cdiv n 64, true⟩ else ⟨h.scale + 4 * f, 4 * n, true⟩] ++
  if h.sidx = 0 then []
  else [⟨h.sidx + 8 * (f / 64), 8 * cdiv n 64, true⟩] ++ if shTotal own = 0 then [] else [⟨h.slist + 4 * pos, 4 * shTotal own, true⟩]

/-- The checks of QCONV's operand area (R100). -/
def State.admitQconv (s : State) (c : Cmd) : Admit :=
  let (cp, badH) := s.copyAll c.part [(ofield c.desc 40 40, 32, 32, 37)]
  let hb := plain ((cp.getD 0 (0, [])).2)
  let h := (hdrOf hb).onCore c.at_
  let bad1 := badH ++ badIf (!s.quantMay c.part ⟨c.qScan, 32, false⟩) 32 ++ badIf (bfield hb 165 91 ≠ 0 || !h.narrow || 9 < h.fmt) 37 ++
    badIf (c.qScan < c.qPart * c.qStride) 42 ++ badIf (ofield c.desc 201 55 ≠ 0) 57
  if !bad1.isEmpty then { bad := bad1, copies := plainCopies cp, notes := poisonNote cp }
  else
    let raw := s.scanHeaders c
    let hs := raw.map plain
    let own := hs.getLastD []
    let cps := cp ++ ((List.range raw.length).zip raw).map fun x => (c.qScan - (c.qPart - x.1) * c.qStride, x.2)
    let pos := (hs.dropLast).foldl (fun a x => a + shTotal x) 0
    let bad2 := badIf (!shOk own) 32 ++ badIf (h.fmt ≠ shDstFmt own || (h.sidx = 0 && pos + shTotal own ≠ 0)) 37
    if !bad2.isEmpty then { bad := bad2, copies := plainCopies cps, notes := poisonNote cps }
    else
      let rs := convRanges c h own pos c.at_
      { bad := badIf (rs.any fun r => !r.wr && !s.quantMay c.part r) 32 ++ badIf (rs.any fun r => r.wr && !s.quantMay c.part r) 37
        ranges := rs, copies := plainCopies cps, notes := poisonNote cps }

/-- What QCONV makes of one block: its bytes, its entry, its side values with their elements, and what it met. -/
structure ConvBlock where
  data : List Byte
  entry : Nat
  sides : List (Nat × Nat)
  sat : Bool
  nan : Bool
  clamp : Bool

/-- A block converted under its plan, block b of its tensor (R94 to R97). -/
def convBlock (c : Cmd) (f b : Nat) (vs : List W32) (p : Plan) : ConvBlock :=
  let draw := fun i => if c.qStoch then
      some (steep c.qSeed ((c.qStream * 2 + b / 2 ^ 27) % 2 ^ 32) ((b % 2 ^ 27) * 32 + i) % 65536) else none
  let esc := (List.range 32).filter fun i => p.esc.contains i
  let sides := esc.map fun i => (i, sideValue (vs.getD i 0) p.s)
  { data := blockBytes f (codesOf f vs p draw), entry := scaleEntry p.code p.esc.length b
    sides := sides.map fun x => (x.1, x.2.1), sat := !p.sat.isEmpty, nan := p.nan, clamp := sides.any fun x => x.2.2 }

/-- A compact scale frame of up to 64 blocks of frame f (Table NUM-4, R101). -/
def compactFrame (f : Nat) (bs : List ConvBlock) : List Byte :=
  let pad := List.replicate (64 - bs.length) 0
  let scales := bs.map (fun b => b.entry % 256) ++ pad
  let counts := bs.map (fun b => b.sides.length) ++ pad
  let packed := counts.foldr (fun n acc => n + 8 * acc) 0
  (scales.map fun x => nb x) ++ leBytes 24 packed ++ leBytes 4 (f % 1024) ++ leBytes 4 (counts.foldl (· + ·) 0)

/-- The side entries of a frame (Table NUM-5). -/
def sideEntries (f : Nat) (bs : List ConvBlock) : List Byte :=
  ((List.range bs.length).zip bs).flatMap fun (j, b) =>
    b.sides.flatMap fun (i, v) => leBytes 4 (v + i * 2 ^ 16 + j * 2 ^ 21 + f % 32 * 2 ^ 27)

/-- Frames written in turn from frame f, their first side entry at position pos (R101). -/
def State.writeFrames (s : State) (h : Hdr) : (f pos : Nat) → List (List ConvBlock) → State
  | _, _, [] => s
  | f, pos, bs :: rest =>
    let w := 4 * codeWidth h.fmt
    let n := bs.foldl (fun a b => a + b.sides.length) 0
    let s1 := s.pumpStore (h.data + 64 * f * w) (bs.flatMap (·.data))
    let s2 := if h.compact then s1.pumpStore (h.scale + 96 * f) (compactFrame f bs)
      else s1.pumpStore (h.scale + 256 * f) (bs.flatMap fun b => leBytes 4 b.entry)
    let s3 := if h.sidx = 0 then s2
      else (s2.pumpStore (h.sidx + 8 * f) (leBytes 8 (pos % 2 ^ 32 + n * 2 ^ 32))).pumpStore (h.slist + 4 * pos) (sideEntries f bs)
    s3.writeFrames h (f + 1) (pos + n) rest

/-- Two scan headers agree in what every part shares (R102). -/
def sameScan (x y : List Byte) : Bool :=
  shSrc x == shSrc y && shK x == shK y && shSrcFmt x == shSrcFmt y && shDstFmt x == shDstFmt y && shBudget x == shBudget y && shGap x == shGap y

/-- The scan headers of a conversion are in step: tags, reserved bits, the chain of blocks and the shared fields (R102). -/
def headersOk : List (List Byte) → Bool
  | [] => true
  | [x] => shTagOk x
  | x :: y :: rest => shTagOk x && sameScan x y && shFirst x + shN x == shFirst y && headersOk (y :: rest)

/-- The scan record headers that a QCONV copied at its admission, part 0 first (R100, log entry 218). -/
def Cmd.scanCopies (c : Cmd) : List (List Byte) := (c.copies.drop 1).map (·.2)

/-- How many of a QCONV's blocks pass the checks of R102 before the first that does not: none when its scan headers are out of step. -/
def State.convGood (s : State) (c : Cmd) : Nat :=
  let own := c.scanCopies.getLastD []
  let n := shN own
  let (vals, _, _) := s.srcAll (c.at_ (shSrc own)) (shK own) (shSrcFmt own) (shFirst own) n
  let entries := (chunks 8 (plain (s.readAt (c.qScan + 32) (8 * n)).1)).map leNat
  let good := ((List.range n).zip (vals.zip entries)).map fun (i, v, e) =>
    decide (scanEntry (planBlock (shDstFmt own) v (shBudget own) (shGap own)) (shFirst own + i) = e)
  if headersOk c.scanCopies then ((findIdx? (fun g => !g) good).map (·.1)).getD n else 0

/-- The effect of a QCONV (R101 to R104). The blocks are taken in order, each checked before it is written; the entries and the source are read up to
the block at which the command ends, and not beyond. -/
def State.qconvBody (c : Cmd) (s : State) : State × List St :=
  let own := c.scanCopies.getLastD []
  let h := (hdrOf (c.copied 0)).onCore c.at_
  let pos := (c.scanCopies.dropLast).foldl (fun a x => a + shTotal x) 0
  let first := shFirst own
  let n := shN own
  let upto := s.convGood c
  let skewHead := !headersOk c.scanCopies
  let skew := skewHead || upto < n
  let need := if skewHead then 0 else min n (upto + 1)
  let (ents, s1) := s.readAt (c.qScan + 32) (8 * need)
  let (vals, pv, s2) := s1.srcAll (c.at_ (shSrc own)) (shK own) (shSrcFmt own) first need
  let pz := pv || anyPoison ents || c.conds.contains .poisoned
  let plans := vals.map fun v => planBlock (shDstFmt own) v (shBudget own) (shGap own)
  let blocks := (((List.range need).zip (vals.zip plans)).take upto).map fun (i, v, p) => convBlock c h.fmt (first + i) v p
  let s3 := s2.writeFrames h (first / 64) pos (chunks 64 blocks)
  let k := c.clus
  let nsat := (blocks.filter (·.sat)).length
  let s4 := { s3 with cnts := { s3.cnts with qntSat := vbump 16 s3.cnts.qntSat k nsat
                                             qntSkew := if skew then vbump 8 s3.cnts.qntSkew k 1 else s3.cnts.qntSkew } }
  let s5 := ((((s4.flagIf skew (.qnt k) 0).flagIf pz (.qnt k) 3).flagIf (nsat ≠ 0) (.qnt k) 4).flagIf (blocks.any (·.nan)) (.qnt k) 5).flagIf
    (blocks.any (·.clamp)) (.qnt k) 6
  (s5, (if skew then [.scaleSkew] else []) ++ if pz then [.poisoned] else [])

/-- QCONV. -/
def execQconv (p : PartId) (q : QueId) (n : Nat) (s : State) : Host.Outcome State Fault Refusal :=
  done s (s.runCmd p q n .qconv (State.quantRun State.qconvBody))

/-! ## ADAPT (R106 to R110) -/

/-- Fields of the parameter block (Table QNT-9), and the rows a command updates (Table QNT-8). -/
def apAddr (b : List Byte) (i : Nat) : Nat := fieldAt b (8 * i) 8
def apRows (b : List Byte) : Nat := fieldAt b 48 4
def apCols (b : List Byte) : Nat := fieldAt b 52 4
def apTokens (b : List Byte) : Nat := fieldAt b 56 4
def apStream (b : List Byte) : Nat := fieldAt b 60 4
def apVal (b : List Byte) (i : Nat) : W32 := f32At b (64 + 4 * i)
def apSeed (b : List Byte) : Nat := fieldAt b 100 8
def Cmd.aRow0 (c : Cmd) : Nat := ofield c.desc 40 24
def Cmd.aN (c : Cmd) : Nat := ofield c.desc 64 24

/-- Blocks of rows row0 to row0 + n − 1 of a state tensor: data and scale ranges (R108). -/
def stateRanges (h : Hdr) (row0 n cols : Nat) (wr : Bool) : List Rng :=
  let w := 4 * codeWidth h.fmt
  let b := row0 * bpr cols
  [⟨h.data + b * w, n * bpr cols * w, wr⟩, ⟨h.scale + 4 * b, 4 * n * bpr cols, wr⟩]

/-- Rows row0 to row0 + n − 1 of a TBF-32 operand of k elements and `rows` rows: what the command reads (R107), from the start of the first block's
frame, and with a side list the scale entries to the end of the last block's frame (State.readTbf). -/
def rowsReads (h : Hdr) (row0 n k rows : Nat) : List Rng :=
  let w := 4 * codeWidth h.fmt
  let b := row0 * bpr k / 64 * 64
  let e := (row0 + n) * bpr k
  [⟨h.data + b * w, (e - b) * w, false⟩, ⟨h.scale + 4 * b, 4 * (h.scaleEnd e (rows * bpr k) - b), false⟩] ++
  if h.sidx = 0 then [] else [⟨h.sidx + 8 * (b / 64), 8 * (cdiv e 64 - b / 64), false⟩, ⟨h.slist, 16 * e, false⟩]

/-- The checks of ADAPT's operand area and parameter block (R106, R110). -/
def State.admitAdapt (s : State) (c : Cmd) : Admit :=
  let (cp0, bad0) := s.copyAll c.part [(ofield c.desc 0 40, 128, 64, 32)]
  let b := plain ((cp0.getD 0 (0, [])).2)
  let rows := apRows b
  let cols := apCols b
  let fwd := apAddr b 5
  let (cp1, bad1) := s.copyAll c.part ([0, 1, 3, 4].map (fun i => (apAddr b i, 32, 32, 32)) ++ if fwd = 0 then [] else [(fwd, 32, 32, 32)])
  let hb := fun i => plain ((cp1.getD i (0, [])).2)
  let h := fun i => hdrOf (hb i)
  let badP := bad0 ++ badIf (rows = 0 || cols = 0 || 2 ^ 32 ≤ rows * cols || 65535 < cols || apTokens b = 0 || 2 ^ 31 < apTokens b ||
      fieldAt b 108 20 ≠ 0 || (List.range 6).any (fun i => decide (2 ^ 40 ≤ apAddr b i))) 32 ++ bad1 ++
    badIf ([0, 1].any fun i => !hdrOk (hb i) || !((h i).fmt == 3 || (h i).fmt == 4) || (h i).compact) 32 ++
    badIf ([2, 3].any fun i => !hdrOk (hb i) || (h i).fmt ≠ 3 || (h i).compact || (h i).sidx ≠ 0) 32 ++
    badIf (fwd ≠ 0 && (!hdrOk (hb 4) || !((h 4).fmt == 1 || (h 4).narrow) || ((h 4).narrow && (h 4).compact) || (h 4).sidx ≠ 0)) 32 ++
    badIf (rows ≤ c.aRow0) 37 ++ badIf (c.aN = 0 || rows < c.aRow0 + c.aN) 40 ++ badIf (ofield c.desc 88 168 ≠ 0) 43
  if !badP.isEmpty then { bad := badP, copies := plainCopies (cp0 ++ cp1), notes := poisonNote (cp0 ++ cp1) }
  else
    let r0 := c.aRow0
    let n := c.aN
    let t := apTokens b
    let w : Nat → Bool → Rng := fun base wr => ⟨base + 4 * r0 * cols, 4 * n * cols, wr⟩
    let rd := rowsReads (h 0) r0 n t rows ++ rowsReads (h 1) 0 cols t cols ++ [w (apAddr b 2) false] ++
      stateRanges (h 2) r0 n cols false ++ stateRanges (h 3) r0 n cols false
    let wr := [w (apAddr b 2) true] ++ stateRanges (h 2) r0 n cols true ++ stateRanges (h 3) r0 n cols true ++
      if fwd = 0 then [] else if (h 4).narrow then stateRanges (h 4) r0 n cols true else [⟨(h 4).data + 2 * r0 * cols, 2 * n * cols, true⟩]
    { bad := c.wellFails ((rd ++ wr).map fun r => (r, 32)), ranges := rd ++ wr
      copies := plainCopies (cp0 ++ cp1), notes := poisonNote (cp0 ++ cp1) }

/-- The update of one element (R107): g, m1, s1 and w1. -/
def adaptElem (b : List Byte) (g0 m0 s0 w0 : W32) : W32 × W32 × W32 × W32 :=
  let clip := f32At b 96
  let g1 := fmul g0 (apVal b 7)
  let g := if flt 0 clip then fmin (fmax g1 (fneg clip)) clip else g1
  let m1 := ffma (apVal b 3) g (fmul (apVal b 2) m0)
  let v0 := fmul s0 s0
  let v1 := ffma (apVal b 5) (fmul g g) (fmul (apVal b 4) v0)
  let s1 := fsqrt v1
  let u := fdiv m1 (fadd s1 (apVal b 6))
  let step := ffma (apVal b 0) u (fmul (apVal b 1) w0)
  (g, m1, s1, fsub w0 step)

/-- One block of 32 columns of a row updated and written, or left as it was when a value in it is not finite (R108, R109). -/
def State.adaptBlock (c : Cmd) (b : List Byte) (h : Nat → Hdr) (w : Nat) (fwd : Option Hdr) (i jb : Nat) (g m0 s0 w0 : List W32) (s : State) : State :=
  let k := c.clus
  let cols := apCols b
  let vals := (g.zip (m0.zip (s0.zip w0))).map fun (x, y, z, v) => adaptElem b x y z v
  if vals.any fun x => !fFinite x.1 || !fFinite x.2.1 || !fFinite x.2.2.1 || !fFinite x.2.2.2 then
    { s.flag (.qnt k) 7 with cnts := { s.cnts with qntSkip := vbump 8 s.cnts.qntSkip k 1 } }
  else
    let n0 := i * cols + 32 * jb
    let draw := fun (st j : Nat) => some (steep (apSeed b) ((apStream b + st) % 2 ^ 32) (n0 + j) % 65536)
    let blk := i * bpr cols + jb
    let cm := codeBlock 3 blk (vals.map (·.2.1)) (draw 0)
    let cs := codeBlock 3 blk (vals.map (·.2.2.1)) (draw 1)
    let w1 := vals.map (·.2.2.2)
    let s1 := ((((s.storeB ((h 2).data + 32 * blk) cm.bytes).storeB ((h 2).scale + 4 * blk) cm.entries).storeB
      ((h 3).data + 32 * blk) cs.bytes).storeB ((h 3).scale + 4 * blk) cs.entries).storeB (w + 4 * n0) (w1.flatMap f32Bytes)
    let (nsat, s2) : Nat × State := match fwd with
      | none => (0, s1)
      | some f =>
        if f.narrow then
          let cf := codeBlock f.fmt blk w1 fun _ => none
          (cf.sat, (s1.storeB (f.data + 4 * codeWidth f.fmt * blk) cf.bytes).storeB (f.scale + 4 * blk) cf.entries)
        else (0, s1.storeB (f.data + 2 * n0) (w1.flatMap fun x => leBytes 2 (plainBits 1 x)))
    let sat := cm.sat + cs.sat + nsat
    { s2.flagIf (sat ≠ 0) (.qnt k) 4 with cnts := { s2.cnts with qntSat := vbump 16 s2.cnts.qntSat k sat } }

/-- Values of a row cut into blocks of 32 columns. -/
def rowBlocks (r : List W32) : List (List W32) := chunks 32 r

/-- The frame of a tensor's block 0, for a command that starts at block b0 and names the frame f0 of that block (R72, R87; log entry 217). -/
def frameOfZero (f0 b0 : Nat) : Nat := (f0 % 1024 + 1024 - b0 / 64 % 1024) % 1024

/-- The effect of an ADAPT (R107 to R109). -/
def State.adaptBody (c : Cmd) (s : State) : State × List St :=
  let b := c.copied 0
  let h := fun i => (hdrOf (c.copied (i + 1))).onCore c.at_
  let fwd := if apAddr b 5 = 0 then none else some (h 4)
  let cols := apCols b
  let t := apTokens b
  let k := c.clus
  let wBase := c.at_ (apAddr b 2)
  let b0 := c.aRow0 * bpr t
  let r := apRows b
  let (u, s1) := s.readTbf (h 0) b0 c.aN t (frameOfZero c.f0a b0) (r * bpr t)
  let (v, s2) := s1.readTbf (h 1) 0 cols t c.f0b (cols * bpr t)
  let (m, s3) := s2.readTbf (h 2) (c.aRow0 * bpr cols) c.aN cols 0 (r * bpr cols)
  let (sq, s4) := s3.readTbf (h 3) (c.aRow0 * bpr cols) c.aN cols 0 (r * bpr cols)
  let (w, pw, s5) := s4.readPlain (wBase + 4 * c.aRow0 * cols) 0 c.aN cols cols
  let pz := u.poisoned || v.poisoned || m.poisoned || sq.poisoned || pw || c.conds.contains .poisoned
  let s6 := ((s5.mxBusy c.coreId (cdiv c.aN 32 * cdiv cols 64 * cdiv t 128 * 16 * phi2 (h 0).fmt (h 1).fmt)).vxBusy c.coreId
    (cdiv (c.aN * cols) 8)).flagIf pz (.qnt k) 3
  let (s7, fails) := s6.meetFails k (u.fails ++ v.fails ++ m.fails ++ sq.fails)
  if !fails.isEmpty then (s7, fails ++ if pz then [.poisoned] else [])
  else
    let g := products u.rows v.rows
    let s8 := s7.flagIf (anyNonfinite g) (.eng k) 0
    let rows := (List.range g.length).zip (g.zip ((m.rows.map fun r => r.map roundFp).zip ((sq.rows.map fun r => r.map roundFp).zip w)))
    let s9 := rows.foldl (fun t (r, gr, mr, sr, wr) =>
      ((List.range (bpr cols)).zip ((rowBlocks gr).zip ((rowBlocks mr).zip ((rowBlocks sr).zip (rowBlocks wr))))).foldl
        (fun t (jb, gb, mb, sb, wb) => t.adaptBlock c b h wBase fwd (c.aRow0 + r) jb gb mb sb wb) t) s8
    (s9, if pz then [.poisoned] else [])

/-- ADAPT. -/
def execAdapt (p : PartId) (q : QueId) (n : Nat) (flt : UnitFault) (s : State) : Host.Outcome State Fault Refusal :=
  s.engineRow p q n .adapt flt State.adaptBody

end Sys2Proof.Machine
end

