-- ==== Sys2Proof/Machine/Issue.lean ====
section
/-! DEFINITION. From a descriptor to a record (chapter PAR): admission, eligibility and issue, launch counts, late drops, pre-emption points, and
completion. -/
namespace Sys2Proof.Machine

/-! ## Admission (R167, R170 to R174) -/

/-- What a descriptor asks for (Table PAR-7, with SIGNAL's kinds, the stream and the attention operations told apart). -/
def kindOf (desc : BitVec 512) : CmdKind :=
  match dfield desc 0 8 with
  | 0x01 => .gemm | 0x02 => .vop | 0x03 => .conv | 0x04 => .pool | 0x05 => .crop | 0x06 => .s2d | 0x07 => .d2s | 0x08 => .frc
  | 0x09 => attnKind (ofield desc 0 4) (ofield desc 4 2)
  | 0x0A => streamKind .rstep (ofield desc 0 4)
  | 0x0B => streamKind .lstep (ofield desc 0 4)
  | 0x0C => streamKind .feat (ofield desc 0 4)
  | 0x0D => .qscan | 0x0E => .qconv | 0x0F => .adapt
  | 0x20 => .pump | 0x21 => .fill | 0x22 => .copy
  | 0x30 => .hint | 0x31 => .wait
  | 0x32 =>
    match ofield desc 0 2 with
    | 0 => .signalAdd
    | 1 => .signalRemote
    | 2 => .signalWrite
    | _ => .unknown
  | 0x33 => .fence
  | 0x40 => .save | 0x41 => .load
  | _ => .unknown

/-- A queue accepts an opcode (Table PAR-7): 0 Q_COMPUTE, 1 Q_PUMP, 2 Q_STREAM, 3 Q_SERVICE. -/
def queueTakes (op : Nat) (q : QueId) : Bool :=
  if op = 0x31 || op = 0x32 then true
  else if 0x0A ≤ op && op ≤ 0x0C then q == 0 || q == 2
  else if 1 ≤ op && op ≤ 0x0F then q == 0
  else if 0x20 ≤ op && op ≤ 0x22 then q == 1
  else if op = 0x30 || op = 0x33 || op = 0x40 || op = 0x41 then q == 3
  else false


/-- An extra range entry (R172); none for a bad one. -/
def State.extraRange (s : State) (c : Cmd) (b : List Byte) : Option Rng :=
  let r : Rng := ⟨movedAddr c.moved (bfield b 0 40), bfield b 40 40, bfield b 80 1 == 1⟩
  if r.len = 0 || bfield b 81 47 ≠ 0 || !s.mapped r.lo r.len then none else some r

/-- Every value of a list, or none when one is missing. -/
def allSome {α : Type} : List (Option α) → Option (List α)
  | [] => some []
  | none :: _ => none
  | some x :: xs => (allSome xs).map (x :: ·)

/-- The extra ranges of a descriptor, none when its list is misaligned, unmapped or holds a bad entry; whether the list was poisoned; and the effects of its
reading. -/
def State.extraRanges (s : State) (c : Cmd) : Option (List Rng) × Bool × State :=
  if c.nranges = 0 then (if c.rangeList = 0 then some [] else none, false, s)
  else if c.rangeList % 16 ≠ 0 then (none, false, s)
  else match s.devLoad c.rangeList (16 * c.nranges) with
    | (some bs, t) => (allSome ((chunks 16 (plain bs)).map (s.extraRange c)), anyPoison bs, t)
    | (none, t) => (none, false, t)

/-- The checks of the operand areas of Table PAR-8. -/
def State.admitService (s : State) (c : Cmd) : Admit :=
  let f := ofield c.desc
  match c.kind with
  | .wait => { bad := badIf (f 6 2 ≠ 0) 32 ++ badIf (f 40 216 ≠ 0) 37 }
  | .fence => { bad := badIf (f 5 251 ≠ 0) 32 }
  | .hint => { bad := badIf (f 104 152 ≠ 0) 45 }
  | .save => { bad := badIf (f 40 216 ≠ 0) 37 ++ badIf (f 0 40 ≠ 0 && (s.devLoad (f 0 40) 64).1.isNone) 32 }
  | .load => { bad := badIf (f 0 256 ≠ 0) 32 }
  | .signalAdd => { bad := badIf (f 12 4 ≠ 0) 33 ++ badIf (f 152 104 ≠ 0) 51 }
  | .signalRemote => { bad := badIf (f 12 4 ≠ 0) 33 ++ badIf (f 152 104 ≠ 0) 51 }
  | .signalWrite =>
    { bad := badIf (f 12 4 ≠ 0) 33 ++ badIf (f 152 104 ≠ 0) 51 ++ badIf (f 48 40 % 8 ≠ 0 || windowBase ≤ f 48 40 || !s.mapped (f 48 40) 8) 38
      ranges := [⟨movedAddr c.moved (f 48 40), 8, true⟩] }
  | _ => { bad := [32] }

/-- The operand checks of the owning chapter (R173). -/
def State.admitOps (s : State) (c : Cmd) : Admit :=
  let op := c.opcode
  if op = 0x01 then s.admitGemm c
  else if op = 0x02 then s.admitVop c
  else if op = 0x03 then s.admitConv c
  else if op = 0x04 then s.admitPool c
  else if op = 0x05 then s.admitCrop c
  else if op = 0x06 || op = 0x07 then s.admitS2d c
  else if op = 0x08 then s.admitFrc c
  else if op = 0x09 then s.admitAttn c
  else if 0x0A ≤ op && op ≤ 0x0C then s.admitStream c
  else if op = 0x0D then s.admitQscan c
  else if op = 0x0E then s.admitQconv c
  else if op = 0x0F then s.admitAdapt c
  else if op = 0x20 then s.admitPump c
  else if op = 0x21 then s.admitFill c
  else if op = 0x22 then s.admitCopy c
  else s.admitService c

/-- The byte offsets of failing header fields, but for what needs the operands (R5, R173). -/
def State.headerFails (s : State) (c : Cmd) : List Nat :=
  let x := s.parts[c.part]
  let n := c.coreField
  badIf (dfield c.desc 13 3 ≠ 0) 1 ++ badIf (dfield c.desc 54 2 ≠ 0) 6 ++ badIf (dfield c.desc 232 24 ≠ 0) 29 ++
  badIf (n ≠ 0x3F && (31 < n || !x.hasCore (Fin.ofNat 32 n) || 0x30 ≤ c.opcode)) 6 ++ badIf (8 < c.nranges) 11

/-- The wells that ranges name. -/
def wellsNamed (rs : List Rng) : List CoreId := (rs.filterMap fun r => wellCore r.lo).eraseDups

/-- Failing range-list entries against the core field (R173, R203): a pinned engine command that names another core's well, a PLACE command that
names more than one. -/
def Cmd.listFails (c : Cmd) (ranges extra : List Rng) : List Nat :=
  let own := if c.kind.isStreamStep || c.kind.isAttnStep then [] else ranges
  badIf (c.coreField ≠ 0x3F && c.kind.isEngine && (wellsNamed extra).any fun n => n.val ≠ c.coreField) 12 ++
  badIf (c.isPlace && !extra.isEmpty && !c.kind.isService && 1 < (wellsNamed (own ++ extra)).length) 6

/-- The deadline in force of a fetched command: the offset of a stream command whose rel bit is set counts from its chunk's stamp until it issues
(R171, R259). -/
def State.deadlineOf (s : State) (c : Cmd) : Option Nat :=
  match c.deadline with
  | none => none
  | some d => if c.life == .waiting && (c.kind.isStreamCtl || c.kind.isStreamStep) && c.sRel then some (s.relDeadline c d) else some d

/-- A descriptor's header as a command: its counts, and the mode and the moved cores of its partition (R171, R306, R410). -/
def State.readHeader (s : State) (p : PartId) (q : QueId) (seq : W32) (desc : BitVec 512) : Cmd :=
  let k := kindOf desc
  let d := dfield desc 136 48
  let rel := (k.isStreamCtl || k.isStreamStep) && ofield desc 178 1 == 1
  { adm := s.admitNext, part := p, que := q, seq := seq, desc := desc, kind := k
    deadline := if d = 2 ^ 48 - 1 then none else some (if rel then d else near48 s.now d)
    launch := if dfield desc 8 1 = 1 then some (near48 s.now (dfield desc 184 48)) else none
    relaxed := s.parts[p].relaxed, moved := s.parts[p].moved }

/-- Everything that admission finds in a descriptor: the failing fields, the command with its ranges, copies and notes, and the effects of what was read
(R113, R144). A poisoned copy or range list is a poisoned input (R11). -/
def State.inspect (s : State) (c : Cmd) : List Nat × Cmd × State :=
  if !queueTakes c.opcode c.que then ([0], c, s)
  else
    let a := s.admitOps c
    let (ex, badList, s1) := s.extraRanges c
    let s2 := (a.copies.filter fun x => !x.2.isEmpty).foldl (fun (t : State) x => t.readEcc x.1 x.2.length) s1
    let extra := ex.getD []
    let ranges := a.ranges.map (fun (r : Rng) => { r with lo := movedAddr c.moved r.lo }) ++ extra
    let c1 : Cmd := { (if badList || a.notes.head? == some 1 then c.cond .poisoned else c) with ranges := ranges, copies := a.copies, notes := a.notes }
    let late := match c1.launch, s.deadlineOf c1 with
      | some t, some d => d ≤ t
      | _, _ => false
    (s.headerFails c ++ a.bad ++ badIf (8 < c.nranges || ex.isNone) (if 8 < c.nranges then 11 else 12) ++ c.listFails a.ranges extra ++
      badIf late 23, c1, s2)

/-- A descriptor refused or ended as it is admitted: it completes at once, unexecuted, with the conditions met so far and those given, and owns nothing
(R9, R173, R187). -/
def State.refuseCmd (s : State) (c : Cmd) (bad : List Nat) (conds : List St) : State :=
  let c1 : Cmd := { c with ranges := [], copies := [], badField := bad.foldl min 63 }
  ({ s with cmds := s.cmds ++ [c1] } : State).complete c1 (c.conds ++ conds) []

/-- The epoch of a command differs from that of its partition (R191); a stream command's is that of its streams. -/
def State.staleFor (s : State) (c : Cmd) : Bool :=
  c.epoch ≠ 0 && c.epoch != s.parts[c.part].epoch && !c.kind.isStreamCtl && !c.kind.isStreamStep

/-- A descriptor admitted or refused. A HINT acts as it is admitted (R184). -/
def State.admitCmd (s : State) (c : Cmd) : State :=
  let (bad, c1, s1) := s.inspect c
  let n := c.coreField
  let fenced := n < 32 && s.parts[c.part].hasCore (Fin.ofNat 32 n) && s.coreFenced c.part (Fin.ofNat 32 n)
  let conds : List St := (if bad.isEmpty then [] else [.badCommand]) ++ if fenced then [.fenced] else []
  if !conds.isEmpty then s1.refuseCmd c1 bad conds
  else if c1.kind == .hint then
    if s.staleFor c1 then s1.refuseCmd c1 [] [.staleEpoch]
    else { s1 with cmds := s1.cmds ++ [{ c1 with life := .issued, epochAt := s.parts[c.part].epoch }] }
  else
    let s2 := { s1 with cmds := s1.cmds ++ [c1] }
    if c1.kind.isAttnStep then s2.attnAdmit c1 else s2

/-- A partition's front end fetches (R56, R163, R164). -/
def Part.fetches (x : Part) : Bool := x.state == .opened || x.state == .saving || x.state == .saved || x.state == .loading

/-- DESCRIPTOR_FETCH (R167, R173): the next descriptor of a queue comes into its window of 64 and is admitted or refused. A descriptor that is read poisoned
is a poisoned input of its command (R11). -/
def execDescriptorFetch (p : PartId) (q : QueId) (s : State) : Host.Outcome State Fault Refusal :=
  let x := s.queue p q
  match x.cring with
  | some ring =>
    let room := decide ((s.cmds.filter fun c => c.part == p && c.que == q).length < 64) && x.hasRoom
    if x.fetched == x.prod || !s.parts[p].fetches || !room then done s s
    else
      let (bs, s1) := s.ringRead p ring (64 * (x.fetched.toNat % ring.entries)) 64
      let c := s.readHeader p q x.fetched (BitVec.ofNat 512 (leNat (plain bs)))
      let t := s1.setQueue p q { x with fetched := x.fetched + 1 }
      done s ({ t with admitNext := t.admitNext + 1 }.admitCmd (if anyPoison bs then c.cond .poisoned else c))
  | none => done s s

/-! ## Where a command goes (R117, R179, R180, R238, R251) -/

/-- The status with which a command ends unexecuted for want of a unit, and whether its key was lost. -/
abbrev NoUnit := St × Bool

/-- The unit of a command of a core: the one it is pinned to, or the one chosen for it. -/
def State.onCoreUnit (s : State) (c : Cmd) (u : CoreId → Place) : Except NoUnit Place :=
  if c.coreField = 0x3F then (s.placeOf c u).map u
  else if s.coreFenced c.part (Fin.ofNat 32 c.coreField) then .error (.fenced, false)
  else .ok (u (Fin.ofNat 32 c.coreField))

/-- The pump of a FILL or COPY: that of the well's core, or the cluster pump of the pool's cluster, on behalf of a core of the partition there: the one that
placement gives where it lies in that cluster, else the lowest-numbered (R180). -/
def State.pumpOf (s : State) (c : Cmd) (a : Nat) : Except NoUnit Place :=
  if inWells a then s.onCoreUnit c .corePump
  else
    let mine := s.parts[c.part].coreList.filter fun n => clusOfCore n == Fin.ofNat 8 ((a - poolBase) / poolBytes) && !s.coreFenced c.part n &&
      (c.coreField == 0x3F || c.coreField == n.val)
    match mine, (if c.isPlace then s.placeOf c .clusPump else .ok 0) with
    | _, .error e => .error e
    | n :: ns, .ok m => .ok (.clusPump (if c.isPlace && (n :: ns).contains m then m else n))
    | [], .ok _ => .error (.fenced, false)

/-- The unit of a stream step: the core of its group (R251), where a placed step's key lets it be placed at all (R180). -/
def State.groupUnit (s : State) (c : Cmd) : Except NoUnit Place :=
  match s.group? c.sGroup, (if c.isPlace then s.placeOf c .core else .ok 0) with
  | _, .error e => .error e
  | some g, .ok _ => if s.coreFenced c.part g.core then .error (.fenced, false) else .ok (.core g.core)
  | none, .ok _ => .error (.badCommand, false)

/-- The unit on which a command issues. -/
def State.target (s : State) (c : Cmd) : Except NoUnit Place :=
  if c.kind.isService || c.kind.isStreamCtl || c.kind.isAttnCtl then .ok .none
  else if c.kind.isStreamStep then s.groupUnit c
  else if (c.kind == .s2d || c.kind == .d2s) && !c.sdOnCore then .ok (.fle s.parts[c.part].die)
  else if c.kind == .fill then s.pumpOf c c.fDst
  else if c.kind == .copy then s.pumpOf c c.cSrc
  else if c.kind == .pump then
    match c.pCore with
    | some n => if c.coreField = 0x3F then s.onCoreUnit c .corePump
      else if s.coreFenced c.part n then .error (.fenced, false) else .ok (.corePump n)
    | none => s.onCoreUnit c .clusPump
  else s.onCoreUnit c (unitOn c.kind)

/-- The core that a place names. -/
def Place.coreOf : Place → Option CoreId
  | .core n => some n
  | .corePump n => some n
  | .quant n => some n
  | .clusPump n => some n
  | .fle _ => Option.none
  | .none => Option.none

/-- A command's ranges on the unit where it runs (R179). -/
def Cmd.rangesAt (c : Cmd) (u : Place) : List Rng :=
  match (if c.isPlace then u.coreOf else none) with
  | some n => c.ranges.map (Rng.onCore n)
  | none => c.ranges

/-- The power domain of a unit (Table ORG-2); that of a cluster pump is the model's choice (log entry 215). -/
def Place.domain : Place → Option PdId
  | .core n => some (Fin.ofNat 128 n.val)
  | .corePump n => some (Fin.ofNat 128 n.val)
  | .quant n => some (Fin.ofNat 128 (104 + (clusOfCore n).val))
  | .clusPump n => some (Fin.ofNat 128 (104 + (clusOfCore n).val))
  | .fle d => some (Fin.ofNat 128 (120 + d.val))
  | .none => Option.none

/-! ## Eligibility (R175, R176, R178, R182, R183, R312) -/

/-- A partition's state lets a command issue (R175 item 1, R57, R190). -/
def State.stateLets (s : State) (c : Cmd) : Bool :=
  let x := s.parts[c.part]
  !x.waitsBell && (x.state == .opened || (x.state == .saved && c.que == 3 &&
    (c.kind == .load || c.kind == .wait || c.kind == .signalAdd || c.kind == .signalRemote || c.kind == .signalWrite)))

/-- Queue order lets a command issue (R175 items 2 to 4, R182). -/
def State.orderLets (s : State) (c : Cmd) : Bool :=
  let es := s.earlier c
  (!(c.ordered || c.kind == .signalAdd || c.kind == .signalRemote || c.kind == .signalWrite) || es.isEmpty) &&
  es.all fun x => !x.ordered && x.kind != .wait && x.kind != .fence && !x.ordersWith c

/-- The counter that a WAIT names has come to its value (R181, Table PAR-8). -/
def State.waitOver (s : State) (c : Cmd) : Bool :=
  let v := (s.parts[c.part].sigs)[(Fin.ofNat 64 (ofield c.desc 0 6))]
  (v - BitVec.ofNat 32 (ofield c.desc 8 32)).toNat < 2 ^ 31

/-- A message was sent before the one that had the number `n` to come. -/
def sentBefore (m : W32) (n : Nat) : Bool :=
  let d := (BitVec.ofNat 32 n - m).toNat
  0 < d && d < 2 ^ 31

/-- A range reaches into an untracked remote window. -/
def State.inUntracked (s : State) (r : Rng) : Bool := s.windows.any fun w => w.untracked && overlap w.loc w.len r.lo r.len

/-- An untracked remote write of a partition, issued before its FENCE issued, is not yet acknowledged (R130, R183): of a PUMP that had still to make it, of an
operation, or on its way. -/
def State.untrackedOut (s : State) (c : Cmd) : Bool :=
  let mine := fun (w : Nat) => s.windows.any fun x => x.id == w && x.part == c.part && x.untracked
  (s.cmds.any fun x => x.part == c.part && x.inFlight && x.iss < c.iss && x.kind.isPump && x.life != .ran && x.writes.any s.inUntracked) ||
  (s.ops.any fun o => o.part == c.part && o.id < c.notes.getD 0 0 && (o.kind == .move || o.kind == .put) && s.inUntracked ⟨o.dst, o.len, true⟩) ||
  s.sph.replay.any fun m => m.type == 0x01 && mine m.msg.window.val && sentBefore m.msg.seq (c.notes.getD 1 0)

/-- The conditions of a FENCE hold (R183). -/
def State.fenceOver (s : State) (c : Cmd) : Bool :=
  !(s.cmds.any fun x => x.part == c.part && x.adm < c.adm && (ofield c.desc 0 4).testBit x.que.val && x.life != .suspended && x.life != .ended) &&
  !(ofield c.desc 4 1 == 1 && s.untrackedOut c)

/-- A command's own conditions hold: a WAIT's, which holds it back so that it may still be missed (R177), and those of the stream and the attention
sequencer (R259, R260, R287, R301). A FENCE issues and waits. -/
def State.ownLets (s : State) (c : Cmd) : Bool :=
  (c.kind != .wait || s.waitOver c) &&
  (!(c.kind.isStreamCtl || c.kind.isStreamStep) || s.streamsFree c) && (!c.kind.isStreamStep || s.chunksIn c) &&
  (!c.kind.isAttnCtl || s.seqFree c) && (!c.kind.isAttnStep || s.chunkFree c)

/-- Counts before its launch at which a command issues (R312): 20 on the die that holds its queues, 32 on the other. -/
def State.launchLead (s : State) (c : Cmd) (u : Place) : Nat :=
  match u.die with
  | some d => if d == s.parts[c.part].die then 20 else 32
  | none => 0

/-- The launch count lets a command issue, and it is not to be dropped as late (R177, R178). -/
def State.countLets (s : State) (c : Cmd) (u : Place) : Bool :=
  (match c.launch with
    | some t => t ≤ s.now + s.launchLead c u
    | none => true) &&
  match s.deadlineOf c with
  | some d => !(c.lateDrop && d < s.now)
  | none => true

/-- A unit takes one more command (R175 item 6, R217, R239). -/
def State.unitLets (s : State) (c : Cmd) (u : Place) : Bool :=
  let x := s.parts[c.part]
  let depth := if x.issueDepth = 0 then 2 else x.issueDepth
  !s.paused u &&
  match u with
  | .core n => !s.scHalt[n] && s.loadOf u < depth
  | .quant _ => decide (s.loadOf u < depth)
  | .fle d => s.isFenced 5 d.val || !s.domainOn (Fin.ofNat 128 (120 + d.val)) || s.loadOf u < 4
  | .corePump _ => true
  | .clusPump _ => true
  | .none => true

/-- A FILL or COPY has the entry that it takes as it issues (R116); a PUMP takes its entries as it makes operations. -/
def State.entryLets (s : State) (c : Cmd) (u : Place) : Bool :=
  if c.kind == .fill || c.kind == .copy then
    match u with
    | .corePump n => decide (s.entriesOf n < entryLimit)
    | .clusPump n => decide (s.entriesOf n < entryLimit)
    | .core _ => true
    | .quant _ => true
    | .fle _ => true
    | .none => true
  else true

/-- The scoreboard of the unit's die holds a command (R124). -/
def State.boardHolds (s : State) (c : Cmd) (u : Place) : Bool :=
  let d := (u.die).getD s.parts[c.part].die
  let rs := c.rangesAt u
  let self := match u with
    | .core n => some n
    | .quant n => some n
    | _ => none
  s.held d self rs

/-- A command may issue but for the scoreboard (R175 items 1 to 6), with what was found for it. -/
def State.readyBut (s : State) (c : Cmd) : Option (Except NoUnit Place) :=
  if c.life == .waiting && s.stateLets c && decide ((s.queue c.part c.que).waiting.length < 64) && s.orderLets c && s.ownLets c then
    match s.target c with
    | .error e => if s.countLets c .none then some (.error e) else none
    | .ok u => if s.countLets c u && s.unitLets c u then some (.ok u) else none
  else none

/-- The same with the scoreboard and its entries (R116, R175). -/
def State.ready (s : State) (c : Cmd) : Option (Except NoUnit Place) :=
  match s.readyBut c with
  | some (.ok u) => if s.boardHolds c u || !s.entryLets c u then none else some (.ok u)
  | r => r

/-- A FILL or COPY waits for an entry alone; its core. -/
def State.entryWaits (s : State) (c : Cmd) : Option CoreId :=
  match s.readyBut c with
  | some (.ok u) => if !s.boardHolds c u && !s.entryLets c u then u.coreOf else none
  | _ => none

/-- Rank of a queue in a tie (R176). -/
def queueRank (q : QueId) : Nat := if q = 3 then 0 else if q = 2 then 1 else if q = 0 then 2 else 3

/-- One command goes before another at issue (R176). -/
def issuesFirst (dx dy : Option Nat) (x y : Cmd) : Bool :=
  let tie := queueRank x.que < queueRank y.que || (queueRank x.que == queueRank y.que && x.adm < y.adm)
  match dx, dy with
  | some a, some b => a < b || (a == b && tie)
  | some _, none => true
  | none, some _ => false
  | none, none => tie

/-- The command of a partition that issues next, with its unit. -/
def State.nextIssue (s : State) (p : PartId) : Option (Cmd × Except NoUnit Place) :=
  s.cmds.foldl (fun best c =>
    if c.part == p then
      match s.ready c with
      | some u => match best with
        | some b => if issuesFirst (s.deadlineOf c) (s.deadlineOf b.1) c b.1 then some (c, u) else best
        | none => some (c, u)
      | none => best
    else best) none

/-- Commands of a partition that the scoreboard alone holds, counted once each at the cluster of their unit (Table WEL-13). -/
def State.countHolds (s : State) (p : PartId) : State :=
  s.cmds.foldl (fun (t : State) c =>
    if c.part == p && !c.wasHeld then
      match s.readyBut c with
      | some (.ok u) =>
        if s.boardHolds c u then
          let k := match u.coreOf with
            | some n => clusOfCore n
            | none => Fin.ofNat 8 (4 * ((u.die).getD s.parts[p].die).val)
          { t with cnts := { t.cnts with pmpHolds := vbump 16 t.cnts.pmpHolds k 1 } }.putCmd { c with wasHeld := true }
        else t
      | _ => t
    else t) s

/-! ## Issue (R135, R136, R148, R173, R191) -/

/-- A range of a command that names a cistern region or a remote window which closes, or, but for a PUMP, which makes its operations one by one, one that is
gone (R131, R154). -/
def State.rangeGone (s : State) (c : Cmd) (r : Rng) : Bool :=
  cisternBase ≤ r.lo + r.len &&
  ((s.regions.any fun g => g.draining && overlap g.loc g.len r.lo r.len) || (s.windows.any fun w => w.draining && overlap w.loc w.len r.lo r.len) ||
    (c.kind != .pump && cisternBase ≤ r.lo && !s.mapped r.lo r.len))

/-- A command reads or writes main memory: in a range, in what it copied at its admission, or in the context area, sequence record, init image or home
that it works on (R148, R188, R250, R283). -/
def State.usesMain (s : State) (c : Cmd) (rs : List Rng) : Bool :=
  (rs.any fun r => r.lo < wellBase) || (c.copies.any fun x => !x.2.isEmpty && x.1 < wellBase) || (c.nranges ≠ 0 && c.rangeList < wellBase) ||
  (c.kind == .save && (s.parts[c.part].ctxSize ≠ 0 || (ofield c.desc 0 40 ≠ 0 && ofield c.desc 0 40 < wellBase))) ||
  c.kind == .seqOpen || c.kind == .streamOpen || c.kind == .streamImport

/-- Conditions that end a command unexecuted as it issues on a unit. -/
def State.issueConds (s : State) (c : Cmd) (u : Place) : List St :=
  let rs := c.rangesAt u
  let states := rs.flatMap fun r => (touched r.lo r.len).map fun w => (s.wctl w).st
  let off := match u.domain with
    | some d => !s.domainOn d
    | none => false
  let fle := match u with
    | .fle d => s.isFenced 5 d.val
    | _ => false
  (if s.staleFor c then [St.staleEpoch] else []) ++
  (if (states.any fun w => w == .closing || w == .off) || rs.any (s.rangeGone c) then [St.windowClosed] else []) ++
  (if states.any (fun w => w == .powering) || off || (!s.sys.initDone && s.usesMain c rs) then [St.notReady] else []) ++
  if fle then [St.fenced] else []

/-- The flags of writes refused at issue (R135). -/
def State.issueFlags (s : State) (c : Cmd) (u : Place) : State :=
  ((c.rangesAt u).filter (·.wr)).foldl (fun (t : State) r =>
    if (touched r.lo r.len).any fun w => (s.wctl w).st == .closing || (s.wctl w).st == .off then t.flagClosed r.lo r.len else t) s

/-- A command ended unexecuted at its issue, with the conditions that it met before; one that a first/last-layer engine does not take because it is fenced or
not ready is counted there (Table CNV-9). -/
def State.endUnissued (s : State) (c : Cmd) (u : Place) (conds : List St) : State :=
  let t := match u with
    | .fle d => if conds.contains .fenced || conds.contains .notReady then { s with cnts := { s.cnts with cnvRefused := vbump 8 s.cnts.cnvRefused d 1 } } else s
    | _ => s
  t.complete { c with badField := if conds.contains .badCommand then 32 else c.badField } (c.conds ++ conds) []

/-- A command with what its issue fixes: its unit and ranges there, its deadline and its place in the order of issue, the class of a step's group (Table ENG-1),
and for a FENCE the operations and messages made before it (R183). -/
def State.issued (s : State) (c : Cmd) (u : Place) : Cmd :=
  { c with
    life := .issued, place := u, placed := c.isPlace && u.coreOf.isSome, epochAt := s.parts[c.part].epoch
    ranges := c.rangesAt u, deadline := s.deadlineOf c, iss := s.issueNext
    classB := c.kind.isStreamStep && (s.group? c.sGroup).any (·.classB)
    notes := if c.kind == .fence then [s.opNext, s.sph.txSeq.toNat] else c.notes }

/-- A command issued on a unit: the rows of a stream command and the entries of an attention step are checked now (R258, R288). -/
def State.issueOn (s : State) (c : Cmd) (u : Place) : State :=
  let c1 := s.issued c u
  let s1 := { s with issueNext := s.issueNext + 1 }
  if (c.kind.isStreamCtl && c.kind != .streamGroup) || c.kind.isStreamStep then
    let (t, c2) := s1.checkRows c1
    t.putCmd c2
  else if c.kind.isAttnStep then
    let (t, c2) := s1.checkEntries c1
    t.putCmd c2
  else match (if c1.holdsEntry then u.coreOf else none) with
    | some n => (s1.putCmd c1).raiseHigh n
    | none => s1.putCmd c1

/-- COMMAND_ISSUE (R175, R176): the eligible command of a partition with the earliest deadline issues, once in an FCLK cycle. -/
def execCommandIssue (p : PartId) (s : State) : Host.Outcome State Fault Refusal :=
  if s.issuedNow.contains p then done s s
  else
    let s0 := s.countHolds p
    match s0.nextIssue p with
    | some (c, .error (st, lost)) =>
      let t := { s0 with issuedNow := p :: s0.issuedNow }.flagIf lost (.par s.parts[p].die) 6
      done s (t.endUnissued c .none ([st] ++ if s.staleFor c then [.staleEpoch] else []))
    | some (c, .ok u) =>
      let t := { s0 with issuedNow := p :: s0.issuedNow }
      let conds := s0.issueConds c u
      if conds.isEmpty then done s (t.issueOn c u) else done s ((t.issueFlags c u).endUnissued c u conds)
    | none => done s s0

/-- DEADLINE_MISS (R177): a late_drop command that has not issued when the counter has passed its deadline completes with ST_MISSED. -/
def execDeadlineMiss (p : PartId) (q : QueId) (n : Nat) (s : State) : Host.Outcome State Fault Refusal :=
  match s.findCmd p q n with
  | some c =>
    match s.deadlineOf c with
    | some d => if c.life == .waiting && c.lateDrop && d < s.now then done s (s.complete c (c.conds ++ [.missed]) []) else done s s
    | none => done s s
  | none => done s s

/-- LAUNCH_AT (R178): an issued command whose launch count has come starts, when its unit lets it. -/
def execLaunchAt (p : PartId) (q : QueId) (n : Nat) (s : State) : Host.Outcome State Fault Refusal :=
  match s.findCmd p q n with
  | some c => if c.launch.isSome && c.place != .none && s.mayRun c then done s (s.startCmd c).1 else done s s
  | none => done s s

/-! ## Pre-emption points and completion (R185, R188, R485) -/


/-- PREEMPTION_STOP (R485): a command that is to stop reaches its pre-emption point. One stopped by a SAVE waits there (R188, R189), and one stopped for an
entry into PAIRED until the main side resumes (R406); the others end, their write ranges poisoned (R164, Table TRB-8). -/
def execPreemptionStop (p : PartId) (q : QueId) (n : Nat) (s : State) : Host.Outcome State Fault Refusal :=
  match s.findCmd p q n with
  | some c =>
    if (c.life == .issued || c.life == .started) && s.opsOver c then
      match c.stop with
      | some .save =>
        let core := match c.place with
          | .core m => { s with cnts := { s.cnts with preempted := vmod s.cnts.preempted m fun k => satAdd 8 k 1 } }
          | _ => s
        done s (core.putCmd { c with life := .suspended, stop := none })
      | some .reset => done s ((s.abandon c .staleEpoch).attnSweep)
      | some .fence => done s ((s.abandon c .fenced).attnSweep)
      | some .pair => done s (s.putCmd { c with stop := none })
      | none => done s s
    else done s s
  | none => done s s

/-- The poison that a mismatch put on the write ranges of a command that has run again without error is cleared (R411). -/
def State.clearMarks (s : State) (rs : List Rng) : State :=
  let gone := (rs.filter fun r => r.wr && r.lo < poolBase + 8 * poolBytes).flatMap fun r => granulesOf r.lo r.len
  { s with poison := s.poison.filter fun b => !gone.contains b }

/-- A command ends: the statuses of its rows or entries, the conditions it met and its lateness give the one status of its record (R9, R177). -/
def State.finish (s : State) (c : Cmd) (conds : List St) : State :=
  let late := match c.deadline with
    | some d => decide (d < s.now)
    | none => false
  let stream := (c.kind.isStreamCtl && c.kind != .streamGroup) || c.kind.isStreamStep
  let rows := if stream then c.rowStatuses late else if c.kind.isAttnStep then c.entryStatuses late else []
  let own := c.conds ++ conds ++ if late then [.late] else []
  let st := St.choose (own ++ rows)
  let s1 := if stream then s.strReports c late else if c.kind.isAttnStep then s.attnReports c late else s
  let s2 := if c.rerun && (st == .ok || st == .late) then s1.clearMarks c.ranges else s1
  (s2.complete { c with badField := if rows.contains .badCommand && c.badField = 0 then 39 else c.badField } own rows).attnSweep

/-- COMMAND_COMPLETION (R185): a command whose effect is done and whose operations have retired ends; its record waits to be written. -/
def execCommandCompletion (p : PartId) (q : QueId) (n : Nat) (s : State) : Host.Outcome State Fault Refusal :=
  match s.findCmd p q n with
  | some c => if c.life == .ran && s.opsOver c then done s (s.finish c []) else done s s
  | none => done s s

end Sys2Proof.Machine
end

