-- ==== Sys2Proof/Machine/Service.lean ====
section
/-! DEFINITION. The commands of the front end itself (chapter PAR): HINT, WAIT, SIGNAL, FENCE, SAVE and LOAD. -/
namespace Sys2Proof.Machine

/-- A row of a front-end command: nothing unless that command has issued and may run; where it has not begun it begins, with its start count and whether it is late
for its launch (R178). `body` gives the state after it. -/
def State.serviceRow (s : State) (p : PartId) (q : QueId) (n : Nat) (k : CmdKind) (body : Cmd → State → State) : Host.Outcome State Fault Refusal :=
  match s.findCmd p q n with
  | some c =>
    if c.kind == k && s.mayRun c then
      done s (body (if c.life == .issued then { c with start := s.now, launchLate := s.launchPassed c } else c) s)
    else done s s
  | none => done s s

/-- HINT (R184, R433): it informs the power manager and completes. -/
def execHint (p : PartId) (q : QueId) (n : Nat) (s : State) : Host.Outcome State Fault Refusal :=
  s.serviceRow p q n .hint fun c t =>
    let start := near48 t.now (ofield c.desc 24 48)
    (t.holdHint { part := p, seq := c.seq, clusters := BitVec.ofNat 8 (ofield c.desc 0 8), watts := ofield c.desc 8 16, start := start
                  stop := start + 640 * ofield c.desc 72 32, active := false }).finish c []

/-- WAIT (R182): it completes once its counter has come to its value. -/
def execWait (p : PartId) (q : QueId) (n : Nat) (s : State) : Host.Outcome State Fault Refusal :=
  s.serviceRow p q n .wait fun c t => if t.waitOver c then t.finish c [] else t

/-! ## SIGNAL (R182) -/

def Cmd.sigPart (c : Cmd) : PartId := Fin.ofNat 16 (ofield c.desc 2 4)
def Cmd.sigCounter (c : Cmd) : SemId := Fin.ofNat 64 (ofield c.desc 6 6)
def Cmd.sigValue (c : Cmd) : W32 := BitVec.ofNat 32 (ofield c.desc 16 32)

/-- SIGNAL_ADD (R182): a counter of an open partition of this module. -/
def execSignalAdd (p : PartId) (q : QueId) (n : Nat) (s : State) : Host.Outcome State Fault Refusal :=
  s.serviceRow p q n .signalAdd fun c t =>
    if t.parts[c.sigPart].isOpen then (t.addSig c.sigPart c.sigCounter c.sigValue).finish c [] else t.finish c [.notReady]

/-- SIGNAL_REMOTE (R182, R417): a SIGNAL message; the partner's ACK completes the command. -/
def execSignalRemote (p : PartId) (q : QueId) (n : Nat) (s : State) : Host.Outcome State Fault Refusal :=
  s.serviceRow p q n .signalRemote fun c t =>
    if c.life == .started then t
    else if t.sph.link = 2 && !t.sph.txDark then
      let m := t.sph.txSeq
      let u := t.siphonSend 0x08 0 0 0 c.sigPart.val c.sigCounter.val c.sigValue.toNat []
      ({ u with sph := { u.sph with sigOut := u.sph.sigOut ++ [(m, p)] } }).putCmd { c with life := .started, notes := [m.toNat] }
    else t.finish c [.notReady]

/-- SIGNAL_WRITE (R182): eight bytes of module memory, refused by a half-well or pool that is closed (R135). -/
def execSignalWrite (p : PartId) (q : QueId) (n : Nat) (s : State) : Host.Outcome State Fault Refusal :=
  s.serviceRow p q n .signalWrite fun c t =>
    let a := movedAddr c.moved (ofield c.desc 48 40)
    if !t.reachMap.mapped a 8 then t.finish c [.windowClosed]
    else if !t.mayWrite true c.adm a 8 then (t.flagClosed a 8).finish c [.windowClosed]
    else (t.writeAt a (clean (leBytes 8 (ofield c.desc 88 64)))).finish c []

/-- FENCE (R183): it begins as it issues, and completes once its conditions hold. -/
def execFence (p : PartId) (q : QueId) (n : Nat) (s : State) : Host.Outcome State Fault Refusal :=
  s.serviceRow p q n .fence fun c t => if t.fenceOver c then t.finish c [] else t.putCmd { c with life := .started }

/-! ## SAVE (R157, R188) -/

/-- Bytes of rows that one bit of a live mask covers, of a core's engine state, and of the queue state (R188). -/
def maskBytes : Nat := 768 * 512
def coreStateBytes : Nat := 192 * 1024
def queueStateBytes : Nat := 32 * 1024

/-- The bits that are set in a live mask. -/
def maskBits (m : W16) : List Nat := (List.range 16).filter fun i => m.getLsbD i

/-- The live masks of the cores of a SAVE's partition, whether their table was poisoned, and the effects of reading it; 0 as an address means that every row is
live. A table no longer readable is taken as if every row were live. -/
def State.liveMasks (s : State) (c : Cmd) : List (CoreId × W16) × Bool × State :=
  let a := ofield c.desc 0 40
  let (tbl, t) := if a = 0 then (none, s) else s.devLoad a 64
  let bs := (tbl.map plain).getD (repByte 64 0xFF)
  (s.parts[c.part].coreList.map fun n => (n, BitVec.ofNat 16 (fieldAt bs (2 * n.val) 2)), tbl.any anyPoison, t)

/-- Bytes that a SAVE writes. -/
def saveBytes (live : List (CoreId × W16)) : Nat :=
  live.foldl (fun k x => k + (maskBits x.2).length * maskBytes + coreStateBytes) 0 + queueStateBytes

/-- The space of a SAVE in the order in which it fills: the context area, then the class-2 regions by rising id (R157). -/
def State.saveSpaces (s : State) (p : PartId) : List (Nat × Nat) :=
  let x := s.parts[p]
  let rs := (List.range 64).flatMap fun i => (s.regions.filter fun r => r.id == i && r.part == some p && r.cls == 2 && r.wr && !r.draining).map
    fun r => (r.loc, r.len)
  (if x.ctxSize = 0 then [] else [(x.ctxBase, x.ctxSize * 2 ^ 20)]) ++ rs

/-- The stretches of a list of spaces that its first `n` bytes take. -/
def spaceTake : List (Nat × Nat) → Nat → List (Nat × Nat)
  | [], _ => []
  | (a, len) :: rest, n => if n = 0 then [] else (a, min len n) :: spaceTake rest (n - min len n)

/-- Bytes of a context put at an address of main memory or of the cistern. -/
def State.ctxPut (s : State) (a : Nat) (bs : List PByte) : State :=
  match s.reach a with
  | .cistern r => s.cisternStore r a bs
  | .main => s.store a bs
  | .well _ _ => s
  | .pool _ _ => s
  | .window _ => s
  | .unmapped => s

/-- Bytes written over a list of spaces; what is left of it. -/
def State.ctxWrite (s : State) : List (Nat × Nat) → List PByte → State × List (Nat × Nat)
  | [], _ => (s, [])
  | (a, len) :: rest, bs =>
    if bs.length ≤ len then (s.ctxPut a bs, (a + bs.length, len - bs.length) :: rest)
    else (s.ctxPut a (bs.take len)).ctxWrite rest (bs.drop len)

/-- State bytes whose form the spec does not give (log entry 14). -/
def State.freeState (s : State) (n : Nat) : List PByte × State :=
  (clean ((List.range n).map (Config.savedByte s.fresh)), { s with fresh := s.fresh + 1 })

/-- What a SAVE has come to: the state, the space that is left, and whether a row that it read was poisoned. -/
structure Saving where
  state : State
  space : List (Nat × Nat)
  poison : Bool := false

/-- Bytes written to the space that is left, with their poison. -/
def Saving.put (x : Saving) (s : State) (bs : List PByte) : Saving :=
  let (t, sp) := s.ctxWrite x.space bs
  { state := t, space := sp, poison := x.poison || anyPoison bs }

/-- One stretch of a core's live rows. -/
def Saving.rows (n : CoreId) (x : Saving) (i : Nat) : Saving :=
  let (bs, t) := x.state.load (wellAddr n (i * maskBytes)) maskBytes
  x.put t bs

/-- State bytes of a core, or of the queues. -/
def Saving.freeBytes (x : Saving) (n : Nat) : Saving :=
  let (bs, t) := x.state.freeState n
  x.put t bs

/-- One core's part of a context: its live rows, then its engine state. -/
def Saving.core (x : Saving) (c : CoreId × W16) : Saving := ((maskBits c.2).foldl (Saving.rows c.1) x).freeBytes coreStateBytes

/-- The bytes of a SAVE written to its spaces, and whether a row was poisoned: its poison goes with it (R11, R304). -/
def State.saveAll (s : State) (p : PartId) (live : List (CoreId × W16)) : State × Bool :=
  let x := (live.foldl Saving.core { state := s, space := s.saveSpaces p }).freeBytes queueStateBytes
  (x.state, x.poison)

/-- A SIGNAL to the partner that has been sent acts there whatever happens here: it runs to its end. -/
def Cmd.isSent (c : Cmd) : Bool := c.kind == .signalRemote && c.life == .started

/-- A command of a partition that a SAVE stops or still waits for. -/
def Cmd.stopsFor (x c : Cmd) : Bool := x.part == c.part && x.adm != c.adm && (x.life == .issued || x.life == .started) && !x.isSent

/-- A command that a SAVE has stopped completes for the first time, with ST_PREEMPTED (R188, R189); where its queue has no room for the record, the command keeps
it (R169). -/
def State.recordStop (s : State) (c : Cmd) : State :=
  let r := s.recordOf c .preempted
  let t := s.countStatus c.part .preempted
  if (t.queue c.part c.que).hasRoom then (t.queueRecord c.part c.que r).putCmd { c with resumed := true }
  else t.putCmd { c with resumed := true, records := c.records ++ [r] }

/-- Each command that a SAVE has stopped completes for the first time. -/
def State.recordStopped (s : State) (p : PartId) : State :=
  (s.cmds.filter fun c => c.part == p && c.life == .suspended).foldl (fun (t : State) c => t.recordStop c) s

/-- Every command has stopped: the context is written, and the partition is SAVED, unless it closes (R163). A poisoned row or mask table gives ST_POISONED
(R11). -/
def State.saveEnds (s : State) (c : Cmd) : State :=
  let p := c.part
  let (live, badMask, s1) := s.liveMasks c
  let total := saveBytes live
  let (s2, bad) := s1.saveAll p live
  let t := s2.recordStopped p
  let x := t.parts[p]
  let y := if x.under == .saving then { x.setUnder .saved with
      saved := some { live := live, segs := spaceTake (s.saveSpaces p) total, lent := false, lost := false } } else x
  ((t.setPart p { y with saves := BitVec.ofNat 16 (satAdd 16 x.saves.toNat 1) }).flagIf (x.ctxSize * 2 ^ 20 < total) (.par x.die) 7).finish c
    (if bad || badMask then [.poisoned] else [])

/-- SAVE (R188): first the space is looked at and every running command told to stop; run again once they have stopped, the context is written. -/
def execSave (p : PartId) (q : QueId) (n : Nat) (s : State) : Host.Outcome State Fault Refusal :=
  s.serviceRow p q n .save fun c t =>
    if c.life == .started then (if t.cmds.any fun x => x.stopsFor c then t else t.saveEnds c)
    else if ((t.saveSpaces p).foldl (fun k x => k + x.2) 0) < saveBytes (t.liveMasks c).1 then (t.flag (.par t.parts[p].die) 8).finish c [.noResource]
    else
      let c1 : Cmd := { c with life := .started }
      let u := { t with cmds := t.cmds.map fun (x : Cmd) => if x.stopsFor c && (x.stop.isNone || x.stop == some Stop.pair) then { x with stop := some .save } else x }
      let v := (u.setPart p (u.parts[p].setUnder .saving)).putCmd c1
      if v.cmds.any fun x => x.stopsFor c then v else v.saveEnds c1

/-! ## LOAD (R162, R190) -/

/-- None of a partition's cores and pool units belongs to another open partition (R162). -/
def State.unlent (s : State) (p : PartId) : Bool :=
  let x := s.parts[p]
  (allFin 16).all fun q =>
    let y := s.parts[q]
    q == p || !y.isOpen || (y.cores &&& x.cores == 0 && (allFin 8).all fun k => y.grants[k] &&& x.grants[k] == 0)

/-- The bytes of a saved context with their poison (R155), a stretch that is gone read as poisoned. -/
def State.ctxRead (s : State) : List (Nat × Nat) → List PByte × State
  | [] => ([], s)
  | (a, len) :: rest =>
    let (bs, s1) := s.readAt a len
    let (cs, s2) := s1.ctxRead rest
    (bs ++ cs, s2)

/-- One stretch of rows restored where its half-well takes writes; a row that was not live is left undefined. -/
def State.restoreRows (s : State) (adm : Nat) (n : CoreId) (i : Nat) (data : Option (List PByte)) : State :=
  let a := wellAddr n (i * maskBytes)
  match data with
  | some bs => if s.mayWrite true adm a maskBytes then s.store a bs else s.flagClosed a maskBytes
  | none => s.undefine a maskBytes

/-- The rows of one core restored from the front of the context's bytes; the bytes that are left. -/
def State.restoreCore (s : State) (adm : Nat) (bs : List PByte) (x : CoreId × W16) : State × List PByte :=
  let (t, rest) := (List.range 16).foldl (fun (acc : State × List PByte) i =>
    if x.2.getLsbD i then (acc.1.restoreRows adm x.1 i (some (acc.2.take maskBytes)), acc.2.drop maskBytes)
    else (acc.1.restoreRows adm x.1 i none, acc.2)) (s, bs)
  (t, rest.drop coreStateBytes)

/-- The commands that a SAVE stopped continue (R189): with their state lost they go on poisoned, on a fenced core they are ended. -/
def State.resumeStopped (s : State) (p : PartId) (lost : Bool) : State :=
  { s with cmds := s.cmds.map fun (c : Cmd) =>
      if c.part == p && c.life == .suspended then
        let fenced := match c.place.coreOf with
          | some n => s.coreFenced p n
          | none => false
        { (if lost then c.cond .poisoned else c) with life := if c.start = 0 then .issued else .started, stop := if fenced then some .fence else none }
      else c }

/-- A partition that was LOADING is OPEN; one that closes meanwhile goes on closing (R163). -/
def Part.loaded (x : Part) : Part := { (if x.under == .loading then x.setUnder .opened else x) with saved := none }

/-- The context restored (R190): the rows too when a core was lent; ST_POISONED when what was read is poisoned, or a region that held part of it was lost
(R11, R156). -/
def State.loadEnds (s : State) (c : Cmd) : State :=
  let p := c.part
  match s.parts[p].saved with
  | some v =>
    let (bs, t) := if v.lent then s.ctxRead v.segs else ([], s)
    let s1 := (v.live.foldl (fun (acc : State × List PByte) x => if v.lent then acc.1.restoreCore c.adm acc.2 x else acc) (t, bs)).1
    let s2 := s1.resumeStopped p v.lost
    (s2.setPart p s2.parts[p].loaded).finish c (if v.lost || anyPoison bs then [.poisoned] else [])
  | none => (s.setPart p s.parts[p].loaded).finish c []

/-- LOAD (R190): in an OPEN partition it does nothing; in a SAVED one it waits for lent cores and units, and the partition is LOADING until, run
again, the context has been restored. -/
def execLoad (p : PartId) (q : QueId) (n : Nat) (s : State) : Host.Outcome State Fault Refusal :=
  s.serviceRow p q n .load fun c t =>
    let x := t.parts[p]
    if c.life == .started then t.loadEnds c
    else if x.under == .saved then
      if t.unlent p then (t.setPart p (x.setUnder .loading)).putCmd { c with life := .started } else t
    else t.finish c []

end Sys2Proof.Machine
end

