-- ==== Sys2Proof/Machine/Domains.lean ====
section
/-! DEFINITION. Power domains (R134 to R137, R442, R443): who may switch them, what is refused, gates, power-ups, and what goes dark. -/
namespace Sys2Proof.Machine

/-! ## Which domain is what (Tables ORG-2, ORG-3) -/

/-- The die of a power domain (R486). -/
def pdDie (pd : PdId) : Die :=
  let n := pd.val
  Fin.ofNat 2 (if n < 32 then n / 16 else if n < 96 then (n - 32) / 32 else if n < 112 then n / 4 % 2 else if n < 114 then n - 112
    else if n < 118 then (n - 114) / 2 else if n < 122 then n % 2 else if n = 122 then 0 else if n < 125 then n - 123
    else if n < 127 then n - 125 else 1)

/-- The half-well or pool of a domain. -/
def pdPart (pd : PdId) : Option WellPart :=
  if 32 ≤ pd.val && pd.val < 96 then some (.half (Fin.ofNat 64 (pd.val - 32)))
  else if 96 ≤ pd.val && pd.val < 104 then some (.pool (Fin.ofNat 8 (pd.val - 96))) else none

/-- The cluster of a core, half-well, pool or fabric domain. -/
def pdClus (pd : PdId) : Option ClusId :=
  let n := pd.val
  if n < 32 then some (Fin.ofNat 8 (n / 4)) else if n < 96 then some (Fin.ofNat 8 ((n - 32) / 8)) else if n < 112 then some (Fin.ofNat 8 n) else none

/-- The domain in the same place of the other cluster of the pair. -/
def pdTwin (pd : PdId) : PdId :=
  let n := pd.val
  Fin.ofNat 128 (if n < 32 then (n + 16) % 32 else if n < 96 then 32 + (n - 32 + 32) % 64 else if n < 104 then 96 + (n + 4) % 8 else 104 + (n + 4) % 8)

/-- The domains that a request for one switches: both of a pair that is joined (R402, R443). -/
def State.pdSet (s : State) (pd : PdId) : List PdId :=
  match pdClus pd with
  | some c => if (s.pairs[pairOfClus c]).joined then [pd, pdTwin pd] else [pd]
  | none => [pd]

/-- A domain's bit in PWR_PD_STAT. -/
def State.setPd (s : State) (pd : PdId) (on : Bool) : State :=
  { s with pdOn := if on then s.pdOn ||| BitVec.ofNat 128 (2 ^ pd.val) else s.pdOn &&& ~~~BitVec.ofNat 128 (2 ^ pd.val) }

/-! ## Owners and refusals (R442, R443, R484) -/

/-- A partition ties a core, half-well, fabric or pool domain: it holds the core, a core of the cluster, or a unit of the pool. -/
def Part.tiesPd (x : Part) (pd : PdId) : Bool :=
  let n := pd.val
  if n < 32 then x.hasCore (Fin.ofNat 32 n)
  else if n < 96 then x.hasCore (Fin.ofNat 32 ((n - 32) / 2))
  else
    let c : ClusId := Fin.ofNat 8 n
    (x.coreList.any fun m => clusOfCore m == c) || (n < 104 && x.grants[c] != 0)

/-- A port is an owner of a domain. -/
def State.ownsPd (s : State) (p : Port) (pd : PdId) : Bool :=
  let ties := s.parts.toList.filter fun x => x.isOpen && x.tiesPd pd
  if 112 ≤ pd.val || ties.isEmpty then (s.port p).attached else ties.any fun x => x.state != .orphaned && x.owner == p

/-- A domain is in its gate or powering up. -/
def State.pdMoving (s : State) (pd : PdId) : Bool :=
  (s.pdMoves.any fun m => m.pd == pd) ||
    match pdPart pd with
    | some r => (s.wctl r).st == .closing || (s.wctl r).st == .powering
    | none => false

/-- Table PWR-4: why a switching off is refused now. An axis or camera port that is NOT_READY holds nothing (log entry 19). -/
def State.offRefused (s : State) (p : Port) (pd : PdId) : Option St :=
  let n := pd.val
  let not := fun (b : Bool) => if b then some St.notReady else none
  if n < 32 then
    let m : CoreId := Fin.ofNat 32 n
    not ((s.partOfCore m).isSome || (s.hw[(Fin.ofNat 64 (2 * n) : Fin 64)]).st != .off || (s.hw[(Fin.ofNat 64 (2 * n + 1) : Fin 64)]).st != .off)
  else if n < 96 then none
  else if n < 104 then
    let c : ClusId := Fin.ofNat 8 n
    if s.parts.toList.any (fun x => x.isOpen && x.grants[c] != 0 && (x.state == .orphaned || x.owner != p)) then some .noResource else none
  else if n < 112 then
    let c := n - 104
    not ((List.range 4).any (fun i => s.domainOn (Fin.ofNat 128 (4 * c + i))) || s.domainOn (Fin.ofNat 128 (96 + c)))
  else if n < 114 then not ((allFin 128).any fun a => (dieOfAxis a).val == n - 112 && s.axes[a].live)
  else if n < 118 then not ((allFin 24).any fun v => camPd v == pd && s.cams[v].state != .off && s.cams[v].state != .notReady)
  else if n < 120 then not ((s.pipesOf (Fin.ofNat 2 n)).any fun i => s.pipes[i].state != .off)
  else if n < 122 then not (s.loadOf (.fle (Fin.ofNat 2 n)) ≠ 0)
  else if n = 122 then not (s.sph.link == 2)
  else if n < 125 then some .badCommand
  else if n < 127 then not ((allFin 6).any fun e => (dieOfEth e).val == n - 125 && s.eth[e].state != .off)
  else not ((allFin 4).any fun t => (s.tdm[t].cfg).getLsbD 0)

/-- The answer that a request of an owner gets at once, if it does (R443, Table PWR-4). -/
def State.pdAnswer (s : State) (p : Port) (pd : PdId) (on : Bool) : Option St :=
  let checker := match pdClus pd with
    | some c => s.isChecker c
    | none => false
  if s.sys.fwState.toNat < 2 then some .notReady
  else if !s.diePresent (pdDie pd) then some .badCommand
  else if checker then some .notReady
  else if !on && (pd.val = 123 || pd.val = 124) then some .badCommand
  else if s.pdMoving pd then some .notReady
  else if s.domainOn pd == on then some .ok
  else if on then none
  else s.offRefused p pd

/-- PWR_PD_RESULT of a port. -/
def State.pdResult (s : State) (p : Port) (pd : PdId) (st : St) (isDone : Bool) : State :=
  s.setPort p { s.port p with pdStatus := BitVec.ofNat 16 st.code, pdDomain := BitVec.ofNat 7 pd.val, pdDone := isDone }

/-! ## Half-wells and pools (R134 to R137) -/

/-- A command counted at a closure: an engine or quantisation command with any declared range there, any other unit's command with a write range there
(R134 step 2). -/
def Cmd.countedAt (c : Cmd) (r : WellPart) : Bool :=
  let span := partSpan r
  c.inFlight && c.life != .ran && c.kind != .pump &&
  c.ranges.any fun x => (x.wr || c.kind.isEngine || c.kind.isQuant) && overlap x.lo x.len span.1 span.2

/-- A half-well or pool closes (R134 steps 1 and 2). -/
def State.closePart (s : State) (r : WellPart) (p : Option Port) : State :=
  let span := partSpan r
  s.setWctl r { st := .closing, port := p, since := s.now
                ops := (s.ops.filter fun o => o.writes.any fun w => overlap w.lo w.len span.1 span.2).map (·.id)
                cmds := (s.cmds.filter fun c => c.countedAt r).map (·.adm)
                regs := (s.sph.remoteRegs.filter fun x => x.2.wr && !s.sph.lateRegs.contains x.1 && overlap x.2.lo x.2.len span.1 span.2).map (·.1) }

/-- A half-well or pool begins to power up (R136). -/
def State.powerPart (s : State) (r : WellPart) (p : Option Port) : State := s.setWctl r { st := .powering, port := p, since := s.now }

/-- Operations, commands and registrations of the partner counted at the closure that are still in flight. -/
def State.countedOps (s : State) (r : WellPart) : List PumpOp := s.ops.filter fun o => ((s.wctl r).ops).contains o.id
def State.countedCmds (s : State) (r : WellPart) : List Cmd :=
  s.cmds.filter fun c => ((s.wctl r).cmds).contains c.adm && c.inFlight && c.life != .ran
def State.countedRegs (s : State) (r : WellPart) : List W32 := ((s.wctl r).regs).filter fun k => s.sph.remoteRegs.any fun x => x.1 == k

/-- WEL_STATE.inflight of a part that is CLOSING. -/
def State.inflightOf (s : State) (r : WellPart) : Nat :=
  if (s.wctl r).st == .closing then (s.countedOps r).length + (s.countedCmds r).length + (s.countedRegs r).length else 0

/-- The gate of a part ends: it is OFF, and the port that asked is answered. -/
def State.partOff (s : State) (r : WellPart) : State :=
  let port := (s.wctl r).port
  let t := (s.setWctl r {}).setPd (partPd r) false
  match port with
  | some p => t.pdResult p (partPd r) .ok true
  | none => t

/-- HALF_WELL_POWER_DOWN_DONE (R134, R137): nothing counted at the closure is left. -/
def execHalfWellPowerDownDone (r : WellPart) (s : State) : Host.Outcome State Fault Refusal :=
  if (s.wctl r).st == .closing && s.inflightOf r = 0 then done s (s.partOff r) else done s s

/-- The gate of a part times out: what is still counted is dropped, each with ST_LATE_WRITE, a registration when its data come (R134 step 4; log entry
224 for what WEL_CNT.late_writes counts). -/
def State.gateEnds (s : State) (r : WellPart) : State :=
  let ops := s.countedOps r
  let cmds := s.countedCmds r
  let regs := s.countedRegs r
  let n := ops.length + cmds.length + regs.length
  let k := partClus r
  let s1 := ops.foldl (fun (t : State) o => t.dropOp o [.lateWrite]) s
  let s2 := (cmds.foldl (fun (t : State) c => t.abandon c .lateWrite) s1).attnSweep
  let s3 := s2.setSph { s2.sph with lateRegs := s2.sph.lateRegs ++ regs }
  (({ s3 with cnts := { s3.cnts with welLate := vbump 8 s3.cnts.welLate k n } }).flagIf (n ≠ 0) (.wel k) 2).partOff r

/-- GATE_TIMEOUT (R134): 2 µs (1,280 counts) after the closure. -/
def execGateTimeout (r : WellPart) (s : State) : Host.Outcome State Fault Refusal :=
  if (s.wctl r).st == .closing && (s.wctl r).since + 1280 ≤ s.now then done s (s.gateEnds r) else done s s

/-- A half-well or pool that was powering comes up UNFILLED with undefined contents, and the port that asked is answered (R136, R442). -/
def State.comeUp (s : State) (r : WellPart) : State :=
  let t := ((s.setWctl r { st := .unfilled }).undefine (partSpan r).1 (partSpan r).2).setPd (partPd r) true
  match (s.wctl r).port with
  | some p => t.pdResult p (partPd r) .ok true
  | none => t

/-- HALF_WELL_POWER_UP_DONE (R136, R137): 5 µs (3,200 counts) after the request. -/
def execHalfWellPowerUpDone (r : WellPart) (s : State) : Host.Outcome State Fault Refusal :=
  let x := s.wctl r
  if x.st == .powering && x.since + 3200 ≤ s.now then done s (s.comeUp r) else done s s

/-! ## The other domains (Table PWR-4) -/

/-- What goes dark with a domain: loop engines (R379), camera ports (R324), strainers, the Siphon link, Ethernet ports (R382). -/
def State.darken (s : State) (pd : PdId) : State :=
  let n := pd.val
  if n = 112 || n = 113 then
    let d : Die := Fin.ofNat 2 n
    { s with
      axes := Vector.ofFn fun (a : AxisId) =>
        if dieOfAxis a == d then { s.axes[a] with state := .notReady, reload := none, goRun := false, paired := false } else s.axes[a]
      stations := Vector.ofFn fun (i : StationId) => if dieOfStation i == d then { s.stations[i] with state := .notReady, updated := none, fb := none, held := none }
        else s.stations[i] }
  else if 114 ≤ n && n < 118 then (allFin 24).foldl (fun (t : State) v => if camPd v == pd then t.camDark v else t) s
  else if n = 118 || n = 119 then s.recDark (Fin.ofNat 2 n)
  else if n = 122 then (if s.sph.link == 3 then s else s.setSph { s.sph with link := 0 })
  else if n = 125 || n = 126 then
    (allFin 6).foldl (fun (t : State) e => if (dieOfEth e).val == n - 125 && t.eth[e].state != .fenced then t.ethStop e .notReady else t) s
  else s

/-- What comes back with a domain: pipelines and Ethernet ports are OFF again, the Siphon link trains; the others wait to be loaded. -/
def State.lighten (s : State) (pd : PdId) : State :=
  let n := pd.val
  if n = 118 || n = 119 then
    (s.pipesOf (Fin.ofNat 2 n)).foldl (fun (t : State) i => if t.pipes[i].state == .notReady then t.setPipe i { t.pipes[i] with state := .off } else t) s
  else if 114 ≤ n && n < 118 then (allFin 24).foldl (fun (t : State) v => if camPd v == pd then t.camLight v else t) s
  else if n = 122 then (if s.sph.link == 0 then s.setSph { s.sph with link := 1 } else s)
  else if n = 125 || n = 126 then
    (allFin 6).foldl (fun (t : State) e => if (dieOfEth e).val == n - 125 && t.eth[e].state == .notReady then t.ethIdle e else t) s
  else s

/-- Counts that a switching on takes: 5 µs, 10 µs or 50 µs. -/
def pdTime (pd : PdId) : Nat :=
  let n := pd.val
  if n < 112 then 3200 else if n < 114 then 6400 else if n < 118 then 32000 else if n < 122 then 6400 else if n < 127 then 32000 else 6400

/-- A domain starts to switch on (R136, R443, Table PWR-4). -/
def State.pdStart (s : State) (pd : PdId) (asks : Option Port) : State :=
  match pdPart pd with
  | some r => s.powerPart r asks
  | none => { s with pdMoves := s.pdMoves ++ [⟨pd, true, asks, s.now⟩] }

/-- A domain switches off: a half-well or pool closes, any other is off at once (R134, R443). -/
def State.pdStop (s : State) (pd : PdId) (asks : Option Port) : State :=
  match pdPart pd with
  | some r => s.closePart r asks
  | none => (s.darken pd).setPd pd false

/-- The domain in a checker that follows one of its main side, 24 counts later (R402). -/
def State.pdFollows (s : State) (pd : PdId) (on : Bool) : State :=
  { s with pm := { s.pm with pdTwins := s.pm.pdTwins ++ ((s.pdSet pd).filter fun d => d != pd).map fun d => (d, on, s.now + 24) } }

/-- The checkers' domains whose counts have come switch (R402). -/
def State.twinsTick (s : State) : State :=
  let due := s.pm.pdTwins.filter fun x => x.2.2 ≤ s.now
  due.foldl (fun (t : State) x => if x.2.1 then t.pdStart x.1 none else t.pdStop x.1 none)
    { s with pm := { s.pm with pdTwins := s.pm.pdTwins.filter fun x => !(x.2.2 ≤ s.now) } }

/-- A port asks for a domain to be switched on (R442, R443, Table PWR-4). -/
def State.askOn (s : State) (p : Port) (pd : PdId) : State :=
  if !s.ownsPd p pd then s.flag .pwr 6
  else match s.pdAnswer p pd true with
    | some st => s.pdResult p pd st true
    | none => ((s.pdResult p pd .ok false).pdStart pd (some p)).pdFollows pd true

/-- A port asks for a domain to be switched off (R442, R443, Table PWR-4). -/
def State.askOff (s : State) (p : Port) (pd : PdId) : State :=
  if !s.ownsPd p pd then s.flag .pwr 6
  else match s.pdAnswer p pd false with
    | some st => s.pdResult p pd st true
    | none => ((s.pdResult p pd .ok (pdPart pd).isNone).pdStop pd (some p)).pdFollows pd false

/-- DOMAIN_ON: PWR_PD_CTL with op 0b01 (R442, R443, Table PWR-4). -/
def execDomainOn (p : Port) (pd : PdId) (s : State) : Host.Outcome State Fault Refusal := done s (s.hostRow p (s.askOn p pd))

/-- DOMAIN_OFF: PWR_PD_CTL with op 0b10 (R442, R443, Table PWR-4). A half-well or pool closes; any other domain is off at once. -/
def execDomainOff (p : Port) (pd : PdId) (s : State) : Host.Outcome State Fault Refusal := done s (s.hostRow p (s.askOff p pd))

/-- The end of a switching on: the domain is on, and the port that asked is answered. -/
def State.endMove (s : State) (m : PdMove) : State :=
  let t := ({ s with pdMoves := s.pdMoves.filter fun x => x.pd != m.pd }.setPd m.pd true).lighten m.pd
  match m.port with
  | some p => t.pdResult p m.pd .ok true
  | none => t

/-- DOMAIN_SWITCH_DONE (R442, R443): a domain that was being switched on is on. -/
def execDomainSwitchDone (pd : PdId) (s : State) : Host.Outcome State Fault Refusal :=
  match s.pdMoves.find? fun m => m.pd == pd with
  | some m => if m.since + pdTime pd ≤ s.now then done s (s.endMove m) else done s s
  | none => done s s

end Sys2Proof.Machine
end

