-- ==== Sys2Proof/Machine/Partitions.lean ====
section
/-! DEFINITION. Partitions over the mailbox (R154, R159 to R166, R57): opening, closing, resetting and adopting them, their rings, their cistern
regions and remote windows. -/
namespace Sys2Proof.Machine

/-! ## PART_OPEN (R160 to R162) -/

/-- Fields of a PART_OPEN (Table PAR-2). -/
def Slot.openCores (x : Slot) : W32 := BitVec.ofNat 32 (x.pay 0 4)
def Slot.openGrants (x : Slot) : Vector W16 8 := Vector.ofFn fun c => BitVec.ofNat 16 (x.pay (4 + 2 * c.val) 2)
def Slot.openBase (x : Slot) : Nat := x.pay 24 5
def Slot.openSize (x : Slot) : Nat := x.pay 22 2
/-- The issue depth that the partition opens with; a field of 0 means 2. -/
def Slot.openDepth (x : Slot) : Nat := if x.pay 20 1 = 0 then 2 else x.pay 20 1

/-- A mask of cores holds one of a cluster. -/
def coresIn (m : W32) (c : ClusId) : Bool := (allFin 32).any fun n => m.getLsbD n.val && clusOfCore n == c

/-- The failing fields of a PART_OPEN (R161). -/
def State.openBad (s : State) (x : Slot) : List (Nat × Nat) :=
  let m := x.openCores
  (if x.pay 21 1 / 2 ≠ 0 then [(3, 37)] else []) ++ (nonzeroAt x.req 45 3).map (fun o => (3, o)) ++
  (if 16 ≤ x.part || s.parts[x.partId].isOpen then [(4, 8)] else []) ++
  (if m = 0 || (allFin 32).any (fun n => m.getLsbD n.val && !s.diePresent (dieOfCore n)) then [(4, 16)] else []) ++
  ((allFin 8).filter fun c => x.openGrants[c] != 0 && !coresIn m c).map (fun c => (4, 20 + 2 * c.val)) ++
  (if 8 < x.pay 20 1 then [(4, 36)] else []) ++
  if x.openBase % 0x100000 ≠ 0 || s.mainEnd < x.openBase + x.openSize * 0x100000 then [(4, 40)] else []

/-- A partition holds one of the cores or pool units asked for. -/
def Part.clashes (y : Part) (m : W32) (g : Vector W16 8) : Bool := y.cores &&& m != 0 || (allFin 8).any fun c => y.grants[c] &&& g[c] != 0

/-- PART_OPEN (R160 to R162): the partition is OPEN and the sender's; SAVED partitions whose cores it borrows know it. -/
def execPartOpen (p : Port) (i : SlotId) (s : State) : Host.Outcome State Fault Refusal :=
  let x := s.slot p i
  let q := x.partId
  let m := x.openCores
  let g := x.openGrants
  let borrow := x.pay 21 1 % 2 == 1
  done s (s.mailRow p i 0x10 .nothing (s.openBad x) fun t =>
    let clash := (allFin 16).any fun o => o != q && t.parts[o].isOpen && !(borrow && t.parts[o].state == .saved) && t.parts[o].clashes m g
    let checker := (allFin 32).any fun n => m.getLsbD n.val && t.isChecker (clusOfCore n)
    if (allFin 32).any fun n => m.getLsbD n.val && t.clusFenced (clusOfCore n) then t.answerSt p i .fenced
    else if clash || checker then t.answerSt p i .noResource
    else
      let e := nextEpoch t.parts[q].lastEpoch
      let y : Part := {
        state := .opened, owner := p, issueDepth := x.openDepth, epoch := e, lastEpoch := e, cores := m, grants := g, borrow := borrow
        ctxBase := x.openBase, ctxSize := x.openSize, policyClose := (t.port p).policyClose }
      let lend := fun (z : Part) => { z with saved := z.saved.map fun (v : Saved) => { v with lent := v.lent || z.cores &&& m != 0 } }
      let u := { t with parts := (t.parts.map lend).set q y }
      u.answerOk p i (leBytes 2 e.toNat ++ repByte 2 0 ++ leBytes 4 (6336 * (y.coreList).length + 32) ++ leBytes 8 t.now))

/-! ## PART_CLOSE and PART_RESET (R163, R164) -/

/-- The HINTs of a partition are cancelled (R433). -/
def State.cancelHints (s : State) (p : PartId) : State :=
  if s.pm.hints.any (fun h => h.part == p) then { s with pm := { s.pm with hints := s.pm.hints.filter fun h => h.part != p } }.applySkip else s

/-- Commands of a partition ended by the request itself: those that meet a test complete with ST_STALE_EPOCH. -/
def State.endStale (s : State) (p : PartId) (f : Cmd → Bool) : State :=
  (s.cmds.filter fun c => c.part == p && f c).foldl (fun (t : State) c => t.abandon c .staleEpoch) s

/-- A command that a SAVE under way had stopped, or was to stop, goes on. -/
def Cmd.unstopped (c : Cmd) : Cmd :=
  { c with
    stop := if c.stop == some .save then none else c.stop
    life := if c.life == .suspended then (if c.start = 0 then .issued else .started) else c.life }

/-- A partition begins to close: nothing more is fetched or issued, what has not issued ends, its axes trip and its camera ports and
pipelines stop (R163, R332, R379, R433; chapter REC). The commands of a SAVED partition are discarded with its context; those that a SAVE under way has stopped, or has still to stop, complete as usual, and
so do those of a LOAD under way. -/
def State.beginClose (s : State) (q : PartId) : State :=
  let was := s.parts[q].under
  let gone := fun (c : Cmd) => c.life == .waiting || (c.life == .suspended && was == .saved)
  let n := (s.cmds.filter fun c => c.part == q && gone c).length
  let t := ((((s.endStale q gone).attnSweep.tripAxes fun x => !x.blk.isEmpty && x.part == q).cancelHints q).camsClose q).recClose q
  { t.setPart q { (t.parts[q]).setUnder .closing with ended := n, saved := if was == .loading then t.parts[q].saved else none } with
    cmds := t.cmds.map fun (c : Cmd) => if c.part == q && was == .saving then c.unstopped else c }

/-- A waiting record of an ORPHANED partition can be written or dropped now (R56, R169). -/
def State.recordsGo (s : State) (q : PartId) : Bool :=
  (allFin 4).any fun k =>
    let x := s.queue q k
    !x.waiting.isEmpty &&
    match x.rring with
    | some r => (x.crProd - x.crCons).toNat < r.entries || (r.host && s.parts[q].state == .orphaned)
    | none => false

/-- Every command of a closing partition has completed, its records are written, and so is what its camera ports and pipelines had to write: no record is
dropped for want of a ring (R166, R332, R345). Those of an ORPHANED one are written as far as they can be, since no host is left to make room (R56, log entry 226). -/
def State.closeReady (s : State) (q : PartId) : Bool :=
  !s.cmds.any (fun c => c.part == q && c.life != .ended) && !s.ops.any (fun o => o.part == q) &&
  !(s.cams.toList.any fun x => x.jobs.any fun j => j.part == q) && !(s.pipes.toList.any fun x => x.writes.any fun j => j.part == q) &&
  if s.parts[q].state == .orphaned then !s.recordsGo q
  else !s.cmds.any (fun c => c.part == q) && (allFin 4).all fun k => (s.queue q k).waiting.isEmpty

/-- What a partition holds is released: cores, pool units, rings, keys, streams, sequences, intake and pipelines; its windows, and the regions that are
its alone, drain (R163, R154, R180, R262, R302, R340, R352). The numbers that its registers keep are kept. -/
def State.release (s : State) (q : PartId) : State :=
  let t := (((s.strClose q).attnClose q).bindingsClose q).recClose q
  let x := t.parts[q]
  { t with
    parts := t.parts.set q { lastEpoch := x.lastEpoch, ndc := x.ndc, late := x.late, missed := x.missed, staleCmds := x.staleCmds
                             staleResults := x.staleResults, saves := x.saves, interrupted := x.interrupted, owner := x.owner }
    keys := t.keys.filter fun k => k.part != q
    cmds := t.cmds.filter fun c => c.part != q
    pairs := t.pairs.map fun (y : Pair) => { y with barred := y.barred.filter fun o => o != q }
    regions := t.regions.map fun (r : Region) => if r.part == some q then { r with draining := true } else r
    windows := t.windows.map fun (w : Window) => if w.part == q then { w with draining := true } else w }.drained

/-- PART_CLOSE (R163): run again until its commands have completed, it is then CLOSED. -/
def execPartClose (p : Port) (i : SlotId) (s : State) : Host.Outcome State Fault Refusal :=
  let q := (s.slot p i).partId
  done s (s.mailRow p i 0x11 .owner [] fun t =>
    let u := if (t.slot p i).started then t else (t.beginClose q).keepReq p i
    if u.closeReady q then
      let n := u.parts[q].ended
      (u.release q).answerOk p i (leBytes 4 n ++ repByte 4 0)
    else u)

/-- ORPHAN_CLOSE (R56): an ORPHANED partition under CLOSE is closed once its issued commands have completed. -/
def execOrphanClose (q : PartId) (s : State) : Host.Outcome State Fault Refusal :=
  let x := s.parts[q]
  if x.state == .orphaned && x.policyClose && !s.cmds.any fun c => c.part == q && c.inFlight then
    let t := s.beginClose q
    done s (if t.closeReady q then t.release q else t)
  else done s s

/-- A partition begins to reset: every fetched command ends, now or at its next pre-emption point, and the epoch advances (R164, R485). A command whose
effect is done has no such point before it: it ends now. -/
def State.beginReset (s : State) (q : PartId) : State :=
  let n := (s.cmds.filter fun c => c.part == q && c.life != .ended).length
  let runs := fun (c : Cmd) => (c.life == .issued || c.life == .started) && c.kind != .signalRemote
  let t := (s.endStale q fun c => !runs c).attnSweep.cancelHints q
  let x := t.parts[q]
  let e := nextEpoch x.lastEpoch
  let y := { x.setUnder .resetting with
    epoch := e, lastEpoch := e, ended := n, saved := none, sigs := .replicate 64 0, lostKeys := []
    queues := x.queues.map fun (k : Queue) => { k with fetched := k.prod } }
  { t with
    parts := t.parts.set q y
    cmds := t.cmds.map fun (c : Cmd) => if c.part == q then { c with stop := some .reset } else c
    keys := t.keys.filter fun k => k.part != q }

/-- PART_RESET (R164): run again until its commands have ended, the partition is OPEN again. -/
def execPartReset (p : Port) (i : SlotId) (s : State) : Host.Outcome State Fault Refusal :=
  let q := (s.slot p i).partId
  done s (s.mailRow p i 0x12 .owner [] fun t =>
    let u := if (t.slot p i).started then t else (t.beginReset q).keepReq p i
    if u.cmds.any fun c => c.part == q && c.life != .ended then u
    else
      let x := u.parts[q]
      (u.setPart q (x.setUnder .opened)).answerOk p i (leBytes 2 x.epoch.toNat ++ repByte 2 0 ++ leBytes 4 x.ended))

/-! ## PART_ADOPT and RING_REGISTER (R56, R57, R165, R166) -/

/-- A queue taken over by another port: records still bound for the detached host are dropped and counted, and rings in its memory unregistered. -/
def Queue.adopted (k : Queue) : Queue :=
  let hostR := match k.rring with
    | some r => r.host
    | none => false
  let hostC := match k.cring with
    | some r => r.host
    | none => false
  { k with
    waiting := if hostR then [] else k.waiting
    dropped := if hostR then satAdd 16 k.dropped k.waiting.length else k.dropped
    rring := if hostR then none else k.rring
    cring := if hostC then none else k.cring
    rereg := k.rereg || hostR || hostC }

/-- PART_ADOPT (R57): the sender owns the partition, which issues again at its first doorbell. -/
def execPartAdopt (p : Port) (i : SlotId) (s : State) : Host.Outcome State Fault Refusal :=
  let x := s.slot p i
  let q := x.partId
  let bad := if x.part < 16 && s.parts[q].state == .orphaned && s.parts[q].policyClose then [(5, 8)] else []
  done s (s.mailRow p i 0x13 .adopt bad fun t =>
    let y := t.parts[q]
    let ks := y.queues.map Queue.adopted
    let lost := (allFin 4).any fun k => (y.queues[k]).waiting.length ≠ (ks[k]).waiting.length
    let rep := ks.toList.flatMap fun (k : Queue) => leBytes 2 k.dropped ++ leBytes 2 (if k.rereg then 1 else 0)
    let z := { y with
      state := y.wasState, owner := p, policyClose := (t.port p).policyClose, waitsBell := true
      queues := ks.map fun (k : Queue) => { k with dropped := 0 } }
    ((t.setPart q z).flagIf lost .mbx 10).answerOk p i rep)

/-- A power of two from 64 to 65,536. -/
def ringSizeOk (n : Nat) : Bool := (List.range 11).any fun k => n == 2 ^ (k + 6)

/-- RING_REGISTER (R165, R166, Table PAR-3). -/
def execRingRegister (p : Port) (i : SlotId) (s : State) : Host.Outcome State Fault Refusal :=
  let x := s.slot p i
  let q := x.partId
  let k : QueId := Fin.ofNat 4 (x.pay 0 1)
  let isCr := x.pay 1 1 == 1
  let host := x.pay 2 1 == 1
  let n := x.pay 4 4
  let base := x.pay 8 8
  let size := n * (if isCr then 32 else 64)
  let bad := (nonzeroAt x.req 19 1 ++ nonzeroAt x.req 32 16).map (fun o => (3, o)) ++ (if 3 < x.pay 0 1 then [(4, 16)] else []) ++
    (if 1 < x.pay 1 1 then [(4, 17)] else []) ++ (if 1 < x.pay 2 1 then [(4, 18)] else []) ++ (if ringSizeOk n then [] else [(4, 20)]) ++
    if base % 4096 ≠ 0 || (!host && !s.inMain base size) then [(4, 24)] else []
  done s (s.mailRow p i 0x14 .owner bad fun t =>
    let y := t.queue q k
    let ring : Ring := ⟨host, n, base⟩
    let busy := if isCr then y.rring.isSome && !y.waiting.isEmpty
      else y.cring.isSome && t.cmds.any fun c => c.part == q && c.que == k && c.life == .waiting
    if busy then t.answerSt p i .notReady
    else if isCr then (t.setQueue q k { y with rring := some ring, rereg := false }).answerOk p i (leBytes 4 y.crProd.toNat ++ repByte 4 0)
    else (t.setQueue q k { y with cring := some ring, rereg := false }).answerOk p i (leBytes 4 y.prod.toNat ++ repByte 4 0))

/-! ## Cistern regions and remote windows (R127, R128, R131, R153, R154) -/

/-- The lowest multiple of 64 KiB in `[lo, hi)` from which `len` bytes meet none of the stretches in use (log entry 47). -/
def firstFit (lo hi : Nat) (used : List (Nat × Nat)) (len : Nat) : Option Nat :=
  let fits := (lo :: used.map fun u => u.1 + u.2).filter fun a => lo ≤ a && a + len ≤ hi && !used.any fun u => overlap a len u.1 u.2
  fits.foldl (fun (m : Option Nat) a => match m with
    | some b => some (min a b)
    | none => some a) none

/-- The lowest id below 64 that is not in use. -/
def firstId (used : List Nat) : Option Nat := (List.range 64).find? fun i => !used.contains i

/-- Failing length and access fields of a region or window request. -/
def spanBad (x : Slot) : List (Nat × Nat) :=
  let len := x.pay 8 8
  (if len % 65536 ≠ 0 || len < 65536 || 2 ^ 36 < len then [(4, 24)] else []) ++ (if 4 ≤ x.pay 17 1 then [(3, 33)] else []) ++
  if x.pay 17 1 = 0 then [(4, 33)] else []

/-- CISTERN_REGISTER (R153, R154, Table MEM-4). -/
def execCisternRegister (p : Port) (i : SlotId) (s : State) : Host.Outcome State Fault Refusal :=
  let x := s.slot p i
  let cls := x.pay 16 1
  let len := x.pay 8 8
  let none_ := x.part == 0xFFFF
  let bad := (nonzeroAt x.req 34 6).map (fun o => (3, o)) ++ (if x.pay 0 8 % 65536 ≠ 0 then [(4, 16)] else []) ++ spanBad x ++
    (if 2 < cls then [(4, 32)] else []) ++ if none_ && (cls = 1 || cls = 2) then [(5, 8)] else []
  done s (s.mailRow p i 0x20 (if none_ then .any else .owner) bad fun t =>
    match firstId (t.regions.map (·.id)), firstFit cisternBase windowBase (t.regions.map fun r => (r.loc, r.len)) len with
    | some id, some loc =>
      let r : Region := {
        id := id, port := p, part := if none_ then none else some x.partId, cls := cls, rd := x.pay 17 1 % 2 == 1, wr := x.pay 17 1 / 2 == 1
        host := x.pay 0 8, len := len, loc := loc }
      { t with regions := t.regions ++ [r] }.answerOk p i (leBytes 8 loc ++ [nb id] ++ repByte 7 0)
    | _, _ => t.answerSt p i .noResource)

/-- CISTERN_RELEASE (R131, R154): by drain the response follows the last operation; by abort they are dropped. -/
def execCisternRelease (p : Port) (i : SlotId) (s : State) : Host.Outcome State Fault Refusal :=
  let x := s.slot p i
  let id := x.pay 0 1
  let none_ := x.part == 0xFFFF
  let mine := fun (r : Region) => r.id == id && r.port == p && r.part == (if none_ then none else some x.partId)
  let bad := (nonzeroAt x.req 18 6).map (fun o => (3, o)) ++ (if s.regions.any fun r => mine r && !r.draining then [] else [(4, 16)]) ++
    if 1 < x.pay 1 1 then [(4, 17)] else []
  done s (s.mailRow p i 0x21 (if none_ then .any else .owner) bad fun t =>
    if (t.slot p i).started then
      let u := t.drained
      if u.regions.any fun r => mine r && r.draining then u else u.answerOk p i []
    else match t.regions.find? mine with
      | some r =>
        if x.pay 1 1 = 1 then (t.abortRegion r).answerOk p i []
        else
          let u := { t with regions := t.regions.map fun (y : Region) => if y.id == id then { y with draining := true } else y }.drained
          if u.regions.any fun y => y.id == id then u.keepReq p i else u.answerOk p i []
      | none => t)

/-- The roles of the two modules let this one open windows (Table PRG-8): ACTIVE onto a STANDBY, and PEER onto PEER. -/
def State.rolesLet (s : State) : Bool :=
  s.sph.partnerKnown && ((s.sph.role == 0 && s.sph.partnerRole == 1) || (s.sph.role == 2 && s.sph.partnerRole == 2))

/-- WINDOW_OPEN (R127, R128, R418, Table WEL-6): `maps` is whether the range is mapped on the partner. -/
def execWindowOpen (p : Port) (i : SlotId) (maps : Bool) (s : State) : Host.Outcome State Fault Refusal :=
  let x := s.slot p i
  let len := x.pay 8 8
  let bad := (nonzeroAt x.req 21 3 ++ nonzeroAt x.req 34 14).map (fun o => (3, o)) ++ (if x.pay 0 5 % 65536 ≠ 0 then [(4, 16)] else []) ++ spanBad x ++
    if 1 < x.pay 16 1 then [(4, 32)] else []
  done s (s.mailRow p i 0x22 .owner bad fun t =>
    if t.sph.link ≠ 2 then t.answerSt p i .notReady
    else if !maps || !t.rolesLet then t.answerBad p i 4 16
    else match firstId (t.windows.map (·.id)), firstFit windowBase 0x10000000000 (t.windows.map fun w => (w.loc, w.len)) len with
      | some id, some loc =>
        let w : Window := {
          id := id, part := x.partId, untracked := x.pay 16 1 == 1, rd := x.pay 17 1 % 2 == 1, wr := x.pay 17 1 / 2 == 1, loc := loc
          remote := x.pay 0 5, len := len }
        { t with windows := t.windows ++ [w] }.answerOk p i (leBytes 8 loc ++ [nb id] ++ repByte 7 0)
      | _, _ => t.answerSt p i .noResource)

/-- WINDOW_CLOSE (R131): by drain the response follows the last acknowledgement; by abort what was not sent is dropped. -/
def execWindowClose (p : Port) (i : SlotId) (s : State) : Host.Outcome State Fault Refusal :=
  let x := s.slot p i
  let id := x.pay 0 1
  let mine := fun (w : Window) => w.id == id && w.part == x.partId
  let bad := (nonzeroAt x.req 18 6).map (fun o => (3, o)) ++ (if s.windows.any fun w => mine w && !w.draining then [] else [(4, 16)]) ++
    if 1 < x.pay 1 1 then [(4, 17)] else []
  done s (s.mailRow p i 0x23 .owner bad fun t =>
    if (t.slot p i).started then
      let u := t.drained
      if u.windows.any fun w => mine w && w.draining then u else u.answerOk p i []
    else if x.pay 1 1 = 1 then (t.abortWindow id).answerOk p i []
    else
      let u := { t with windows := t.windows.map fun (w : Window) => if w.id == id then { w with draining := true } else w }.drained
      if u.windows.any fun w => w.id == id then u.keepReq p i else u.answerOk p i [])

end Sys2Proof.Machine
end

