-- ==== Sys2Proof/Machine/Trouble.lean ====
section
/-! DEFINITION. The management subsystem (chapter TRB): images and the update, identity and attestation, the event log, fencing and testing of units,
and engine resets. -/
namespace Sys2Proof.Machine

/-! ## Firmware images (R448, R449, R451, R452) -/

/-- Image bytes taken at an offset over those that came before. -/
def Staged.put (x : Staged) (off : Nat) (bs : List Byte) : Staged :=
  { bytes := (x.bytes.filter fun c => c.1 < off) ++ ((List.range bs.length).map fun i => off + i).zip bs ++
      (x.bytes.filter fun c => off + bs.length ≤ c.1) }

/-- The bytes `[off, off + len)`, if every one of them has come. -/
def Staged.span (x : Staged) (off len : Nat) : Option (List Byte) :=
  let l := x.bytes.filter fun c => off ≤ c.1 && c.1 < off + len
  if l.length = len then some (l.map (·.2)) else none

/-- A field of the header, 0 while it is not all there. -/
def Staged.field (x : Staged) (off len : Nat) : Nat :=
  match x.span off len with
  | some b => leNat b
  | none => 0

/-- Every byte up to the header's length, if the length is in range and all have come. -/
def Staged.image (x : Staged) : Option (List Byte) :=
  let n := x.field 4 4
  if 4096 ≤ n && n ≤ 2097152 then x.span 0 n else none

/-- Id of the vendor key that the ROM holds (R445). -/
def vendorKeyId : List Byte := (shake256 Config.vendorKey 32).take 8

/-- The length that an image's header gives (Table TRB-3). -/
def imageLen (bs : List Byte) : Nat := fieldAt bs 4 4

/-- A valid image (R448): tag, length in range, key id and vendor signature. -/
def imageOk (bs : List Byte) : Bool :=
  let n := imageLen bs
  fieldAt bs 0 4 == 0x31574647 && 4096 ≤ n && n ≤ 2097152 && n ≤ bs.length && bytesAt bs 24 8 == vendorKeyId &&
  Config.falconVerify Config.vendorKey (bytesAt bs 0 (n - 1280)) (bytesAt bs (n - 1280) 1280)

/-- The firmware measurement (R448). -/
def measureImage (bs : List Byte) : List Byte := shake256 (bytesAt bs 0 (imageLen bs)) 32

/-- The image area of the flash. -/
def State.flashImage (s : State) : List Byte :=
  match s.trb.flash with
  | some b => b
  | none => Config.factoryImage

/-- Security version of an image. -/
def securityVersion (bs : List Byte) : Nat := fieldAt bs 16 4

/-- Event 0x0009 for a firmware message: opcode, status, version (Table TRB-7). -/
def State.logFw (s : State) (opcode : Nat) (st : St) (version : Nat) : State :=
  s.log 0x0009 20 0 (leBytes 2 opcode ++ leBytes 2 st.code ++ leBytes 4 version)

/-- Failing fields of a message that carries image bytes (R449, R451): `mask` holds the flags that may be set. -/
def imageBad (x : Slot) (mask : Nat) : List (Nat × Nat) :=
  let n := x.pay 4 2
  (if n ≤ 480 && x.len ≠ 16 + n then [(2, 2)] else []) ++ (if x.pay 6 1 &&& (255 - mask) ≠ 0 then [(3, 22)] else []) ++
  (nonzeroAt x.req 23 9).map (fun o => (3, o)) ++ (if 2097152 < x.pay 0 4 + n then [(4, 16)] else []) ++
  if n = 0 || 480 < n then [(4, 20)] else []

/-- Every switched domain of a present die goes on at step 5 of the boot: half-wells and pools come up UNFILLED (R443). -/
def State.powerAll (s : State) : State :=
  (allFin 128).foldl (fun (t : State) pd =>
    if t.diePresent (pdDie pd) && !t.domainOn pd && !t.pdMoving pd then
      match pdPart pd with
      | some r => t.powerPart r none
      | none => { t with pdMoves := t.pdMoves ++ [⟨pd, true, none, t.now⟩] }
    else t) s

/-- Goride started from an image in management SRAM (step 3 of Table TRB-2); the first time the domains go on. -/
def State.startGoride (s : State) (image : List Byte) (recovery : Bool) : State :=
  let t := { s with sys := { s.sys with fwState := 2 }, trb := { s.trb with running := image, recoveryBoot := recovery, recovery := {} } }
  if s.sys.wdRestart then t else t.powerAll

/-- The outcome of the last chunk of a recovery image (R449). -/
def State.recoverLast (s : State) (p : Port) (i : SlotId) : State :=
  let x := s.trb.recovery
  match x.image with
  | some b =>
    if imageOk b then
      ((s.startGoride b true).logFw 0x43 .ok (fieldAt b 8 4)).answerOk p i (leBytes 4 x.bytes.length ++ repByte 4 0)
    else refused x
  | none => refused x
where
  refused (x : Staged) : State :=
    (({ s with trb := { s.trb with recovery := {} } }.flag .trb 3).logFw 0x43 .badCommand (x.field 8 4)).answerBad p i 4 0xFFFF

/-- RECOVERY_IMAGE (R449): taken in state 1 only; NOT_READY in state 0, refused in states 2 and 3. -/
def execRecoveryImage (p : Port) (i : SlotId) (s : State) : Host.Outcome State Fault Refusal :=
  let x := s.slot p i
  if s.mailRuns p i 0x43 && s.sys.fwState = 0 then done s (s.answerSt p i .notReady)
  else done s (s.mailRow p i 0x43 .any (imageBad x 1 ++ if s.sys.fwState ≠ 1 then [(4, 0xFFFF)] else []) fun t =>
    let u := { t with trb := { t.trb with recovery := t.trb.recovery.put (x.pay 0 4) (x.payBytes 16 (x.pay 4 2)) } }
    if x.pay 6 1 = 1 then u.recoverLast p i else u.answerOk p i (leBytes 4 u.trb.recovery.bytes.length ++ repByte 4 0))

/-- The update buffer is bound to the other port (R451). -/
def State.stagedElsewhere (s : State) (p : Port) : Bool := s.trb.stagedPort == some p.other

/-- FW_WRITE (R451): a restart empties the buffer first; the first write into an empty one binds it. -/
def execFwWrite (p : Port) (i : SlotId) (s : State) : Host.Outcome State Fault Refusal :=
  let x := s.slot p i
  done s (s.mailRow p i 0x40 .any (imageBad x 2) fun t =>
    if t.stagedElsewhere p then t.answerSt p i .noResource
    else
      let old : Staged := if x.pay 6 1 = 2 then {} else t.trb.staged
      let new := old.put (x.pay 0 4) (x.payBytes 16 (x.pay 4 2))
      { t with trb := { t.trb with staged := new, stagedPort := some p, verified := false } }.answerOk p i (leBytes 4 new.bytes.length ++ repByte 4 0))

/-- The 72 bytes of an FW_VERIFY response; what the buffer cannot supply is zero (R451). -/
def Staged.verifyBytes (x : Staged) : List Byte :=
  let m := match x.image with
    | some b => measureImage b
    | none => repByte 32 0
  leBytes 4 (x.field 4 4) ++ leBytes 4 (x.field 8 4) ++ leBytes 4 (x.field 12 4) ++ leBytes 4 (x.field 16 4) ++ m ++ leBytes 8 (x.field 24 8) ++
  leBytes 8 x.bytes.length ++ repByte 8 0

/-- FW_VERIFY (R451). -/
def execFwVerify (p : Port) (i : SlotId) (s : State) : Host.Outcome State Fault Refusal :=
  done s (s.mailRow p i 0x41 .any [] fun t =>
    let x := t.trb.staged
    let ok := match x.image with
      | some b => imageOk b
      | none => false
    if t.stagedElsewhere p then t.answerSt p i .noResource
    else if ok then
      ({ t with trb := { t.trb with verified := true } }.logFw 0x41 .ok (x.field 8 4)).answer p i .ok 0 0xFFFF x.verifyBytes
    else (t.logFw 0x41 .badCommand (x.field 8 4)).answer p i .badCommand 4 0xFFFF x.verifyBytes)

/-- The flash holds a valid image of a higher security version than another (R452). -/
def State.flashNewer (s : State) (image : List Byte) : Bool := imageOk s.flashImage && securityVersion image < securityVersion s.flashImage

/-- The commit ends: the image is in flash and read back in `ms` milliseconds, or the read-back differs (R452). -/
def State.endCommit (s : State) (p : Port) (i : SlotId) (image : List Byte) (ms : Nat) (ok : Bool) : State :=
  let v := fieldAt image 8 4
  let t := { s with trb := { s.trb with commit := none } }
  if ok then
    (({ t with trb := { t.trb with flash := some image } }.dropStaged).logFw 0x42 .ok v).answerOk p i (leBytes 4 ms ++ repByte 4 0)
  else ((t.flag .trb 5).logFw 0x42 .internal v).answerSt p i .internal

/-- FW_COMMIT (R451, R452): the first time the image area is erased, and is invalid from then on; run again, the staged image is programmed and
read back. -/
def execFwCommit (p : Port) (i : SlotId) (ms : Nat) (readBackOk : Bool) (s : State) : Host.Outcome State Fault Refusal :=
  done s (s.mailRow p i 0x42 .any [] fun t =>
    if (t.slot p i).started then
      match t.trb.commit with
      | some b => t.endCommit p i b ms readBackOk
      | none => t
    else if t.stagedElsewhere p then t.answerSt p i .noResource
    else if !t.trb.verified then t.answerSt p i .notReady
    else
      let b := (t.trb.staged.image).getD []
      if t.flashNewer b then ((t.flag .trb 4).logFw 0x42 .badCommand (fieldAt b 8 4)).answerBad p i 4 0xFFFF
      else { t with trb := { t.trb with commit := some b, flash := some [] } }.keepReq p i)

/-! ## Identity, attestation and measurement (R453 to R457) -/

/-- Bytes of the identity certificate (Table TRB-4). -/
def certBytes : List Byte := bytesAt Config.certificate 0 3112

/-- CERT_READ (R454). -/
def execCertRead (p : Port) (i : SlotId) (s : State) : Host.Outcome State Fault Refusal :=
  let x := s.slot p i
  let off := x.pay 0 4
  done s (s.mailRow p i 0x45 .any ((nonzeroAt x.req 20 4).map (fun o => (3, o)) ++ if 3112 ≤ off then [(4, 16)] else []) fun t =>
    t.answerOk p i (leBytes 4 3112 ++ leBytes 4 off ++ repByte 8 0 ++ (certBytes.drop off).take 480))

/-- The mode record (Table TRB-12). -/
def State.modeRecord (s : State) : List Byte :=
  let bit := fun (b : Bool) (k : Nat) => if b then 2 ^ k else 0
  [nb s.pm.mode.toNat] ++ leBytes 2 (partBits fun q => s.parts[q].isOpen && s.parts[q].relaxed) ++
  [nb ((allFin 4).foldl (fun (m : Nat) r => m + bit (s.pairs[r].state == .paired) r.val) 0)] ++
  leBytes 2 ((allFin 16).foldl (fun (m : Nat) i => m + bit s.pipes[i].hostSrc i.val) 0) ++
  [nb (if s.sys.eccOn then 0 else 1), nb s.sph.role.toNat]

/-- A partition's digest is in the quote. -/
def State.digestValid (s : State) (q : PartId) : Bool := s.parts[q].isOpen && s.parts[q].meas.state = 2

/-- Bytes 0 to 639 of a quote (Table TRB-5). -/
def State.quoteBody (s : State) (nonce : List Byte) : List Byte :=
  leBytes 4 0x31515654 ++ leBytes 4 1920 ++ leBytes 8 Config.serial.toNat ++ leBytes 8 s.now ++ nonce ++ measureImage s.trb.running ++
  shake256 (Config.configArea ++ s.modeRecord) 32 ++ leBytes 2 (partBits s.digestValid) ++
  [nb ((if s.trb.configOk then 1 else 0) + if s.trb.recoveryBoot then 2 else 0)] ++ repByte 5 0 ++
  (allFin 16).flatMap fun q => if s.digestValid q then bytesAt s.parts[q].meas.digest 0 32 else repByte 32 0

/-- ATTEST_QUOTE (R453, R456): ST_INTERNAL without an identity; else the signed quote in memory, and its first 496 bytes in the response. -/
def execAttestQuote (p : Port) (i : SlotId) (s : State) : Host.Outcome State Fault Refusal :=
  let x := s.slot p i
  let a := x.pay 32 5
  let bad := (nonzeroAt x.req 53 3).map (fun o => (3, o)) ++ if a % 64 ≠ 0 || !s.inMain a 1920 then [(4, 48)] else []
  done s (s.mailRow p i 0x44 .any bad fun t =>
    if !t.trb.identityOk then t.answerSt p i .internal
    else
      let body := t.quoteBody (x.payBytes 0 32)
      let quote := body ++ bytesAt (Config.falconSign t.fresh body) 0 1280
      ({ t with fresh := t.fresh + 1 }.storeB a quote).answerOk p i (quote.take 496))

/-- The state with a partition's measurement replaced. -/
def State.setMeas (s : State) (q : PartId) (m : Meas) : State := s.setPart q { s.parts[q] with meas := m }

/-- A measurement is started by its partition's owner, unless one runs (R455). -/
def State.measStart (s : State) (p : Port) (q : PartId) (entries : Nat) : State :=
  let m := s.parts[q].meas
  if !s.owns p q then s.flag .trb 7
  else if m.state = 1 then s
  else s.setMeas q { m with entries := BitVec.ofNat 13 entries, state := 1, status := 0, runAddr := m.addr, runEntries := BitVec.ofNat 13 entries }

/-- MEASUREMENT_START: TRB_MEAS_CTL written with start (R455, R466). While one runs it is ignored. -/
def execMeasurementStart (p : Port) (q : PartId) (entries : Nat) (s : State) : Host.Outcome State Fault Refusal :=
  done s (s.hostRow p (s.measStart p q entries))

/-- A range that a measurement may read: mapped main memory, the partition's pool units, or its cores' wells (R455). -/
def State.measurable (s : State) (q : PartId) (a len : Nat) : Bool :=
  if a < wellBase then s.inMain a len else a + len ≤ poolBase + 8 * poolBytes && s.mayName q a len false

/-- What a measurement has read so far: the bytes to hash, or the status that ended it. -/
abbrev MeasRun := State × Except St (List Byte)

/-- One entry of a measurement list read, with its region (R455). -/
def measEntry (q : PartId) (a : Nat) (r : MeasRun) : MeasRun :=
  match r.2 with
  | .error st => (r.1, .error st)
  | .ok bs =>
    let (e, s1) := r.1.load a 16
    let eb := plain e
    let base := bfield eb 0 40
    let len := bfield eb 40 40
    if anyPoison e then (s1, .error .poisoned)
    else if bfield eb 80 48 ≠ 0 || len = 0 || !s1.measurable q base len then (s1, .error .badCommand)
    else
      let (d, s2) := s1.load base len
      (s2, if anyPoison d then .error .poisoned else .ok (bs ++ eb ++ plain d))

/-- A whole measurement list read, entry by entry (R455). -/
def State.readMeasured (s : State) (q : PartId) (a n : Nat) : MeasRun :=
  if n = 0 || 4096 < n || a % 16 ≠ 0 || !s.measurable q a (16 * n) then (s, .error .badCommand)
  else (List.range n).foldl (fun (r : MeasRun) k => measEntry q (a + 16 * k) r) (s, .ok [])

/-- MEASUREMENT_DONE (R455): the digest is VALID, or the measurement FAILED with its status. -/
def execMeasurementDone (q : PartId) (s : State) : Host.Outcome State Fault Refusal :=
  let m := s.parts[q].meas
  if m.state = 1 then
    match s.readMeasured q m.runAddr.toNat m.runEntries.toNat with
    | (t, .ok bs) => done s (t.setMeas q { m with state := 2, status := 0, digest := shake256 bs 32 })
    | (t, .error st) => done s (t.setMeas q { m with state := 3, status := BitVec.ofNat 16 st.code, digest := repByte 32 0 })
  else done s s

/-! ## The event log (R461) -/

/-- LOG_READ (R461). -/
def execLogRead (p : Port) (i : SlotId) (s : State) : Host.Outcome State Fault Refusal :=
  let x := s.slot p i
  let want := x.pay 0 4
  done s (s.mailRow p i 0x46 .any ((nonzeroAt x.req 20 4).map fun o => (3, o)) fun t =>
    let held := t.trb.log.reverse
    let oldest := match held with
      | e :: _ => e.seq
      | [] => t.trb.logNext
    let es := (held.filter fun e => want ≤ e.seq).take 15
    t.answerOk p i (leBytes 4 oldest ++ leBytes 4 t.trb.logNext ++ leBytes 2 es.length ++ [if want < oldest then 1 else 0] ++ repByte 5 0 ++
      es.flatMap LogEntry.bytes))

/-! ## Fencing, testing and returning units (R150 to R152, R462, R463, R487, Table TRB-8) -/

/-- How many units of a kind there are. -/
def unitCount (kind : Nat) : Nat := [8, 16, 6, 24, 2, 2, 1, 2].getD kind 0

/-- The die of a unit (Table ORG-3). -/
def unitDie (kind index : Nat) : Die :=
  Fin.ofNat 2 (if kind = 0 then index / 4 else if kind = 1 then index / 8 else if kind = 2 then index / 3 else if kind = 3 then index / 12
    else if kind = 6 then 0 else index)

/-- Kind, index and part that a request names. -/
def Slot.unitKind (x : Slot) : Nat := x.pay 0 1
def Slot.unitIndex (x : Slot) : Nat := x.pay 1 1

/-- Failing fields of UNIT_FENCE, UNIT_TEST and UNIT_RETURN (R462, R463, R486). -/
def State.unitBad (s : State) (x : Slot) (opcode : Nat) : List (Nat × Nat) :=
  let k := x.unitKind
  let n := x.unitIndex
  (nonzeroAt x.req 19 5).map (fun o => (3, o)) ++ (if 7 < k then [(4, 16)] else if unitCount k ≤ n || !s.diePresent (unitDie k n) then [(4, 17)] else []) ++
  (if opcode = 0x31 && k = 1 then (if 63 < x.pay 2 1 then [(4, 18)] else []) else if x.pay 2 1 ≠ 0 then [(3, 18)] else []) ++
  if opcode = 0x32 && s.trb.testFailed.contains ⟨k, n⟩ then [(4, 16)] else []

/-- Payload of UNIT_FENCE and UNIT_RETURN. -/
def unitAnswer (fenced : Bool) (ended : Nat) : List Byte := [if fenced then 1 else 0, 0, 0, 0] ++ leBytes 4 ended

/-- A unit shown fenced. -/
def State.markFenced (s : State) (k n : Nat) : State := { s with trb := { s.trb with fenced := ⟨k, n⟩ :: s.trb.fenced } }

/-- A unit in service again. -/
def State.unmarkFenced (s : State) (k n : Nat) : State := { s with trb := { s.trb with fenced := s.trb.fenced.filter fun u => u != UnitId.mk k n } }

/-- A fence has taken hold: logged and answered. -/
def State.fenceDone (s : State) (p : Port) (i : SlotId) (k n ended : Nat) : State := (s.logUnit k n 0 .ok).answerOk p i (unitAnswer true ended)

/-- A unit message turned away with ST_NOT_READY. -/
def State.unitNotReady (s : State) (p : Port) (i : SlotId) (k n action : Nat) : State := (s.logUnit k n action .notReady).answerSt p i .notReady

/-- A pair that a cluster fence or test must leave alone (R402): PAIRED, on its way there, or in the flow after a mismatch. -/
def Pair.busy (x : Pair) : Bool := x.joined || x.state == .entering

/-- A cluster fenced (kind 0, R485): commands under way on its units end at their next pre-emption points; the response waits for them. Those that a
PART_RESET ends there already keep that end. -/
def State.fenceCluster (s : State) (p : Port) (i : SlotId) (c : ClusId) : State :=
  let m := s.slot p i
  let waits := fun (t : State) => t.cmds.any fun x => x.onClus c && (x.life == .issued || x.life == .started) && x.stop.isSome
  if m.started then (if waits s then s else s.fenceDone p i 0 c.val m.count)
  else if (s.pairs[pairOfClus c]).busy then s.unitNotReady p i 0 c.val 0
  else
    let hit := fun (x : Cmd) => x.onClus c && (x.life == .issued || x.life == .started)
    let n := (s.cmds.filter hit).length
    let t := { (s.markFenced 0 c.val) with cmds := s.cmds.map fun (x : Cmd) => if hit x && x.stop != some .reset then { x with stop := some .fence } else x }
    if waits t then t.setSlot p i { m with started := true, count := n } else t.fenceDone p i 0 c.val n

/-- The heap slots of pages that are on their way to or from the cistern (R297): where each begins, and its length. -/
def State.movingSlots (s : State) : List (Nat × Nat) :=
  let heapAt := fun (a : Nat) => (s.placeAt a).bind fun x => s.heap? x.seq.heap
  (s.spills.filterMap fun x => if (s.desc x.desc).state = pgSpilling then (heapAt x.desc).map fun h => (h.slotAddr x.slot, h.pageBytes) else none) ++
  s.returns.filterMap fun x => (heapAt x.desc).map fun h => ((s.desc x.desc).addr, h.pageBytes)

/-- The context areas that a SAVE under way is to fill (R188). -/
def State.savingAreas (s : State) : List (Nat × Nat) :=
  (s.cmds.filter fun c => c.kind == .save && c.life == .started).map fun c => ((s.parts[c.part]).ctxBase, (s.parts[c.part]).ctxSize * 2 ^ 20)

/-- Something in flight reaches the top region of main memory (R150 step 1): a pump operation, a command's ranges, a page that moves, or a SAVE. -/
def State.topBusy (s : State) : Bool :=
  let lo := s.uTop * 256
  let len := s.mainCap - lo
  (s.ops.any fun o => (o.reads ++ o.writes).any fun r => overlap r.lo r.len lo len) ||
  (s.cmds.any fun c => (c.life == .issued || c.life == .started) && c.ranges.any fun r => overlap r.lo r.len lo len) ||
  (s.movingSlots ++ s.savingAreas).any fun x => overlap x.1 x.2 lo len

/-- A memory package fenced (kind 1, R150, R152): the top region is unmapped at once, and the response follows the operations in flight on it. -/
def State.fencePackage (s : State) (p : Port) (i : SlotId) (k : Fin 16) : State :=
  let go := fun (t : State) =>
    if t.topBusy then t.keepReq p i else { t with fence := some ⟨k, .evacuating, 0⟩ }.answerOk p i (unitAnswer true 0)
  match s.fence with
  | some f =>
    if f.pkg != k then s.answerSt p i .noResource
    else if (s.slot p i).started && f.state == .on then go s
    else s.answerOk p i (unitAnswer true 0)
  | none => go { s with fence := some ⟨k, .on, 0⟩ }

/-- The Siphon link fenced (kind 6, R132, R423): a fence notice, and then the link is down. -/
def State.fenceSiphon (s : State) : State :=
  if s.sph.link = 2 then (s.sendRole 512).linkDown 3 else s.setSph { s.sph with link := 3 }

/-- A first/last-layer engine fenced (kind 5, R239): the response waits for the commands it holds. -/
def State.fenceFle (s : State) (p : Port) (i : SlotId) (d : Die) : State :=
  let t := if s.isFenced 5 d.val then s else s.markFenced 5 d.val
  if t.loadOf (.fle d) = 0 then t.fenceDone p i 5 d.val 0 else t.keepReq p i

/-- A loop engine fenced (kind 7, R377): its stations stop. -/
def State.fenceLpe (s : State) (d : Die) : State :=
  { (s.markFenced 7 d.val) with
    stations := Vector.ofFn fun (j : StationId) =>
      if dieOfStation j == d && s.stations[j].state != .notReady then { s.stations[j] with state := .off, updated := none, fb := none, held := none }
      else s.stations[j] }

/-- UNIT_FENCE (R462). -/
def execUnitFence (p : Port) (i : SlotId) (s : State) : Host.Outcome State Fault Refusal :=
  let x := s.slot p i
  let k := x.unitKind
  let n := x.unitIndex
  done s (s.mailRow p i 0x30 .any (s.unitBad x 0x30) fun t =>
    if k = 1 then t.fencePackage p i (Fin.ofNat 16 n)
    else if !(t.slot p i).started && t.isFenced k n then t.answerOk p i (unitAnswer true 0)
    else if k = 0 then t.fenceCluster p i (Fin.ofNat 8 n)
    else if k = 2 then ((t.markFenced 2 n).ethOff (Fin.ofNat 6 n) .fenced).fenceDone p i 2 n 0
    else if k = 3 then ((t.markFenced 3 n).camFence (Fin.ofNat 24 n)).fenceDone p i 3 n 0
    else if k = 4 then ((t.markFenced 4 n).recFence (Fin.ofNat 2 n)).fenceDone p i 4 n 0
    else if k = 5 then t.fenceFle p i (Fin.ofNat 2 n)
    else if k = 6 then (t.fenceSiphon.markFenced 6 n).fenceDone p i 6 n 0
    else if (allFin 128).any fun a => (dieOfAxis a).val == n && t.axes[a].state != .off && t.axes[a].state != .notReady then t.unitNotReady p i 7 n 0
    else (t.fenceLpe (Fin.ofNat 2 n)).fenceDone p i 7 n 0)

/-- A unit may be tested: it is fenced, and a memory package has been evacuated (R150, R462). -/
def State.mayTest (s : State) (k n : Nat) : Bool :=
  if k = 1 then
    match s.fence with
    | some f => f.pkg.val == n && (f.state == .fenced || f.state == .testing)
    | none => false
  else if k = 0 && (s.pairs[pairOfClus (Fin.ofNat 8 n)]).busy then false
  else s.isFenced k n

/-- What a march over a cluster leaves in its wells and pool. -/
def State.marched (s : State) (c : ClusId) : State :=
  (partsOfClus c).foldl (fun (t : State) r =>
    if (t.wctl r).st == .on || (t.wctl r).st == .unfilled then t.undefine (partSpan r).1 (partSpan r).2 else t) s

/-- The state of the fenced package while it is tested, and after (Table MEM-10). -/
def State.pkgTesting (s : State) (st : PkgState) : State := { s with fence := s.fence.map fun (f : PkgFence) => { f with state := st } }

/-- A unit whose test has ended: whether it failed is kept (R463), what a march leaves in a cluster is undefined, and a package shows FENCED again. -/
def State.tested (s : State) (k n : Nat) (failed : Bool) : State :=
  let rest := s.trb.testFailed.filter fun u => u != UnitId.mk k n
  let t := { s with trb := { s.trb with testFailed := if failed then ⟨k, n⟩ :: rest else rest } }
  if k = 0 then t.marched (Fin.ofNat 8 n) else if k = 1 then t.pkgTesting .fenced else t

/-- UNIT_TEST (R462, R463, R487): `us` is how long the test took; `failAt` the first failing location and the value expected there. A memory package
shows TESTING from the first run of the row to the second (Table MEM-10). -/
def execUnitTest (p : Port) (i : SlotId) (us : Nat) (failAt : Option (Nat × Nat)) (s : State) : Host.Outcome State Fault Refusal :=
  let x := s.slot p i
  let k := x.unitKind
  let n := x.unitIndex
  done s (s.mailRow p i 0x31 .any (s.unitBad x 0x31) fun t =>
    if !t.mayTest k n then t.unitNotReady p i k n 1
    else if k = 1 && !(t.slot p i).started then (t.pkgTesting .testing).keepReq p i
    else
      let (loc, want) := failAt.getD (0, 0)
      ((t.tested k n failAt.isSome).logUnit k n 1 .ok).answerOk p i
        ([if failAt.isSome then 1 else 0, nb (x.pay 2 1), 0, 0] ++ leBytes 4 us ++ leBytes 8 loc ++ leBytes 8 want ++ repByte 8 0))

/-- A loop engine is back: its stations and axes are OFF, unless its domain is off (Table TRB-8). -/
def State.lpeReturn (s : State) (d : Die) : State :=
  if s.domainOn (Fin.ofNat 128 (112 + d.val)) then
    { s with
      axes := Vector.ofFn fun (a : AxisId) => if dieOfAxis a == d then { s.axes[a] with state := .off, cause := 0, blk := [] } else s.axes[a]
      stations := Vector.ofFn fun (j : StationId) => if dieOfStation j == d then { s.stations[j] with state := .off } else s.stations[j] }
  else s

/-- What a unit is after its return (Table TRB-8). -/
def State.unitBack (s : State) (k n : Nat) : State :=
  let t := s.unmarkFenced k n
  if k = 0 then t.unfillClus (Fin.ofNat 8 n)
  else if k = 2 then
    let e : EthId := Fin.ofNat 6 n
    if t.domainOn (Fin.ofNat 128 (125 + (dieOfEth e).val)) then t.ethIdle e else t.setEth e { t.eth[e] with state := .notReady }
  else if k = 3 then
    let v : CamId := Fin.ofNat 24 n
    t.setCam v { t.cams[v] with state := if t.domainOn (camPd v) then .off else .notReady }
  else if k = 4 then t.recReturn (Fin.ofNat 2 n)
  else if k = 6 then t.setSph { t.sph with link := if t.domainOn 122 then 1 else 0 }
  else if k = 7 then t.lpeReturn (Fin.ofNat 2 n)
  else t

/-- A memory package returned (R152): the restore starts, and the response with it. -/
def State.returnPackage (s : State) (p : Port) (i : SlotId) (n : Nat) : State :=
  match s.fence with
  | some f =>
    if f.pkg.val ≠ n then s.answerOk p i (unitAnswer false 0)
    else if f.state == .fenced then { s with fence := some { f with state := .restoring } }.answerOk p i (unitAnswer true 0)
    else s.unitNotReady p i 1 n 2
  | none => s.answerOk p i (unitAnswer false 0)

/-- UNIT_RETURN (R462, R463). -/
def execUnitReturn (p : Port) (i : SlotId) (s : State) : Host.Outcome State Fault Refusal :=
  let x := s.slot p i
  let k := x.unitKind
  let n := x.unitIndex
  done s (s.mailRow p i 0x32 .any (s.unitBad x 0x32) fun t =>
    if k = 1 then t.returnPackage p i n
    else if t.isFenced k n then ((t.unitBack k n).logUnit k n 2 .ok).answerOk p i (unitAnswer false 0)
    else t.answerOk p i (unitAnswer false 0))

/-! ## ENGINE_RESET (R464) -/

/-- Failing fields of an ENGINE_RESET. -/
def State.engineBad (s : State) (x : Slot) : List (Nat × Nat) :=
  let k := x.unitKind
  let n := x.unitIndex
  let count := [32, 8, 2, 2].getD k 0
  let die : Die := Fin.ofNat 2 (n / (count / 2))
  (nonzeroAt x.req 18 6).map (fun o => (3, o)) ++ if 3 < k then [(4, 16)] else if count ≤ n || !s.diePresent die then [(4, 17)] else []

/-- A command runs on a unit that an ENGINE_RESET names. -/
def Cmd.onEngine (c : Cmd) (k n : Nat) : Bool :=
  match c.place with
  | .core m => k == 0 && m.val == n
  | .quant m => k == 1 && (clusOfCore m).val == n
  | .fle d => k == 2 && d.val == n
  | .corePump _ => false
  | .clusPump _ => false
  | .none => false

/-- ENGINE_RESET (R464): issued commands of the unit complete with ST_INTERNAL; a scalar core runs again. -/
def execEngineReset (p : Port) (i : SlotId) (s : State) : Host.Outcome State Fault Refusal :=
  let x := s.slot p i
  let k := x.unitKind
  let n := x.unitIndex
  done s (s.mailRow p i 0x33 .any (s.engineBad x) fun t =>
    let hit := t.cmds.filter fun c => c.inFlight && c.onEngine k n
    let t1 := (hit.foldl (fun (u : State) c => u.abandon c .internal) t).attnSweep
    let t2 := if k = 0 then { t1 with scHalt := t1.scHalt.set (Fin.ofNat 32 n) false } else if k = 3 then t1.recEngineReset (Fin.ofNat 2 n) else t1
    t2.answerOk p i (leBytes 4 hit.length ++ repByte 4 0))

end Sys2Proof.Machine
end

