-- ==== Sys2Proof/Machine/Boot.lean ====
section
/-! DEFINITION. Die alignment and boot (R30, R31, R446 to R450, R453), and the device reset with its causes (R35, R50, R450, R459). -/
namespace Sys2Proof.Machine

/-! ## Alignment and boot -/

/-- Event 0x0001: a step of Table TRB-2, and whether it succeeded (result 0) or failed (1). -/
def State.logBoot (s : State) (step : Nat) (ok : Bool) : State := s.log 0x0001 20 0 [nb step, if ok then 0 else 1]

/-- The counter at a moment of the alignment that the spec does not place (log entry 48). -/
def State.openCount (s : State) : State := { s with counter := BitVec.ofNat 64 (Config.freeVal s.fresh), fresh := s.fresh + 1 }

/-- Event 0x0002 for each failed attempt, in order (R31); its subsystem byte is the management subsystem's (log entry 214). -/
def State.logFails : State → Nat → List Nat → State
  | s, _, [] => s
  | s, n, x :: xs => ((s.openCount).log 0x0002 20 0 [nb x, nb n]).logFails (n + 1) xs

/-- DIE_ALIGNMENT (R30, R31, Table ORG-8): `failed` holds the step (3 or 5) that each failed attempt failed in; after three die 0 runs alone. A
successful attempt ends 4,941 counts after its dividers were released. -/
def execDieAlignment (failed : List Nat) (s : State) : Host.Outcome State Fault Refusal :=
  if s.sys.rails == .on && s.sys.rstN && s.sys.boot == .held && failed.length ≤ 3 && failed.all (fun x => x == 3 || x == 5) then
    let t := s.logFails 1 failed
    let u := { t with sys := { t.sys with clocked := true, die1 := failed.length < 3, boot := .aligned } }
    done s (if failed.length < 3 then { u with counter := 4941 } else u.openCount)
  else done s s

/-- A die's voltage table is refused: its signature fails, or an entry lies outside 600–900 mV (R434). -/
def vRefused (d : Die) : Bool := !Config.configSigOk || (List.range 16).any fun i => Config.vTable d.val i < 600 || 900 < Config.vTable d.val i

/-- Step 1 of Table TRB-2: the configuration area read and checked (R434, R447), and the MAC addresses taken from it (R399). -/
def State.bootConfig (s : State) : State :=
  let ok := Config.configSigOk
  let t := ({ s with trb := { s.trb with configOk := ok } }.flagIf (!ok) .trb 0).logBoot 1 ok
  let u := (allFin 2).foldl (fun (v : State) d =>
    if vRefused d && v.diePresent d then { v with pm := { v.pm with vFallback := v.pm.vFallback.set d true } }.flag .pwr 5 else v) t
  { u with eth := Vector.ofFn fun (e : EthId) => { u.eth[e] with mac := u.defaultMac e } }

/-- Steps 2 and 3 of Table TRB-2: a valid image starts Goride, with an invalid one the ROM waits for a recovery image (R448, R449). -/
def State.bootImage (s : State) : State :=
  let b := s.flashImage
  if imageOk b then (s.logBoot 2 true).startGoride (bytesAt b 0 (imageLen b)) false
  else
    let t := (s.logBoot 2 false).flag .trb 1
    { t with sys := { t.sys with fwState := 1 }, trb := { t.trb with recoveryBoot := false, running := [] } }

/-- BOOT (R446, R447, R450): steps 1 to 3 after the alignment, and from step 2 on in a watchdog restart. -/
def execBoot (s : State) : Host.Outcome State Fault Refusal :=
  if s.sys.rails != .on then done s s
  else if s.sys.boot == .aligned then
    let t := s.bootConfig
    done s ({ t with sys := { t.sys with boot := .booted } }.bootImage)
  else if s.sys.boot == .booted && s.sys.wdRestart && s.sys.fwState = 0 then done s ((s.flag .trb 6).bootImage)
  else done s s

/-- Step 4 of Table TRB-2 (R453): the identity holds when the PUF's key is that of the certificate and the certificate's signature verifies. -/
def identityHolds (pufOk : Bool) : Bool :=
  pufOk && bytesAt certBytes 32 1793 == Config.pufKey &&
  Config.falconVerify Config.vendorKey (bytesAt certBytes 0 1832) (bytesAt certBytes 1832 1280)

/-- The domains that step 5 has been switching on are on (R443). -/
def State.domainsUp (s : State) : State :=
  let s1 := allParts.foldl (fun (t : State) r => if (t.wctl r).st == .powering && (t.wctl r).port.isNone then t.comeUp r else t) s
  (s1.pdMoves.filter fun m => m.port.isNone && m.on).foldl (fun (t : State) m => t.endMove m) s1

/-- GORIDE_READY (R446, R453): the identity key derived, the domains on, main memory initialised; state 3. After a watchdog restart the memory keeps its
contents, and nothing waits for it (R148). -/
def execGorideReady (pufOk : Bool) (s : State) : Host.Outcome State Fault Refusal :=
  if s.sys.boot == .booted && s.sys.fwState = 2 && (s.sys.initDone || s.sys.wdRestart) then
    let ok := identityHolds pufOk
    let t := (({ s with trb := { s.trb with identityOk := ok } }.flagIf (!ok) .trb 2).logBoot 4 ok).domainsUp
    done s ({ t with sys := { t.sys with fwState := 3, wdRestart := false } }.logBoot 6 true)
  else done s s

/-! ## Device reset (R12, R32, R50, R148, R156, R398, R412, R425, R444, R459) -/

/-- What caused a device reset (Table TRB-7). -/
inductive ResetCause where
  | flr (p : Port)
  | message (p : Port) (i : SlotId)
  | watchdog
  deriving DecidableEq, Repr

/-- Code of a cause in event 0x000A. -/
def ResetCause.code : ResetCause → Nat
  | .flr .a => 0
  | .flr .b => 1
  | .message _ _ => 2
  | .watchdog => 3

/-- Vector 2 of the reset notice (R41, R50, R450). -/
def State.resetNotice (s : State) : ResetCause → State
  | .flr p => s.raise p.other 2
  | .message p _ => s.raise p.other 2
  | .watchdog => (s.raise .a 2).raise .b 2

/-- Regions and windows go as by abort (R50, R156); the operations that are left in flight retire, or are dropped by a gate (chapter WEL). -/
def State.dropTiers (s : State) : State :=
  let s1 := (s.abortPort .a).abortPort .b
  s1.windows.foldl (fun (t : State) w => t.abortWindow w.id) s1

/-- The reset entry, and one entry for each nonzero sticky register, which then clears (R459). -/
def State.clearSticky (s : State) (code : Nat) : State :=
  let s1 := s.log 0x000A 20 0 ([nb code] ++ leBytes 4 s.summary)
  let s2 := Sticky.all.foldl (fun (t : State) k =>
    if s.err k = 0 then t else t.log 0x000B (k.subsystem (s.err k)) k.inst (leBytes 4 k.off ++ leBytes 4 (s.err k).toNat)) s1
  { s2 with errs := .replicate 59 0, setNow := .replicate 59 0 }

/-- An attached port detached by a device reset (R50). -/
def State.resetDetach (s : State) (p : Port) : State :=
  let h := s.port p
  if h.attached then
    let t := s.setPort p { h with attached := false, hbPeriod := 0, hbLast := 0, policyClose := false }
    { t with sys := { t.sys with detachCount := t.sys.detachCount + 1 } }.log 0x0004 20 p.idx.val ([nb p.idx.val, 6] ++ repByte 8 0)
  else s

/-- Mailbox slots freed without a response, but the one that carried the request (R50); PWR_PD_RESULT cleared (R444). -/
def State.resetSlots (s : State) (keep : Option (Port × SlotId)) : State :=
  let free := fun (p : Port) (h : HostPort) =>
    { h with
      slots := Vector.ofFn fun (i : SlotId) =>
        if keep == some (p, i) then h.slots[i] else { h.slots[i] with busy := false, done := false, orphaned := false, started := false, count := 0 }
      pdStatus := 0, pdDomain := 0, pdDone := false }
  { (s.setPort .a (free .a (s.port .a))).setPort .b (free .b (s.port .b)) with reqs := [] }

/-- Inline ECC takes the value that was pending; a change starts the initialisation of main memory again (R12, R148). -/
def State.resetEcc (s : State) : State :=
  let now := s.sys.eccPending.getD s.sys.eccOn
  let t := { s with sys := { s.sys with eccOn := now, eccPending := none, initDone := s.sys.initDone && now == s.sys.eccOn } }
  { t with fence := t.fence.map fun (f : PkgFence) =>
      if f.state == .on then { f with state := .evacuating }
      else if f.state == .fenced || f.state == .testing then { f with state := .fenced, kMoved := t.pkgUnits } else f }

/-- Every pair SPLIT with its main side on die 0: the wells of a checker, and of both clusters during the flow after a mismatch, are UNFILLED
(R400, R408, R412, R425). -/
def State.resetPair (s : State) (r : PairId) : State :=
  let x := s.pairs[r]
  let t := if x.state == .testing || x.state == .resync then (s.unfillClus (clusOfPair r 0)).unfillClus (clusOfPair r 1)
    else if x.joined then s.unfillClus (x.checker r) else s
  t.setPair r { x with main := false, mainDie := 0, state := .split, ended := [], barred := [], axisTest := false, splitWaits := none }

/-- The Siphon engine: the link stays up, the module is ACTIVE, and nothing is mirrored (R12, R425). -/
def State.resetSiphon (s : State) : State :=
  let t := { s with
    sph := { s.sph with axm := 0, role := 0, takenOver := false, sigOut := [] }
    mirrors := s.mirrors.map fun (m : Mirror) => { m with enable := false, state := .off } }
  if s.sph.role = 0 then t else ((t.sendRole 0).log 0x0007 17 0 [3]).checkRoles

/-- Stations and axes stopped, their registers cleared, FAULT_OUT latched (R378, R379, R381). -/
def State.resetLoop (s : State) : State :=
  let lit := fun (d : Die) => s.domainOn (Fin.ofNat 128 (112 + d.val))
  { s with
    axes := Vector.ofFn fun (a : AxisId) => { state := if lit (dieOfAxis a) then .off else .notReady }
    stations := Vector.ofFn fun (j : StationId) => { state := if lit (dieOfStation j) then .off else .notReady }
    lpeLatched := true, lpeBusy := .replicate 2 0 }

/-- Pins that the reset lets go: PPS_OUT and the trigger GPIOs (R340, R398). -/
def State.resetPins (s : State) : State :=
  let t := (allFin 24).foldl (fun (u : State) v => if s.cams[v].gpio then u.emit (.gpio v false) else u) s
  if s.tb.ppsLevel then t.emit (.ppsOut false) else t

/-- The power manager: Standard mode, no HINT, PWR_CNT clear; a switch in progress runs on, with no port to answer (R12, R433, R443, R444). -/
def State.resetPower (s : State) : State :=
  { s with
    pm := { s.pm with mode := 1, hints := [], throttleMs := 0, hintsDropped := 0 }
    hw := s.hw.map fun (x : WellCtl) => { x with port := none }
    pools := s.pools.map fun (x : WellCtl) => { x with port := none }
    pdMoves := s.pdMoves.map fun (m : PdMove) => { m with port := none } }.applySkip

/-- The front end: partitions and queues closed, commands gone, engines idle, semaphores free, counters clear (R50, R193, R217). -/
def State.resetFront (s : State) : State :=
  { s with
    parts := .replicate 16 {}, cmds := [], keys := [], sems := .replicate 64 {}, issuedNow := [], regions := [], windows := []
    scHalt := .replicate 32 false, cnts := {}, ecs := .replicate 16 0
    trb := { s.trb with staged := {}, stagedPort := none, verified := false, recovery := {}, commit := none }
    det := { s.det with seed := 0, stream := 0, elem := 0 } }

/-- The device reset (R50): firmware state `st` until Goride is ready. -/
def State.deviceReset (s : State) (c : ResetCause) (st : BitVec 4) : State :=
  let keep := match c with
    | .message p i => some (p, i)
    | .flr _ => none
    | .watchdog => none
  let s1 := s.resetNotice c
  let s2 := { s1 with sys := { s1.sys with fwState := st, resetCount := s1.sys.resetCount + 1 } }
  let s3 := ((s2.dropTiers.clearSticky c.code).resetDetach .a).resetDetach .b
  let s4 := ((s3.resetSlots keep).resetFront.resetEcc.resetPins).resetSiphon
  let s5 := (allFin 4).foldl (fun (t : State) r => t.resetPair r) s4
  (s5.strReset.attnReset.intakeReset.recReset.ethReset.resetLoop).resetPower

/-- DEVICE_RESET (R50): answered first. -/
def execDeviceReset (p : Port) (i : SlotId) (s : State) : Host.Outcome State Fault Refusal :=
  done s (s.mailRow p i 5 .any [] fun t => (t.answerOk p i []).deviceReset (.message p i) 4)

/-- DEVICE_RESET_DONE (R50): Goride is ready again. -/
def execDeviceResetDone (s : State) : Host.Outcome State Fault Refusal :=
  if s.sys.boot == .booted && s.sys.fwState = 4 then done s { s with sys := { s.sys with fwState := 3 } } else done s s

/-- FLR (R35, R50): in state 3 a device reset; during the boot the port's function alone; in state 4 nothing more. -/
def execFlr (p : Port) (s : State) : Host.Outcome State Fault Refusal :=
  if !(s.port p).link || s.sys.fwState = 4 then done s s
  else if s.sys.fwState = 3 && s.sys.boot == .booted then done s ((s.deviceReset (.flr p) 4).resetFunction p)
  else done s (s.resetFunction p)

/-- WATCHDOG_EXPIRY (R450): while Goride runs, a device reset with both ports told, and the management processor at step 2 of the boot. -/
def execWatchdogExpiry (s : State) : Host.Outcome State Fault Refusal :=
  if s.sys.boot == .booted && 2 ≤ s.sys.fwState.toNat then
    let t := s.deviceReset .watchdog 0
    done s { t with sys := { t.sys with wdRestart := true } }
  else done s s

end Sys2Proof.Machine
end

