-- ==== Sys2Proof/Machine/Registers.lean ====
section
/-! DEFINITION. What the registers of BAR0 read as (R5, R6, R38, R486, Tables MBX-2 to TRB-11), without the effects that two of them have on a read. -/
namespace Sys2Proof.Machine

/-- Number of the instance and place within it of an offset in a row of registers. -/
def inRow (off base stride count : Nat) : Option (Nat × Nat) :=
  if base ≤ off && off < base + stride * count then some ((off - base) / stride, (off - base) % stride) else none

/-- A bit at a place. -/
def bitIf (b : Bool) (k : Nat) : Nat := if b then 2 ^ k else 0

/-- Word `i` of a number of several words, the low one first. -/
def wordAt (x i : Nat) : Nat := x / 2 ^ (32 * i) % 2 ^ 32

/-- A count shown in units of 256, saturating at `w` bits. -/
def units256 (w x : Nat) : Nat := min (x / 256) (2 ^ w - 1)

/-! ## Identity, mailbox, semaphores, queues (chapter MBX) -/

/-- Offsets 0 to 0x1FF: identity and status (Table MBX-3). -/
def State.regIdent (s : State) (p : Port) (off : Nat) : Nat :=
  if off = 0x00 then 0x32201F3B
  else if off = 0x04 then
    bitIf s.sys.die1 0 + bitIf s.sys.eccOn 1 + bitIf (s.sph.link == 2) 2 + s.clustersPresent * 2 ^ 8 + 0xB0 * 2 ^ 24
  else if off = 0x08 then s.coresPresent
  else if off = 0x0C then s.sys.fwState.toNat + p.idx.val * 16 + s.sys.resetCount.toNat * 2 ^ 16
  else if off = 0x10 then
    bitIf (s.port .a).attached 0 + bitIf (s.port .b).attached 1 + bitIf (s.port .a).link 2 + bitIf (s.port .b).link 3 + s.sys.detachCount.toNat * 2 ^ 16
  else if off = 0x104 then (s.port p).bar2Base.toNat * 4
  else 0

/-- A mask of a port's slots that meet a test. -/
def slotMask (h : HostPort) (f : Slot → Bool) : Nat := (allFin 32).foldl (fun (m : Nat) i => m + bitIf (f h.slots[i]) i.val) 0

/-- Mailbox slots and their control registers (Tables MBX-2, MBX-5, R42). -/
def State.regMail (s : State) (p : Port) (off : Nat) : Nat :=
  let h := s.port p
  match inRow off 0x10000 1024 32 with
  | some (i, k) =>
    let x := h.slots[(Fin.ofNat 32 i : SlotId)]
    if k < 512 then fieldAt x.req k 4 else if x.busy then 0 else fieldAt x.resp (k - 512) 4
  | none =>
    if off = 0x18004 then slotMask h (·.busy) else if off = 0x18008 then slotMask h (·.done) else if off = 0x1800C then bitIf h.doneIrqEn 0 else 0

/-- SEM_STATE (Table MBX-11). -/
def Sem.reg (x : Sem) : Nat := bitIf x.held 0 + x.owner.idx.val * 2 + bitIf x.broken 2 + x.tag.toNat * 2 ^ 16

/-- MBX_QDB, MBX_CR_PROD, MBX_CR_CONS, MBX_CR_IRQ (Table MBX-13). -/
def State.regQueue (s : State) (off : Nat) : Nat :=
  match inRow off 0x30000 8 128 with
  | some (i, k) => if k = 0 then (s.queue (Fin.ofNat 16 (i / 8)) (Fin.ofNat 4 i)).prod.toNat * (if i % 8 < 4 then 1 else 0) else 0
  | none =>
    match inRow off 0x70000 16 64 with
    | some (i, k) =>
      let x := s.queue (Fin.ofNat 16 (i / 4)) (Fin.ofNat 4 i)
      if k = 0 then x.crProd.toNat else if k = 4 then x.crCons.toNat
      else if k = 8 then x.irqVec.toNat + x.irqBatch.toNat * 2 ^ 8 + bitIf x.irqEn 16 else 0
    | none => 0

/-- The MSI-X table and its pending bits of a port (Table MBX-2). -/
def HostPort.regMsix (h : HostPort) (off : Nat) : Nat :=
  match inRow off 0x80000 16 64 with
  | some (i, k) =>
    let e := h.msix[(Fin.ofNat 64 i)]
    if k < 8 then wordAt e.addr.toNat (k / 4) else if k = 8 then e.data.toNat else bitIf e.masked 0
  | none =>
    if off = 0x81000 || off = 0x81004 then
      wordAt ((allFin 64).foldl (fun (m : Nat) i => m + bitIf h.msix[i].pending i.val) 0) ((off - 0x81000) / 4)
    else 0

/-! ## Network time and Ethernet ports (Table NET-5) -/

/-- The timebase window (Table NET-4). -/
def State.regTb (s : State) (p : Port) (off : Nat) : Nat :=
  let h := s.port p
  let o := off - 0x40000
  if o < 0x08 then wordAt h.nowCnt.toNat (o / 4)
  else if o < 0x10 then wordAt (h.nowTime.toNat % 2 ^ 48) ((o - 8) / 4)
  else if o = 0x10 then h.nowTime.toNat / 2 ^ 48
  else if 0x20 ≤ o && o < 0x2C then wordAt s.tb.offset.toNat ((o - 0x20) / 4)
  else if 0x30 ≤ o && o < 0x38 then wordAt s.tb.rate.toNat ((o - 0x30) / 4)
  else if 0x38 ≤ o && o < 0x40 then wordAt s.tb.anchor.toNat ((o - 0x38) / 4)
  else if 0x40 ≤ o && o < 0x4C then wordAt h.tbAdj.toNat ((o - 0x40) / 4)
  else if 0x50 ≤ o && o < 0x58 then wordAt h.tbRateSet.toNat ((o - 0x50) / 4)
  else if o = 0x60 then h.tbResStatus.toNat
  else if o = 0x64 then h.tbResCount.toNat
  else if o = 0x68 then s.tb.jumpMax.toNat
  else if o = 0x6C then s.tb.pps.toNat
  else if 0x70 ≤ o && o < 0x78 then wordAt s.tb.ppsIn.toNat ((o - 0x70) / 4)
  else if o = 0x78 then s.tb.ppsInN.toNat
  else 0

/-- Code of an Ethernet port's state. -/
def EthState.code : EthState → Nat
  | .off => 0 | .training => 1 | .up => 2 | .down => 3 | .fenced => 4 | .notReady => 5

/-- The registers of an Ethernet port. `ok` is whether the configuration area was sound: without it the calibrated latencies are zero (R447), as they are
before the first link (Table NET-5). -/
def EthPort.reg (x : EthPort) (ok : Bool) (e : EthId) (k : Nat) : Nat :=
  let own := match x.owner with
    | some p => 2 ^ 6 + p.idx.val * 2 ^ 7
    | none => 0
  let lat := if x.speed = 0 || !ok then (0, 0) else Config.ethLat e.val x.speed
  if k = 0x00 then x.cfg.toNat
  else if k = 0x08 then x.state.code + x.speed % 8 * 8 + own
  else if k = 0x0C then lat.2 % 2 ^ 16 + lat.1 % 2 ^ 16 * 2 ^ 16
  else if k = 0x10 || k = 0x14 then wordAt x.mac.toNat ((k - 0x10) / 4)
  else if k = 0x18 || k = 0x1C then wordAt x.txtBase.toNat ((k - 0x18) / 4)
  else if k = 0x20 || k = 0x24 then wordAt x.txgBase.toNat ((k - 0x20) / 4)
  else if k = 0x28 || k = 0x2C then wordAt x.rxBase.toNat ((k - 0x28) / 4)
  else if k = 0x30 then x.txtProd.toNat
  else if k = 0x34 then x.txgProd.toNat
  else if k = 0x38 then x.rxProd.toNat
  else if k = 0x3C then x.txtDone.toNat
  else if k = 0x40 then x.txgDone.toNat
  else if k = 0x44 then x.rxDone.toNat
  else if k = 0x48 then x.irqVec.toNat + bitIf x.irqEn 16
  else if k = 0x4C then x.rxBad + units256 8 x.rxFiltered * 2 ^ 8 + x.rxNoDesc * 2 ^ 16 + x.late * 2 ^ 24
  else 0

/-! ## Counters and views by die and cluster -/

/-- Codes of a half-well's state (Table WEL-14). -/
def WState.code : WState → Nat
  | .off => 0 | .powering => 1 | .unfilled => 2 | .on => 3 | .closing => 4

/-- Codes of a memory package's state (Table MEM-10). -/
def PkgState.code : PkgState → Nat
  | .on => 0 | .evacuating => 1 | .fenced => 2 | .testing => 3 | .restoring => 4 | .absent => 5

/-- Codes of a partition's state (Table PAR-1). -/
def PState.code : PState → Nat
  | .closed => 0 | .opened => 1 | .saving => 2 | .saved => 3 | .loading => 4 | .orphaned => 5 | .resetting => 6 | .closing => 7

/-- A counter of a cluster or of a die at an index of its row. -/
def at8 (v : Vector Nat 8) (i : Nat) : Nat := v[(Fin.ofNat 8 i)]
def at2 (v : Vector Nat 2) (i : Nat) : Nat := v[(Fin.ofNat 2 i)]

/-- CNV_FLE of a die (R249). -/
def State.regFle (s : State) (d : Nat) : Nat :=
  let die : Die := Fin.ofNat 2 d
  let held := s.loadOf (.fle die)
  (if s.isFenced 5 die.val then 3 else if !s.domainOn (Fin.ofNat 128 (120 + die.val)) then 0 else if held = 0 then 1 else 2) + min held 7 * 4 +
  at2 s.cnts.fleDone d % 2 ^ 16 * 2 ^ 16

/-- Counters in the sticky region: rows by cluster and by die (Tables WEL-11, WEL-13, QNT-11, MEM-8, CNV-9, STR-16, ATN-12, INT-7, REC-9, LPE-9). -/
def State.regCounts (s : State) (off : Nat) : Nat :=
  let c := s.cnts
  let i := off % 0x20 / 4
  let d := off % 8 / 4
  if 0x50220 ≤ off && off < 0x50240 then at8 c.welEcc i + at8 c.welLate i * 2 ^ 24
  else if 0x50260 ≤ off && off < 0x50280 then at8 c.pmpStalls i + at8 c.pmpIdx i * 2 ^ 16 + units256 8 (at8 c.pmpHolds i) * 2 ^ 24
  else if 0x502A0 ≤ off && off < 0x502C0 then at8 c.qntSat i + at8 c.qntSkew i * 2 ^ 16 + at8 c.qntSkip i * 2 ^ 24
  else if off = 0x50308 || off = 0x5030C then at2 c.memEcc d + units256 8 (at2 c.memLink d) * 2 ^ 20 + at2 c.memRetry d * 2 ^ 28
  else if off = 0x50368 || off = 0x5036C then at2 c.cnvDegen d + at2 c.cnvNan d * 2 ^ 16 + at2 c.cnvRefused d * 2 ^ 24
  else if off = 0x50370 || off = 0x50374 then s.regFle d
  else if off = 0x50388 || off = 0x5038C then at2 c.strSwap d + at2 c.strOver d * 2 ^ 16 + at2 c.strMarks d * 2 ^ 24
  else if off = 0x50390 || off = 0x50394 then s.streamsOpen (Fin.ofNat 2 d)
  else if off = 0x503A8 || off = 0x503AC then at2 c.atnSpills d + units256 8 (at2 c.atnWaits d) * 2 ^ 16 + at2 c.atnLost d * 2 ^ 24
  else if off = 0x503F0 || off = 0x503F4 then at2 c.audLate d + at2 c.audConc d * 2 ^ 16
  else if off = 0x50408 || off = 0x5040C then at2 c.recAband d + at2 c.recDim d * 2 ^ 8 + at2 c.recTrunc d * 2 ^ 16 + at2 c.recConc d * 2 ^ 24
  else if off = 0x50428 || off = 0x5042C then at2 c.lpeMiss d + at2 c.lpeFault d * 2 ^ 16 + at2 c.lpeFb d * 2 ^ 24
  else 0

/-- MEM_STATUS (Table MEM-9). -/
def State.regMemStatus (s : State) : Nat :=
  let f := match s.fence with
    | some f => 4 + f.pkg.val * 8 + f.kMoved / 16 % 2 ^ 25 * 2 ^ 7
    | none => 0
  bitIf s.sys.initDone 0 + bitIf s.sys.eccOn 1 + f

/-- TRB_STAT, TRB_FENCE0 and TRB_FENCE1 (Table TRB-11). -/
def State.regTrb (s : State) (off : Nat) : Nat :=
  let t := s.trb
  let fences := fun (kind count lo : Nat) => (List.range count).foldl (fun (m : Nat) i => m + bitIf (s.isFenced kind i) (lo + i)) 0
  if off = 0x50508 then
    bitIf t.configOk 0 + bitIf t.identityOk 1 + bitIf t.recoveryBoot 2 + bitIf t.stagedPort.isSome 3 + bitIf (t.stagedPort == some .b) 4 +
    bitIf t.verified 5 + t.staged.bytes.length % 2 ^ 22 * 2 ^ 8
  else if off = 0x50510 then fences 0 8 0 + fences 1 16 8 + fences 2 6 24
  else if off = 0x50514 then fences 3 24 0 + fences 4 2 24 + fences 5 2 26 + fences 6 1 28 + fences 7 2 29
  else 0

/-- LPE_FAULT (Table LPE-9). -/
def State.regFault (s : State) : Nat :=
  bitIf s.axisCause 0 + bitIf (s.stations.toList.any fun x => x.state == .halted) 1 + bitIf s.faultOut 2 + bitIf s.lpeLatched 3

/-! ## Cores, partitions, windows -/

/-- WEL_STATE of a core (Table WEL-14). -/
def State.regWell (s : State) (n : Nat) : Nat :=
  let a : WellPart := .half (Fin.ofNat 64 (2 * n))
  let b : WellPart := .half (Fin.ofNat 64 (2 * n + 1))
  (s.wctl a).st.code + (s.wctl b).st.code * 8 + max (s.inflightOf a) (s.inflightOf b) % 2 ^ 16 * 2 ^ 16

/-- PMP_OUT of a core (Table WEL-15). -/
def State.regPump (s : State) (n : CoreId) : Nat :=
  s.entriesOf n % 1024 + s.cnts.highWater[n] % 1024 * 2 ^ 10 + min (s.engineEntries n) 8 * 2 ^ 20

/-- A word of PMP_WIN (Table WEL-16). -/
def State.regWindow (s : State) (id word : Nat) : Nat :=
  match s.windows.find? fun w => w.id == id with
  | some w =>
    if word = 0 then 1 + bitIf w.untracked 1 + bitIf w.rd 2 + bitIf w.wr 3 + w.part.val * 16
    else if word = 1 then w.loc / 65536 % 2 ^ 24
    else if word = 2 then w.len / 65536
    else w.remote / 65536
  | none => 0

/-- PAR_CORE of a core (Table PAR-12). -/
def State.regCore (s : State) (n : CoreId) : Nat :=
  let part := match s.partOfCore n with
    | some p => 16 + p.val * 32
    | none => 0
  min (s.loadOf (.core n)) 15 + part + min (s.keys.filter fun k => k.core == n).length 127 * 2 ^ 9

/-- The engine counters of a core (Table ENG-11). -/
def Cnts.regEngine (c : Cnts) (n : CoreId) (k : Nat) : Nat :=
  if k = 0 then c.mxBusy[n].toNat else if k = 4 then c.vxBusy[n].toNat
  else if k = 8 then units256 16 c.stallA[n] + units256 16 c.stallB[n] * 2 ^ 16
  else c.completed[n] % 2 ^ 24 + c.preempted[n] * 2 ^ 24

/-- The registers of a partition (Table PAR-12). -/
def Part.reg (x : Part) (k : Nat) : Nat :=
  if k = 0x00 then x.state.code + bitIf x.relaxed 3 + x.owner.idx.val * 16 + x.issueDepth % 16 * 2 ^ 8 + x.epoch.toNat * 2 ^ 16
  else if k = 0x04 then x.cores.toNat
  else if k = 0x08 then x.ndc.toNat
  else if k = 0x0C then x.late.toNat + x.missed.toNat * 2 ^ 16
  else if k = 0x10 then x.staleCmds.toNat + x.staleResults.toNat * 2 ^ 16
  else if k = 0x14 then x.saves.toNat + x.interrupted.toNat * 2 ^ 16
  else if 0x20 ≤ k && k < 0x30 then (x.queues[(Fin.ofNat 4 ((k - 0x20) / 4) : QueId)]).fetched.toNat
  else 0

/-- MEM_PKG of a package (Table MEM-10). -/
def State.regPkg (s : State) (p : Fin 16) : Nat :=
  let st := match s.fence with
    | some f => if f.pkg == p then f.state else .on
    | none => .on
  if s.diePresent (Fin.ofNat 2 (p.val / 8)) then st.code + s.ecs[p].toNat * 2 ^ 16 else 0

/-- The registers by core, by package and by window: offsets 0x51000 to 0x51FFF. -/
def State.regUnits (s : State) (off : Nat) : Nat :=
  let i := off % 0x80 / 4
  let n : CoreId := Fin.ofNat 32 i
  let here := s.diePresent (dieOfCore n)
  if 0x51000 ≤ off && off < 0x51080 then (if here then s.regWell i else 0)
  else if 0x51080 ≤ off && off < 0x51100 then (if here then s.regPump n else 0)
  else if 0x51100 ≤ off && off < 0x51500 then s.regWindow ((off - 0x51100) / 16) (off % 16 / 4)
  else if 0x51600 ≤ off && off < 0x51640 then s.regPkg (Fin.ofNat 16 ((off - 0x51600) / 4))
  else if 0x51700 ≤ off && off < 0x51780 then (if here then s.regCore n else 0)
  else if 0x51800 ≤ off && off < 0x51A00 then
    let m : CoreId := Fin.ofNat 32 ((off - 0x51800) / 16)
    if s.diePresent (dieOfCore m) then s.cnts.regEngine m (off % 16) else 0
  else 0

/-! ## Streams, heaps, determinism, intake, records, loop engine, pairing -/

/-- Words of ATN_HEAP (Table ATN-12). -/
def State.regHeap (s : State) (n word : Nat) : Nat :=
  match s.heaps.find? fun h => h.num == n with
  | some h =>
    if word = 0 then 1 + h.part.val * 2 + h.fmt % 16 * 2 ^ 5 + h.dim % 4 * 2 ^ 9 else if word = 1 then h.nslots else if word = 2 then s.freeHeapSlots h
    else s.spilledOf h
  | none => 0

/-- Codes of the alignment of a Siphon pair (Table DET-7). -/
def Align.code : Align → Nat
  | .none => 0 | .measuring => 1 | .waiting => 2 | .aligned => 3 | .failed => 4 | .slewing => 5 | .lost => 6

/-- DET registers (Table DET-7). -/
def State.regDet (s : State) (off : Nat) : Nat :=
  let d := s.det
  if off = 0x56000 then d.state.code + bitIf d.loader 3 + (BitVec.ofInt 8 (clamp127 d.residual)).toNat * 2 ^ 8
  else if off = 0x56008 || off = 0x5600C then wordAt d.ofs.toNat ((off - 0x56008) / 4)
  else if off = 0x56010 then d.holds.toNat
  else if off = 0x56100 || off = 0x56104 then wordAt d.seed.toNat ((off - 0x56100) / 4)
  else if off = 0x56108 then d.stream.toNat
  else if off = 0x5610C then d.elem.toNat
  else if off = 0x56110 || off = 0x56114 then wordAt s.steepOut ((off - 0x56110) / 4)
  else 0

/-- Codes of the states of camera ports, pipelines, axes and stations (Tables INT-7, REC-9, LPE-9). -/
def CamState.code : CamState → Nat
  | .off => 0 | .training => 1 | .running => 2 | .fenced => 3 | .notReady => 4
def PipeState.code : PipeState → Nat
  | .off => 0 | .idle => 1 | .running => 2 | .fenced => 3 | .notReady => 4
def AxState.code : AxState → Nat
  | .off => 0 | .armed => 1 | .run => 2 | .fault => 3 | .notReady => 4
def StState.code : StState → Nat
  | .off => 0 | .run => 1 | .notReady => 2 | .halted => 3

/-- The registers of a camera port (Table INT-7). -/
def Camera.reg (x : Camera) (k : Nat) : Nat :=
  let gear := if x.state == .off || x.state == .notReady then 0 else x.gear % 4
  if k < 8 then wordAt x.cfgAddr.toNat (k / 4)
  else if k = 0x0C then x.state.code + gear * 8 + bitIf x.cciBusy 5 + bitIf x.cciNack 6 + bitIf x.inFrame 7
  else if k = 0x10 then x.frames.toNat
  else if k = 0x14 then x.cons.toNat
  else if k = 0x18 then x.dropped + x.crcLines * 2 ^ 8 + x.concRows * 2 ^ 16
  else if k = 0x1C then x.cci.toNat
  else 0

/-- The registers of the audio and TDM intake (Table INT-7). -/
def State.regAudio (s : State) (off : Nat) : Nat :=
  if off = 0x57400 || off = 0x57404 then wordAt s.audTable.toNat ((off - 0x57400) / 4)
  else if off = 0x57408 || off = 0x5740C then wordAt s.audFir.toNat ((off - 0x57408) / 4)
  else if 0x57420 ≤ off && off < 0x57430 && s.sys.die1 then (s.tdm[(Fin.ofNat 4 ((off - 0x57420) / 4) : TdmId)]).cfg.toNat
  else 0

/-- The registers of a pipeline (Table REC-9). -/
def Pipe.reg (x : Pipe) (k : Nat) : Nat :=
  if k < 8 then wordAt x.cfgAddr.toNat (k / 4)
  else if k = 0x0C then x.state.code + bitIf x.hostSrc 3
  else if k = 0x10 then x.prod.toNat
  else if k = 0x14 then x.jobs.toNat
  else if k = 0x18 then x.cons.toNat
  else if k = 0x1C then x.avg.toNat
  else 0

/-- The registers of an axis (Table LPE-9); `main` is whether its engine transmits. -/
def Axis.reg (x : Axis) (main : Bool) (k : Nat) : Nat :=
  if k < 8 then wordAt x.cfgAddr.toNat (k / 4)
  else if k = 0x0C then
    x.state.code + x.cause % 16 * 8 + bitIf x.missed 7 + bitIf x.paired 8 + bitIf main 9 + bitIf x.empty 10 + min x.ferrCount 0xFFFF * 2 ^ 16
  else if k = 0x10 then x.u.toNat
  else if k = 0x14 then x.e.toNat
  else if k = 0x18 then x.cons.toNat
  else if k = 0x1C then min x.missRun 255 + min x.missTotal (2 ^ 24 - 1) * 2 ^ 8
  else 0

/-- An axis's engine transmits: it is loaded, and unpaired or on the main side of its pair (R376). -/
def State.axisMain (s : State) (a : AxisId) : Bool :=
  let x := s.axes[a]
  x.live && (!x.paired || s.pairs[x.pairOf].mainDie == dieOfAxis a)

/-- The registers of a station (Table LPE-9). -/
def Station.reg (x : Station) (k : Nat) : Nat :=
  if k < 8 then wordAt x.cfgAddr.toNat (k / 4)
  else if k = 0x0C then x.state.code + min x.fbBad 0xFFFF * 2 ^ 16
  else if k = 0x10 then x.seq.toNat
  else if k = 0x14 then x.fbLat.toNat
  else 0

/-- Codes of a pair's state and of a mirrored region's (Table PRG-11). -/
def PairState.code : PairState → Nat
  | .split => 0 | .entering => 1 | .paired => 2 | .testing => 3 | .resync => 4 | .leaving => 5 | .degraded => 6
def MirState.code : MirState → Nat
  | .off => 0 | .syncing => 1 | .synced => 2 | .refused => 3

/-- The registers of a pair. -/
def Pair.reg (x : Pair) (k : Nat) : Nat :=
  if k = 0x00 then bitIf x.main 0 + x.policy.toNat * 2 + bitIf x.rerun 3
  else if k = 0x04 then x.state.code + x.mainDie.val * 8 + x.outcome.toNat * 16 + bitIf x.failD0 6 + bitIf x.failD1 7 + x.group.toNat * 2 ^ 8
  else if k = 0x08 then x.mismatches + x.refusals * 2 ^ 8 + x.transients * 2 ^ 16 + x.reruns * 2 ^ 24
  else if k = 0x10 || k = 0x14 then wordAt x.save.toNat ((k - 0x10) / 4)
  else if k = 0x18 || k = 0x1C then wordAt x.evt.toNat ((k - 0x18) / 4)
  else 0

/-- The registers of the Siphon engine. -/
def Sph.reg (x : Sph) (off : Nat) : Nat :=
  if off = 0x5C100 then bitIf x.lastgasp 0 + bitIf x.silent 1 + bitIf x.dark 2 + bitIf x.tbFollow 3 + x.hbTimeout.toNat * 2 ^ 8
  else if off = 0x5C104 then
    x.link.toNat + x.role.toNat * 4 + x.partnerRole.toNat * 16 + bitIf x.conflict 6 + bitIf x.alive 7 + bitIf x.takenOver 8
  else if off = 0x5C108 then x.bad % 256 + units256 8 x.retries * 2 ^ 8 + units256 16 x.mirrorStalls * 2 ^ 16
  else if off = 0x5C110 || off = 0x5C114 then wordAt x.partner.toNat ((off - 0x5C110) / 4)
  else if off = 0x5C118 || off = 0x5C11C then wordAt x.mirAt.toNat ((off - 0x5C118) / 4)
  else if off = 0x5C120 || off = 0x5C124 then wordAt x.axm.toNat ((off - 0x5C120) / 4)
  else 0

/-- The registers of a mirrored region. -/
def Mirror.reg (x : Mirror) (k : Nat) : Nat :=
  if k < 8 then wordAt x.base.toNat (k / 4) else if k = 8 then x.len.toNat else bitIf x.enable 0 + x.state.code * 2

/-- The registers of a partition's measurement (Table TRB-11). -/
def Meas.reg (x : Meas) (k : Nat) : Nat :=
  if k < 8 then wordAt x.addr.toNat (k / 4) else if k = 8 then x.entries.toNat else x.state.toNat + x.status.toNat * 2 ^ 16

/-- Offsets 0x53000 to 0x5DFFF. -/
def State.regBlocks (s : State) (off : Nat) : Nat :=
  match inRow off 0x53000 0x100 16 with
  | some (p, k) => (s.parts[(Fin.ofNat 16 p : PartId)]).sigs[(Fin.ofNat 64 (k / 4))].toNat
  | none =>
    if off = 0x54000 then s.strPeek.toNat
    else if 0x54020 ≤ off && off < 0x54040 then wordAt (s.streamEntry s.strPeek.toNat) ((off - 0x54020) / 4)
    else if 0x55000 ≤ off && off < 0x55100 then s.regHeap ((off - 0x55000) / 16) (off % 16 / 4)
    else if 0x56000 ≤ off && off < 0x57000 then s.regDet off
    else if 0x57000 ≤ off && off < 0x57300 then
      let v : CamId := Fin.ofNat 24 ((off - 0x57000) / 32)
      if s.diePresent (dieOfCam v) then (s.cams[v]).reg (off % 32) else 0
    else if off < 0x58000 then s.regAudio off
    else if off < 0x58200 then (s.pipes[(Fin.ofNat 16 ((off - 0x58000) / 32) : PipeId)]).reg (off % 32)
    else if 0x59000 ≤ off && off < 0x5A000 then
      let a : AxisId := Fin.ofNat 128 ((off - 0x59000) / 32)
      if s.diePresent (dieOfAxis a) then (s.axes[a]).reg (s.axisMain a) (off % 32) else 0
    else if 0x5A000 ≤ off && off < 0x5A400 then
      let j : StationId := Fin.ofNat 32 ((off - 0x5A000) / 32)
      if s.diePresent (dieOfStation j) then (s.stations[j]).reg (off % 32) else 0
    else if 0x5B000 ≤ off && off < 0x5B300 then
      let e : EthId := Fin.ofNat 6 ((off - 0x5B000) / 128)
      if s.diePresent (dieOfEth e) then (s.eth[e]).reg s.trb.configOk e (off % 128) else 0
    else if 0x5B400 ≤ off && off < 0x5BA00 then
      let e : EthId := Fin.ofNat 6 ((off - 0x5B400) / 256)
      if s.diePresent (dieOfEth e) then wordAt ((s.eth[e]).mcast[(Fin.ofNat 32 ((off - 0x5B400) % 256 / 8))]).toNat (off % 8 / 4) else 0
    else if 0x5C000 ≤ off && off < 0x5C080 then (s.pairs[(Fin.ofNat 4 ((off - 0x5C000) / 32) : PairId)]).reg (off % 32)
    else if 0x5C100 ≤ off && off < 0x5C200 then s.sph.reg off
    else if 0x5C200 ≤ off && off < 0x5C300 then (s.mirrors[(Fin.ofNat 16 ((off - 0x5C200) / 16) : MirId)]).reg (off % 16)
    else if 0x5D000 ≤ off && off < 0x5D100 then (s.parts[(Fin.ofNat 16 ((off - 0x5D000) / 16) : PartId)]).meas.reg (off % 16)
    else 0

/-! ## Power (Table PWR-6) -/

/-- Offsets 0x60000 to 0x601FF. The energy's high word is the latch of a host port. -/
def State.regPower (s : State) (p : Port) (off : Nat) : Nat :=
  let m := s.pm
  let o := off - 0x60000
  if o = 0x00 then m.energy.toNat % 2 ^ 32
  else if o = 0x04 then (s.port p).energyHi.toNat
  else if o = 0x08 then m.inPower % 2 ^ 16 + m.inVolts % 2 ^ 16 * 2 ^ 16
  else if o = 0x0C then m.est % 2 ^ 16 + m.basis % 2 ^ 16 * 2 ^ 16
  else if o = 0x10 then
    m.mode.toNat + bitIf m.sensorOk 2 + bitIf m.diverged 3 + bitIf m.energyEst 4 + bitIf s.alert 5 + m.sCap % 16 * 2 ^ 6 +
    m.sTh[(0 : Fin 2)] % 16 * 2 ^ 10 + m.sTh[(1 : Fin 2)] % 16 * 2 ^ 14 + min m.hints.length 31 * 2 ^ 18
  else if o = 0x14 then m.volt[(0 : Fin 2)] % 2 ^ 16 + m.volt[(1 : Fin 2)] % 2 ^ 16 * 2 ^ 16
  else if o = 0x18 then (allFin 8).foldl (fun (x : Nat) c => x + m.skip[c] % 16 * 2 ^ (4 * c.val)) 0
  else if o = 0x1C then m.throttleMs + m.hintsDropped * 2 ^ 24
  else if 0x40 ≤ o && o < 0xA0 then
    let i : Fin 24 := Fin.ofNat 24 ((o - 0x40) / 4)
    m.temp[i].toNat + bitIf m.tempOk[i] 16
  else if o = 0x104 then (s.port p).pdStatus.toNat + (s.port p).pdDomain.toNat * 2 ^ 16 + bitIf (s.port p).pdDone 23
  else if 0x110 ≤ o && o < 0x120 then wordAt s.pdOn.toNat ((o - 0x110) / 4)
  else 0

/-! ## BAR0 as a whole (Table MBX-2) -/

/-- The sticky register at an offset. -/
def stickyAt (off : Nat) : Option Sticky := Sticky.all.find? fun k => k.off == off


/-- The sticky region's first part: offsets 0x50000 to 0x50FFF. A register of an absent die reads as zero (R486). -/
def State.regSticky (s : State) (off : Nat) : Nat :=
  match stickyAt off with
  | some k => if s.diePresent k.die then (s.err k).toNat else 0
  | none =>
    let byDie := 0x50300 ≤ off && off < 0x50440 && off % 8 = 4 && off ≠ 0x50430
    let far := (off < 0x50300 && 0x10 ≤ off % 0x20) || byDie
    if off = 0x50000 then s.summary
    else if off = 0x50004 then s.trb.alertMask.toNat
    else if off = 0x50310 then s.regMemStatus
    else if off = 0x50430 then s.regFault
    else if 0x50500 ≤ off then s.regTrb off
    else if far && !s.sys.die1 then 0
    else s.regCounts off

/-- The value that a read of a BAR0 register by a port returns; an offset that is not assigned reads as zero (R38). -/
def State.reg (s : State) (p : Port) (off : Nat) : Nat :=
  if off % 4 ≠ 0 then 0
  else if off < 0x10000 then s.regIdent p off
  else if off < 0x20000 then s.regMail p off
  else if off < 0x30000 then
    match inRow off 0x20000 8 64 with
    | some (i, k) => if k = 4 then (s.sems[(Fin.ofNat 64 i : SemId)]).reg else 0
    | none => 0
  else if off < 0x40000 then s.regQueue off
  else if off < 0x50000 then s.regTb p off
  else if off < 0x51000 then s.regSticky off
  else if off < 0x52000 then s.regUnits off
  else if off < 0x53000 then
    match inRow off 0x52000 0x40 16 with
    | some (q, k) => (s.parts[(Fin.ofNat 16 q : PartId)]).reg k
    | none => 0
  else if off < 0x60000 then s.regBlocks off
  else if off < 0x70000 then s.regPower p off
  else if off < 0x80000 then s.regQueue off
  else (s.port p).regMsix off

end Sys2Proof.Machine
end

