-- ==== Sys2Proof/Machine/Bar0.lean ====
section
/-! DEFINITION. Register accesses that have no row of their own: the SMBus target (R476), writes of 1 to sticky bits (R7), and stores into RW fields
(R6) with the ownership that each chapter asks for. -/
namespace Sys2Proof.Machine

/-! ## The SMBus target (R476) -/

/-- An offset that the SMBus target serves. -/
def smbusServes (off : Nat) : Bool := off < 0x100 || off = 0x50000 || (0x60000 ≤ off && off < 0x60200)

/-- The value of a served register. What exists once per port has no stated value here: a free one, but for the energy count, whose high word is
the count's own (R437, log entry 49). -/
def State.smbusValue (s : State) (off : Nat) : Nat :=
  if off = 0x60004 then s.pm.energy.toNat / 2 ^ 32
  else if off = 0x60104 then Config.openVal 476 [off] % 2 ^ 32
  else if off = 0x0C then s.reg .a off + Config.openVal 476 [off] % 2 * 16
  else s.reg .a off

/-- One bit of the CRC-8 register of SMBus, the highest first: polynomial 0x07 (log entry 50). -/
def crc8Bit (c : Byte) : Byte := if c.msb then (c <<< 1) ^^^ 0x07 else c <<< 1

/-- The packet error code of SMBus over the bytes of a transfer (R476, log entry 50). -/
def smbusPec (bs : List Byte) : Byte := bs.foldl (fun (c : Byte) b => (List.range 8).foldl (fun r _ => crc8Bit r) (c ^^^ b)) 0

/-- The bytes that a read of an offset gives: the register's value, and the packet error code over the whole transfer, target address 0x5A with the write
bit, the offset, the address with the read bit, and the value (R476). -/
def smbusBytes (off v : Nat) : List Byte :=
  leBytes 4 v ++ [smbusPec ([0xB4] ++ leBytes 4 off ++ [0xB5] ++ leBytes 4 v)]

/-- SMBUS_READ (R476): the value and the fifth byte without side effects, or no acknowledgement. -/
def execSmbusRead (off : Nat) (s : State) : Host.Outcome State Fault Refusal :=
  if s.sys.rails == .on && s.sys.rstN && smbusServes off then done s (s.emit (.readData none (smbusBytes off (s.smbusValue off))))
  else done s (s.emit .smbusNack)

/-! ## Sticky bits (R7) -/

/-- A core's PMP_OUT.high_water cleared (Table WEL-15). -/
def State.clearHighWater (s : State) (n : CoreId) : State := { s with cnts := { s.cnts with highWater := s.cnts.highWater.set n 0 } }

/-- A write to RW1C bits: a 1 clears its bit, unless hardware has set that bit in this FCLK cycle (R7). -/
def State.clearBits (s : State) (off : Nat) (v : W32) : State :=
  match stickyAt off with
  | some k => if s.diePresent k.die then { s with errs := s.errs.set k.idx (s.err k &&& ~~~(v &&& ~~~s.setNow[k.idx])) } else s
  | none =>
    let n : CoreId := Fin.ofNat 32 ((off - 0x51080) / 4)
    if 0x51080 ≤ off && off < 0x51100 && off % 4 = 0 && v.getLsbD 10 && s.diePresent (dieOfCore n) then s.clearHighWater n else s

/-- STICKY_CLEAR (R7). -/
def execStickyClear (p : Port) (off : Nat) (v : W32) (s : State) : Host.Outcome State Fault Refusal := done s (s.hostRow p (s.clearBits off v))

/-! ## RW registers (R6) -/

/-- A number with its word `i` replaced; bits beyond its width are reserved and ignored (R5). -/
def putWord {w : Nat} (x : BitVec w) (i : Nat) (v : W32) : BitVec w :=
  (x &&& ~~~(BitVec.ofNat w (0xFFFFFFFF * 2 ^ (32 * i)))) ||| BitVec.ofNat w (v.toNat * 2 ^ (32 * i))

/-- MBX_CR_IRQ (R58). -/
def State.writeCrIrq (s : State) (p : Port) (q : PartId) (k : QueId) (v : W32) : State :=
  if s.owns p q then
    s.setQueue q k { s.queue q k with irqVec := BitVec.ofNat 6 v.toNat, irqBatch := BitVec.ofNat 8 (v.toNat / 256), irqEn := v.getLsbD 16 }
  else s.flag .mbx 3

/-- A word of an MSI-X table entry; an entry that is unmasked with its pending bit set sends its message (R41, log entry 4). -/
def State.writeMsix (s : State) (p : Port) (n : Fin 64) (word : Nat) (v : W32) : State :=
  let h := s.port p
  let e := h.msix[n]
  let e1 : MsixEntry := if word < 2 then { e with addr := putWord e.addr word v } else if word = 2 then { e with data := v } else { e with masked := v.getLsbD 0 }
  let go := e1.pending && !e1.masked
  let t := s.setPort p { h with msix := h.msix.set n { e1 with pending := e1.pending && e1.masked } }
  if go then t.emit (.msix p n.val e1.addr.toNat e1.data.toNat) else t

/-- PAR_SIG (R193). -/
def State.writeSig (s : State) (p : Port) (q : PartId) (i : SemId) (v : W32) : State :=
  if s.owns p q then s.setPart q { s.parts[q] with sigs := s.parts[q].sigs.set i v } else s.flag (.par s.parts[q].die) 9

/-- The timebase registers that are RW (R393, R396 to R398). -/
def State.writeTb (s : State) (p : Port) (o : Nat) (v : W32) : State :=
  let h := s.port p
  if 0x40 ≤ o && o < 0x4C then s.setPort p { h with tbAdj := putWord h.tbAdj ((o - 0x40) / 4) v }
  else if 0x50 ≤ o && o < 0x58 then s.setPort p { h with tbRateSet := putWord h.tbRateSet ((o - 0x50) / 4) v }
  else if o = 0x68 then { s with tb := { s.tb with jumpMax := v } }
  else if o = 0x6C then
    { s with tb := { s.tb with
        pps := BitVec.ofNat 12 v.toNat, ppsStopped := false
        ppsWatch := if v.getLsbD 1 && !s.tb.pps.getLsbD 1 then s.now else s.tb.ppsWatch } }.ppsRestart
  else s

/-- A camera port's registers (R325). -/
def State.writeCam (s : State) (p : Port) (v : CamId) (k : Nat) (x : W32) : State :=
  if k ≠ 0 && k ≠ 4 && k ≠ 8 && k ≠ 0x14 && k ≠ 0x1C then s
  else if !s.mayCam p v then s.flag (camErr v) 1
  else if k = 8 || k = 0x1C then s
  else if k = 0x14 then s.setCam v { s.cams[v] with cons := x }
  else s.setCam v { s.cams[v] with cfgAddr := putWord (s.cams[v]).cfgAddr (k / 4) x }

/-- INT_TDM_CFG: enabling a port starts its frames anew, and the BCLK that a master drives follows (R339). -/
def State.writeTdm (s : State) (t : TdmId) (v : W32) : State :=
  let x := s.tdm[t]
  let starts := v.getLsbD 0 && !x.cfg.getLsbD 0
  let y := { x with
    cfg := BitVec.ofNat 5 v.toNat, frames := if starts then 0 else x.frames, last := if starts then s.now else x.last, lost := x.lost && !starts }
  let u := { s with tdm := s.tdm.set t y }
  if y.bclk = x.bclk then u else u.emit (.tdmClock t y.bclk)

/-- A pipeline's registers (R342). -/
def State.writePipe (s : State) (p : Port) (i : PipeId) (k : Nat) (v : W32) : State :=
  let x := s.pipes[i]
  if k ≠ 0 && k ≠ 4 && k ≠ 0x10 && k ≠ 0x18 then s
  else if !s.mayPipe p i then s.flag (.reco x.die) 1
  else if k = 0x10 then s.setPipe i { x with prod := v }
  else if k = 0x18 then s.setPipe i { x with cons := v }
  else s.setPipe i { x with cfgAddr := putWord x.cfgAddr (k / 4) v }

/-- LPE_AX_CFG_ADDR (R360). -/
def State.writeAxis (s : State) (p : Port) (a : AxisId) (k : Nat) (v : W32) : State :=
  if 8 < k then s
  else if !s.mayAxis p a then s.flag (.lpe (dieOfAxis a)) 1
  else if k = 8 then s
  else { s with axes := s.axes.set a { s.axes[a] with cfgAddr := putWord (s.axes[a]).cfgAddr (k / 4) v } }

/-- LPE_ST_CFG_ADDR (R360). -/
def State.writeStation (s : State) (p : Port) (j : StationId) (k : Nat) (v : W32) : State :=
  if 8 < k then s
  else if !s.mayStation p j then s.flag (.lpe (dieOfStation j)) 1
  else if k = 8 then s
  else { s with stations := s.stations.set j { s.stations[j] with cfgAddr := putWord (s.stations[j]).cfgAddr (k / 4) v } }

/-- An Ethernet port's registers (R382, R385): its configuration and its ring bases are taken only while it is OFF. -/
def State.writeEth (s : State) (p : Port) (e : EthId) (k : Nat) (v : W32) : State :=
  let x := s.eth[e]
  let conf := k = 0 || (0x18 ≤ k && k < 0x30)
  if !(conf || k = 4 || k = 0x10 || k = 0x14 || k = 0x48) then s
  else if !s.mayEth p e then s.flag (netErr e) 1
  else if k = 4 then s
  else if conf && x.state != .off then s.flag (netErr e) 0
  else s.setEth e (
    if k = 0 then { x with cfg := BitVec.ofNat 5 v.toNat }
    else if k < 0x18 then { x with mac := putWord x.mac ((k - 0x10) / 4) v }
    else if k < 0x20 then { x with txtBase := putWord x.txtBase ((k - 0x18) / 4) v }
    else if k < 0x28 then { x with txgBase := putWord x.txgBase ((k - 0x20) / 4) v }
    else if k < 0x30 then { x with rxBase := putWord x.rxBase ((k - 0x28) / 4) v }
    else { x with irqVec := BitVec.ofNat 6 v.toNat, irqEn := v.getLsbD 16 })

/-- NET_P_MCAST. -/
def State.writeMcast (s : State) (p : Port) (e : EthId) (i : Fin 32) (word : Nat) (v : W32) : State :=
  let x := s.eth[e]
  if s.mayEth p e then s.setEth e { x with mcast := x.mcast.set i (putWord x.mcast[i] word v) } else s.flag (netErr e) 1

/-- PRG_PAIR_CFG and PRG_PAIR_SAVE, taken only while the pair is SPLIT (R400). -/
def State.writePair (s : State) (r : PairId) (k : Nat) (v : W32) : State :=
  let x := s.pairs[r]
  if k ≠ 0 && k ≠ 0x10 && k ≠ 0x14 then s
  else if x.state != .split then s.flag .prg 6
  else if k = 0 then s.setPair r { x with main := v.getLsbD 0, policy := BitVec.ofNat 2 (v.toNat / 2), rerun := v.getLsbD 3 }
  else s.setPair r { x with save := putWord x.save ((k - 0x10) / 4) v }

/-- PRG_SPH_CFG and PRG_SPH_AXM. -/
def State.writeSph (s : State) (off : Nat) (v : W32) : State :=
  if off = 0x5C100 then
    s.setSph { s.sph with
      lastgasp := v.getLsbD 0, silent := v.getLsbD 1, dark := v.getLsbD 2, tbFollow := v.getLsbD 3, hbTimeout := BitVec.ofNat 8 (v.toNat / 256) }
  else if off = 0x5C120 || off = 0x5C124 then s.setSph { s.sph with axm := putWord s.sph.axm ((off - 0x5C120) / 4) v }
  else s

/-- A mirrored region's registers; setting its enable bit is MIRROR_ENABLE, and clearing it ends the mirroring (R420). -/
def State.writeMirror (s : State) (r : MirId) (k : Nat) (v : W32) : State :=
  let x := s.mirrors[r]
  let put := fun (y : Mirror) => { s with mirrors := s.mirrors.set r y }
  if k < 8 then put { x with base := putWord x.base (k / 4) v }
  else if k = 8 then put { x with len := v }
  else if v.getLsbD 0 then s
  else put { x with enable := false, state := .off }

/-- TRB_MEAS_ADDR, and TRB_MEAS_CTL without start (R455, R466). -/
def State.writeMeas (s : State) (p : Port) (q : PartId) (k : Nat) (v : W32) : State :=
  let m := s.parts[q].meas
  if k = 0x0C then s
  else if !s.owns p q then s.flag .trb 7
  else if k < 8 then s.setMeas q { m with addr := putWord m.addr (k / 4) v }
  else s.setMeas q { m with entries := BitVec.ofNat 13 v.toNat }

/-- DET_STEEP registers (R321). -/
def State.writeDet (s : State) (off : Nat) (v : W32) : State :=
  if off = 0x56100 || off = 0x56104 then s.setDet { s.det with seed := putWord s.det.seed ((off - 0x56100) / 4) v }
  else if off = 0x56108 then s.setDet { s.det with stream := v }
  else if off = 0x5610C then s.setDet { s.det with elem := v }
  else s

/-- RW registers at offsets 0x53000 to 0x5DFFF; those of an absent die ignore writes (R486). -/
def State.writeBlocks (s : State) (p : Port) (off : Nat) (v : W32) : State :=
  if off < 0x54000 then s.writeSig p (Fin.ofNat 16 ((off - 0x53000) / 0x100)) (Fin.ofNat 64 (off % 0x100 / 4)) v
  else if off = 0x54000 then { s with strPeek := BitVec.ofNat 18 v.toNat }
  else if 0x56000 ≤ off && off < 0x57000 then s.writeDet off v
  else if 0x57000 ≤ off && off < 0x57300 then
    let i : CamId := Fin.ofNat 24 ((off - 0x57000) / 32)
    if s.diePresent (dieOfCam i) then s.writeCam p i (off % 32) v else s
  else if off = 0x57400 || off = 0x57404 then { s with audTable := putWord s.audTable ((off - 0x57400) / 4) v }
  else if 0x57420 ≤ off && off < 0x57430 then (if s.sys.die1 then s.writeTdm (Fin.ofNat 4 ((off - 0x57420) / 4)) v else s)
  else if 0x58000 ≤ off && off < 0x58200 then s.writePipe p (Fin.ofNat 16 ((off - 0x58000) / 32)) (off % 32) v
  else if 0x59000 ≤ off && off < 0x5A000 then
    let a : AxisId := Fin.ofNat 128 ((off - 0x59000) / 32)
    if s.diePresent (dieOfAxis a) then s.writeAxis p a (off % 32) v else s
  else if 0x5A000 ≤ off && off < 0x5A400 then
    let j : StationId := Fin.ofNat 32 ((off - 0x5A000) / 32)
    if s.diePresent (dieOfStation j) then s.writeStation p j (off % 32) v else s
  else if 0x5B000 ≤ off && off < 0x5B300 then
    let e : EthId := Fin.ofNat 6 ((off - 0x5B000) / 128)
    if s.diePresent (dieOfEth e) then s.writeEth p e (off % 128) v else s
  else if 0x5B400 ≤ off && off < 0x5BA00 then
    let e : EthId := Fin.ofNat 6 ((off - 0x5B400) / 256)
    if s.diePresent (dieOfEth e) then s.writeMcast p e (Fin.ofNat 32 ((off - 0x5B400) % 256 / 8)) (off % 8 / 4) v else s
  else if 0x5C000 ≤ off && off < 0x5C080 then s.writePair (Fin.ofNat 4 ((off - 0x5C000) / 32)) (off % 32) v
  else if 0x5C100 ≤ off && off < 0x5C200 then s.writeSph off v
  else if 0x5C200 ≤ off && off < 0x5C300 then s.writeMirror (Fin.ofNat 16 ((off - 0x5C200) / 16)) (off % 16) v
  else if 0x5D000 ≤ off && off < 0x5D100 then s.writeMeas p (Fin.ofNat 16 ((off - 0x5D000) / 16)) (off % 16) v
  else s

/-- A 32-bit write by a port to a register without a row of its own; what is not RW, or not assigned, ignores it (R6, R38). -/
def State.writeReg (s : State) (p : Port) (off : Nat) (v : W32) : State :=
  let h := s.port p
  if off % 4 ≠ 0 then s
  else if off = 0x104 then s.setPort p { h with bar2Base := BitVec.ofNat 6 (v.toNat / 4) }
  else if off = 0x1800C then s.setPort p { h with doneIrqEn := v.getLsbD 0 }
  else if 0x40000 ≤ off && off < 0x40080 then s.writeTb p (off - 0x40000) v
  else if off = 0x50004 then { s with trb := { s.trb with alertMask := BitVec.ofNat 20 v.toNat } }
  else if 0x53000 ≤ off && off < 0x5E000 then s.writeBlocks p off v
  else if 0x70000 ≤ off && off < 0x70400 && off % 16 = 8 then s.writeCrIrq p (Fin.ofNat 16 ((off - 0x70000) / 0x40)) (Fin.ofNat 4 (off / 16)) v
  else if 0x80000 ≤ off && off < 0x80400 then s.writeMsix p (Fin.ofNat 64 ((off - 0x80000) / 16)) (off % 16 / 4) v
  else s

/-- The code of an AER error in the model's numbering, by its place in Table MBX-1. -/
def AerError.code : AerError → Nat
  | .receiverError => 0 | .badTlp => 1 | .badDllp => 2 | .replayTimer => 3 | .replayRollover => 4
  | .poisonedTlp => 5 | .completionTimeout => 6 | .unexpectedCompletion => 7 | .unsupportedRequest => 8 | .malformedTlp => 9 | .receiverOverflow => 10

/-- A write to a port's PCI Express function, at the offsets that the model gives it (R33, R37; log entry 211): its power state, its BAR2 size, its AER
bits. -/
def State.writeFunction (s : State) (p : Port) (off : Nat) (v : W32) : State :=
  let h := s.port p
  let size := v.toNat / 256 % 64
  if off = 0x1000000 then (if v.toNat % 4 = 0 then s.setPort p { h with d3hot := false } else s)
  else if off = 0x1000004 then (if 14 ≤ size && size ≤ 18 then s.setPort p { h with bar2Log2 := 20 + size } else s)
  else if off = 0x1000008 then s.setPort p { h with aer := h.aer.filter fun e => !v.getLsbD e.code }
  else s

/-- REGISTER_WRITE (R6), and a write to the port's function. -/
def execRegisterWrite (p : Port) (off : Nat) (v : W32) (s : State) : Host.Outcome State Fault Refusal :=
  if 0x1000000 ≤ off then done s (if (s.port p).link then s.writeFunction p off v else s)
  else done s (s.hostRow p (s.writeReg p off v))

end Sys2Proof.Machine
end

