-- ==== Sys2Proof/Machine/Dispatch.lean ====
section
/-! DEFINITION. What each command does: one arm for each constructor of Instr, each a call of that command's own meaning. -/
namespace Sys2Proof.Machine

/-- The effect of a command on everything but the queue. -/
def exec (i : Instr) (s : State) : Host.Outcome State Fault Refusal :=
  match i with
  | .pwrEnRise msSinceFall => Sys2Proof.Machine.execPwrEnRise msSinceFall s
  | .pwrEnFall lowUs => Sys2Proof.Machine.execPwrEnFall lowUs s
  | .railsInRegulation => Sys2Proof.Machine.execRailsInRegulation s
  | .rstNAssert lowNs => Sys2Proof.Machine.execRstNAssert lowNs s
  | .rstNRelease => Sys2Proof.Machine.execRstNRelease s
  | .undervoltageLockout => Sys2Proof.Machine.execUndervoltageLockout s
  | .inputRise35V => Sys2Proof.Machine.execInputRise35V s
  | .inputLow => Sys2Proof.Machine.execInputLow s
  | .dieAlignment failedSteps => Sys2Proof.Machine.execDieAlignment failedSteps s
  | .boot => Sys2Proof.Machine.execBoot s
  | .gorideReady pufOk => Sys2Proof.Machine.execGorideReady pufOk s
  | .watchdogExpiry => Sys2Proof.Machine.execWatchdogExpiry s
  | .flr port => Sys2Proof.Machine.execFlr port s
  | .pcieHotReset port => Sys2Proof.Machine.execPcieHotReset port s
  | .pcieLinkDown port => Sys2Proof.Machine.execPcieLinkDown port s
  | .d3hotEntry port => Sys2Proof.Machine.execD3hotEntry port s
  | .perstAssert port => Sys2Proof.Machine.execPerstAssert port s
  | .perstRelease port => Sys2Proof.Machine.execPerstRelease port s
  | .heartbeatLapse port => Sys2Proof.Machine.execHeartbeatLapse port s
  | .orphanClose p => Sys2Proof.Machine.execOrphanClose p s
  | .poisonedTlpWrite port => Sys2Proof.Machine.execPoisonedTlpWrite port s
  | .bar0BadAccess port off size => Sys2Proof.Machine.execBar0BadAccess port off size s
  | .bar2Read port off len => Sys2Proof.Machine.execBar2Read port off len s
  | .bar2Write port off data => Sys2Proof.Machine.execBar2Write port off data s
  | .mbxSlotWrite port slot off data => Sys2Proof.Machine.execMbxSlotWrite port slot off data s
  | .mbxRing port mask => Sys2Proof.Machine.execMbxRing port mask s
  | .mbxDoneClear port mask => Sys2Proof.Machine.execMbxDoneClear port mask s
  | .getInfo port slot => Sys2Proof.Machine.execGetInfo port slot s
  | .hostAttach port slot => Sys2Proof.Machine.execHostAttach port slot s
  | .hostDetach port slot => Sys2Proof.Machine.execHostDetach port slot s
  | .heartbeat port slot => Sys2Proof.Machine.execHeartbeat port slot s
  | .deviceReset port slot => Sys2Proof.Machine.execDeviceReset port slot s
  | .deviceResetDone => Sys2Proof.Machine.execDeviceResetDone s
  | .modeSetPower port slot => Sys2Proof.Machine.execModeSetPower port slot s
  | .modeSetDeterminism port slot => Sys2Proof.Machine.execModeSetDeterminism port slot s
  | .modeSetPaired port slot testOk => Sys2Proof.Machine.execModeSetPaired port slot testOk s
  | .modeSetSplit port slot => Sys2Proof.Machine.execModeSetSplit port slot s
  | .modeSetAugmentation port slot => Sys2Proof.Machine.execModeSetAugmentation port slot s
  | .modeSetInlineEcc port slot => Sys2Proof.Machine.execModeSetInlineEcc port slot s
  | .modeSetSiphonRole port slot => Sys2Proof.Machine.execModeSetSiphonRole port slot s
  | .partOpen port slot => Sys2Proof.Machine.execPartOpen port slot s
  | .partClose port slot => Sys2Proof.Machine.execPartClose port slot s
  | .partReset port slot => Sys2Proof.Machine.execPartReset port slot s
  | .partAdopt port slot => Sys2Proof.Machine.execPartAdopt port slot s
  | .ringRegister port slot => Sys2Proof.Machine.execRingRegister port slot s
  | .cisternRegister port slot => Sys2Proof.Machine.execCisternRegister port slot s
  | .cisternRelease port slot => Sys2Proof.Machine.execCisternRelease port slot s
  | .windowOpen port slot partnerMaps => Sys2Proof.Machine.execWindowOpen port slot partnerMaps s
  | .windowClose port slot => Sys2Proof.Machine.execWindowClose port slot s
  | .unitFence port slot => Sys2Proof.Machine.execUnitFence port slot s
  | .evacuationGroupCopied => Sys2Proof.Machine.execEvacuationGroupCopied s
  | .unitTest port slot us failAt => Sys2Proof.Machine.execUnitTest port slot us failAt s
  | .unitReturn port slot => Sys2Proof.Machine.execUnitReturn port slot s
  | .restoreDone => Sys2Proof.Machine.execRestoreDone s
  | .engineReset port slot => Sys2Proof.Machine.execEngineReset port slot s
  | .fwWrite port slot => Sys2Proof.Machine.execFwWrite port slot s
  | .fwVerify port slot => Sys2Proof.Machine.execFwVerify port slot s
  | .fwCommit port slot ms readBackOk => Sys2Proof.Machine.execFwCommit port slot ms readBackOk s
  | .recoveryImage port slot => Sys2Proof.Machine.execRecoveryImage port slot s
  | .attestQuote port slot => Sys2Proof.Machine.execAttestQuote port slot s
  | .certRead port slot => Sys2Proof.Machine.execCertRead port slot s
  | .logRead port slot => Sys2Proof.Machine.execLogRead port slot s
  | .semAcquire sem tagA tagB => Sys2Proof.Machine.execSemAcquire sem tagA tagB s
  | .semRelease port sem tag => Sys2Proof.Machine.execSemRelease port sem tag s
  | .queueDoorbell port p q value => Sys2Proof.Machine.execQueueDoorbell port p q value s
  | .crConsumerWrite port p q value => Sys2Proof.Machine.execCrConsumerWrite port p q value s
  | .descriptorFetch p q => Sys2Proof.Machine.execDescriptorFetch p q s
  | .commandIssue p => Sys2Proof.Machine.execCommandIssue p s
  | .deadlineMiss p q n => Sys2Proof.Machine.execDeadlineMiss p q n s
  | .launchAt p q n => Sys2Proof.Machine.execLaunchAt p q n s
  | .preemptionStop p q n => Sys2Proof.Machine.execPreemptionStop p q n s
  | .commandCompletion p q n => Sys2Proof.Machine.execCommandCompletion p q n s
  | .completionRecordWrite p q => Sys2Proof.Machine.execCompletionRecordWrite p q s
  | .gemm p q n flt => Sys2Proof.Machine.execGemm p q n flt s
  | .vop p q n flt => Sys2Proof.Machine.execVop p q n flt s
  | .conv p q n flt => Sys2Proof.Machine.execConv p q n flt s
  | .pool p q n flt => Sys2Proof.Machine.execPool p q n flt s
  | .crop p q n flt => Sys2Proof.Machine.execCrop p q n flt s
  | .s2d p q n flt => Sys2Proof.Machine.execS2d p q n flt s
  | .d2s p q n flt => Sys2Proof.Machine.execD2s p q n flt s
  | .frc p q n flt => Sys2Proof.Machine.execFrc p q n flt s
  | .qscan p q n => Sys2Proof.Machine.execQscan p q n s
  | .qconv p q n => Sys2Proof.Machine.execQconv p q n s
  | .adapt p q n flt => Sys2Proof.Machine.execAdapt p q n flt s
  | .pump p q n => Sys2Proof.Machine.execPump p q n s
  | .fill p q n => Sys2Proof.Machine.execFill p q n s
  | .copy p q n => Sys2Proof.Machine.execCopy p q n s
  | .pumpOperationRetire op srcPoison => Sys2Proof.Machine.execPumpOperationRetire op srcPoison s
  | .farRegistration op => Sys2Proof.Machine.execFarRegistration op s
  | .hint p q n => Sys2Proof.Machine.execHint p q n s
  | .wait p q n => Sys2Proof.Machine.execWait p q n s
  | .signalAdd p q n => Sys2Proof.Machine.execSignalAdd p q n s
  | .signalRemote p q n => Sys2Proof.Machine.execSignalRemote p q n s
  | .signalWrite p q n => Sys2Proof.Machine.execSignalWrite p q n s
  | .fence p q n => Sys2Proof.Machine.execFence p q n s
  | .save p q n => Sys2Proof.Machine.execSave p q n s
  | .load p q n => Sys2Proof.Machine.execLoad p q n s
  | .rstep p q n flt => Sys2Proof.Machine.execRstep p q n flt s
  | .lstep p q n flt => Sys2Proof.Machine.execLstep p q n flt s
  | .feat p q n flt => Sys2Proof.Machine.execFeat p q n flt s
  | .streamGroup p q n => Sys2Proof.Machine.execStreamGroup p q n s
  | .streamOpen p q n => Sys2Proof.Machine.execStreamOpen p q n s
  | .streamPause p q n => Sys2Proof.Machine.execStreamPause p q n s
  | .streamResume p q n => Sys2Proof.Machine.execStreamResume p q n s
  | .streamPark p q n => Sys2Proof.Machine.execStreamPark p q n s
  | .streamReset p q n => Sys2Proof.Machine.execStreamReset p q n s
  | .streamExport p q n => Sys2Proof.Machine.execStreamExport p q n s
  | .streamImport p q n => Sys2Proof.Machine.execStreamImport p q n s
  | .streamClose p q n => Sys2Proof.Machine.execStreamClose p q n s
  | .attnStepFinish p q n flt => Sys2Proof.Machine.execAttnStepFinish p q n flt s
  | .attnStepNodes p q n flt => Sys2Proof.Machine.execAttnStepNodes p q n flt s
  | .attnStepCombine p q n flt => Sys2Proof.Machine.execAttnStepCombine p q n flt s
  | .heap p q n => Sys2Proof.Machine.execHeap p q n s
  | .seqOpen p q n => Sys2Proof.Machine.execSeqOpen p q n s
  | .seqClose p q n => Sys2Proof.Machine.execSeqClose p q n s
  | .pin p q n => Sys2Proof.Machine.execPin p q n s
  | .unpin p q n => Sys2Proof.Machine.execUnpin p q n s
  | .trim p q n => Sys2Proof.Machine.execTrim p q n s
  | .spillAcknowledged desc => Sys2Proof.Machine.execSpillAcknowledged desc s
  | .returnLanded desc poisoned => Sys2Proof.Machine.execReturnLanded desc poisoned s
  | .cisternTimeout read => Sys2Proof.Machine.execCisternTimeout read s
  | .halfWellPowerDownDone r => Sys2Proof.Machine.execHalfWellPowerDownDone r s
  | .gateTimeout r => Sys2Proof.Machine.execGateTimeout r s
  | .halfWellPowerUpDone r => Sys2Proof.Machine.execHalfWellPowerUpDone r s
  | .domainOn port pd => Sys2Proof.Machine.execDomainOn port pd s
  | .domainOff port pd => Sys2Proof.Machine.execDomainOff port pd s
  | .domainSwitchDone pd => Sys2Proof.Machine.execDomainSwitchDone pd s
  | .memoryInitDone => Sys2Proof.Machine.execMemoryInitDone s
  | .patrolScrub word => Sys2Proof.Machine.execPatrolScrub word s
  | .ondieEccPoll counts => Sys2Proof.Machine.execOndieEccPoll counts s
  | .controlStep measured volts estimate => Sys2Proof.Machine.execControlStep measured volts estimate s
  | .tempSensorRead temps => Sys2Proof.Machine.execTempSensorRead temps s
  | .thermalThrottleTick => Sys2Proof.Machine.execThermalThrottleTick s
  | .voltageSettled => Sys2Proof.Machine.execVoltageSettled s
  | .energyIntegrate => Sys2Proof.Machine.execEnergyIntegrate s
  | .hintActivate p n => Sys2Proof.Machine.execHintActivate p n s
  | .hintExpire p n => Sys2Proof.Machine.execHintExpire p n s
  | .energyLowRead port => Sys2Proof.Machine.execEnergyLowRead port s
  | .tbNowRead port => Sys2Proof.Machine.execTbNowRead port s
  | .tbRateOp port => Sys2Proof.Machine.execTbRateOp port s
  | .tbStepOp port force => Sys2Proof.Machine.execTbStepOp port force s
  | .ppsOutRise => Sys2Proof.Machine.execPpsOutRise s
  | .ppsOutFall => Sys2Proof.Machine.execPpsOutFall s
  | .ppsInEdge stamp => Sys2Proof.Machine.execPpsInEdge stamp s
  | .ppsInLost => Sys2Proof.Machine.execPpsInLost s
  | .netPortEnable port e => Sys2Proof.Machine.execNetPortEnable port e s
  | .netPortDisable port e => Sys2Proof.Machine.execNetPortDisable port e s
  | .ethLinkUp e speed => Sys2Proof.Machine.execEthLinkUp e speed s
  | .ethLinkDown e => Sys2Proof.Machine.execEthLinkDown e s
  | .ethFrameReceive e stamp fcsOk frame => Sys2Proof.Machine.execEthFrameReceive e stamp fcsOk frame s
  | .netTxProducerWrite port e timed value => Sys2Proof.Machine.execNetTxProducerWrite port e timed value s
  | .netRxProducerWrite port e value => Sys2Proof.Machine.execNetRxProducerWrite port e value s
  | .transmitStart e => Sys2Proof.Machine.execTransmitStart e s
  | .launchLate e => Sys2Proof.Machine.execLaunchLate e s
  | .stationLoad port st => Sys2Proof.Machine.execStationLoad port st s
  | .stationDisable port st => Sys2Proof.Machine.execStationDisable port st s
  | .axisLoad port ax => Sys2Proof.Machine.execAxisLoad port ax s
  | .axisDisable port ax => Sys2Proof.Machine.execAxisDisable port ax s
  | .axisTrip port ax => Sys2Proof.Machine.execAxisTrip port ax s
  | .feedbackFrame e => Sys2Proof.Machine.execFeedbackFrame e s
  | .feedbackDue st => Sys2Proof.Machine.execFeedbackDue st s
  | .frameAssembly st => Sys2Proof.Machine.execFrameAssembly st s
  | .driveFrameCompare st equal => Sys2Proof.Machine.execDriveFrameCompare st equal s
  | .faultLatchClear port => Sys2Proof.Machine.execFaultLatchClear port s
  | .axisSelftestDone pr pass0 pass1 => Sys2Proof.Machine.execAxisSelftestDone pr pass0 pass1 s
  | .cameraLoad port v => Sys2Proof.Machine.execCameraLoad port v s
  | .cameraDisable port v => Sys2Proof.Machine.execCameraDisable port v s
  | .aphyLinkUp v => Sys2Proof.Machine.execAphyLinkUp v s
  | .aphyLinkLost v => Sys2Proof.Machine.execAphyLinkLost v s
  | .frameStart v vc number stamp => Sys2Proof.Machine.execFrameStart v vc number stamp s
  | .frameEnd v vc stamp => Sys2Proof.Machine.execFrameEnd v vc stamp s
  | .csiLinePacket v vc dtype headerOk crcOk line => Sys2Proof.Machine.execCsiLinePacket v vc dtype headerOk crcOk line s
  | .frameRecordWrite v => Sys2Proof.Machine.execFrameRecordWrite v s
  | .triggerPulse v => Sys2Proof.Machine.execTriggerPulse v s
  | .triggerEnd v => Sys2Proof.Machine.execTriggerEnd v s
  | .cciTransaction port v value => Sys2Proof.Machine.execCciTransaction port v value s
  | .cciDone v ack data => Sys2Proof.Machine.execCciDone v ack data s
  | .bindingLoad port index => Sys2Proof.Machine.execBindingLoad port index s
  | .bindingClear port index => Sys2Proof.Machine.execBindingClear port index s
  | .firLoad port addr => Sys2Proof.Machine.execFirLoad port addr s
  | .audioPacket e => Sys2Proof.Machine.execAudioPacket e s
  | .tdmFrame t samples => Sys2Proof.Machine.execTdmFrame t samples s
  | .tdmFsyncLoss t => Sys2Proof.Machine.execTdmFsyncLoss t s
  | .audioChunkDue stream => Sys2Proof.Machine.execAudioChunkDue stream s
  | .pipelineLoad port pl => Sys2Proof.Machine.execPipelineLoad port pl s
  | .pipelineStop port pl => Sys2Proof.Machine.execPipelineStop port pl s
  | .jobTake pl => Sys2Proof.Machine.execJobTake pl s
  | .sampleStart pl => Sys2Proof.Machine.execSampleStart pl s
  | .budgetExceeded pl pos cycles => Sys2Proof.Machine.execBudgetExceeded pl pos cycles s
  | .sampleDone pl pos cycles => Sys2Proof.Machine.execSampleDone pl pos cycles s
  | .sampleReportRelease pl => Sys2Proof.Machine.execSampleReportRelease pl s
  | .siphonLinkUp serial count role => Sys2Proof.Machine.execSiphonLinkUp serial count role s
  | .siphonLinkDown => Sys2Proof.Machine.execSiphonLinkDown s
  | .siphonRetransmit => Sys2Proof.Machine.execSiphonRetransmit s
  | .siphonWrite m => Sys2Proof.Machine.execSiphonWrite m s
  | .siphonReadReq m => Sys2Proof.Machine.execSiphonReadReq m s
  | .siphonReadData m => Sys2Proof.Machine.execSiphonReadData m s
  | .siphonRegister m => Sys2Proof.Machine.execSiphonRegister m s
  | .siphonRegDone m => Sys2Proof.Machine.execSiphonRegDone m s
  | .siphonRelease m => Sys2Proof.Machine.execSiphonRelease m s
  | .siphonSignal m => Sys2Proof.Machine.execSiphonSignal m s
  | .siphonAck m => Sys2Proof.Machine.execSiphonAck m s
  | .siphonTime m stamp path => Sys2Proof.Machine.execSiphonTime m stamp path s
  | .siphonTimebase m => Sys2Proof.Machine.execSiphonTimebase m s
  | .siphonHeartbeat m => Sys2Proof.Machine.execSiphonHeartbeat m s
  | .siphonMirror m => Sys2Proof.Machine.execSiphonMirror m s
  | .siphonRole m => Sys2Proof.Machine.execSiphonRole m s
  | .heartbeatSend => Sys2Proof.Machine.execHeartbeatSend s
  | .partnerSilent => Sys2Proof.Machine.execPartnerSilent s
  | .alignmentRetry => Sys2Proof.Machine.execAlignmentRetry s
  | .counterLoad => Sys2Proof.Machine.execCounterLoad s
  | .pairOffsetMeasure offsets => Sys2Proof.Machine.execPairOffsetMeasure offsets s
  | .counterHold => Sys2Proof.Machine.execCounterHold s
  | .pairMismatch pr t driven => Sys2Proof.Machine.execPairMismatch pr t driven s
  | .pairSelftestDone pr pass0 pass1 testOk => Sys2Proof.Machine.execPairSelftestDone pr pass0 pass1 testOk s
  | .mirrorEnable port r partnerMaps => Sys2Proof.Machine.execMirrorEnable port r partnerMaps s
  | .mirrorSyncDone r => Sys2Proof.Machine.execMirrorSyncDone r s
  | .debugAction c act => Sys2Proof.Machine.execDebugAction c act s
  | .smbusRead off => Sys2Proof.Machine.execSmbusRead off s
  | .measurementStart port p entries => Sys2Proof.Machine.execMeasurementStart port p entries s
  | .measurementDone p => Sys2Proof.Machine.execMeasurementDone p s
  | .stickyClear port off value => Sys2Proof.Machine.execStickyClear port off value s
  | .registerWrite port off value => Sys2Proof.Machine.execRegisterWrite port off value s
  | .pcieLinkUp port => Sys2Proof.Machine.execPcieLinkUp port s
  | .inputAbove36V => Sys2Proof.Machine.execInputAbove36V s
  | .die0StopFault => Sys2Proof.Machine.execDie0StopFault s
  | .pwrEnRiseTakesEffect => Sys2Proof.Machine.execPwrEnRiseTakesEffect s

end Sys2Proof.Machine
end

