-- ==== Sys2Proof/Machine/Tick.lean ====
section
/-! DEFINITION. One FCLK cycle with no command waiting. -/
namespace Sys2Proof.Machine

/-- What happens at the cycle in which the counter takes a new value: one op on the timebase (R393), and the sample instants that fall on it (R362). -/
def State.countReached (s : State) : State := s.tbOpGo.sampleInstants

/-- The counter after one FCLK cycle: it advances by 1 while the dividers run, or holds its value for that one cycle (R30, R311). -/
def State.nextCount (s : State) : W64 :=
  if s.sys.rails == .on && s.sys.clocked && !s.det.holdNow then s.counter + 1 else s.counter

/-- Cycles in which a pump operation waits for the mirror queue (R420). -/
def State.countStalls (s : State) : State :=
  if s.ops.any s.mirrorStalls then { s with sph := { s.sph with mirrorStalls := satAdd 24 s.sph.mirrorStalls 1 } } else s

/-- Units that write through pump operations of their own (R328, R345). -/
def ioUnits : List IoUnit := (allFin 24).map IoUnit.cam ++ (allFin 16).map IoUnit.pipe

/-- The core whose full entries such a unit waits for (R120). -/
def State.ioStalls (s : State) (u : IoUnit) : Option CoreId :=
  let full := fun (q : PartId) => if s.ioFull q then some (s.lowCore q) else none
  match s.ioJobs u with
  | .put q _ _ :: _ => full q
  | .late q _ _ :: _ => if s.ioBusy u then none else full q
  | .record q _ _ _ :: _ => if s.ioBusy u then none else full q
  | .signal _ _ :: _ => none
  | [] => none

/-- The cores for whose entries something waits: a PUMP, a FILL or COPY, a first/last-layer engine, a camera port, a
pipeline (R116, R120, R239, R328, R345). -/
def State.stalledCores (s : State) : List CoreId :=
  (s.cmds.filterMap fun c =>
    if s.pumpStalls c then some c.pumpCore else if s.fleStalls c then some (s.lowCore c.part) else if c.life == .waiting then s.entryWaits c else none) ++
  ioUnits.filterMap s.ioStalls

/-- PMP_CNT.entry_stalls of each cluster in which something waits for an entry in this cycle (Table WEL-13). -/
def State.entryStalls (s : State) : State :=
  let cs := s.stalledCores
  if cs.isEmpty then s
  else
    let waits := fun (k : ClusId) => cs.any fun n => clusOfCore n == k
    let stalls := Vector.ofFn fun (k : ClusId) => if waits k then satAdd 16 s.cnts.pmpStalls[k] 1 else s.cnts.pmpStalls[k]
    { s with cnts := { s.cnts with pmpStalls := stalls } }

/-- What camera ports and pipelines have to write goes on as entries become free (R328, R345). -/
def State.iosGo (s : State) : State := ioUnits.foldl (fun (t : State) u => t.ioAll u) s

/-- Engine reads that lose a cycle to another engine of their core (R195): with two engine commands or more in flight on it, up to 4 in the two ACLK cycles
of an FCLK cycle, and how many is open (log entry 204). -/
def State.bankStalls (s : State) : State :=
  if (allFin 32).any (fun n => 2 ≤ s.engineEntries n) then
    let lost := fun (n : CoreId) => if 2 ≤ s.engineEntries n then Config.freeVal (s.fresh + n.val) % 5 else 0
    { s with cnts := { s.cnts with stallA := Vector.ofFn fun (n : CoreId) => s.cnts.stallA[n] + lost n }, fresh := s.fresh + 32 }
  else s

/-- What one FCLK cycle does (R22, R30, R311; log entry 17): the counter and the ACLK frame, what may happen once in a cycle, what waits for an entry or a
count, the registrations of the partner that have become free, and the regions and windows that have drained. -/
def State.cycle (s : State) : State :=
  if s.sys.rails == .on && s.sys.clocked then
    let t := { s with
      counter := s.nextCount
      det := { s.det with holdNow := false }
      v1Raised := false
      setNow := .replicate 59 0
      issuedNow := [] }
    let u := if t.counter = s.counter then t else t.countReached
    (u.aclkTick.twinsTick.nextExchange.entryStalls.bankStalls.iosGo.regSweep.countStalls).drained
  else { s with setNow := .replicate 59 0, v1Raised := false, issuedNow := [] }

/-- One FCLK cycle, with the log entries and the vector of the sticky bits it sets (R41, R458, R460). -/
def tick (s : State) : State := settle s s.cycle

end Sys2Proof.Machine
end

