-- ==== Sys2Proof/Safety.lean ====
section
/-! DEFINITION. What a safe run is: no step stops, and every state keeps the canonical form of memory; and the terms in which the statements are made. -/
namespace Sys2Proof.Machine

/-- A port without the pending bits of its MSI-X table. -/
def HostPort.still (h : HostPort) : HostPort := { h with msix := h.msix.map fun e => { e with pending := false } }

/-- A state without what every command may add beside its own effect: event log entries, MSI-X pending bits, and what has left the module (R41, R458,
R460). Two states with the same still part agree in every register, counter, queue and buffer, and in every byte of memory. -/
def State.still (s : State) : State :=
  { s with
    trb := { s.trb with log := [], logNext := 0 }
    ports := s.ports.map HostPort.still
    out := []
    v1Raised := false }

/-- A slot is free: neither BUSY nor DONE (R42). -/
def State.slotFree (s : State) (p : Port) (i : SlotId) : Bool := !(s.slot p i).busy && !(s.slot p i).done

end Sys2Proof.Machine

namespace Sys2Proof.Safety

open Sys2Proof.Machine

/-- The outcome of a step is a next state. -/
def goesOn (o : Host.Outcome State Fault Refusal) : Bool :=
  match o with
  | .next _ => true
  | .fault _ => false
  | .refused _ => false

/-- The invariant of module memory and of the hosts' memories: canonical form (INVENTORY.md, State, mem and hostMem). -/
def MemInv (s : State) : Prop := Memory.wf s = true ∧ ∀ p : Port, cellsWf s.hostMem[p.idx] = true

/-- A step is safe: it goes on, and to a state whose memory is canonical. -/
def SafeStep (s : State) : Prop := ∃ t, step s = .next t ∧ MemInv t

/-- A command ends in a state whose still part is that of `u`: the effect on everything but the event log, the MSI-X pending bits and what has left the
module is that of `u`. -/
def Gives (c : Instr) (s u : State) : Prop := ∃ t, exec c s = .next t ∧ t.still = u.still

/-- Something left the module between two states; only messages of vectors may have left after it. -/
def Emits (s t : State) (o : Out) : Prop := ∃ l, t.out = l ++ o :: s.out ∧ ∀ x ∈ l, ∃ p v a d, x = .msix p v a d

/-- A command ends in a next state of which `P` holds. -/
def Leads (c : Instr) (s : State) (P : State → Prop) : Prop := ∃ t, exec c s = .next t ∧ P t

/-! ## Mailbox requests (Tables MBX-6 to MBX-9) -/

/-- Slot `i` of a port holds a request of an opcode that may run now and passes the checks common to every message (R44, R45, R47): Goride is ready,
the payload has a length of the catalogue, the reserved header bytes are zero, the partition in the header is one that the message may name, and the port is
attached or the message does not need it. -/
def Asks (s : State) (p : Port) (i : SlotId) (opcode : Nat) (need : Need) : Prop :=
  s.mailRuns p i opcode = true ∧ (s.slot p i).started = false ∧ (s.slot p i).orphaned = false ∧ s.sys.fwState = 3 ∧
  (∃ lo hi, (opcode, lo, hi) ∈ catalogue ∧ lo ≤ (s.slot p i).len ∧ (s.slot p i).len ≤ hi) ∧
  nonzeroAt (s.slot p i).req 10 6 = [] ∧ s.partBad p (s.slot p i) need = [] ∧
  ((s.port p).attached = true ∨ opcode = 1 ∨ opcode = 2 ∨ opcode = 0x43)

/-- The slot is DONE with a response of status `st`, ST_BAD_COMMAND reason and offset, and payload, to the request that stood in it (Table MBX-7, R43). -/
def Answered (t : State) (p : Port) (i : SlotId) (x : Slot) (st : St) (reason off : Nat) (payload : List Byte) : Prop :=
  (t.slot p i).busy = false ∧ (t.slot p i).done = true ∧
  (t.slot p i).resp = bytesAt ((leBytes 2 x.opcode ++ leBytes 2 payload.length ++ leBytes 4 x.tag ++ leBytes 2 st.code ++ repByte 2 0 ++
    leBytes 2 reason ++ leBytes 2 off) ++ payload) 0 512

/-- The slot is DONE with ST_OK and a payload. -/
def AnsweredOk (t : State) (p : Port) (i : SlotId) (x : Slot) (payload : List Byte) : Prop := Answered t p i x .ok 0 0xFFFF payload

/-! ## Frames -/

/-- What no command that computes or moves data touches: everything but the commands, the counters, the sticky registers, the operations of the pumps, memory
and its marks, and the messages to the Siphon partner. -/
def Unmoved (s t : State) : Prop :=
  t.sys = s.sys ∧ t.counter = s.counter ∧ t.sems = s.sems ∧ t.reqs = s.reqs ∧ t.regions = s.regions ∧ t.windows = s.windows ∧ t.fence = s.fence ∧
  t.det = s.det ∧ t.cams = s.cams ∧ t.bindings = s.bindings ∧ t.pipes = s.pipes ∧ t.axes = s.axes ∧ t.stations = s.stations ∧ t.tb = s.tb ∧
  t.eth = s.eth ∧ t.pm = s.pm ∧ t.pdOn = s.pdOn ∧ t.pairs = s.pairs ∧ t.mirrors = s.mirrors ∧
  (∀ (p : Port) (i : SlotId), t.slot p i = s.slot p i) ∧
  ∀ p : PartId, t.parts[p].state = s.parts[p].state ∧ t.parts[p].owner = s.parts[p].owner ∧ t.parts[p].cores = s.parts[p].cores ∧
    t.parts[p].epoch = s.parts[p].epoch ∧ t.parts[p].sigs = s.parts[p].sigs ∧ t.parts[p].queues = s.parts[p].queues

/-- The streams, the heaps and the sequences with their pages stay. -/
def StoresStay (s t : State) : Prop :=
  t.streams = s.streams ∧ t.groups = s.groups ∧ t.heaps = s.heaps ∧ t.seqs = s.seqs ∧ t.spills = s.spills ∧ t.returns = s.returns

/-- Every byte of module memory that has contents reads as before (R136: what an UNFILLED part gives is undefined). -/
def MemStays (s t : State) : Prop := ∀ a, s.unfilled a 1 = false → t.byteAt a = s.byteAt a

/-- The same of every byte outside `[lo, lo + n)`. -/
def MemStaysBut (s t : State) (lo n : Nat) : Prop := ∀ a, ¬ (lo ≤ a ∧ a < lo + n) → s.unfilled a 1 = false → t.byteAt a = s.byteAt a

/-- `n` bytes from `lo` on read as the bytes of a string, where there are contents. -/
def Holds (t : State) (lo : Nat) (bs : List Byte) : Prop := ∀ i, i < bs.length → t.unfilled (lo + i) 1 = false → t.byteAt (lo + i) = bs.getD i 0

/-- A bit of a sticky register is set, where its die is there (R486). -/
def Flagged (t : State) (k : Sticky) (bit : Nat) : Prop := t.diePresent k.die = true → (t.err k).getLsbD bit = true

/-- An operation in flight reaches main memory, a well or a pool at every address of a range. -/
def InRam (s : State) (a len : Nat) : Prop :=
  ∀ i, i < len → s.reach (a + i) = .main ∨ (∃ n f, s.reach (a + i) = .well n f) ∨ ∃ c f, s.reach (a + i) = .pool c f

/-! ## Commands of the partitions (R171, R185, R191) -/

/-- The status with which a command ends now when it has met further conditions: that of R9 of the conditions it met and of those, with ST_LATE
when its deadline has passed (R177). -/
def endStatus (s : State) (c : Cmd) (more : List St) : St :=
  St.choose (c.conds ++ more ++ match c.deadline with
    | some d => if d < s.now then [St.late] else []
    | none => [])

/-- A command has ended with a record of a status (R185). Where its queue has room, the command has left the machine, and the record is the last of
those that wait to be written there; else the command stays with it (R169). -/
def Ended (s t : State) (c : Cmd) (st : St) : Prop :=
  ∃ r : Record, r.seq = c.seq ∧ r.status = st ∧ r.tag = c.tag ∧ r.opcode = BitVec.ofNat 8 c.opcode ∧ r.stamp = s.now ∧
    if (s.queue c.part c.que).hasRoom = true then
      (∀ d ∈ t.cmds, d.adm ≠ c.adm) ∧ (t.queue c.part c.que).waiting = (s.queue c.part c.que).waiting ++ [r]
    else (t.queue c.part c.que).waiting = (s.queue c.part c.que).waiting ∧ ∃ d ∈ t.cmds, d.adm = c.adm ∧ d.life = .ended ∧ d.records = c.records ++ [r]

/-- A command's effect is done: it is in the table, and waits for its completion. -/
def Ran (t : State) (c : Cmd) : Prop := ∃ d ∈ t.cmds, d.adm = c.adm ∧ d.life = .ran ∧ d.desc = c.desc ∧ d.place = c.place

/-- The same, with conditions met. -/
def RanWith (t : State) (c : Cmd) (sts : List St) : Prop :=
  ∃ d ∈ t.cmds, d.adm = c.adm ∧ d.life = .ran ∧ d.desc = c.desc ∧ d.place = c.place ∧ d.conds = c.conds ++ sts.filter (· != .ok)

/-- A command of a queue with a sequence number that is of a kind and may run now: it has issued, its launch count has come, nothing stops it, and no command
of its unit goes before it (R175, R178, R194). -/
def Runs (s : State) (p : PartId) (q : QueId) (n : Nat) (k : CmdKind) (c : Cmd) : Prop :=
  s.findCmd p q n = some c ∧ c.kind = k ∧ s.mayRun c = true

/-! ## Messages of the Siphon partner (R416, R417) -/

/-- A message arrives in its turn over an UP link with every field as it should be, and none has come ahead of it. -/
def InTurn (s : State) (type : Nat) (m : Msg) : Prop :=
  s.sph.link = 2 ∧ headerOk type m = true ∧ m.seq = s.sph.rxSeq ∧ s.sph.rxAhead = []

/-- A message of a type with an argument waits to be received by the partner. -/
def Sent (t : State) (type arg : Nat) : Prop := ∃ x ∈ t.sph.replay, x.type = type ∧ x.msg.arg = BitVec.ofNat 64 arg

/-- The argument of an ACK of a message (Table PRG-7). -/
def ackArg (m : Msg) (st : St) : Nat := st.code + m.seq.toNat * 2 ^ 32

end Sys2Proof.Safety
end

