-- ==== Sys2Proof/Certificates/Slice0/Obligations.lean ====
section
/-! DEFINITION. The statements for the provers. -/

open Sys2Proof Sys2Proof.Machine Sys2Proof.Safety

/-- Pins and supply (R441, R470, R478 to R481). Each clause gives the whole next state. PWR_EN_RISE on an unpowered module starts the converters and lifts the
lockout when PWR_EN was low for 10 ms; a shorter low with no lockout waits, and one with the lockout only raises the pin; on a powered module it only raises
the pin, and with the pin high already it changes nothing. PWR_EN_RISE_TAKES_EFFECT starts the converters for a rise that waited, and changes nothing
otherwise. INPUT_RISE_35V with PWR_EN high and the rails off starts them and lifts the lockout, and changes nothing otherwise. RAILS_IN_REGULATION turns rails
that start on, and changes nothing otherwise. RST_N_RELEASE raises RST_N. INPUT_LOW of a powered module whose input was not low sets input_low and PWR_ERR bit
4, and changes nothing otherwise. INPUT_ABOVE_36V clears input_low. Turning off and resetting (R423, R437, R440, R470, R479, R480), each clause with the whole
next state. PWR_EN low for 100 µs, and an undervoltage of a powered module, turn every converter off: every field takes its reset value but the pins PWR_EN,
RST_N and PERST, the flash, the hosts' memories, the queue of commands and the free draws, and the lockout, which the undervoltage sets; a shorter low of
PWR_EN changes nothing. RST_N low for 1 µs of a powered module gives every field its reset value but those, the input's level and the energy count; of an
unpowered one it only lowers the pin; below 100 ns it changes nothing, and between the two it does the one or the other. A fault that stops die 0 of a powered
module sends a last gasp and stops the counter and the boot; the undervoltage sends one too. It rests on choices of the model: log entries 63 and 64. -/
def Obligations.TheModuleFollowsItsSupply : Prop :=
  ((∀ (s : State) (ms : Nat), s.sys.pwrEn = true → Gives (.pwrEnRise ms) s s) ∧
  (∀ (s : State) (ms : Nat), s.sys.pwrEn = false → s.sys.rails ≠ .off →
    Gives (.pwrEnRise ms) s { s with sys := { s.sys with pwrEn := true } }) ∧
  (∀ (s : State) (ms : Nat), s.sys.pwrEn = false → s.sys.rails = .off → 10 ≤ ms →
    Gives (.pwrEnRise ms) s { s with sys := { s.sys with pwrEn := true, rails := .starting, lockout := false } }) ∧
  (∀ (s : State) (ms : Nat), s.sys.pwrEn = false → s.sys.rails = .off → ms < 10 →
    Gives (.pwrEnRise ms) s { s with sys := { s.sys with pwrEn := true, riseWaits := s.sys.riseWaits || !s.sys.lockout } }) ∧
  (∀ (s : State), s.sys.riseWaits = true → s.sys.pwrEn = true → s.sys.rails = .off →
    Gives .pwrEnRiseTakesEffect s { s with sys := { s.sys with riseWaits := false, rails := .starting } }) ∧
  (∀ (s : State), ¬ (s.sys.riseWaits = true ∧ s.sys.pwrEn = true ∧ s.sys.rails = .off) → Gives .pwrEnRiseTakesEffect s s) ∧
  (∀ (s : State), s.sys.pwrEn = true → s.sys.rails = .off →
    Gives .inputRise35V s { s with sys := { s.sys with rails := .starting, lockout := false, riseWaits := false } }) ∧
  (∀ (s : State), ¬ (s.sys.pwrEn = true ∧ s.sys.rails = .off) → Gives .inputRise35V s s) ∧
  (∀ (s : State), Gives .railsInRegulation s (if s.sys.rails = .starting then { s with sys := { s.sys with rails := .on } } else s)) ∧
  (∀ (s : State), Gives .rstNRelease s { s with sys := { s.sys with rstN := true } }) ∧
  (∀ (s : State), s.sys.rails = .on → s.sys.inputLow = false →
    Gives .inputLow s ({ s with sys := { s.sys with inputLow := true } }.flag .pwr 4)) ∧
  (∀ (s : State), ¬ (s.sys.rails = .on ∧ s.sys.inputLow = false) → Gives .inputLow s s) ∧
  (∀ (s : State), Gives .inputAbove36V s { s with sys := { s.sys with inputLow := false } })) ∧
  (let kept : State → State → State := fun s u => { u with
    trb := { u.trb with flash := s.trb.flash }, hostMem := s.hostMem, hostErr := s.hostErr, pending := s.pending, out := s.out, fresh := s.fresh
    ports := #v[{ State.reset.port .a with perst := (s.port .a).perst }, { State.reset.port .b with perst := (s.port .b).perst }] }
  let off : State → Bool → Bool → State := fun s en lock => kept s { State.reset with
    sys := { State.reset.sys with rails := .off, pwrEn := en, rstN := s.sys.rstN, lockout := lock } }
  let rst : State → State := fun s => kept s { State.reset with
    sys := { State.reset.sys with pwrEn := s.sys.pwrEn, rstN := false, inputLow := s.sys.inputLow }
    pm := { State.reset.pm with energy := s.pm.energy, energyFrac := s.pm.energyFrac } }
  let low : State → State := fun s => if s.sys.rails = .on then rst s else { s with sys := { s.sys with rstN := false } }
  (∀ (s : State) (us : Nat), Gives (.pwrEnFall us) s (if us < 100 then s else off s false s.sys.lockout)) ∧
  (∀ (s : State), s.sys.rails ≠ .off → Gives .undervoltageLockout s (off s s.sys.pwrEn true)) ∧
  (∀ (s : State), s.sys.rails = .off → Gives .undervoltageLockout s s) ∧
  (∀ (s : State) (ns : Nat), 1000 ≤ ns → Gives (.rstNAssert ns) s (low s)) ∧
  (∀ (s : State) (ns : Nat), ns < 100 → Gives (.rstNAssert ns) s s) ∧
  (∀ (s : State) (ns : Nat), 100 ≤ ns → ns < 1000 →
    Gives (.rstNAssert ns) s { s with fresh := s.fresh + 1 } ∨ Gives (.rstNAssert ns) s (low { s with fresh := s.fresh + 1 })) ∧
  (∀ (s : State), s.sys.rails = .on → Gives .die0StopFault s { s.lastGasp with sys := { s.sys with boot := .stopped, clocked := false } }) ∧
  (∀ (s : State), s.sys.rails ≠ .on → Gives .die0StopFault s s) ∧
  (∀ (s : State) (c : Instr), (c = .die0StopFault ∧ s.sys.rails = .on) ∨ (c = .undervoltageLockout ∧ s.sys.rails ≠ .off) →
    Leads c s fun t => ∃ l, t.out = l ++ s.lastGasp.out))

/-- Semaphores (R52, R54), accessed through ports that an access reaches: an acquire of a free semaphore by one port gives it to that port with the written
tag; two acquires of a free semaphore in one cycle are decided by its priority, which flips; acquires of a held one have no effect; a release by the holder
with the holder's tag frees it and clears broken; any other release sets sem_misuse (bit 2 of MBX_ERR) and has no other effect. An acquire through a port that
no access reaches counts as none, and such a release changes nothing. It rests on a choice of the model: log entry 211. -/
def Obligations.SemaphoresFollowTheirRules : Prop :=
  (∀ (s : State) (k : SemId) (t : W16), s.sems[k].held = false →
    (s.reached .a = true → Gives (.semAcquire k (some t) none) s { s with sems := s.sems.set k { s.sems[k] with held := true, owner := .a, tag := t } }) ∧
    (s.reached .b = true → Gives (.semAcquire k none (some t)) s { s with sems := s.sems.set k { s.sems[k] with held := true, owner := .b, tag := t } })) ∧
  (∀ (s : State) (k : SemId) (t u : W16), s.sems[k].held = false → s.reached .a = true → s.reached .b = true →
    Gives (.semAcquire k (some t) (some u)) s { s with sems := s.sems.set k { s.sems[k] with
      held := true, owner := s.sems[k].favours, tag := if s.sems[k].favours = .a then t else u, favours := s.sems[k].favours.other } }) ∧
  (∀ (s : State) (k : SemId) (a b : Option W16), s.sems[k].held = true → Gives (.semAcquire k a b) s s) ∧
  (∀ (s : State) (k : SemId) (a b : Option W16), (s.reached .a = false → exec (.semAcquire k a b) s = exec (.semAcquire k none b) s) ∧
    (s.reached .b = false → exec (.semAcquire k a b) s = exec (.semAcquire k a none) s) ∧ Gives (.semAcquire k none none) s s) ∧
  (∀ (s : State) (p : Port) (k : SemId) (t : W16), s.reached p = true → s.sems[k].held = true → s.sems[k].owner = p → s.sems[k].tag = t →
    Gives (.semRelease p k t) s { s with sems := s.sems.set k { s.sems[k] with held := false, broken := false } }) ∧
  (∀ (s : State) (p : Port) (k : SemId) (t : W16), s.reached p = true → ¬ (s.sems[k].held = true ∧ s.sems[k].owner = p ∧ s.sems[k].tag = t) →
    Gives (.semRelease p k t) s (s.flag .mbx 2)) ∧
  (∀ (s : State) (p : Port) (k : SemId) (t : W16), s.reached p = false → Gives (.semRelease p k t) s s)

/-- Doorbells and completion-ring pointers (R58, R166, R169), through a port that an access reaches: a doorbell by the owner of a queue with a command ring,
that moves the producer forward and no more than the ring size ahead of the fetched count, sets the producer count (and ends the wait of an adopted partition,
R57); every other doorbell changes nothing and sets doorbell_foreign or doorbell_range. A consumer write by the owner between the old consumer and the
producer sets it; one outside sets cons_range (bit 5 of the PAR_ERR of the partition's die); one by another port sets doorbell_foreign. Through a port that no
access reaches neither changes anything. Completion records (R56, R169, R186): the oldest waiting record of a queue whose completion ring has room is written
to slot n mod entries with its generation bit, n being MBX_CR_PROD, which then advances by one; it leaves the waiting records, behind which at most one record
comes that a command of the queue has held back for want of room; with none held back the commands stay. Other partitions, the semaphores and what lies
outside the ring stay. A record of an ORPHANED partition bound for host memory is dropped and counted instead, and records_dropped (bit 10 of MBX_ERR) is set.
With no record waiting, no ring, or no room nothing changes. It rests on a choice of the model: log entry 211. -/
def Obligations.QueuePointersMoveOnlyForward : Prop :=
  ((∀ (s : State) (p : Port) (r : PartId) (q : QueId) (v : W32), s.reached p = true → s.owns p r = false →
    Gives (.queueDoorbell p r q v) s (s.flag .mbx 3) ∧ Gives (.crConsumerWrite p r q v) s (s.flag .mbx 3)) ∧
  (∀ (s : State) (p : Port) (r : PartId) (q : QueId) (v : W32), s.reached p = true → s.owns p r = true → (s.queue r q).cring = none →
    Gives (.queueDoorbell p r q v) s (s.flag .mbx 4)) ∧
  (∀ (s : State) (p : Port) (r : PartId) (q : QueId) (v : W32) (ring : Ring), s.reached p = true → s.owns p r = true → (s.queue r q).cring = some ring →
    (v - (s.queue r q).prod).toNat < 2 ^ 31 → (v - (s.queue r q).fetched).toNat ≤ ring.entries →
    Gives (.queueDoorbell p r q v) s (s.setPart r { s.parts[r] with
      queues := s.parts[r].queues.set q { s.queue r q with prod := v }, waitsBell := false })) ∧
  (∀ (s : State) (p : Port) (r : PartId) (q : QueId) (v : W32) (ring : Ring), s.reached p = true → s.owns p r = true → (s.queue r q).cring = some ring →
    ¬ ((v - (s.queue r q).prod).toNat < 2 ^ 31 ∧ (v - (s.queue r q).fetched).toNat ≤ ring.entries) →
    Gives (.queueDoorbell p r q v) s (s.flag .mbx 4)) ∧
  (∀ (s : State) (p : Port) (r : PartId) (q : QueId) (v : W32), s.reached p = true → s.owns p r = true →
    (v - (s.queue r q).crCons).toNat ≤ ((s.queue r q).crProd - (s.queue r q).crCons).toNat →
    Gives (.crConsumerWrite p r q v) s (s.setQueue r q { s.queue r q with crCons := v })) ∧
  (∀ (s : State) (p : Port) (r : PartId) (q : QueId) (v : W32), s.reached p = true → s.owns p r = true →
    ((s.queue r q).crProd - (s.queue r q).crCons).toNat < (v - (s.queue r q).crCons).toNat →
    Gives (.crConsumerWrite p r q v) s (s.flag (.par s.parts[r].die) 5)) ∧
  (∀ (s : State) (p : Port) (r : PartId) (q : QueId) (v : W32), s.reached p = false →
    Gives (.queueDoorbell p r q v) s s ∧ Gives (.crConsumerWrite p r q v) s s)) ∧
  ((∀ (s : State) (p : PartId) (q : QueId) (r : Record) (rest : List Record) (ring : Ring),
    (s.queue p q).waiting = r :: rest → (s.queue p q).rring = some ring → (ring.host = true → s.parts[p].state ≠ .orphaned) →
    ((s.queue p q).crProd - (s.queue p q).crCons).toNat < ring.entries →
    Leads (.completionRecordWrite p q) s fun t =>
      (∃ k more, t.queue p q = { s.queue p q with waiting := rest ++ more, crProd := (s.queue p q).crProd + 1, sinceIrq := k } ∧ more.length ≤ 1 ∧
        ((∀ c ∈ s.cmds, c.part = p → c.que = q → c.records = []) → more = [] ∧ t.cmds = s.cmds)) ∧
      let w := s.ringWrite p ring (32 * ((s.queue p q).crProd.toNat % ring.entries))
        (r.bytes ((s.queue p q).crProd.toNat / ring.entries % 2 = 0))
      t.mem = w.mem ∧ t.hostMem = w.hostMem ∧ t.sems = s.sems ∧ ∀ o : PartId, o ≠ p → t.parts[o] = s.parts[o]) ∧
  (∀ (s : State) (p : PartId) (q : QueId) (r : Record) (rest : List Record) (ring : Ring),
    (s.queue p q).waiting = r :: rest → (s.queue p q).rring = some ring → ring.host = true → s.parts[p].state = .orphaned →
    Leads (.completionRecordWrite p q) s fun t =>
      (∃ more, t.queue p q = { s.queue p q with waiting := rest ++ more, dropped := min ((s.queue p q).dropped + 1) 65535 } ∧ more.length ≤ 1 ∧
        ((∀ c ∈ s.cmds, c.part = p → c.que = q → c.records = []) → more = [] ∧ t.cmds = s.cmds)) ∧
      (t.err .mbx).getLsbD 10 = true ∧ t.mem = s.mem ∧ t.hostMem = s.hostMem ∧ t.sems = s.sems ∧ ∀ o : PartId, o ≠ p → t.parts[o] = s.parts[o]) ∧
  (∀ (s : State) (p : PartId) (q : QueId), ((s.queue p q).waiting = [] ∨ (s.queue p q).rring = none ∨
      ∃ ring, (s.queue p q).rring = some ring ∧ (ring.host = true → s.parts[p].state ≠ .orphaned) ∧
        ring.entries ≤ ((s.queue p q).crProd - (s.queue p q).crCons).toNat) →
    Gives (.completionRecordWrite p q) s s))

/-- A poisoned write TLP that reaches a port is dropped and changes nothing, and AER reports it; a BAR0 access that is not 4 or 8 bytes, or not naturally
aligned, changes nothing, completes as an unsupported request, and AER reports it (R36). What leaves the module is that and nothing else, and what changes is
the port's record of errors that AER reported. It rests on a choice of the model: log entry 211. -/
def Obligations.BadTlpsChangeNothing : Prop :=
  (∀ (s : State) (p : Port), s.reached p = true → Leads (.poisonedTlpWrite p) s fun t =>
    t = { s.setPort p { s.port p with aer := if (s.port p).aer.contains .poisonedTlp then (s.port p).aer else .poisonedTlp :: (s.port p).aer } with
      out := .aer p .poisonedTlp :: s.out }) ∧
  (∀ (s : State) (p : Port) (off size : Nat), s.reached p = true → ¬ ((size = 4 ∨ size = 8) ∧ off % size = 0) →
    Leads (.bar0BadAccess p off size) s fun t =>
      t = { s.setPort p { s.port p with
          aer := if (s.port p).aer.contains .unsupportedRequest then (s.port p).aer else .unsupportedRequest :: (s.port p).aer } with
        out := .aer p .unsupportedRequest :: .unsupported p :: s.out }) ∧
  (∀ (s : State) (p : Port), s.reached p = false → Gives (.poisonedTlpWrite p) s s ∧ ∀ off size, Gives (.bar0BadAccess p off size) s s)

/-- BAR2 reads (R28, R34, R39, R40, R135, R148, R187, R402), through a port that an access reaches, within one 4-byte unit: a unit that a running command owns
gives all ones, and early_read of each die that holds an owning queue is set; a unit that no command owns gives the stored bytes of initialised main memory
and of a half-well or pool that is ON or UNFILLED; zeros of one that is in another state; zeros, with PRG_ERR bit 5, of a checker's; the host's own bytes
through a cistern region of the port; and zeros, with MEM_ERR.unmapped of the die that carries the port, of a region of the other port and of an unmapped
address; zeros, with MEM_ERR bit 5, of main memory before its initialisation. No read changes memory, a partition or a command. A read of a remote window over
an UP link is sent to the partner and waits; over any other it gives zeros. BAR2 writes within one 4 KiB page (R28, R34, R40, R135, R148, R402), through a
port that an access reaches: a write to initialised main memory stores the bytes at the address that BAR2 gives; a write of whole words to a half-well or pool
that is ON stores them; one that does not cover whole words is dropped and sets bar2_partial; one to a part that is closing or off is dropped and sets
WEL_ERR.window_closed of its cluster; one to a checker's cluster is dropped and sets PRG_ERR bit 5; a cistern region of the port passes the bytes to the
host's memory, and one of the other port is as unmapped; a remote window sends them to the partner; a write to main memory before its initialisation, or to an
unmapped address, is dropped with its MEM_ERR bit. It rests on choices of the model: log entries 128, 211 and 228. -/
def Obligations.Bar2ReachesModuleMemory : Prop :=
  ((∀ (s : State) (p : Port) (off len : Nat), s.reached p = true → 0 < len → len ≤ 4 - s.bar2Addr p off % 4 → s.windowPieces (s.bar2Addr p off) len = [] →
    (∀ i, i < len → s.ownedAt (s.bar2Addr p off + i) = true) →
    Leads (.bar2Read p off len) s fun t => Emits s t (.readData (some p) (repByte len 0xFF)) ∧
      (∀ d ∈ s.ownerDies (s.bar2Addr p off / 4 * 4) 4, Flagged t (.par d) 3) ∧ t.mem = s.mem ∧ t.parts = s.parts ∧ t.cmds = s.cmds) ∧
  (∀ (s : State) (p : Port) (off len : Nat), s.reached p = true → 0 < len → len ≤ 4 - s.bar2Addr p off % 4 → s.windowPieces (s.bar2Addr p off) len = [] →
    (∀ i, i < len → s.ownedAt (s.bar2Addr p off + i) = false) →
    let a := s.bar2Addr p off
    let answers := fun (bs : List Byte) => Leads (.bar2Read p off len) s fun t =>
      Emits s t (.readData (some p) bs) ∧ t.mem = s.mem ∧ t.undef = s.undef ∧ t.parts = s.parts ∧ t.cmds = s.cmds
    let zeros := fun (u : State) => Leads (.bar2Read p off len) s fun t => Emits s t (.readData (some p) (repByte len 0)) ∧ t.still = u.still
    (s.locOf a = .main → s.sys.initDone = true → answers (s.bytes a len)) ∧
    (s.locOf a = .main → s.sys.initDone = false → zeros (s.flag (.mem (s.memDie a)) 5)) ∧
    (∀ n o, s.locOf a = .well n o → s.isChecker (clusOfCore n) = true → zeros (s.flag .prg 5)) ∧
    (∀ n o, s.locOf a = .well n o → s.isChecker (clusOfCore n) = false → (s.hw[halfOf n o].st = .on ∨ s.hw[halfOf n o].st = .unfilled) → answers (s.bytes a len)) ∧
    (∀ n o, s.locOf a = .well n o → s.isChecker (clusOfCore n) = false → ¬ (s.hw[halfOf n o].st = .on ∨ s.hw[halfOf n o].st = .unfilled) → zeros s) ∧
    (∀ c o, s.locOf a = .pool c o → s.isChecker c = true → zeros (s.flag .prg 5)) ∧
    (∀ c o, s.locOf a = .pool c o → s.isChecker c = false → (s.pools[c].st = .on ∨ s.pools[c].st = .unfilled) → answers (s.bytes a len)) ∧
    (∀ c o, s.locOf a = .pool c o → s.isChecker c = false → ¬ (s.pools[c].st = .on ∨ s.pools[c].st = .unfilled) → zeros s) ∧
    (∀ r, s.locOf a = .cistern r → r.port = p → answers (s.hostLoad r.port (r.host + (a - r.loc)) len)) ∧
    (∀ r, s.locOf a = .cistern r → r.port ≠ p → zeros (s.flag (.mem (dieOfPort p)) 0)) ∧
    (s.locOf a = .unmapped → zeros (s.flag (.mem (dieOfPort p)) 0))) ∧
  (∀ (s : State) (p : Port) (off len : Nat) (w : Window), s.reached p = true → 0 < len → len ≤ 4 - s.bar2Addr p off % 4 →
    s.locOf (s.bar2Addr p off) = .window w → (∀ i, i < len → s.ownedAt (s.bar2Addr p off + i) = false) →
    (s.sph.link = 2 → s.sph.txDark = false → s.windowPieces (s.bar2Addr p off) len = [(w, s.bar2Addr p off, len)] →
      Leads (.bar2Read p off len) s fun t => t.sph.txSeq = s.sph.txSeq + 1 ∧ t.mem = s.mem ∧ t.errs = s.errs ∧
        t.bar2Reads = s.bar2Reads ++ [⟨p, repByte len 0, List.replicate len false, [(s.sph.txSeq, 0)]⟩] ∧
        ∃ x ∈ t.sph.replay, x.type = 0x02 ∧ x.msg.seq = s.sph.txSeq ∧ x.msg.addr = BitVec.ofNat 40 (w.remote + (s.bar2Addr p off - w.loc)) ∧
          x.msg.window = w.id ∧ x.msg.arg = BitVec.ofNat 64 len) ∧
    ((s.sph.link ≠ 2 ∨ s.sph.txDark = true) → Leads (.bar2Read p off len) s fun t =>
      Emits s t (.readData (some p) (repByte len 0)) ∧ t.still = s.still)) ∧
  (∀ (s : State) (p : Port) (off len : Nat), s.reached p = false → Gives (.bar2Read p off len) s s)) ∧
  ((∀ (s : State) (p : Port) (off : Nat) (data : List Byte), s.reached p = true → 0 < data.length → data.length ≤ 4096 - s.bar2Addr p off % 4096 →
    s.locOf (s.bar2Addr p off) = .main →
    Gives (.bar2Write p off data) s (if s.sys.initDone then s.storeB (s.bar2Addr p off) data else s.flag (.mem (s.memDie (s.bar2Addr p off))) 5)) ∧
  (∀ (s : State) (p : Port) (off : Nat) (data : List Byte) (n : CoreId) (o : Nat), s.reached p = true → 0 < data.length →
    data.length ≤ 4096 - s.bar2Addr p off % 4096 → s.locOf (s.bar2Addr p off) = .well n o →
    Gives (.bar2Write p off data) s
      (if ¬ (s.bar2Addr p off % 8 = 0 ∧ data.length % 8 = 0) then s.flag .mbx 5
       else if s.isChecker (clusOfCore n) then s.flag .prg 5
       else if s.hw[halfOf n o].st = .on ∨ s.hw[halfOf n o].st = .unfilled then s.storeB (s.bar2Addr p off) data
       else s.flag (.wel (clusOfCore n)) 1)) ∧
  (∀ (s : State) (p : Port) (off : Nat) (data : List Byte) (c : ClusId) (o : Nat), s.reached p = true → 0 < data.length →
    data.length ≤ 4096 - s.bar2Addr p off % 4096 → s.locOf (s.bar2Addr p off) = .pool c o →
    Gives (.bar2Write p off data) s
      (if ¬ (s.bar2Addr p off % 8 = 0 ∧ data.length % 8 = 0) then s.flag .mbx 5
       else if s.isChecker c then s.flag .prg 5
       else if s.pools[c].st = .on ∨ s.pools[c].st = .unfilled then s.storeB (s.bar2Addr p off) data
       else s.flag (.wel c) 1)) ∧
  (∀ (s : State) (p : Port) (off : Nat) (data : List Byte) (r : Region), s.reached p = true → 0 < data.length → data.length ≤ 4096 - s.bar2Addr p off % 4096 →
    s.locOf (s.bar2Addr p off) = .cistern r →
    Gives (.bar2Write p off data) s (if r.port = p then s.cisternStore r (s.bar2Addr p off) (clean data) else s.flag (.mem (dieOfPort p)) 0)) ∧
  (∀ (s : State) (p : Port) (off : Nat) (data : List Byte) (w : Window), s.reached p = true → 0 < data.length → data.length ≤ 4096 - s.bar2Addr p off % 4096 →
    s.locOf (s.bar2Addr p off) = .window w →
    Gives (.bar2Write p off data) s (s.siphonSend 0x01 0 (w.remote + (s.bar2Addr p off - w.loc)) w.id 0 0 0 data)) ∧
  (∀ (s : State) (p : Port) (off : Nat) (data : List Byte), s.reached p = true → 0 < data.length → data.length ≤ 4096 - s.bar2Addr p off % 4096 →
    s.locOf (s.bar2Addr p off) = .unmapped →
    Gives (.bar2Write p off data) s (s.flag (.mem (dieOfPort p)) 0)) ∧
  (∀ (s : State) (p : Port) (off : Nat) (data : List Byte), s.reached p = false → Gives (.bar2Write p off data) s s))

/-- Mailbox slots (R42, R43, R47), through a port that an access reaches: a write to the request area of a slot that is not BUSY lays its bytes over the area;
while BUSY it is dropped and sets slot_write_busy; a write to the response area is ignored. A ring makes every free slot that it names BUSY and puts it behind
the waiting requests, in rising order, while no request is of an opcode or mode set that does not exist; one that names a slot that is not free sets
ring_refused and leaves that slot as it is; in state 4 every ring is refused (R45). A request of an opcode or mode set that does not exist, rung alone, is
answered at once. A write of 1 to DONE bits frees those slots and no other. The other port's slots stay. It rests on choices of the model: log entries 135 and
211. -/
def Obligations.MailboxSlotsFollowTheirRules : Prop :=
  (∀ (s : State) (p : Port) (i : SlotId) (off : Nat) (data : List Byte), s.reached p = true → off < 512 → data ≠ [] → (s.slot p i).busy = false →
    Gives (.mbxSlotWrite p i off data) s (s.setSlot p i { s.slot p i with req := overlay (s.slot p i).req off (data.take (512 - off)) })) ∧
  (∀ (s : State) (p : Port) (i : SlotId) (off : Nat) (data : List Byte), s.reached p = true → off < 512 → data ≠ [] → (s.slot p i).busy = true →
    Gives (.mbxSlotWrite p i off data) s (s.flag .mbx 1)) ∧
  (∀ (s : State) (p : Port) (i : SlotId) (off : Nat) (data : List Byte), (512 ≤ off ∨ data = [] ∨ s.reached p = false) → Gives (.mbxSlotWrite p i off data) s s) ∧
  (∀ (s : State) (p : Port) (mask : W32), s.reached p = true → s.sys.fwState ≠ 4 → (∀ r ∈ s.reqs, (s.slot r.1 r.2).rowless = false) →
    (∀ i : SlotId, mask.getLsbD i.val = true → s.slotFree p i = true → (s.slot p i).rowless = false) →
    Leads (.mbxRing p mask) s fun t =>
      (∀ i : SlotId, t.slot p i = if mask.getLsbD i.val = true ∧ s.slotFree p i = true then
        { s.slot p i with busy := true, started := false, count := 0, orphaned := false } else s.slot p i) ∧
      (∀ i : SlotId, t.slot p.other i = s.slot p.other i) ∧
      t.reqs = s.reqs ++ ((allFin 32).filter fun i => mask.getLsbD i.val && s.slotFree p i).map (fun i => (p, i)) ∧
      t.errs = (s.flagIf ((allFin 32).any fun i => mask.getLsbD i.val && !s.slotFree p i) .mbx 0).errs ∧ t.mem = s.mem ∧ t.parts = s.parts) ∧
  (∀ (s : State) (p : Port) (i : SlotId), s.reached p = true → s.sys.fwState = 3 → s.answers = true → s.reqs = [] → s.slotFree p i = true →
    (∀ c ∈ catalogue, c.1 ≠ (s.slot p i).opcode) →
    Leads (.mbxRing p (BitVec.twoPow 32 i.val)) s fun t => Answered t p i (s.slot p i) .badCommand 1 0 [] ∧ t.reqs = [] ∧ t.parts = s.parts ∧ t.mem = s.mem ∧
      t.errs = s.errs) ∧
  (∀ (s : State) (p : Port) (mask : W32), s.reached p = true → s.sys.fwState = 4 → (∃ i : SlotId, mask.getLsbD i.val = true) →
    Gives (.mbxRing p mask) s (s.flag .mbx 0)) ∧
  (∀ (s : State) (p : Port) (mask : W32), s.reached p = true → Leads (.mbxDoneClear p mask) s fun t =>
    (∀ i : SlotId, t.slot p i = if mask.getLsbD i.val = true then { s.slot p i with done := false } else s.slot p i) ∧
    (∀ i : SlotId, t.slot p.other i = s.slot p.other i) ∧ t.reqs = s.reqs ∧ t.mem = s.mem ∧ t.parts = s.parts ∧ t.errs = s.errs) ∧
  (∀ (s : State) (p : Port) (mask : W32), s.reached p = false → Gives (.mbxRing p mask) s s ∧ Gives (.mbxDoneClear p mask) s s)

/-- GET_INFO, HOST_ATTACH, HEARTBEAT and HOST_DETACH (R48, R55, Table MBX-10): a request that passes the checks of R47 is answered with ST_OK. GET_INFO
changes nothing but its slot; HOST_ATTACH sets attached, the heartbeat period and the orphan policy of its port; HEARTBEAT restarts the lapse timer and
answers the counter; HOST_DETACH leaves the port detached. It rests on choices of the model: log entries 2 and 136. -/
def Obligations.HostMessagesAreAnswered : Prop :=
  (∀ (s : State) (p : Port) (i : SlotId), Asks s p i 1 .any → Leads (.getInfo p i) s fun t =>
    AnsweredOk t p i (s.slot p i) (bytesAt s.trb.running 8 4 ++ bytesAt s.trb.running 12 4 ++ leBytes 8 Config.serial.toNat ++ leBytes 4 s.coresPresent ++
      leBytes 2 (partBits fun q => s.parts[q].isOpen) ++ leBytes 2 (partBits fun q => s.owns p q) ++ leBytes 8 s.mainEnd ++ leBytes 8 s.now ++ repByte 24 0) ∧
    t.parts = s.parts ∧ t.sys = s.sys ∧ t.mem = s.mem ∧ t.errs = s.errs ∧ t.counter = s.counter) ∧
  (∀ (s : State) (p : Port) (i : SlotId), Asks s p i 2 .any → nonzeroAt (s.slot p i).req 19 5 = [] →
    ((s.slot p i).pay 0 2 = 0 ∨ (10 ≤ (s.slot p i).pay 0 2 ∧ (s.slot p i).pay 0 2 ≤ 10000)) → (s.slot p i).pay 2 1 ≤ 1 →
    Leads (.hostAttach p i) s fun t =>
      AnsweredOk t p i (s.slot p i) (leBytes 2 (partBits fun q => s.parts[q].state == .orphaned) ++ repByte 2 0 ++ leBytes 4 s.sys.resetCount.toNat) ∧
      (t.port p).attached = true ∧ (t.port p).hbPeriod = (s.slot p i).pay 0 2 ∧ (t.port p).hbLast = s.now ∧
      (t.port p).policyClose = ((s.slot p i).pay 2 1 == 1) ∧ (t.port p.other).attached = (s.port p.other).attached ∧ t.parts = s.parts ∧ t.sys = s.sys) ∧
  (∀ (s : State) (p : Port) (i : SlotId), Asks s p i 4 .any → Leads (.heartbeat p i) s fun t =>
    AnsweredOk t p i (s.slot p i) (leBytes 8 s.now) ∧ (t.port p).hbLast = s.now ∧ (t.port p).attached = true ∧ t.parts = s.parts ∧ t.sys = s.sys) ∧
  (∀ (s : State) (p : Port) (i : SlotId), Asks s p i 3 .any → Leads (.hostDetach p i) s fun t =>
    AnsweredOk t p i (s.slot p i) [] ∧ (t.port p).attached = false ∧ t.sys.detachCount = s.sys.detachCount + 1)

/-- A request refused by R47 changes nothing but its own slot: a request that may run (R44), with Goride ready, and that a row of Table MBX-8 refuses, is
answered ST_BAD_COMMAND with the reason and offset of the first such row; before Goride is ready every request but GET_INFO and RECOVERY_IMAGE is answered
ST_NOT_READY (R45). Stated for GET_INFO, HEARTBEAT, HOST_DETACH and PART_CLOSE, whose fields other than the header are none. It rests on choices of the model:
log entries 133, 134, 137 and 212. -/
def Obligations.RefusedRequestsChangeNothing : Prop :=
  ∀ (s : State) (p : Port) (i : SlotId) (c : Instr) (op : Nat) (need : Need),
    (c, op, need) ∈ [(Instr.getInfo p i, 1, Need.any), (.hostDetach p i, 3, .any), (.heartbeat p i, 4, .any), (.partClose p i, 0x11, .owner), (.partReset p i, 0x12, .owner)] →
    s.mailRuns p i op = true → (s.slot p i).started = false → (s.slot p i).orphaned = false →
    (∀ r o, 3 ≤ s.sys.fwState.toNat → s.mailBad p (s.slot p i) need [] = some (r, o) → Leads c s fun t =>
      Answered t p i (s.slot p i) .badCommand r o [] ∧ t.parts = s.parts ∧ t.sys = s.sys ∧ t.mem = s.mem ∧ t.cmds = s.cmds ∧ t.sems = s.sems ∧ t.errs = s.errs) ∧
    (s.sys.fwState.toNat < 3 → op ≠ 1 → Leads c s fun t =>
      Answered t p i (s.slot p i) .notReady 0 0xFFFF [] ∧ t.parts = s.parts ∧ t.sys = s.sys ∧ t.mem = s.mem ∧ t.cmds = s.cmds ∧ t.sems = s.sems ∧ t.errs = s.errs)

/-- MODE_SET (R12, R49, R306, R351, R418, R427): each mode set stores its value where its chapter says and answers the previous value and the value in effect;
inline ECC is only recorded for the next device reset, and answers the old value twice; a change from RELAXED to STRICT waits while a RELAXED command or
sample is left. It rests on a choice of the model: log entry 51. -/
def Obligations.ModeSetStoresItsValue : Prop :=
  (∀ (s : State) (p : Port) (i : SlotId), Asks s p i 6 .any → (s.slot p i).pay 0 1 = 0 → (s.slot p i).modeBad 4 0 = [] →
    Leads (.modeSetPower p i) s fun t => t.pm = { s.pm with mode := BitVec.ofNat 2 ((s.slot p i).pay 1 1) } ∧
      AnsweredOk t p i (s.slot p i) (modeAnswer s.pm.mode.toNat ((s.slot p i).pay 1 1)) ∧ t.parts = s.parts ∧ t.sys = s.sys) ∧
  (∀ (s : State) (p : Port) (i : SlotId) (q : PartId), Asks s p i 6 .any → (s.slot p i).pay 0 1 = 1 → (s.slot p i).modeBad 2 16 = [] →
    (s.slot p i).pay 2 2 = q.val → s.owns p q = true →
    ¬ (s.parts[q].relaxed = true ∧ (s.slot p i).pay 1 1 = 0 ∧ s.mayChoose q = true) →
    Leads (.modeSetDeterminism p i) s fun t => t.parts = s.parts.set q { s.parts[q] with relaxed := (s.slot p i).pay 1 1 == 1 } ∧
      AnsweredOk t p i (s.slot p i) (modeAnswer (if s.parts[q].relaxed then 1 else 0) ((s.slot p i).pay 1 1)) ∧ t.sys = s.sys) ∧
  (∀ (s : State) (p : Port) (i : SlotId) (q : PartId), Asks s p i 6 .any → (s.slot p i).pay 0 1 = 1 → (s.slot p i).modeBad 2 16 = [] →
    (s.slot p i).pay 2 2 = q.val → s.owns p q = true → s.parts[q].relaxed = true → (s.slot p i).pay 1 1 = 0 →
    s.mayChoose q = true →
    Leads (.modeSetDeterminism p i) s fun t => t.parts = s.parts ∧ (t.slot p i).busy = true ∧ (t.slot p i).started = true) ∧
  (∀ (s : State) (p : Port) (i : SlotId) (pl : PipeId), Asks s p i 6 .any → (s.slot p i).pay 0 1 = 4 → (s.slot p i).modeBad 2 16 = [] →
    (s.slot p i).pay 2 2 = pl.val → (s.pipes[pl].state = .off ∨ s.owns p s.pipes[pl].part = true) →
    Leads (.modeSetAugmentation p i) s fun t => t.pipes = s.pipes.set pl { s.pipes[pl] with hostSrc := (s.slot p i).pay 1 1 == 1 } ∧
      AnsweredOk t p i (s.slot p i) (modeAnswer (if s.pipes[pl].hostSrc then 1 else 0) ((s.slot p i).pay 1 1)) ∧ t.parts = s.parts) ∧
  (∀ (s : State) (p : Port) (i : SlotId), Asks s p i 6 .any → (s.slot p i).pay 0 1 = 5 → (s.slot p i).modeBad 2 0 = [] →
    Leads (.modeSetInlineEcc p i) s fun t => t.sys = { s.sys with eccPending := some ((s.slot p i).pay 1 1 == 0) } ∧
      AnsweredOk t p i (s.slot p i) (modeAnswer (if s.sys.eccOn then 0 else 1) (if s.sys.eccOn then 0 else 1)) ∧ t.parts = s.parts) ∧
  (∀ (s : State) (p : Port) (i : SlotId), Asks s p i 6 .any → (s.slot p i).pay 0 1 = 6 → (s.slot p i).modeBad 3 0 = [] →
    Leads (.modeSetSiphonRole p i) s fun t => t.sph.role = BitVec.ofNat 2 ((s.slot p i).pay 1 1) ∧ t.sph.txDark = false ∧
      AnsweredOk t p i (s.slot p i) (modeAnswer s.sph.role.toNat ((s.slot p i).pay 1 1)) ∧ t.parts = s.parts ∧ t.mem = s.mem)

/-- Loss of a host (R55, R56, R475): each event that detaches an attached port leaves it detached, with every partition it owned ORPHANED with its state kept,
every semaphore it held free and broken, and the detach counted; the loss of the data link and PERST also take the link down, and PERST holds it. The other
port's partitions stay. Links and resets of one port (R35, R38, R475): PERST_RELEASE lets the port train again; a link comes up in a running module while
PERST is not held and the port's die is there, and not otherwise; PERST on a port with no link holds it and clears what AER holds; on a port that is not
attached the loss of the link, a hot reset and D3hot detach nothing, and a heartbeat does not lapse; a hot reset and an FLR before state 3 reset the port's
function and leave its slots; an FLR without a link, or in state 4, changes nothing. While no access reaches a port (no link, or D3hot), every row that is an
access through it changes nothing. It rests on choices of the model: log entries 36, 38, 39, 52, 56, 84, 128, 135, 138, 139, 147, 195, 202, 211, 225, 231 and
235. -/
def Obligations.HostsComeAndGo : Prop :=
  (∀ (s : State) (p : Port) (c : Instr), (s.port p).attached = true → (s.port p).link = true →
    (c = .pcieLinkDown p ∨ c = .pcieHotReset p ∨ c = .d3hotEntry p ∨ c = .perstAssert p ∨
      (c = .heartbeatLapse p ∧ (s.port p).hbPeriod ≠ 0 ∧ (s.port p).hbLast + 3 * (s.port p).hbPeriod * 640000 ≤ s.now)) →
    Leads c s fun t =>
      (t.port p).attached = false ∧ t.sys.detachCount = s.sys.detachCount + 1 ∧
      (∀ q : PartId, s.owns p q = true → t.parts[q].state = .orphaned ∧ t.parts[q].wasState = s.parts[q].state ∧ t.parts[q].owner = p) ∧
      (∀ q : PartId, s.owns p q = false → t.parts[q].state = s.parts[q].state) ∧
      (∀ k : SemId, t.sems[k] = if s.sems[k].held = true ∧ s.sems[k].owner = p then { s.sems[k] with held := false, broken := true } else s.sems[k]) ∧
      (t.port p).link = (if c = .pcieLinkDown p ∨ c = .perstAssert p then false else true) ∧
      (t.port p).perst = (if c = .perstAssert p then true else (s.port p).perst)) ∧
  ((∀ (s : State) (p : Port), Gives (.perstRelease p) s (s.setPort p { s.port p with perst := false })) ∧
  (∀ (s : State) (p : Port),
    let may := s.sys.rails = .on ∧ s.sys.rstN = true ∧ s.sys.clocked = true ∧ (s.port p).perst = false ∧ s.diePresent (dieOfPort p) = true
    (may → Gives (.pcieLinkUp p) s (s.setPort p { s.port p with link := true })) ∧ (¬ may → Gives (.pcieLinkUp p) s s)) ∧
  (∀ (s : State) (p : Port), (s.port p).link = false → Gives (.perstAssert p) s (s.setPort p { s.port p with perst := true, aer := [] }) ∧
    Gives (.pcieLinkDown p) s s ∧ Gives (.pcieHotReset p) s s ∧ Gives (.d3hotEntry p) s s ∧ Gives (.flr p) s s) ∧
  (∀ (s : State) (p : Port), (s.port p).attached = false → (s.port p).link = true →
    Gives (.pcieLinkDown p) s (s.setPort p { s.port p with link := false }) ∧
    Gives (.pcieHotReset p) s (s.setPort p { s.port p with bar2Base := 0, bar2Log2 := 34, doneIrqEn := false, msix := .replicate 64 {}, d3hot := false }) ∧
    Gives (.d3hotEntry p) s (s.setPort p { s.port p with d3hot := true }) ∧ Gives (.heartbeatLapse p) s s) ∧
  (∀ (s : State) (p : Port), (s.port p).hbPeriod = 0 ∨ s.now < (s.port p).hbLast + 3 * (s.port p).hbPeriod * 640000 → Gives (.heartbeatLapse p) s s) ∧
  (∀ (s : State) (p : Port), (s.port p).link = true → s.sys.fwState.toNat < 3 →
    Gives (.flr p) s (s.setPort p { s.port p with bar2Base := 0, bar2Log2 := 34, doneIrqEn := false, msix := .replicate 64 {}, d3hot := false })) ∧
  (∀ (s : State) (p : Port), s.sys.fwState = 4 → Gives (.flr p) s s) ∧
  (∀ (s : State) (p : Port) (n m : Nat) (bs : List Byte) (w : W32) (b : Bool) (i : SlotId) (d : PdId) (e : EthId) (st : StationId) (ax : AxisId) (v : CamId)
      (pl : PipeId) (r : MirId) (q : PartId) (c : Instr), s.reached p = false →
    c ∈ [Instr.poisonedTlpWrite p, .bar0BadAccess p n m, .bar2Read p n m, .bar2Write p n bs, .mbxSlotWrite p i n bs, .mbxRing p w, .mbxDoneClear p w,
      .domainOn p d, .domainOff p d, .energyLowRead p, .tbNowRead p, .tbRateOp p, .tbStepOp p b, .netPortEnable p e, .netPortDisable p e,
      .netTxProducerWrite p e b w, .netRxProducerWrite p e w, .stationLoad p st, .stationDisable p st, .axisLoad p ax, .axisDisable p ax, .axisTrip p ax,
      .faultLatchClear p, .cameraLoad p v, .cameraDisable p v, .cciTransaction p v w, .bindingLoad p n, .bindingClear p n, .firLoad p n, .pipelineLoad p pl,
      .pipelineStop p pl, .mirrorEnable p r b, .measurementStart p q n, .stickyClear p n w] → Gives c s s))

/-- PART_OPEN (R160 to R162): a request that names a CLOSED partition, present unfenced cores, pool units of those cores' clusters and a context area, none of
them held by another open partition (a SAVED one may be borrowed from) and none in a checker, opens the partition: it is OPEN and the sender's, with the
cores, grants, issue depth and context area asked for, its epoch the next one, every signal counter 0, every queue without rings, and no other partition
changes but that a SAVED one whose cores it takes knows it. A request for fenced cores is answered ST_FENCED, and one that clashes ST_NO_RESOURCE, and nothing
opens. It rests on choices of the model: log entries 24 and 174. -/
def Obligations.PartOpenGivesTheResources : Prop :=
  ∀ (s : State) (p : Port) (i : SlotId) (q : PartId), Asks s p i 0x10 .nothing → (s.slot p i).part = q.val → s.openBad (s.slot p i) = [] →
    let m := (s.slot p i).openCores
    let g := (s.slot p i).openGrants
    let borrow := (s.slot p i).pay 21 1 % 2 == 1
    let taken := ∃ o : PartId, o ≠ q ∧ s.parts[o].isOpen = true ∧ ¬ (borrow = true ∧ s.parts[o].state = .saved) ∧ s.parts[o].clashes m g = true
    let fenced := ∃ n : CoreId, m.getLsbD n.val = true ∧ s.clusFenced (clusOfCore n) = true
    let checker := ∃ n : CoreId, m.getLsbD n.val = true ∧ s.isChecker (clusOfCore n) = true
    (fenced → Leads (.partOpen p i) s fun t => Answered t p i (s.slot p i) .fenced 0 0xFFFF [] ∧ t.parts = s.parts) ∧
    (¬ fenced → taken ∨ checker → Leads (.partOpen p i) s fun t => Answered t p i (s.slot p i) .noResource 0 0xFFFF [] ∧ t.parts = s.parts) ∧
    (¬ fenced → ¬ taken → ¬ checker → Leads (.partOpen p i) s fun t =>
      t.parts[q].state = .opened ∧ t.parts[q].owner = p ∧ t.parts[q].cores = m ∧ t.parts[q].grants = g ∧ t.parts[q].borrow = borrow ∧
      t.parts[q].issueDepth = (s.slot p i).openDepth ∧ t.parts[q].ctxBase = (s.slot p i).openBase ∧ t.parts[q].ctxSize = (s.slot p i).openSize ∧
      t.parts[q].epoch = nextEpoch s.parts[q].lastEpoch ∧ t.parts[q].sigs = .replicate 64 0 ∧ t.parts[q].queues = .replicate 4 {} ∧
      (t.slot p i).done = true ∧ (t.slot p i).busy = false ∧ bytesAt (t.slot p i).resp 16 2 = leBytes 2 (nextEpoch s.parts[q].lastEpoch).toNat ∧
      (∀ o : PartId, o ≠ q → { t.parts[o] with saved := s.parts[o].saved } = s.parts[o]) ∧ t.cmds = s.cmds ∧ t.mem = s.mem ∧ t.sems = s.sems)

/-- PART_CLOSE and ORPHAN_CLOSE (R56, R163): a partition of the sender with no fetched command, no operation, no record waiting and no write of its camera
ports and pipelines left is CLOSED by its PART_CLOSE, which is answered with the number of commands that it ended, 0: it holds no core, no pool unit and no
ring, and the machine no residency key for it; an ORPHANED partition under CLOSE with none is closed in the same way. Its last epoch is kept, and no other
partition's state changes. PART_RESET (R164) of a partition with no command under way: every fetched command ends, the epoch advances, every signal counter is
0, the unfetched descriptors are dropped, its residency keys go, and it is OPEN again (or, ORPHANED, would be). PART_ADOPT (R57) of an ORPHANED partition
under HOLD gives it to the sender in the state that it had, waiting for a doorbell. It rests on choices of the model: log entries 137, 170 and 172. -/
def Obligations.PartitionsCloseResetAndAreAdopted : Prop :=
  ((∀ (s : State) (p : Port) (i : SlotId) (q : PartId), Asks s p i 0x11 .owner → (s.slot p i).part = q.val →
    (∀ c ∈ s.cmds, c.part ≠ q) → (∀ k : QueId, (s.queue q k).waiting = []) → (∀ x ∈ s.ops, x.part ≠ q) →
    (∀ v : CamId, (∀ j ∈ s.cams[v].jobs, j.part ≠ q) ∧ (s.cams[v].part ≠ q ∨ s.cams[v].cur = none)) → (∀ k : PipeId, ∀ j ∈ s.pipes[k].writes, j.part ≠ q) →
    Leads (.partClose p i) s fun t =>
      t.parts[q].state = .closed ∧ t.parts[q].cores = 0 ∧ t.parts[q].grants = .replicate 8 0 ∧ (∀ k : QueId, (t.queue q k).cring = none ∧ (t.queue q k).rring = none) ∧
      (∀ k ∈ t.keys, k.part ≠ q) ∧ t.parts[q].lastEpoch = s.parts[q].lastEpoch ∧ t.parts[q].ndc = s.parts[q].ndc ∧
      AnsweredOk t p i (s.slot p i) (repByte 8 0) ∧ ∀ o : PartId, o ≠ q → t.parts[o].state = s.parts[o].state) ∧
  (∀ (s : State) (q : PartId), s.parts[q].state = .orphaned → s.parts[q].policyClose = true →
    (∀ c ∈ s.cmds, c.part ≠ q) → (∀ k : QueId, (s.queue q k).waiting = []) → (∀ x ∈ s.ops, x.part ≠ q) →
    (∀ v : CamId, (∀ j ∈ s.cams[v].jobs, j.part ≠ q) ∧ (s.cams[v].part ≠ q ∨ s.cams[v].cur = none)) → (∀ k : PipeId, ∀ j ∈ s.pipes[k].writes, j.part ≠ q) →
    Leads (.orphanClose q) s fun t =>
      t.parts[q].state = .closed ∧ t.parts[q].cores = 0 ∧ t.parts[q].grants = .replicate 8 0 ∧ (∀ k ∈ t.keys, k.part ≠ q) ∧
      t.parts[q].lastEpoch = s.parts[q].lastEpoch ∧ ∀ o : PartId, o ≠ q → t.parts[o].state = s.parts[o].state)) ∧
  ((∀ (s : State) (p : Port) (i : SlotId) (q : PartId), Asks s p i 0x12 .owner → (s.slot p i).part = q.val → (∀ c ∈ s.cmds, c.part ≠ q) →
    Leads (.partReset p i) s fun t =>
      t.parts[q].state = .opened ∧ t.parts[q].epoch = nextEpoch s.parts[q].lastEpoch ∧ t.parts[q].sigs = .replicate 64 0 ∧
      t.parts[q].cores = s.parts[q].cores ∧ t.parts[q].owner = p ∧ (∀ k : QueId, (t.queue q k).fetched = (s.queue q k).prod ∧ (t.queue q k).cring = (s.queue q k).cring) ∧
      (∀ k ∈ t.keys, k.part ≠ q) ∧
      AnsweredOk t p i (s.slot p i) (leBytes 2 (nextEpoch s.parts[q].lastEpoch).toNat ++ repByte 2 0 ++ leBytes 4 0)) ∧
  (∀ (s : State) (p : Port) (i : SlotId) (q : PartId), Asks s p i 0x13 .adopt → (s.slot p i).part = q.val → s.parts[q].policyClose = false →
    Leads (.partAdopt p i) s fun t =>
      t.parts[q].state = s.parts[q].wasState ∧ t.parts[q].owner = p ∧ t.parts[q].waitsBell = true ∧ t.parts[q].cores = s.parts[q].cores ∧
      t.parts[q].epoch = s.parts[q].epoch ∧ (t.slot p i).done = true ∧ (t.slot p i).busy = false ∧
      (∀ o : PartId, o ≠ q → t.parts[o] = s.parts[o]) ∧ t.cmds = s.cmds ∧ t.mem = s.mem))

/-- RING_REGISTER (R165, R166): a ring of 64 to 65,536 entries at a 4 KiB boundary, in mapped main memory or in the host's, becomes the queue's command or
completion ring, and the answer shows the count that runs on; one that would replace a command ring with commands waiting, or a completion ring with records
waiting, is answered ST_NOT_READY and changes no partition. -/
def Obligations.RingsRegister : Prop :=
  ∀ (s : State) (p : Port) (i : SlotId) (q : PartId) (k : QueId), Asks s p i 0x14 .owner → (s.slot p i).part = q.val →
    let x := s.slot p i
    let ring : Ring := ⟨x.pay 2 1 == 1, x.pay 4 4, x.pay 8 8⟩
    nonzeroAt x.req 19 1 = [] → nonzeroAt x.req 32 16 = [] → x.pay 0 1 = k.val → x.pay 1 1 ≤ 1 → x.pay 2 1 ≤ 1 → ringSizeOk ring.entries = true →
    ring.base % 4096 = 0 → (ring.host = true ∨ s.inMain ring.base (ring.entries * (if x.pay 1 1 = 1 then 32 else 64)) = true) →
    (x.pay 1 1 = 0 → ((s.queue q k).cring = none ∨ ∀ c ∈ s.cmds, ¬ (c.part = q ∧ c.que = k ∧ c.life = .waiting)) →
      Leads (.ringRegister p i) s fun t =>
        t.parts = s.parts.set q { s.parts[q] with queues := s.parts[q].queues.set k { s.queue q k with cring := some ring, rereg := false } } ∧
        AnsweredOk t p i x (leBytes 4 (s.queue q k).prod.toNat ++ repByte 4 0)) ∧
    (x.pay 1 1 = 1 → ((s.queue q k).rring = none ∨ (s.queue q k).waiting = []) →
      Leads (.ringRegister p i) s fun t =>
        t.parts = s.parts.set q { s.parts[q] with queues := s.parts[q].queues.set k { s.queue q k with rring := some ring, rereg := false } } ∧
        AnsweredOk t p i x (leBytes 4 (s.queue q k).crProd.toNat ++ repByte 4 0)) ∧
    (((x.pay 1 1 = 1 ∧ (s.queue q k).rring ≠ none ∧ (s.queue q k).waiting ≠ []) ∨
        (x.pay 1 1 = 0 ∧ (s.queue q k).cring ≠ none ∧ ∃ c ∈ s.cmds, c.part = q ∧ c.que = k ∧ c.life = .waiting)) →
      Leads (.ringRegister p i) s fun t => t.parts = s.parts ∧ Answered t p i x .notReady 0 0xFFFF [])

/-- Cistern regions and remote windows (R127, R128, R131, R153, R154): a well-formed request while a number and a free stretch are left maps a region or
window of the length, access and place asked for, at the lowest free stretch of its range; a window opens only over an UP link between an ACTIVE module and a
STANDBY, or between two PEERs, onto a range that the partner maps (R418, Table PRG-8), and is refused otherwise; a release or close, by abort or by drain, of
the only one there, with no operation, command or moving page left, unmaps it. Each but the refusal is answered ST_OK. It rests on choices of the model: log
entries 47 and 175. -/
def Obligations.RegionsAndWindowsComeAndGo : Prop :=
  (∀ (s : State) (p : Port) (i : SlotId) (id loc : Nat), Asks s p i 0x20 .owner → (s.slot p i).part ≠ 0xFFFF →
    nonzeroAt (s.slot p i).req 34 6 = [] → (s.slot p i).pay 0 8 % 65536 = 0 → spanBad (s.slot p i) = [] → (s.slot p i).pay 16 1 ≤ 2 →
    firstId (s.regions.map (·.id)) = some id → firstFit cisternBase windowBase (s.regions.map fun r => (r.loc, r.len)) ((s.slot p i).pay 8 8) = some loc →
    Leads (.cisternRegister p i) s fun t =>
      AnsweredOk t p i (s.slot p i) (leBytes 8 loc ++ [nb id] ++ repByte 7 0) ∧ t.parts = s.parts ∧ t.mem = s.mem ∧
      ∃ r, t.regions = s.regions ++ [r] ∧ r.id = id ∧ r.loc = loc ∧ r.len = (s.slot p i).pay 8 8 ∧ r.host = (s.slot p i).pay 0 8 ∧ r.port = p ∧
        r.part = some (s.slot p i).partId ∧ r.rd = ((s.slot p i).pay 17 1 % 2 == 1) ∧ r.wr = ((s.slot p i).pay 17 1 / 2 == 1) ∧ r.draining = false) ∧
  (∀ (s : State) (p : Port) (i : SlotId) (id loc : Nat), Asks s p i 0x20 .any → (s.slot p i).part = 0xFFFF →
    nonzeroAt (s.slot p i).req 34 6 = [] → (s.slot p i).pay 0 8 % 65536 = 0 → spanBad (s.slot p i) = [] → (s.slot p i).pay 16 1 = 0 →
    firstId (s.regions.map (·.id)) = some id → firstFit cisternBase windowBase (s.regions.map fun r => (r.loc, r.len)) ((s.slot p i).pay 8 8) = some loc →
    Leads (.cisternRegister p i) s fun t => AnsweredOk t p i (s.slot p i) (leBytes 8 loc ++ [nb id] ++ repByte 7 0) ∧ ∃ r, t.regions = s.regions ++ [r] ∧ r.id = id ∧ r.loc = loc ∧ r.port = p ∧ r.part = none ∧ r.draining = false) ∧
  (∀ (s : State) (p : Port) (i : SlotId) (r : Region), Asks s p i 0x21 .owner → (s.slot p i).part ≠ 0xFFFF → nonzeroAt (s.slot p i).req 18 6 = [] →
    (s.slot p i).pay 1 1 ≤ 1 → s.regions = [r] → r.id = (s.slot p i).pay 0 1 → r.port = p → r.part = some (s.slot p i).partId → r.draining = false → s.ops = [] → s.cmds = [] →
    s.spills = [] → s.returns = [] → Leads (.cisternRelease p i) s fun t => t.regions = [] ∧ AnsweredOk t p i (s.slot p i) []) ∧
  (∀ (s : State) (p : Port) (i : SlotId) (r : Region), Asks s p i 0x21 .any → (s.slot p i).part = 0xFFFF → nonzeroAt (s.slot p i).req 18 6 = [] →
    (s.slot p i).pay 1 1 ≤ 1 → s.regions = [r] → r.id = (s.slot p i).pay 0 1 → r.port = p → r.part = none → r.draining = false → s.ops = [] → s.cmds = [] →
    s.spills = [] → s.returns = [] → Leads (.cisternRelease p i) s fun t => t.regions = [] ∧ AnsweredOk t p i (s.slot p i) []) ∧
  (∀ (s : State) (p : Port) (i : SlotId) (id loc : Nat), Asks s p i 0x22 .owner → nonzeroAt (s.slot p i).req 21 3 = [] → nonzeroAt (s.slot p i).req 34 14 = [] →
    (s.slot p i).pay 0 5 % 65536 = 0 → spanBad (s.slot p i) = [] → (s.slot p i).pay 16 1 ≤ 1 → s.sph.link = 2 →
    s.sph.partnerKnown = true → ((s.sph.role = 0 ∧ s.sph.partnerRole = 1) ∨ (s.sph.role = 2 ∧ s.sph.partnerRole = 2)) →
    firstId (s.windows.map (·.id)) = some id → firstFit windowBase 0x10000000000 (s.windows.map fun w => (w.loc, w.len)) ((s.slot p i).pay 8 8) = some loc →
    Leads (.windowOpen p i true) s fun t =>
      AnsweredOk t p i (s.slot p i) (leBytes 8 loc ++ [nb id] ++ repByte 7 0) ∧ t.parts = s.parts ∧ t.mem = s.mem ∧
      ∃ w, t.windows = s.windows ++ [w] ∧ w.id = id ∧ w.loc = loc ∧ w.len = (s.slot p i).pay 8 8 ∧ w.remote = (s.slot p i).pay 0 5 ∧
        w.part = (s.slot p i).partId ∧ w.untracked = ((s.slot p i).pay 16 1 == 1) ∧ w.rd = ((s.slot p i).pay 17 1 % 2 == 1) ∧
        w.wr = ((s.slot p i).pay 17 1 / 2 == 1) ∧ w.draining = false) ∧
  (∀ (s : State) (p : Port) (i : SlotId) (maps : Bool), Asks s p i 0x22 .owner → nonzeroAt (s.slot p i).req 21 3 = [] → nonzeroAt (s.slot p i).req 34 14 = [] →
    (s.slot p i).pay 0 5 % 65536 = 0 → spanBad (s.slot p i) = [] → (s.slot p i).pay 16 1 ≤ 1 → s.sph.link = 2 →
    (maps = false ∨ ¬ (s.sph.partnerKnown = true ∧ ((s.sph.role = 0 ∧ s.sph.partnerRole = 1) ∨ (s.sph.role = 2 ∧ s.sph.partnerRole = 2)))) →
    Leads (.windowOpen p i maps) s fun t => Answered t p i (s.slot p i) .badCommand 4 16 [] ∧ t.windows = s.windows ∧ t.parts = s.parts) ∧
  (∀ (s : State) (p : Port) (i : SlotId) (w : Window), Asks s p i 0x23 .owner → nonzeroAt (s.slot p i).req 18 6 = [] → (s.slot p i).pay 1 1 ≤ 1 →
    s.windows = [w] → w.id = (s.slot p i).pay 0 1 → w.part = (s.slot p i).partId → w.draining = false → s.ops = [] → s.cmds = [] →
    Leads (.windowClose p i) s fun t => t.windows = [] ∧ AnsweredOk t p i (s.slot p i) [])

/-- UNIT_FENCE (R150, R462, Table TRB-8) of a unit that is in service and has nothing under way: it shows fenced, and the request is answered with `fenced`
and a count of 0. A cluster outside a joined pair, and one in such a pair is turned away; an Ethernet port, camera port and strainer, which stop; a
first/last-layer engine without a command; the Siphon link, which shows FENCED; a loop engine whose axes are all OFF or NOT_READY; and a memory package, whose
top region is unmapped and whose evacuation begins. A cluster with commands under way marks them to stop at their next pre-emption points, but for those that
a PART_RESET ends there, and the request waits with their number. Evacuating and restoring a package (R139, R150 to R152): each group copied advances k_moved
by 16 units, or takes it back by 16 while the package is restored, and no byte of memory read through a module address changes its value; after the last group
of an evacuation the package shows FENCED; when the restore is done the package is in service, the top region is mapped again, and its contents are undefined.
In any other state a group changes nothing. It rests on choices of the model: log entries 177, 178 and 179. -/
def Obligations.FencingTakesUnitsOut : Prop :=
  (∀ (s : State) (p : Port) (i : SlotId) (k n : Nat), Asks s p i 0x30 .any → (s.slot p i).unitKind = k → (s.slot p i).unitIndex = n →
    s.unitBad (s.slot p i) 0x30 = [] →
    (k = 0 → s.isFenced 0 n = false → (s.pairs[pairOfClus (Fin.ofNat 8 n)]).busy = false →
      (∀ c ∈ s.cmds, ¬ (c.onClus (Fin.ofNat 8 n) = true ∧ (c.life = .issued ∨ c.life = .started))) →
      Leads (.unitFence p i) s fun t => t.isFenced 0 n = true ∧ AnsweredOk t p i (s.slot p i) (unitAnswer true 0) ∧ t.cmds = s.cmds ∧ t.parts = s.parts ∧ t.mem = s.mem) ∧
    (k = 0 → s.isFenced 0 n = false → (s.pairs[pairOfClus (Fin.ofNat 8 n)]).busy = false →
      (∃ c ∈ s.cmds, c.onClus (Fin.ofNat 8 n) = true ∧ (c.life = .issued ∨ c.life = .started)) →
      Leads (.unitFence p i) s fun t => t.isFenced 0 n = true ∧ (t.slot p i).busy = true ∧ (t.slot p i).started = true ∧ t.parts = s.parts ∧ t.mem = s.mem ∧
        t.cmds = s.cmds.map fun c => if c.onClus (Fin.ofNat 8 n) = true ∧ (c.life = .issued ∨ c.life = .started) ∧ c.stop ≠ some .reset then { c with stop := some .fence } else c) ∧
    (k = 0 → s.isFenced 0 n = false → (s.pairs[pairOfClus (Fin.ofNat 8 n)]).busy = true → Leads (.unitFence p i) s fun t =>
      Answered t p i (s.slot p i) .notReady 0 0xFFFF [] ∧ t.trb.fenced = s.trb.fenced ∧ t.cmds = s.cmds) ∧
    (k = 1 → s.fence = none → ({ s with fence := some ⟨Fin.ofNat 16 n, .on, 0⟩ } : State).topBusy = false → Leads (.unitFence p i) s fun t =>
      t.fence = some ⟨Fin.ofNat 16 n, .evacuating, 0⟩ ∧ t.mainEnd = s.uTop * 256 ∧ AnsweredOk t p i (s.slot p i) (unitAnswer true 0) ∧ t.mem = s.mem) ∧
    (2 ≤ k → k ≤ 4 → s.isFenced k n = false → Leads (.unitFence p i) s fun t =>
      t.isFenced k n = true ∧ AnsweredOk t p i (s.slot p i) (unitAnswer true 0) ∧ (k = 2 → (t.eth[Fin.ofNat 6 n]).state = .fenced) ∧
      (k = 3 → (t.cams[Fin.ofNat 24 n]).state = .fenced) ∧
      (k = 4 → ∀ x ∈ s.pipesOf (Fin.ofNat 2 n), t.pipes[x].state = .fenced ∧ t.pipes[x].job = none)) ∧
    (k = 5 → s.isFenced 5 n = false → s.loadOf (.fle (Fin.ofNat 2 n)) = 0 → Leads (.unitFence p i) s fun t =>
      t.isFenced 5 n = true ∧ AnsweredOk t p i (s.slot p i) (unitAnswer true 0) ∧ t.parts = s.parts ∧ t.cmds = s.cmds ∧ t.mem = s.mem) ∧
    (k = 6 → s.isFenced 6 n = false → Leads (.unitFence p i) s fun t =>
      t.isFenced 6 n = true ∧ t.sph.link = 3 ∧ t.windows = (if s.sph.link = 2 then [] else s.windows) ∧ AnsweredOk t p i (s.slot p i) (unitAnswer true 0)) ∧
    (k = 7 → s.isFenced 7 n = false → (∀ a : AxisId, (dieOfAxis a).val = n → s.axes[a].state = .off ∨ s.axes[a].state = .notReady) →
      Leads (.unitFence p i) s fun t => t.isFenced 7 n = true ∧ AnsweredOk t p i (s.slot p i) (unitAnswer true 0) ∧
        ∀ j : StationId, (dieOfStation j).val = n → t.stations[j].state = .off ∨ t.stations[j].state = .notReady)) ∧
  ((∀ (s : State) (f : PkgFence), s.fence = some f → f.state = .evacuating → Leads .evacuationGroupCopied s fun t =>
    t.fence = some { f with kMoved := min (f.kMoved + 16) s.pkgUnits, state := if s.pkgUnits ≤ f.kMoved + 16 then .fenced else .evacuating } ∧
    t.mem = s.mem ∧ t.undef = s.undef ∧ t.parts = s.parts ∧ t.cmds = s.cmds ∧ (s.pkgUnits ≤ f.kMoved + 16 → t.isFenced 1 f.pkg.val = true)) ∧
  (∀ (s : State) (f : PkgFence), s.fence = some f → f.state = .restoring → Leads .evacuationGroupCopied s fun t =>
    t.fence = some { f with kMoved := f.kMoved - 16 } ∧ t.mem = s.mem ∧ t.undef = s.undef ∧ t.parts = s.parts ∧ t.cmds = s.cmds) ∧
  (∀ (s : State), (∀ f, s.fence = some f → f.state ≠ .evacuating ∧ f.state ≠ .restoring) → Gives .evacuationGroupCopied s s ∧ Gives .restoreDone s s) ∧
  (∀ (s : State) (f : PkgFence), s.fence = some f → f.state = .restoring → Leads .restoreDone s fun t =>
    t.fence = none ∧ t.isFenced 1 f.pkg.val = false ∧ t.mainEnd = s.mainCap ∧ t.mem = s.mem ∧ t.parts = s.parts ∧
    ∀ a, s.uTop * 256 ≤ a → a < s.mainCap → t.undefAt a = some s.fresh))

/-- UNIT_TEST and UNIT_RETURN (R462, R463): a fenced unit is tested and the outcome recorded and answered: a failed one is among those that may not return, a
passed one is not; a memory package shows TESTING from the first run of its test to the second, which answers; a fenced unit that has not failed its last test
returns to service. A package that is FENCED begins its restore. ENGINE_RESET (R464): every command under way on the unit named has ended, the answer counts
them, the scalar core of a core that is reset runs again, and the pipelines at work of a strainer that is reset stand IDLE without a job. It rests on choices
of the model: log entries 134, 178, 180 and 182. -/
def Obligations.UnitsAreTestedReturnedAndReset : Prop :=
  ((∀ (s : State) (p : Port) (i : SlotId) (us : Nat), (s.slot p i).unitKind ≠ 1 ∧ Asks s p i 0x31 .any ∧ s.unitBad (s.slot p i) 0x31 = [] ∨
      (s.slot p i).unitKind = 1 ∧ s.mailRuns p i 0x31 = true ∧ (s.slot p i).started = true ∧ (s.slot p i).orphaned = false →
    s.mayTest (s.slot p i).unitKind (s.slot p i).unitIndex = true →
    (Leads (.unitTest p i us none) s fun t => (⟨(s.slot p i).unitKind, (s.slot p i).unitIndex⟩ : UnitId) ∉ t.trb.testFailed ∧
      AnsweredOk t p i (s.slot p i) ([0, nb ((s.slot p i).pay 2 1), 0, 0] ++ leBytes 4 us ++ leBytes 8 0 ++ leBytes 8 0 ++ repByte 8 0) ∧ t.parts = s.parts ∧ t.mem = s.mem) ∧
    ∀ loc want, Leads (.unitTest p i us (some (loc, want))) s fun t =>
      (⟨(s.slot p i).unitKind, (s.slot p i).unitIndex⟩ : UnitId) ∈ t.trb.testFailed ∧
      AnsweredOk t p i (s.slot p i) ([1, nb ((s.slot p i).pay 2 1), 0, 0] ++ leBytes 4 us ++ leBytes 8 loc ++ leBytes 8 want ++ repByte 8 0) ∧ t.parts = s.parts) ∧
  (∀ (s : State) (p : Port) (i : SlotId) (us : Nat) (r : Option (Nat × Nat)) (f : PkgFence), Asks s p i 0x31 .any → s.unitBad (s.slot p i) 0x31 = [] →
    (s.slot p i).unitKind = 1 → s.fence = some f → f.pkg.val = (s.slot p i).unitIndex → f.state = .fenced →
    Leads (.unitTest p i us r) s fun t => t.fence = some { f with state := .testing } ∧ (t.slot p i).busy = true ∧ (t.slot p i).started = true ∧
      t.trb = s.trb ∧ t.mem = s.mem ∧ t.parts = s.parts) ∧
  (∀ (s : State) (p : Port) (i : SlotId), Asks s p i 0x32 .any → s.unitBad (s.slot p i) 0x32 = [] → (s.slot p i).unitKind ≠ 1 →
    s.isFenced (s.slot p i).unitKind (s.slot p i).unitIndex = true →
    Leads (.unitReturn p i) s fun t => t.isFenced (s.slot p i).unitKind (s.slot p i).unitIndex = false ∧
      AnsweredOk t p i (s.slot p i) (unitAnswer false 0) ∧ t.parts = s.parts ∧ t.cmds = s.cmds) ∧
  (∀ (s : State) (p : Port) (i : SlotId) (f : PkgFence), Asks s p i 0x32 .any → s.unitBad (s.slot p i) 0x32 = [] → (s.slot p i).unitKind = 1 →
    s.fence = some f → f.pkg.val = (s.slot p i).unitIndex → f.state = .fenced →
    Leads (.unitReturn p i) s fun t => t.fence = some { f with state := .restoring } ∧ AnsweredOk t p i (s.slot p i) (unitAnswer true 0) ∧ t.mem = s.mem)) ∧
  (∀ (s : State) (p : Port) (i : SlotId), Asks s p i 0x33 .any → s.engineBad (s.slot p i) = [] →
    Leads (.engineReset p i) s fun t =>
      (∀ c ∈ s.cmds, c.inFlight = true → c.onEngine (s.slot p i).unitKind (s.slot p i).unitIndex = true → ∀ d ∈ t.cmds, d.adm = c.adm → d.life = .ended) ∧
      ((s.slot p i).unitKind = 0 → t.scHalt = s.scHalt.set (Fin.ofNat 32 (s.slot p i).unitIndex) false) ∧
      ((s.slot p i).unitKind = 3 → ∀ x ∈ s.pipesOf (Fin.ofNat 2 (s.slot p i).unitIndex), s.pipes[x].state = .running →
        t.pipes[x].state = .idle ∧ t.pipes[x].job = none) ∧
      AnsweredOk t p i (s.slot p i)
        (leBytes 4 (s.cmds.filter fun c => c.inFlight && c.onEngine (s.slot p i).unitKind (s.slot p i).unitIndex).length ++ repByte 4 0))

/-- The update of the firmware (R448, R449, R451, R452): FW_WRITE stages its bytes, binds the buffer to its port and answers how many bytes are there;
FW_VERIFY finds the staged image valid or not by R448; FW_COMMIT of a verified image that is not older than a valid one in flash erases the image area and,
when it runs on, programs it, or answers ST_INTERNAL and sets TRB_ERR bit 5 when the read-back differs; RECOVERY_IMAGE in state 1 takes its bytes, and its
last chunk starts Goride from a valid image and empties the buffer. It rests on choices of the model: log entries 133, 134, 183, 184, 185, 187 and 212. -/
def Obligations.ImagesAreStagedVerifiedAndWritten : Prop :=
  (∀ (s : State) (p : Port) (i : SlotId), Asks s p i 0x40 .any → imageBad (s.slot p i) 2 = [] → s.trb.stagedPort ≠ some p.other →
    Leads (.fwWrite p i) s fun t =>
      let old : Staged := if (s.slot p i).pay 6 1 = 2 then {} else s.trb.staged
      let new := old.put ((s.slot p i).pay 0 4) ((s.slot p i).payBytes 16 ((s.slot p i).pay 4 2))
      t.trb.staged = new ∧ t.trb.stagedPort = some p ∧ t.trb.verified = false ∧ t.trb.flash = s.trb.flash ∧
      AnsweredOk t p i (s.slot p i) (leBytes 4 new.bytes.length ++ repByte 4 0) ∧ t.parts = s.parts ∧ t.mem = s.mem) ∧
  (∀ (s : State) (p : Port) (i : SlotId), Asks s p i 0x41 .any → s.trb.stagedPort ≠ some p.other → Leads (.fwVerify p i) s fun t =>
    let ok := match s.trb.staged.image with
      | some b => imageOk b
      | none => false
    t.trb.verified = (ok || s.trb.verified) ∧ t.trb.staged = s.trb.staged ∧ t.trb.flash = s.trb.flash ∧ (t.slot p i).done = true ∧
    (t.slot p i).busy = false ∧ bytesAt (t.slot p i).resp 8 2 = leBytes 2 (if ok then St.ok.code else St.badCommand.code)) ∧
  (∀ (s : State) (p : Port) (i : SlotId) (ms : Nat) (b : Bool), Asks s p i 0x42 .any → s.trb.stagedPort ≠ some p.other → s.trb.verified = true →
    s.flashNewer ((s.trb.staged.image).getD []) = false →
    Leads (.fwCommit p i ms b) s fun t => t.trb.commit = some ((s.trb.staged.image).getD []) ∧ t.trb.flash = some [] ∧
      (t.slot p i).busy = true ∧ (t.slot p i).started = true ∧ t.parts = s.parts ∧ t.mem = s.mem) ∧
  (∀ (s : State) (p : Port) (i : SlotId) (ms : Nat) (img : List Byte), s.mailRuns p i 0x42 = true → (s.slot p i).started = true → (s.slot p i).orphaned = false →
    s.trb.commit = some img →
    (Leads (.fwCommit p i ms true) s fun t => t.trb.flash = some img ∧ t.trb.commit = none ∧ t.trb.staged = {} ∧ t.trb.stagedPort = none ∧
      t.trb.verified = false ∧ AnsweredOk t p i (s.slot p i) (leBytes 4 ms ++ repByte 4 0)) ∧
    (Leads (.fwCommit p i ms false) s fun t => t.trb.flash = s.trb.flash ∧ t.trb.commit = none ∧ (t.err .trb).getLsbD 5 = true ∧
      Answered t p i (s.slot p i) .internal 0 0xFFFF [])) ∧
  (∀ (s : State) (p : Port) (i : SlotId), s.mailRuns p i 0x43 = true → (s.slot p i).started = false → (s.slot p i).orphaned = false → s.sys.fwState = 1 →
    s.mailBad p (s.slot p i) .any (imageBad (s.slot p i) 1) = none → (s.slot p i).pay 6 1 = 0 → Leads (.recoveryImage p i) s fun t =>
      t.trb.recovery = s.trb.recovery.put ((s.slot p i).pay 0 4) ((s.slot p i).payBytes 16 ((s.slot p i).pay 4 2)) ∧ t.sys = s.sys ∧
      AnsweredOk t p i (s.slot p i) (leBytes 4 t.trb.recovery.bytes.length ++ repByte 4 0)) ∧
  (∀ (s : State) (p : Port) (i : SlotId), s.mailRuns p i 0x43 = true → (s.slot p i).started = false → (s.slot p i).orphaned = false → s.sys.fwState = 1 →
    s.mailBad p (s.slot p i) .any (imageBad (s.slot p i) 1) = none → (s.slot p i).pay 6 1 = 1 → Leads (.recoveryImage p i) s fun t =>
      let ok := match (s.trb.recovery.put ((s.slot p i).pay 0 4) ((s.slot p i).payBytes 16 ((s.slot p i).pay 4 2))).image with
        | some b => imageOk b
        | none => false
      t.sys.fwState = (if ok then 2 else 1) ∧ t.trb.recovery = {} ∧ t.trb.recoveryBoot = (ok || s.trb.recoveryBoot) ∧ (t.slot p i).done = true)

/-- Identity, the event log and measurement (R453 to R456, R461, R466): CERT_READ returns the bytes of the certificate from the offset; LOG_READ returns at
most 15 entries from the wanted sequence number on, oldest first; ATTEST_QUOTE writes the signed quote at the address asked for and answers its first 496
bytes, or ST_INTERNAL without an identity; a measurement starts for the partition's owner only, runs over the list it started with, and ends VALID with the
SHAKE256 digest of what it read, or FAILED with the status that ended it. It rests on choices of the model: log entries 13, 195 and 211. -/
def Obligations.AttestationReportsTheModule : Prop :=
  (∀ (s : State) (p : Port) (i : SlotId), Asks s p i 0x45 .any → nonzeroAt (s.slot p i).req 20 4 = [] → (s.slot p i).pay 0 4 < 3112 →
    Leads (.certRead p i) s fun t => t.parts = s.parts ∧ t.sys = s.sys ∧ t.mem = s.mem ∧
      AnsweredOk t p i (s.slot p i) (leBytes 4 3112 ++ leBytes 4 ((s.slot p i).pay 0 4) ++ repByte 8 0 ++ (certBytes.drop ((s.slot p i).pay 0 4)).take 480)) ∧
  (∀ (s : State) (p : Port) (i : SlotId) (e : LogEntry) (rest : List LogEntry), Asks s p i 0x46 .any → nonzeroAt (s.slot p i).req 20 4 = [] →
    s.trb.log.reverse = e :: rest →
    Leads (.logRead p i) s fun t => t.parts = s.parts ∧ t.sys = s.sys ∧ t.mem = s.mem ∧ t.trb = s.trb ∧
      let es := ((e :: rest).filter fun x => (s.slot p i).pay 0 4 ≤ x.seq).take 15
      AnsweredOk t p i (s.slot p i) (leBytes 4 e.seq ++ leBytes 4 s.trb.logNext ++ leBytes 2 es.length ++ [if (s.slot p i).pay 0 4 < e.seq then 1 else 0] ++
        repByte 5 0 ++ es.flatMap LogEntry.bytes)) ∧
  (∀ (s : State) (p : Port) (i : SlotId), Asks s p i 0x44 .any → nonzeroAt (s.slot p i).req 53 3 = [] → (s.slot p i).pay 32 5 % 64 = 0 →
    s.inMain ((s.slot p i).pay 32 5) 1920 = true →
    (s.trb.identityOk = false → Leads (.attestQuote p i) s fun t => Answered t p i (s.slot p i) .internal 0 0xFFFF [] ∧ t.mem = s.mem ∧ t.sys = s.sys) ∧
    (s.trb.identityOk = true → Leads (.attestQuote p i) s fun t =>
      let body := s.quoteBody ((s.slot p i).payBytes 0 32)
      let quote := body ++ bytesAt (Config.falconSign s.fresh body) 0 1280
      t.mem = (s.storeB ((s.slot p i).pay 32 5) quote).mem ∧ AnsweredOk t p i (s.slot p i) (quote.take 496) ∧ t.parts = s.parts ∧ t.sys = s.sys)) ∧
  (∀ (s : State) (p : Port) (q : PartId) (n : Nat), s.reached p = true → s.owns p q = true → s.parts[q].meas.state ≠ 1 → Gives (.measurementStart p q n) s
    (s.setPart q { s.parts[q] with meas := { s.parts[q].meas with
      entries := BitVec.ofNat 13 n, state := 1, status := 0, runAddr := s.parts[q].meas.addr, runEntries := BitVec.ofNat 13 n } })) ∧
  (∀ (s : State) (p : Port) (q : PartId) (n : Nat), s.owns p q = true → s.parts[q].meas.state = 1 → Gives (.measurementStart p q n) s s) ∧
  (∀ (s : State) (p : Port) (q : PartId) (n : Nat), s.reached p = true → s.owns p q = false → Gives (.measurementStart p q n) s (s.flag .trb 7)) ∧
  (∀ (s : State) (q : PartId), s.parts[q].meas.state ≠ 1 → Gives (.measurementDone q) s s) ∧
  (∀ (s : State) (q : PartId), s.parts[q].meas.state = 1 → Leads (.measurementDone q) s fun t =>
    t.parts = s.parts.set q { s.parts[q] with meas :=
      match (s.readMeasured q s.parts[q].meas.runAddr.toNat s.parts[q].meas.runEntries.toNat).2 with
      | .ok bs => { s.parts[q].meas with state := 2, status := 0, digest := shake256 bs 32 }
      | .error st => { s.parts[q].meas with state := 3, status := BitVec.ofNat 16 st.code, digest := repByte 32 0 } } ∧
    t.mem = s.mem ∧ t.sys = s.sys ∧ t.cmds = s.cmds)

/-- The boot (R30, R31, R446, R447, R450, R453): alignment releases the dividers, with die 1 present unless three attempts failed, and moves nothing but the
counter, the log and the boot; BOOT takes the configuration area's verdict and starts Goride from a valid flash image, or waits in state 1 for a recovery
image, and in a watchdog restart it begins at step 2 and sets TRB_ERR bit 6; Goride is ready in state 3 once main memory is initialised, with the identity
that R453 finds; DEVICE_RESET_DONE makes it ready again. A boot row in a module that is not where it acts changes nothing. It rests on choices of the model:
log entries 2, 48, 189, 190 and 223. -/
def Obligations.BootReachesStateThree : Prop :=
  (∀ (s : State) (fails : List Nat), s.sys.rails = .on → s.sys.rstN = true → s.sys.boot = .held → fails.length ≤ 3 → (∀ x ∈ fails, x = 3 ∨ x = 5) →
    Leads (.dieAlignment fails) s fun t =>
      t.sys = { s.sys with clocked := true, die1 := decide (fails.length < 3), boot := .aligned } ∧ t.parts = s.parts ∧ t.mem = s.mem ∧ t.errs = s.errs) ∧
  (∀ (s : State), s.sys.rails = .on → s.sys.boot = .aligned → Leads .boot s fun t =>
    t.sys = { s.sys with boot := .booted, fwState := if imageOk s.flashImage then 2 else 1 } ∧ t.trb.configOk = Config.configSigOk ∧
    t.trb.running = (if imageOk s.flashImage then bytesAt s.flashImage 0 (imageLen s.flashImage) else []) ∧ t.trb.flash = s.trb.flash ∧
    t.parts = s.parts ∧ t.mem = s.mem) ∧
  (∀ (s : State), s.sys.rails = .on → s.sys.boot = .booted → s.sys.wdRestart = true → s.sys.fwState = 0 → Leads .boot s fun t =>
    t.sys = { s.sys with fwState := if imageOk s.flashImage then 2 else 1 } ∧ (t.err .trb).getLsbD 6 = true ∧
    t.trb.running = (if imageOk s.flashImage then bytesAt s.flashImage 0 (imageLen s.flashImage) else []) ∧ t.trb.flash = s.trb.flash ∧
    t.parts = s.parts ∧ t.mem = s.mem ∧ t.cmds = s.cmds) ∧
  (∀ (s : State) (pufOk : Bool), s.sys.boot = .booted → s.sys.fwState = 2 → (s.sys.initDone = true ∨ s.sys.wdRestart = true) → Leads (.gorideReady pufOk) s fun t =>
    t.sys = { s.sys with fwState := 3, wdRestart := false } ∧ t.trb.identityOk = identityHolds pufOk ∧ t.parts = s.parts ∧ t.mem = s.mem ∧ t.cmds = s.cmds) ∧
  (∀ (s : State), s.sys.boot = .booted → s.sys.fwState = 4 → Gives .deviceResetDone s { s with sys := { s.sys with fwState := 3 } }) ∧
  (∀ (s : State), s.sys.rails = .on → s.sys.boot = .booted → 2 ≤ s.sys.fwState.toNat → s.sys.initDone = false → Leads .memoryInitDone s fun t =>
    t.sys = { s.sys with initDone := true } ∧ (∀ c ∈ t.mem, wellBase ≤ c.1) ∧ t.mem = (s.mem.filter fun c => wellBase ≤ c.1) ∧
    (∀ a, a < wellBase → t.byteAt a = 0) ∧ t.parts = s.parts ∧ t.cmds = s.cmds) ∧
  ∀ (s : State),
    (∀ fails : List Nat, ¬ (s.sys.rails = .on ∧ s.sys.rstN = true ∧ s.sys.boot = .held) → Gives (.dieAlignment fails) s s) ∧
    (¬ (s.sys.rails = .on ∧ (s.sys.boot = .aligned ∨ s.sys.boot = .booted ∧ s.sys.wdRestart = true ∧ s.sys.fwState = 0)) → Gives .boot s s) ∧
    (∀ pufOk : Bool, ¬ (s.sys.boot = .booted ∧ s.sys.fwState = 2 ∧ (s.sys.initDone = true ∨ s.sys.wdRestart = true)) → Gives (.gorideReady pufOk) s s) ∧
    (¬ (s.sys.boot = .booted ∧ s.sys.fwState = 4) → Gives .deviceResetDone s s) ∧
    (¬ (s.sys.rails = .on ∧ s.sys.boot = .booted ∧ 2 ≤ s.sys.fwState.toNat ∧ s.sys.initDone = false) → Gives .memoryInitDone s s)

/-- A device reset (R32, R35, R50, R450), by DEVICE_RESET, by an FLR in state 3 and by the watchdog: every partition is CLOSED, no command, region, window or
waiting request is left, every semaphore is free with its priority at port A, both ports are detached, the reset is counted, fenced units stay fenced, the
counter runs on, and the flash is untouched. DEVICE_RESET is answered first, and its slot alone is not freed. After the first two Goride is busy in state 4;
after the watchdog the boot is at step 2 in state 0. A port without a link has no FLR, one in state 4 does no more, an expiry does nothing in a module where
Goride does not run, and the message nothing until its request's turn comes. It rests on choices of the model: log entries 66, 134, 139, 189, 191, 192 and
193. -/
def Obligations.DeviceResetClearsTheModule : Prop :=
  (∀ (s : State) (c : Instr) (p : Port) (i : SlotId),
    (c = .deviceReset p i ∧ Asks s p i 5 .any) ∨ (c = .flr p ∧ (s.port p).link = true ∧ s.sys.fwState = 3 ∧ s.sys.boot = .booted) ∨
      (c = .watchdogExpiry ∧ s.sys.boot = .booted ∧ 2 ≤ s.sys.fwState.toNat) →
    Leads c s fun t =>
      (∀ q : PartId, t.parts[q].state = .closed ∧ t.parts[q].cores = 0 ∧ t.parts[q].epoch = 0 ∧ t.parts[q].lastEpoch = 0) ∧
      t.cmds = [] ∧ t.keys = [] ∧ t.regions = [] ∧ t.windows = [] ∧ t.reqs = [] ∧ t.sems = .replicate 64 {} ∧
      (t.port .a).attached = false ∧ (t.port .b).attached = false ∧ t.sys.resetCount = s.sys.resetCount + 1 ∧ t.trb.fenced = s.trb.fenced ∧
      t.counter = s.counter ∧ t.trb.flash = s.trb.flash ∧ t.pm.mode = 1 ∧ t.pm.hints = [] ∧ t.sph.role = 0 ∧
      t.sys.fwState = (if c = .watchdogExpiry then 0 else 4) ∧ t.sys.wdRestart = (s.sys.wdRestart || decide (c = .watchdogExpiry)) ∧
      t.sys.eccOn = s.sys.eccPending.getD s.sys.eccOn ∧ t.sys.eccPending = none ∧
      (∀ (o : Port) (j : SlotId), ¬ (c = .deviceReset p i ∧ o = p ∧ j = i) → (t.slot o j).busy = false ∧ (t.slot o j).done = false) ∧
      (c = .deviceReset p i → (t.slot p i).done = true ∧ (t.slot p i).busy = false)) ∧
  (∀ (s : State) (p : Port), ((s.port p).link = false ∨ s.sys.fwState = 4) → Gives (.flr p) s s) ∧
  (∀ (s : State), ¬ (s.sys.boot = .booted ∧ 2 ≤ s.sys.fwState.toNat) → Gives .watchdogExpiry s s) ∧
  ∀ (s : State) (p : Port) (i : SlotId), s.mailRuns p i 5 = false → Gives (.deviceReset p i) s s

/-- Temperatures, energy and HINTs (R433, R437 to R440): a reading of the sensors that are there, below every shutdown limit, is kept, a failed one is marked
and sets PWR_ERR bit 1, and the warning follows the limits; one at a shutdown limit turns every converter off; 10 µs of the measured power, or of the estimate
× 1.15, are added to the energy, with the fraction kept; a read of the low word returns it and latches the high word for its port alone; a held HINT becomes
active 200 µs before its start and is gone at its end. With the module off or not clocked no sensor is read, and with it off no energy is added. Main memory
on its own (R144, R146, R149): a patrol scrub of a word of initialised main memory with inline ECC clears a single-bit error there and leaves every stored
byte; a poll of the on-die counts keeps each package's highest and flags the die of a package above 64. A scrub elsewhere, and a poll before the boot, change
nothing. It rests on choices of the model: log entries 211 and 231. -/
def Obligations.SensorsAndScrubbingReport : Prop :=
  ((∀ (s : State) (temps : List (Option Int)), s.pmRuns = true → s.tempShutdown temps = false → Leads (.tempSensorRead temps) s fun t =>
    (∀ i : Fin 24, s.hasSensor i = false → t.pm.temp[i] = s.pm.temp[i] ∧ t.pm.tempOk[i] = s.pm.tempOk[i] ∧ t.pm.tempFail[i] = s.pm.tempFail[i]) ∧
    (∀ i : Fin 24, ∀ v, s.hasSensor i = true → temps.getD i.val none = some v → t.pm.temp[i] = BitVec.ofInt 16 v ∧ t.pm.tempOk[i] = true ∧ t.pm.tempFail[i] = false) ∧
    (∀ i : Fin 24, s.hasSensor i = true → temps.getD i.val none = none → t.pm.temp[i] = s.pm.temp[i] ∧ t.pm.tempOk[i] = false ∧ t.pm.tempFail[i] = true ∧
      (t.err .pwr).getLsbD 1 = true) ∧
    (t.pm.warn = true ↔ ∃ i : Fin 24, (limitsOf i).1 ≤ t.tempEff i) ∧ t.sys = s.sys ∧ t.mem = s.mem ∧ t.parts = s.parts ∧ t.pm.skip = s.pm.skip) ∧
  (∀ (s : State) (temps : List (Option Int)), s.pmRuns = true → s.tempShutdown temps = true → Leads (.tempSensorRead temps) s fun t =>
    t.sys = { State.reset.sys with rails := .off, pwrEn := s.sys.pwrEn, rstN := s.sys.rstN, lockout := true } ∧ t.mem = [] ∧ t.cmds = [] ∧
    t.parts = State.reset.parts ∧ t.trb.flash = s.trb.flash) ∧
  (∀ (s : State), s.sys.rails = .on →
    let milli := (if s.pm.sensorOk then s.pm.inPower * 100 else s.pm.est * 115) + s.pm.energyFrac
    Gives .energyIntegrate s { s with pm := { s.pm with
      energy := s.pm.energy + BitVec.ofNat 64 (milli / 1000), energyFrac := milli % 1000, energyEst := !s.pm.sensorOk } }) ∧
  (∀ (s : State) (temps : List (Option Int)), s.pmRuns = false → Gives (.tempSensorRead temps) s s) ∧
  (∀ (s : State), s.sys.rails ≠ .on → Gives .energyIntegrate s s) ∧
  (∀ (s : State) (p : Port), s.reached p = true → Leads (.energyLowRead p) s fun t => Emits s t (.readData (some p) (leBytes 4 s.pm.energy.toNat)) ∧ t.pm = s.pm ∧
    (t.port p).energyHi = BitVec.ofNat 32 (s.pm.energy.toNat / 2 ^ 32) ∧ (t.port p.other).energyHi = (s.port p.other).energyHi) ∧
  (∀ (s : State) (p : PartId) (n : Nat) (h : Hint), h ∈ s.pm.hints → h.part = p → h.seq.toNat = n → h.start ≤ s.now + 128000 →
    Leads (.hintActivate p n) s fun t => { h with active := true } ∈ t.pm.hints ∧ t.pm.hints.length = s.pm.hints.length ∧ t.parts = s.parts ∧ t.cmds = s.cmds) ∧
  (∀ (s : State) (p : PartId) (n : Nat), (∀ h ∈ s.pm.hints, h.part = p → h.seq.toNat = n → h.active = true ∨ s.now + 128000 < h.start) → Gives (.hintActivate p n) s s) ∧
  (∀ (s : State) (p : PartId) (n : Nat), (∃ h ∈ s.pm.hints, h.part = p ∧ h.seq.toNat = n ∧ h.stop ≤ s.now) → Leads (.hintExpire p n) s fun t =>
    t.pm.hints = s.pm.hints.filter (fun h => !(h.part == p && h.seq.toNat == n && decide (h.stop ≤ s.now))) ∧ t.parts = s.parts ∧ t.cmds = s.cmds) ∧
  (∀ (s : State) (p : PartId) (n : Nat), (∀ h ∈ s.pm.hints, h.part = p → h.seq.toNat = n → s.now < h.stop) → Gives (.hintExpire p n) s s)) ∧
  ((∀ (s : State) (w : Nat), s.sys.initDone = true → s.sys.eccOn = true → 8 * w + 8 ≤ s.mainEnd → Leads (.patrolScrub w) s fun t =>
    t.mem = s.mem ∧ w ∉ t.ecc.sbe ∧ (∀ v, v ≠ w → (v ∈ t.ecc.sbe ↔ v ∈ s.ecc.sbe)) ∧ t.ecc.dbe = s.ecc.dbe ∧ t.parts = s.parts ∧ t.cmds = s.cmds ∧ t.sys = s.sys) ∧
  (∀ (s : State) (w : Nat), ¬ (s.sys.initDone = true ∧ s.sys.eccOn = true ∧ 8 * w + 8 ≤ s.mainEnd) → Gives (.patrolScrub w) s s) ∧
  (∀ (s : State) (counts : List Nat), s.sys.boot ≠ .booted → Gives (.ondieEccPoll counts) s s) ∧
  (∀ (s : State) (counts : List Nat), s.sys.boot = .booted → Leads (.ondieEccPoll counts) s fun t =>
    (∀ k : Fin 16, t.ecs[k] = if s.diePresent (Fin.ofNat 2 (k.val / 8)) = true then BitVec.ofNat 16 (min (pkgCount counts k) 0xFFFF) else s.ecs[k]) ∧
    (∀ k : Fin 16, s.diePresent (Fin.ofNat 2 (k.val / 8)) = true → 64 < pkgCount counts k → Flagged t (.mem (Fin.ofNat 2 (k.val / 8))) 3) ∧
    t.mem = s.mem ∧ t.parts = s.parts ∧ t.sys = s.sys))

/-- The control step (R428 to R432, R435, R436): with the sensor invalid the basis is the estimate × 1.15 and the watts of the active HINTs, and PWR_ERR bit 1
is set; with a valid reading within 20 % of the cap of an estimate, in a module that is not diverged, it is the reading and those watts; s_cap rises by 1
above the cap, to 12 at most, and falls by 1 below 95 % of it unless a HINT is near. The wanted skip values are then the goal, every die has the higher of the
target voltages for the values in force and for the goal, a rail that this raises settles from now on, and the skip values in force stay until a frame begins.
A thermal tick moves s_th of each die that is there by one step on its limits and does the same. A rail has settled 20 µs after its raise. With the module off
or not clocked a step and a tick change nothing. It rests on choices of the model: log entries 200 and 231. -/
def Obligations.ControlStepsHoldTheCap : Prop :=
  (∀ (s : State) (volts est : Nat) (m : Option Nat), s.pmRuns = true → s.pm.sCap ≤ 12 →
    (m = none ∨ ∃ w, m = some w ∧ w ≤ 40000 ∧ s.pm.diverged = false ∧ 5 * (w - est) ≤ capOf s.pm.mode ∧ 5 * (est - w) ≤ capOf s.pm.mode) →
    let b := (match m with
      | none => est * 115
      | some w => w * 100) + s.hintWatts * 10000
    let cap := capOf s.pm.mode * 100
    Leads (.controlStep m volts est) s fun t =>
      t.pm.basis = b / 100 ∧ t.pm.sensorOk = m.isSome ∧ (m = none → (t.err .pwr).getLsbD 1 = true) ∧
      t.pm.sCap = (if cap < b then min 12 (s.pm.sCap + 1) else if b * 20 < cap * 19 ∧ s.hintSoon = false then s.pm.sCap - 1 else s.pm.sCap) ∧
      (s.pm.sCap = 12 → cap < b → (t.err .pwr).getLsbD 2 = true) ∧ t.pm.sTh = s.pm.sTh ∧ t.pm.energy = s.pm.energy) ∧
  (∀ (s : State) (i : Instr), s.pmRuns = true → ((∃ m v e, i = .controlStep m v e) ∨ i = .thermalThrottleTick) → Leads i s fun t =>
    t.sys = s.sys ∧ t.mem = s.mem ∧ t.parts = s.parts ∧ t.cmds = s.cmds ∧ t.pdOn = s.pdOn ∧ t.pm.hints = s.pm.hints ∧ t.pm.mode = s.pm.mode ∧
    t.pm.skip = s.pm.skip ∧ t.pm.skipGoal = t.skipWanted ∧
    (∀ d : Die, t.pm.volt[d] = max (t.vTarget d s.pm.skip) (t.vTarget d t.skipWanted) ∧
      t.pm.raised[d] = if s.pm.volt[d] < t.pm.volt[d] then some s.now else s.pm.raised[d]) ∧
    (∀ c : ClusId, (s.pairs[pairOfClus c]).joined = false → s.diePresent (dieOfClus c) = true →
      t.pm.skipGoal[c] = min 12 (max t.pm.sCap t.pm.sTh[dieOfClus c])) ∧
    (∀ c : ClusId, (s.pairs[pairOfClus c]).joined = true → s.diePresent (dieOfClus c) = true →
      t.pm.skipGoal[c] = min 12 (max t.pm.sCap (max t.pm.sTh[(0 : Fin 2)] t.pm.sTh[(1 : Fin 2)])))) ∧
  (∀ (s : State), s.pmRuns = true → Leads .thermalThrottleTick s fun t => t.pm.sCap = s.pm.sCap ∧
    (s.sys.die1 = false → t.pm.sTh[(1 : Fin 2)] = s.pm.sTh[(1 : Fin 2)]) ∧ ∀ d : Die, d = 0 ∨ s.sys.die1 = true → t.pm.sTh[d] =
      if (∃ i ∈ throttleGroup d, ∃ l, (limitsOf i).2.1 = some l ∧ l ≤ s.tempEff i) then min 12 (s.pm.sTh[d] + 1)
      else if (∀ i ∈ throttleGroup d, ∀ l, (limitsOf i).2.1 = some l → s.tempEff i + 48 ≤ l) then s.pm.sTh[d] - 1
      else s.pm.sTh[d]) ∧
  (∀ (s : State), Leads .voltageSettled s fun t => (∀ d : Die, t.pm.raised[d] = match s.pm.raised[d] with
      | some w => if w + 12800 ≤ s.now then none else some w
      | none => none) ∧ t.pm.skip = s.pm.skip ∧ t.pm.volt = s.pm.volt ∧ t.sys = s.sys ∧ t.mem = s.mem ∧ t.parts = s.parts ∧ t.cmds = s.cmds) ∧
  (∀ (s : State) (volts est : Nat) (m : Option Nat), s.pmRuns = false →
    Gives (.controlStep m volts est) s s ∧ Gives .thermalThrottleTick s s)

/-- DESCRIPTOR_FETCH (R167, R169, R173): a queue with a command ring, a descriptor not yet fetched and room takes the descriptor at slot n mod entries and
counts it; it is admitted as the youngest command with its sequence number, or refused with a record of that number; one whose opcode the queue does not take
is refused with ST_BAD_COMMAND at byte 0, or with ST_POISONED where its descriptor was read poisoned. Admission numbers are used once. A queue without a ring,
without a descriptor to come, without room, or of a partition that fetches nothing stays as it is. It rests on a choice of the model: log entry 151. -/
def Obligations.DescriptorsAreFetchedInOrder : Prop :=
  (∀ (s : State) (p : PartId) (q : QueId) (ring : Ring), (s.queue p q).cring = some ring → (s.queue p q).fetched ≠ (s.queue p q).prod →
    s.parts[p].fetches = true → (s.cmds.filter fun c => c.part == p && c.que == q).length < 64 → (s.queue p q).hasRoom = true →
    let n := (s.queue p q).fetched
    let bs := (s.ringRead p ring (64 * (n.toNat % ring.entries)) 64).1
    let desc := BitVec.ofNat 512 (leNat (plain bs))
    (Leads (.descriptorFetch p q) s fun t =>
      (t.queue p q).fetched = n + 1 ∧ (t.queue p q).prod = (s.queue p q).prod ∧ t.admitNext = s.admitNext + 1 ∧
      ((∃ d ∈ t.cmds, d.adm = s.admitNext ∧ d.seq = n ∧ d.part = p ∧ d.que = q ∧ d.desc = desc ∧ d.kind = kindOf desc ∧
          (d.kind.isAttnStep = false → t.cmds = s.cmds ++ [d]) ∧ (t.queue p q).waiting = (s.queue p q).waiting) ∨
        (t.cmds = s.cmds.filter (fun c => c.adm != s.admitNext) ∧ ∃ r, (t.queue p q).waiting = (s.queue p q).waiting ++ [r] ∧ r.seq = n))) ∧
    (queueTakes (dfield desc 0 8) q = false → (∀ m : CoreId, s.coreFenced p m = false) → Leads (.descriptorFetch p q) s fun t =>
      t.cmds = s.cmds.filter (fun c => c.adm != s.admitNext) ∧ Flagged t (.par s.parts[p].die) 0 ∧
      ∃ r, (t.queue p q).waiting = (s.queue p q).waiting ++ [r] ∧ r.seq = n ∧ r.status = (if anyPoison bs then .poisoned else .badCommand) ∧ r.badField = 0)) ∧
  (∀ (s : State) (p : PartId) (q : QueId), (s.queue p q).cring = none ∨ (s.queue p q).fetched = (s.queue p q).prod ∨ s.parts[p].fetches = false ∨
    64 ≤ (s.cmds.filter fun c => c.part == p && c.que == q).length ∨ (s.queue p q).hasRoom = false → Gives (.descriptorFetch p q) s s)

/-- The order of issue (R176): the command that a partition issues next is one of its eligible commands, with the unit found for it, and no other eligible
command of the partition goes before it: none has an earlier deadline, and among equal deadlines none has a queue of a higher rank or, in a queue of the same
rank, was admitted earlier. Where a partition has an eligible command, one is found. COMMAND_ISSUE (R175, R176, R180, R191): at most one command of a
partition issues in an FCLK cycle; the one that issues next, bound for a unit and with nothing to end it unexecuted, is issued there under the partition's
epoch; one that cannot run ends with the status chosen by R9, and so does one for which there is no unit. With no eligible command nothing issues. It rests on
choices of the model: log entries 153, 157 and 240. -/
def Obligations.IssueFollowsDeadlines : Prop :=
  ((∀ (s : State) (p : PartId) (c : Cmd) (u : Except NoUnit Place), s.nextIssue p = some (c, u) →
    c ∈ s.cmds ∧ c.part = p ∧ s.ready c = some u ∧
    ∀ x ∈ s.cmds, x.part = p → s.ready x ≠ none → issuesFirst (s.deadlineOf x) (s.deadlineOf c) x c = false) ∧
  (∀ (s : State) (p : PartId) (x : Cmd), x ∈ s.cmds → x.part = p → s.ready x ≠ none → s.nextIssue p ≠ none)) ∧
  ((∀ (s : State) (p : PartId), p ∈ s.issuedNow → Gives (.commandIssue p) s s) ∧
  (∀ (s : State) (p : PartId), (s.countHolds p).nextIssue p = none → Leads (.commandIssue p) s fun t =>
    t.issuedNow = s.issuedNow ∧ t.issueNext = s.issueNext ∧ t.mem = s.mem ∧ t.parts = s.parts) ∧
  (∀ (s : State) (p : PartId) (c : Cmd) (u : Place), p ∉ s.issuedNow → (s.countHolds p).nextIssue p = some (c, .ok u) → (s.countHolds p).issueConds c u = [] →
    Leads (.commandIssue p) s fun t => t.issuedNow = p :: s.issuedNow ∧ t.issueNext = s.issueNext + 1 ∧
      ∃ d ∈ t.cmds, d.adm = c.adm ∧ d.life = .issued ∧ d.place = u ∧ d.epochAt = s.parts[c.part].epoch ∧ d.iss = s.issueNext) ∧
  (∀ (s : State) (p : PartId) (c : Cmd) (u : Place), p ∉ s.issuedNow → (s.countHolds p).nextIssue p = some (c, .ok u) → (s.countHolds p).issueConds c u ≠ [] →
    Leads (.commandIssue p) s fun t => t.issuedNow = p :: s.issuedNow ∧ t.issueNext = s.issueNext ∧
      Ended s t c (St.choose (c.conds ++ (s.countHolds p).issueConds c u))) ∧
  (∀ (s : State) (p : PartId) (c : Cmd) (st : St) (lost : Bool), p ∉ s.issuedNow → (s.countHolds p).nextIssue p = some (c, .error (st, lost)) →
    Leads (.commandIssue p) s fun t => t.issuedNow = p :: s.issuedNow ∧ t.issueNext = s.issueNext ∧
      Ended s t c (St.choose (c.conds ++ ([st] ++ if s.staleFor c then [.staleEpoch] else []))) ∧
      (lost = true → Flagged t (.par s.parts[p].die) 6)))

/-- Late drops, launches, stops and completions (R9, R177, R178, R185, R188, R406, R485): a late_drop command not issued when the counter has passed its
deadline meets ST_MISSED and ends with the status of R9; an issued command whose launch count has come starts, and is late when the count has passed; a
command told to stop is suspended by a SAVE, goes on after the stop for an entry into PAIRED, and ends with ST_STALE_EPOCH or ST_FENCED otherwise, as R9
chooses; a command whose effect is done ends with the status of R9 of its own conditions and those of its rows or entries. A row that names no such command
changes nothing. It rests on choices of the model: log entries 149, 153, 155 and 160. -/
def Obligations.CommandsEndWithOneStatus : Prop :=
  (∀ (s : State) (p : PartId) (q : QueId) (n d : Nat) (c : Cmd), s.findCmd p q n = some c → s.deadlineOf c = some d → c.life = .waiting → c.lateDrop = true → d < s.now →
    Leads (.deadlineMiss p q n) s fun t => Ended s t c (St.choose (c.conds ++ [.missed])) ∧ Flagged t (.par s.parts[p].die) 2 ∧
      t.parts[p].missed = BitVec.ofNat 16 (min (s.parts[p].missed.toNat + 1) 65535) ∧ t.mem = s.mem) ∧
  (∀ (s : State) (p : PartId) (q : QueId) (n x : Nat) (c : Cmd), s.findCmd p q n = some c → c.launch = some x → c.life = .issued → c.place ≠ .none →
    s.mayRun c = true → Leads (.launchAt p q n) s fun t =>
      (∃ d ∈ t.cmds, d.adm = c.adm ∧ d.life = .started ∧ d.start = s.now ∧ d.launchLate = decide (x < s.now)) ∧ t.mem = s.mem ∧ t.errs = s.errs) ∧
  (∀ (s : State) (p : PartId) (q : QueId) (n : Nat) (c : Cmd), s.findCmd p q n = some c → (c.life = .issued ∨ c.life = .started) → s.opsOver c = true →
    (c.stop = some .save → Leads (.preemptionStop p q n) s fun t =>
      (∃ d ∈ t.cmds, d.adm = c.adm ∧ d.life = .suspended ∧ d.stop = none ∧ d.desc = c.desc) ∧ t.mem = s.mem ∧ t.parts = s.parts) ∧
    (c.stop = some .pair → Gives (.preemptionStop p q n) s (s.putCmd { c with stop := none })) ∧
    (c.stop = some .reset → Leads (.preemptionStop p q n) s fun t => Ended s t c (St.choose (c.conds ++ [.staleEpoch]))) ∧
    (c.stop = some .fence → Leads (.preemptionStop p q n) s fun t => Ended s t c (St.choose (c.conds ++ [.fenced])))) ∧
  (∀ (s : State) (p : PartId) (q : QueId) (n : Nat) (c : Cmd), s.findCmd p q n = some c → c.life = .ran → s.opsOver c = true →
    (c.kind.isStreamCtl = false → c.kind.isStreamStep = false → c.kind.isAttnStep = false →
      Leads (.commandCompletion p q n) s fun t => Ended s t c (endStatus s c [])) ∧
    (c.kind.isStreamCtl = true ∨ c.kind.isStreamStep = true → Leads (.commandCompletion p q n) s fun t =>
      ∃ late : Bool, Ended s t c (endStatus s c (if c.kind = .streamGroup then [] else c.rowStatuses late))) ∧
    (c.kind.isAttnStep = true → Leads (.commandCompletion p q n) s fun t => ∃ late : Bool, Ended s t c (endStatus s c (c.entryStatuses late)))) ∧
  (∀ (s : State) (p : PartId) (q : QueId) (n : Nat),
    (∀ c, s.findCmd p q n = some c → c.life ≠ .waiting) → Gives (.deadlineMiss p q n) s s) ∧
  (∀ (s : State) (p : PartId) (q : QueId) (n : Nat),
    (∀ c, s.findCmd p q n = some c → c.launch = none ∨ s.mayRun c = false) → Gives (.launchAt p q n) s s) ∧
  (∀ (s : State) (p : PartId) (q : QueId) (n : Nat),
    (∀ c, s.findCmd p q n = some c → c.stop = none ∨ s.opsOver c = false) → Gives (.preemptionStop p q n) s s) ∧
  (∀ (s : State) (p : PartId) (q : QueId) (n : Nat),
    (∀ c, s.findCmd p q n = some c → c.life ≠ .ran ∨ s.opsOver c = false) → Gives (.commandCompletion p q n) s s)

/-- The commands of the front end (R182, R183, R184, R433): HINT gives its figures to the power manager while it holds fewer than 16, and is dropped and
counted when it holds 16; WAIT ends once its counter has come to its value, and FENCE, which begins as it issues, once its conditions hold; a SIGNAL adds its
value to a counter of an open partition, modulo 2^32, or writes its eight bytes to module memory, or is sent to the partner; a SIGNAL to a partition that is
not open, or to no partner, ends with ST_NOT_READY, and one to an address that is gone with ST_WINDOW_CLOSED. Each ends with the status of R9, and memory
stays but for what a SIGNAL writes, while no page of the attention sequencer waits to be spilled. It rests on choices of the model: log entries 144, 155 and
156. -/
def Obligations.FrontEndCommandsAct : Prop :=
  (∀ (s : State) (p : PartId) (q : QueId) (n : Nat) (c : Cmd), Runs s p q n .hint c →
    (s.pm.hints.length < 16 → ofield c.desc 8 16 ≠ 0 → ofield c.desc 72 32 ≠ 0 →
      Leads (.hint p q n) s fun t => Ended s t c (endStatus s c []) ∧ ∃ h ∈ t.pm.hints, h.part = p ∧ h.seq = c.seq ∧ h.watts = ofield c.desc 8 16 ∧
        h.clusters = BitVec.ofNat 8 (ofield c.desc 0 8) ∧ h.start = near48 s.now (ofield c.desc 24 48) ∧ h.stop = h.start + 640 * ofield c.desc 72 32) ∧
    (16 ≤ s.pm.hints.length → ofield c.desc 8 16 ≠ 0 → ofield c.desc 72 32 ≠ 0 → Leads (.hint p q n) s fun t => Ended s t c (endStatus s c []) ∧
      t.pm.hints = s.pm.hints ∧ t.pm.hintsDropped = min (s.pm.hintsDropped + 1) 255 ∧ (t.err .pwr).getLsbD 7 = true)) ∧
  (∀ (s : State) (p : PartId) (q : QueId) (n : Nat) (c : Cmd), Runs s p q n .wait c →
    (s.waitOver c = true → Leads (.wait p q n) s fun t => Ended s t c (endStatus s c []) ∧ (s.spills = [] → t.mem = s.mem) ∧
      ∀ o : PartId, t.parts[o].sigs = s.parts[o].sigs) ∧
    (s.waitOver c = false → Gives (.wait p q n) s s)) ∧
  (∀ (s : State) (p : PartId) (q : QueId) (n : Nat) (c : Cmd), Runs s p q n .fence c →
    (s.fenceOver c = true → Leads (.fence p q n) s fun t => Ended s t c (endStatus s c []) ∧ (s.spills = [] → t.mem = s.mem)) ∧
    (s.fenceOver c = false → Leads (.fence p q n) s fun t => (∃ d ∈ t.cmds, d.adm = c.adm ∧ d.life = .started ∧ d.notes = c.notes) ∧ t.mem = s.mem ∧ t.parts = s.parts)) ∧
  (∀ (s : State) (p : PartId) (q : QueId) (n : Nat) (c : Cmd), Runs s p q n .signalAdd c →
    (s.parts[c.sigPart].isOpen = true → Leads (.signalAdd p q n) s fun t => Ended s t c (endStatus s c []) ∧
      (∀ o : PartId, t.parts[o].sigs = if o = c.sigPart then s.parts[o].sigs.set c.sigCounter (s.parts[o].sigs[c.sigCounter] + c.sigValue) else s.parts[o].sigs) ∧
      (s.spills = [] → t.mem = s.mem)) ∧
    (s.parts[c.sigPart].isOpen = false → Leads (.signalAdd p q n) s fun t =>
      Ended s t c (endStatus s c [.notReady]) ∧ ∀ o : PartId, t.parts[o].sigs = s.parts[o].sigs)) ∧
  (∀ (s : State) (p : PartId) (q : QueId) (n : Nat) (c : Cmd), Runs s p q n .signalRemote c →
    (c.life = .issued → s.sph.link = 2 → s.sph.txDark = false →
      Leads (.signalRemote p q n) s fun t => t.sph.txSeq = s.sph.txSeq + 1 ∧ t.sph.sigOut = s.sph.sigOut ++ [(s.sph.txSeq, p)] ∧
        (∃ m ∈ t.sph.replay, m.type = 0x08 ∧ m.msg.seq = s.sph.txSeq ∧ m.msg.partition = c.sigPart ∧ m.msg.counter = c.sigCounter ∧ m.msg.arg = c.sigValue.zeroExtend 64) ∧
        ∃ d ∈ t.cmds, d.adm = c.adm ∧ d.life = .started) ∧
    (c.life = .issued → s.sph.link ≠ 2 ∨ s.sph.txDark = true → Leads (.signalRemote p q n) s fun t => Ended s t c (endStatus s c [.notReady])) ∧
    (c.life = .started → Gives (.signalRemote p q n) s s)) ∧
  (∀ (s : State) (p : PartId) (q : QueId) (n : Nat) (c : Cmd), Runs s p q n .signalWrite c →
    let a := movedAddr c.moved (ofield c.desc 48 40)
    (s.reachMap.mapped a 8 = true → s.mayWrite true c.adm a 8 = true → Leads (.signalWrite p q n) s fun t => Ended s t c (endStatus s c []) ∧
      (s.spills = [] → t.mem = (s.writeAt a (clean (leBytes 8 (ofield c.desc 88 64)))).mem)) ∧
    (a + 8 ≤ s.mainEnd → Leads (.signalWrite p q n) s fun t => Ended s t c (endStatus s c []) ∧
      (s.spills = [] → t.mem = cellsWrite s.mem a (leBytes 8 (ofield c.desc 88 64)))) ∧
    (s.reachMap.mapped a 8 = false ∨ s.mayWrite true c.adm a 8 = false → Leads (.signalWrite p q n) s fun t =>
      Ended s t c (endStatus s c [.windowClosed]) ∧ (s.spills = [] → t.mem = s.mem))) ∧
  (∀ (s : State) (p : PartId) (q : QueId) (n : Nat),
    ((∀ c, ¬ Runs s p q n .hint c) → Gives (.hint p q n) s s) ∧ ((∀ c, ¬ Runs s p q n .wait c) → Gives (.wait p q n) s s) ∧
    ((∀ c, ¬ Runs s p q n .fence c) → Gives (.fence p q n) s s) ∧ ((∀ c, ¬ Runs s p q n .signalAdd c) → Gives (.signalAdd p q n) s s) ∧
    ((∀ c, ¬ Runs s p q n .signalRemote c) → Gives (.signalRemote p q n) s s) ∧ ((∀ c, ¬ Runs s p q n .signalWrite c) → Gives (.signalWrite p q n) s s))

/-- SAVE and LOAD (R157, R163, R188 to R190): a SAVE whose space holds less than its live rows and state ends with ST_NO_RESOURCE and sets PAR_ERR bit 8; one
that has room tells every command under way of its partition to stop, and the partition is SAVING; with no command under way, or run again when they have all
stopped, the context is written and the partition is SAVED, and the SAVE ends, poisoned if a row was. A LOAD of a SAVED partition whose cores and units are
not lent makes it LOADING, and run again makes it OPEN, with the commands that the SAVE had stopped under way again, poisoned when part of the context was
lost; one whose cores are lent waits; a LOAD of an OPEN partition ends without effect. The state meant is the one that a partition has under its orphaning,
where its host is gone. It rests on choices of the model: log entries 14, 160, 161, 163 and 164. -/
def Obligations.SaveAndLoadMoveThePartition : Prop :=
  (∀ (s : State) (p : PartId) (q : QueId) (n : Nat) (c : Cmd), Runs s p q n .save c → c.life = .issued →
    let space := (s.saveSpaces p).foldl (fun k x => k + x.2) 0
    let need := saveBytes (s.liveMasks c).1
    (space < need → Leads (.save p q n) s fun t => Ended s t c (endStatus s c [.noResource]) ∧ Flagged t (.par s.parts[p].die) 8 ∧
      t.parts[p].state = s.parts[p].state ∧ (s.spills = [] → t.mem = s.mem)) ∧
    (need ≤ space → (∃ x ∈ s.cmds, x.stopsFor c = true) → Leads (.save p q n) s fun t => t.parts[p].under = .saving ∧ t.mem = s.mem ∧
      (∀ x ∈ t.cmds, x.stopsFor c = true → x.stop ≠ none ∧ x.stop ≠ some .pair) ∧ ∃ d ∈ t.cmds, d.adm = c.adm ∧ d.life = .started ∧ d.start = s.now) ∧
    (need ≤ space → (∀ x ∈ s.cmds, x.stopsFor c = false) → (∀ x ∈ s.cmds, x.part = p → x.life ≠ .suspended) →
      Leads (.save p q n) s fun t => t.parts[p].under = .saved ∧
        (∃ v, t.parts[p].saved = some v ∧ v.lent = false ∧ v.lost = false) ∧ ∃ more, (more = [] ∨ more = [.poisoned]) ∧ Ended s t c (endStatus s c more))) ∧
  (∀ (s : State) (p : PartId) (q : QueId) (n : Nat) (c : Cmd), Runs s p q n .save c → c.life = .started →
    ((∃ x ∈ s.cmds, x.stopsFor c = true) → Gives (.save p q n) s s) ∧
    ((∀ x ∈ s.cmds, x.stopsFor c = false) → s.parts[p].under = .saving → Leads (.save p q n) s fun t => t.parts[p].under = .saved ∧
      (∃ v, t.parts[p].saved = some v ∧ v.lent = false ∧ v.lost = false) ∧ ∀ d ∈ t.cmds, d.adm = c.adm → d.life = .ended)) ∧
  (∀ (s : State) (p : PartId) (q : QueId) (n : Nat) (c : Cmd), Runs s p q n .load c → c.life = .issued →
    (s.parts[p].under = .saved → s.unlent p = true → Leads (.load p q n) s fun t => t.parts[p].under = .loading ∧ t.mem = s.mem ∧
      ∃ d ∈ t.cmds, d.adm = c.adm ∧ d.life = .started) ∧
    (s.parts[p].under = .saved → s.unlent p = false → Gives (.load p q n) s s) ∧
    (s.parts[p].under ≠ .saved → Leads (.load p q n) s fun t => t.parts[p].state = s.parts[p].state ∧ Ended s t c (endStatus s c []) ∧
      (s.spills = [] → t.mem = s.mem))) ∧
  (∀ (s : State) (p : PartId) (q : QueId) (n : Nat) (c : Cmd) (v : Saved), Runs s p q n .load c → c.life = .started → s.parts[p].under = .loading →
    s.parts[p].saved = some v → v.lent = false →
    Leads (.load p q n) s fun t => t.parts[p].under = .opened ∧ t.parts[p].saved = none ∧ Ended s t c (endStatus s c (if v.lost then [.poisoned] else [])) ∧
      (s.spills = [] → t.mem = s.mem) ∧ ∀ x ∈ t.cmds, x.part = p → x.life ≠ .suspended) ∧
  (∀ (s : State) (p : PartId) (q : QueId) (n : Nat),
    ((∀ c, ¬ Runs s p q n .save c) → Gives (.save p q n) s s) ∧ ((∀ c, ¬ Runs s p q n .load c) → Gives (.load p q n) s s))

/-- The engine and quantisation commands (R11, R135, R194, R203 to R245, R90 to R110, R217, R239): one that may run takes its effect and waits for its
completion, and nothing outside the commands, memory and its marks, the counters, the sticky registers and the core's own state moves. Without a fault and
with every write range open, memory is that which the command's own effect leaves, and the command keeps the conditions it met; a fault of the unit ends it
with ST_INTERNAL, sets ENG_ERR's bit, poisons its declared write ranges and leaves every byte; a closed write range ends it with ST_WINDOW_CLOSED and nothing
is written; a microcode fault stops the core. An S2D or D2S of a first/last-layer engine starts and makes the operations that fetch its input, and when the
input is there those that put its output; it is done when they have retired, or at a fault, which sets CNV_ERR bit 0. A row that names no such command changes
nothing. It rests on choices of the model: log entries 30, 70, 116, 217 and 218. -/
def Obligations.EngineCommandsRunOnTheirUnit : Prop :=
  (∀ (s : State) (p : PartId) (q : QueId) (n : Nat) (flt : UnitFault) (c : Cmd) (k : CmdKind) (i : Instr) (body : Cmd → State → State × List St),
    (k, i, body) ∈ [(CmdKind.gemm, Instr.gemm p q n flt, State.gemmBody), (.vop, .vop p q n flt, State.vopBody), (.conv, .conv p q n flt, State.convBody),
      (.pool, .pool p q n flt, State.poolBody), (.crop, .crop p q n flt, State.cropBody), (.s2d, .s2d p q n flt, State.sdCore),
      (.d2s, .d2s p q n flt, State.sdCore), (.frc, .frc p q n flt, State.frcBody), (.adapt, .adapt p q n flt, State.adaptBody),
      (.qscan, .qscan p q n, State.qscanBody), (.qconv, .qconv p q n, State.qconvBody)] →
    ((k = .qscan ∨ k = .qconv) → flt = .none) → ((k = .s2d ∨ k = .d2s) → ∀ d : Die, c.place ≠ .fle d) → Runs s p q n k c →
    ((∃ r ∈ c.writes, s.mayWrite true c.adm r.lo r.len = false) → Leads i s fun t =>
      RanWith t c [.windowClosed] ∧ Unmoved s t ∧ StoresStay s t ∧ t.mem = s.mem ∧ t.undef = s.undef ∧ t.poison = s.poison ∧ t.scHalt = s.scHalt) ∧
    ((∀ r ∈ c.writes, s.mayWrite true c.adm r.lo r.len = true) → flt ≠ .none → Leads i s fun t =>
      RanWith t c [.internal] ∧ Unmoved s t ∧ StoresStay s t ∧ t.mem = s.mem ∧ t.undef = s.undef ∧ t.poison = (s.poisonWrites c.ranges).poison ∧
      Flagged t (.eng c.clus) (unitFaultBit flt) ∧ t.scHalt = if flt = .microcode then s.scHalt.set c.coreId true else s.scHalt) ∧
    ((∀ r ∈ c.writes, s.mayWrite true c.adm r.lo r.len = true) → flt = .none → Leads i s fun t =>
      let w := body (s.startCmd c).2 (s.startCmd c).1
      RanWith t c w.2 ∧ Unmoved s t ∧ StoresStay s t ∧ t.mem = w.1.mem ∧ t.undef = w.1.undef ∧ t.scHalt = s.scHalt)) ∧
  (∀ (s : State) (p : PartId) (q : QueId) (n : Nat) (flt : UnitFault) (c : Cmd) (d : Die) (k : CmdKind) (i : Instr),
    (k, i) ∈ [(CmdKind.s2d, Instr.s2d p q n flt), (.d2s, .d2s p q n flt)] → Runs s p q n k c → c.place = .fle d →
    let low := s.lowCore p
    let total := c.sdFetches.length + c.sdWrites.length
    (flt ≠ .none → Leads i s fun t => RanWith t c [.internal] ∧ Unmoved s t ∧ StoresStay s t ∧ t.mem = s.mem ∧ t.undef = s.undef ∧
      t.poison = (s.poisonWrites c.ranges).poison ∧ t.scHalt = s.scHalt ∧ Flagged t (.cnv d) 0 ∧ ∀ o ∈ t.ops, o.owner ≠ .cmd c.adm) ∧
    (flt = .none → c.nextOp = 0 → 0 < c.sdFetches.length → (∀ x ∈ c.sdFetches, s.gone x.1 x.2 = false) → s.entriesOf low + c.sdFetches.length ≤ 512 →
      Leads i s fun t => (∃ x ∈ t.cmds, x.adm = c.adm ∧ x.life = .started ∧ x.nextOp = c.sdFetches.length) ∧ t.mem = s.mem ∧ t.undef = s.undef ∧
        t.poison = s.poison ∧ Unmoved s t ∧ StoresStay s t ∧ t.ops.length = s.ops.length + c.sdFetches.length ∧
        ∀ j, j < c.sdFetches.length → ∃ o ∈ t.ops, o.id = s.opNext + j ∧ o.owner = .cmd c.adm ∧ o.core = low ∧ o.kind = .fetch ∧
          (o.src, o.len) = c.sdFetches.getD j (0, 0) ∧ o.writes = []) ∧
    (flt = .none → c.nextOp < c.sdFetches.length → 512 ≤ s.entriesOf low → Leads i s fun t => t.ops = s.ops ∧ t.mem = s.mem ∧ t.poison = s.poison ∧ Unmoved s t ∧
      ∃ x ∈ t.cmds, x.adm = c.adm ∧ x.life = .started ∧ x.nextOp = c.nextOp) ∧
    (flt = .none → c.nextOp = c.sdFetches.length → s.opsOver c = true → c.conds = [] → (c.sdInput.sdMake c).1.fails = [] → 0 < c.sdWrites.length →
      (∀ x ∈ c.sdWrites, s.gone x.1 x.2.length = false) → s.entriesOf low + c.sdWrites.length ≤ 512 →
      Leads i s fun t => (∃ x ∈ t.cmds, x.adm = c.adm ∧ x.life = .started ∧ x.nextOp = total) ∧ t.mem = s.mem ∧ t.undef = s.undef ∧
        Unmoved s t ∧ StoresStay s t ∧ t.ops.length = s.ops.length + c.sdWrites.length ∧
        ∀ j, j < c.sdWrites.length → ∃ o ∈ t.ops, o.id = s.opNext + j ∧ o.owner = .cmd c.adm ∧ o.core = low ∧ o.kind = .put ∧
          (o.dst, o.data) = ((c.sdWrites.getD j (0, [])).1, some (c.sdWrites.getD j (0, [])).2)) ∧
    (flt = .none → c.sdFetches.length ≤ c.nextOp → total ≤ c.nextOp → s.opsOver c = true → c.conds = [] → (c.sdInput.sdMake c).1.fails = [] →
      Leads i s fun t => RanWith t c [] ∧ Unmoved s t ∧ StoresStay s t ∧ t.mem = s.mem ∧ t.undef = s.undef ∧ t.poison = s.poison ∧ t.ops = s.ops)) ∧
  (∀ (s : State) (p : PartId) (q : QueId) (n : Nat) (flt : UnitFault) (k : CmdKind) (i : Instr),
    (k, i) ∈ [(CmdKind.gemm, Instr.gemm p q n flt), (.vop, .vop p q n flt), (.conv, .conv p q n flt), (.pool, .pool p q n flt), (.crop, .crop p q n flt),
      (.s2d, .s2d p q n flt), (.d2s, .d2s p q n flt), (.frc, .frc p q n flt), (.adapt, .adapt p q n flt), (.qscan, .qscan p q n), (.qconv, .qconv p q n)] →
    (∀ c, ¬ Runs s p q n k c) → Gives i s s)

/-- VOP (R213 to R215): with its well open, row i of the result is laid at byte d + i × pitch of the executing core's well, each element rounded to dst_fmt,
where what it read has contents, and every byte outside the rows reads as before; the operands are read as they stood before the command. It rests on a choice
of the model: log entry 223. -/
def Obligations.VopComputesItsRows : Prop :=
  ∀ (s : State) (p : PartId) (q : QueId) (n : Nat) (c : Cmd), Runs s p q n .vop c → (∀ r ∈ c.writes, s.mayWrite true c.adm r.lo r.len = true) →
    let w := wellAddr c.coreId 0
    let a := (s.vLoad (w + c.vA) c.vSrc c.vRows c.vCols (c.vPitch c.vCols (plainSize c.vSrc))).1
    let b := (s.vOperand c (vUsesB c.vOp) c.vBimm c.vImm0 (w + c.vB)).1
    let d := (s.vOperand c (vUsesC c.vOp) c.vCimm c.vImm1 (w + c.vC)).1
    let row := fun i => (vRow c.vOp c.vImm0 c.vImm1 (a.getD i []) (b.getD i []) (d.getD i [])).flatMap fun x => leBytes (plainSize c.vDst) (plainBits c.vDst x)
    let pitch := c.vPitch c.vOutCols (plainSize c.vDst)
    Leads (.vop p q n .none) s fun t => t.fresh = s.fresh →
      (∀ i, i < c.vRows → (∀ j, j < c.vRows → (row j).length ≤ pitch) → Holds t (w + c.vD + i * pitch) (row i)) ∧
      (∀ x, (∀ i, i < c.vRows → ¬ (w + c.vD + i * pitch ≤ x ∧ x < w + c.vD + i * pitch + (row i).length)) → t.byteAt x = s.byteAt x)

/-- FILL and COPY (R115, R116, R135, R136): a FILL lays its eight pattern bytes over its range and leaves every other byte, and a half-well or pool UNFILLED
whose last word it writes becomes ON; a COPY gives the result of reading the whole source first, whether or not the ranges overlap; either, bound for a part
that is closed, writes nothing and meets ST_WINDOW_CLOSED. What a part that is still UNFILLED reads as is undefined. A row that names no such command changes
nothing. It rests on a choice of the model: log entry 223. -/
def Obligations.FillAndCopyMoveBytes : Prop :=
  (∀ (s : State) (p : PartId) (q : QueId) (n : Nat) (c : Cmd), Runs s p q n .fill c → s.mayWrite true c.adm c.fDst c.fLen = true →
    Leads (.fill p q n) s fun t => RanWith t c [] ∧ Unmoved s t ∧ StoresStay s t ∧
      (∀ a, c.fDst ≤ a → a < c.fDst + 8 * (c.fLen / 8) → t.unfilled a 1 = false → t.byteAt a = BitVec.ofNat 8 (c.fPattern / 256 ^ ((a - c.fDst) % 8))) ∧
      MemStaysBut s t c.fDst (8 * (c.fLen / 8)) ∧
      (∀ r : WellPart, (s.wctl r).st = .unfilled → c.fDst ≤ (partSpan r).1 + (partSpan r).2 - 8 → (partSpan r).1 + (partSpan r).2 ≤ c.fDst + c.fLen →
        (t.wctl r).st = .on) ∧
      (∀ r : WellPart, (s.wctl r).st ≠ .unfilled → t.wctl r = s.wctl r)) ∧
  (∀ (s : State) (p : PartId) (q : QueId) (n : Nat) (c : Cmd), Runs s p q n .copy c → s.mayWrite true c.adm c.cDst c.cLen = true →
    Leads (.copy p q n) s fun t => Ran t c ∧ Unmoved s t ∧ StoresStay s t ∧ t.hw = s.hw ∧ t.pools = s.pools ∧
      (∀ i, i < c.cLen → t.unfilled (c.cDst + i) 1 = false → t.byteAt (c.cDst + i) = s.byteAt (c.cSrc + i)) ∧ MemStaysBut s t c.cDst c.cLen) ∧
  (∀ (s : State) (p : PartId) (q : QueId) (n : Nat) (c : Cmd), Runs s p q n .fill c → s.mayWrite true c.adm c.fDst c.fLen = false →
    Leads (.fill p q n) s fun t => RanWith t c [.windowClosed] ∧ Unmoved s t ∧ StoresStay s t ∧ t.mem = s.mem ∧ t.undef = s.undef ∧ t.hw = s.hw) ∧
  (∀ (s : State) (p : PartId) (q : QueId) (n : Nat) (c : Cmd), Runs s p q n .copy c → s.mayWrite true c.adm c.cDst c.cLen = false →
    Leads (.copy p q n) s fun t => RanWith t c [.windowClosed] ∧ Unmoved s t ∧ StoresStay s t ∧ t.mem = s.mem ∧ t.undef = s.undef ∧ t.hw = s.hw) ∧
  (∀ (s : State) (p : PartId) (q : QueId) (n : Nat),
    ((∀ c, ¬ Runs s p q n .fill c) → Gives (.fill p q n) s s) ∧ ((∀ c, ¬ Runs s p q n .copy c) → Gives (.copy p q n) s s))

/-- PUMP (R118 to R122): one that has made none of its operations, whose core has entries for all of them, makes one operation for each 4 KiB of each run,
from src + r × src_stride to dst + r × dst_stride; a gather or scatter makes those that fetch its index list first; with no free entry it waits. No byte moves
when operations are made. One whose operations have all retired is done, and a row that names no such command changes nothing. A pump operation (R120, R122,
R125, R135, R155): one that nothing holds moves its bytes from where its source stands to its destination, retires, and leaves every other byte; one that
fetches part of an index list gives it to its command; bound for a part that is closed it is refused and writes nothing; one that something holds waits.
Twelve cycles after the near registration the far one is made: it is held by each operation of the other die that conflicts with it, but of two that are both
between their registrations the one of die 1 is held by the one of die 0. A cistern read that reaches 10 ms ends without writing a byte and sets
cistern_timeout; one that has not waits. It rests on choices of the model: log entries 25, 220 and 223. -/
def Obligations.PumpsMoveTheirBytes : Prop :=
  ((∀ (s : State) (p : PartId) (q : QueId) (n : Nat) (c : Cmd), Runs s p q n .pump c → c.pMode = 0 → c.nextOp = 0 → 0 < c.pTotal →
    (∀ o ∈ s.ops, o.owner ≠ .cmd c.adm) → s.entriesOf c.pumpCore + c.pTotal ≤ 512 →
    let src := fun k => recAddr c.pSrc c.pSrcStride (k / c.pRunOps) + 4096 * (k % c.pRunOps)
    let dst := fun k => recAddr c.pDst c.pDstStride (k / c.pRunOps) + 4096 * (k % c.pRunOps)
    let len := fun k => min 4096 (c.pRunBytes - 4096 * (k % c.pRunOps))
    (∀ k, k < c.pTotal → s.gone (src k) (len k) = false ∧ s.gone (dst k) (len k) = false) →
    Leads (.pump p q n) s fun t => t.mem = s.mem ∧ t.undef = s.undef ∧ t.poison = s.poison ∧ Unmoved s t ∧ StoresStay s t ∧
      t.ops.length = s.ops.length + c.pTotal ∧ t.opNext = s.opNext + c.pTotal ∧ (∀ o ∈ s.ops, o ∈ t.ops) ∧
      (∃ d ∈ t.cmds, d.adm = c.adm ∧ d.life = .started ∧ d.nextOp = c.pTotal) ∧
      ∀ k, k < c.pTotal → ∃ o ∈ t.ops, o.id = s.opNext + k ∧ o.owner = .cmd c.adm ∧ o.core = c.pumpCore ∧ o.kind = .move ∧
        o.src = src k ∧ o.dst = dst k ∧ o.len = len k) ∧
  (∀ (s : State) (p : PartId) (q : QueId) (n : Nat) (c : Cmd), Runs s p q n .pump c → c.pMode ≠ 0 → c.nextOp = 0 → 0 < c.pIdxOps →
    s.entriesOf c.pumpCore + c.pIdxOps ≤ 512 →
    (∀ k, k < c.pIdxOps → s.gone (c.pIdxAddr + 4096 * k) (min 4096 (c.pRuns * c.pIdxSize - 4096 * k)) = false) →
    Leads (.pump p q n) s fun t => t.mem = s.mem ∧ t.poison = s.poison ∧ Unmoved s t ∧ t.ops.length = s.ops.length + c.pIdxOps ∧
      ∀ k, k < c.pIdxOps → ∃ o ∈ t.ops, o.id = s.opNext + k ∧ o.owner = .cmd c.adm ∧ o.kind = .list ∧ o.src = c.pIdxAddr + 4096 * k ∧
        o.len = min 4096 (c.pRuns * c.pIdxSize - 4096 * k) ∧ o.writes = []) ∧
  (∀ (s : State) (p : PartId) (q : QueId) (n : Nat) (c : Cmd), Runs s p q n .pump c → c.nextOp < c.pTotal → 512 ≤ s.entriesOf c.pumpCore →
    Leads (.pump p q n) s fun t => t.ops = s.ops ∧ t.mem = s.mem ∧ Unmoved s t ∧ ∃ d ∈ t.cmds, d.adm = c.adm ∧ d.life = .started ∧ d.nextOp = c.nextOp) ∧
  (∀ (s : State) (p : PartId) (q : QueId) (n : Nat) (c : Cmd), Runs s p q n .pump c → c.pTotal ≤ c.nextOp → s.opsOver c = true →
    Leads (.pump p q n) s fun t => RanWith t c [] ∧ t.ops = s.ops ∧ t.mem = s.mem ∧ Unmoved s t) ∧
  (∀ (s : State) (p : PartId) (q : QueId) (n : Nat), (∀ c, ¬ Runs s p q n .pump c) → Gives (.pump p q n) s s)) ∧
  ((∀ (s : State) (id k : Nat) (e : Bool) (o : PumpOp), s.ops.find? (fun x => x.id = id) = some o → s.opFree o = true → o.waits = [] → o.kind = .move →
    o.owner = .cmd k → o.data = none → o.got = [] → InRam s o.src o.len → InRam s o.dst o.len → s.mayWrite false o.id o.dst o.len = true →
    Leads (.pumpOperationRetire id e) s fun t =>
      (∀ i, i < o.len → s.unfilled (o.src + i) 1 = false → t.unfilled (o.dst + i) 1 = false → t.byteAt (o.dst + i) = s.byteAt (o.src + i)) ∧
      MemStaysBut s t o.dst o.len ∧ (∀ x ∈ t.ops, x.id ≠ id) ∧ t.hostMem = s.hostMem ∧ Unmoved s t ∧ StoresStay s t) ∧
  (∀ (s : State) (id k : Nat) (e : Bool) (o : PumpOp) (r : Region), s.ops.find? (fun x => x.id = id) = some o → s.opFree o = true → o.waits = [] →
    o.kind = .move → o.owner = .cmd k → o.data = none → o.got = [] → s.opSilent o = false → (∀ i, i < o.len → s.reach (o.src + i) = .cistern r) →
    InRam s o.dst o.len → s.mayWrite false o.id o.dst o.len = true →
    Leads (.pumpOperationRetire id e) s fun t => Holds t o.dst (s.hostLoad r.port (r.host + (o.src - r.loc)) o.len) ∧ MemStaysBut s t o.dst o.len ∧
      (∀ x ∈ t.ops, x.id ≠ id) ∧ t.hostMem = s.hostMem ∧ Unmoved s t ∧ StoresStay s t) ∧
  (∀ (s : State) (id k : Nat) (e : Bool) (o : PumpOp), s.ops.find? (fun x => x.id = id) = some o → s.opFree o = true → o.waits = [] →
    (o.kind = .move ∨ o.kind = .put) → o.owner = .cmd k → (InRam s o.src o.len ∨ o.data ≠ none) → InRam s o.dst o.len →
    s.mayWrite false o.id o.dst o.len = false →
    Leads (.pumpOperationRetire id e) s fun t => t.mem = s.mem ∧ t.undef = s.undef ∧ (∀ x ∈ t.ops, x.id ≠ id) ∧ t.hostMem = s.hostMem ∧ Unmoved s t) ∧
  (∀ (s : State) (id : Nat) (e : Bool) (o : PumpOp) (c : Cmd), s.ops.find? (fun x => x.id = id) = some o → s.opFree o = true → o.waits = [] →
    (o.kind = .list ∨ o.kind = .fetch) → o.data = none → o.got = [] → InRam s o.src o.len → o.owner = .cmd c.adm → s.opCmd o = some c →
    Leads (.pumpOperationRetire id e) s fun t => (∃ d ∈ t.cmds, d.adm = c.adm ∧ ∃ bs, d.copies = c.copies ++ [(o.src, bs)] ∧ bs.length = o.len ∧
        ∀ i, i < o.len → s.unfilled (o.src + i) 1 = false → bs.getD i 0 = s.byteAt (o.src + i)) ∧
      t.mem = s.mem ∧ t.undef = s.undef ∧ (∀ x ∈ t.ops, x.id ≠ id) ∧ t.hostMem = s.hostMem ∧ Unmoved s t) ∧
  (∀ (s : State) (id : Nat) (e : Bool), (∀ o, s.ops.find? (fun x => x.id = id) = some o → s.opFree o = false ∨ o.waits ≠ [] ∨ s.opSilent o = true) →
    Gives (.pumpOperationRetire id e) s s) ∧
  (∀ (s : State) (id : Nat) (o : PumpOp), s.ops.find? (fun x => x.id = id) = some o → o.far = true → o.farDone = false → o.at_ + 12 ≤ s.now →
    Leads (.farRegistration id) s fun t => t.mem = s.mem ∧ t.cmds = s.cmds ∧ Unmoved s t ∧
      (t.ops.map fun x => { x with farDone := false, after := [], afterCmds := [] }) = (s.ops.map fun x => { x with farDone := false, after := [], afterCmds := [] }) ∧
      (∀ x ∈ t.ops, x.id = id → x.farDone = true) ∧
      ∀ x ∈ s.ops, x.id ≠ id → x.die = otherDie o.die → x.owner ≠ o.owner → o.clashes x = true →
        if x.far = true ∧ x.farDone = false ∧ o.die = 0 then ∃ y ∈ t.ops, y.id = x.id ∧ o.id ∈ y.after
        else o.id ∉ x.after → ∃ y ∈ t.ops, y.id = o.id ∧ x.id ∈ y.after) ∧
  (∀ (s : State) (id : Nat), (∀ o, s.ops.find? (fun x => x.id = id) = some o → o.far = false ∨ o.farDone = true ∨ s.now < o.at_ + 12) →
    Gives (.farRegistration id) s s) ∧
  (∀ (s : State) (id k : Nat) (o : PumpOp) (d : Die), s.ops.find? (fun x => x.id = id) = some o → s.cisternDie o = some d → o.owner = .cmd k →
    o.at_ + 6400000 ≤ s.now → Leads (.cisternTimeout (.op id)) s fun t => t.mem = s.mem ∧ t.undef = s.undef ∧ Flagged t (.mem d) 7 ∧
      Unmoved s t ∧ StoresStay s t ∧ (o.kind ≠ .fetch → s.windowPieces o.dst o.len = [] → ∀ x ∈ t.ops, x.id ≠ id)) ∧
  (∀ (s : State) (id : Nat), (∀ o, s.ops.find? (fun x => x.id = id) = some o → s.cisternDie o = none ∨ s.now < o.at_ + 6400000) →
    Gives (.cisternTimeout (.op id)) s s))

/-- binary32 arithmetic (R63): a sum and a product do not depend on the order of their operands; a NaN among the operands gives the canonical NaN; every
pattern that is not a NaN, subnormals and signed zeros among them, stands for its own value exactly, so that rounding a representable value changes nothing. -/
def Obligations.ArithmeticRoundsOnce : Prop :=
  (∀ x y : W32, fadd x y = fadd y x ∧ fmul x y = fmul y x) ∧
  (∀ x y : W32, fpVal x = .nan → fadd x y = fpNaN ∧ fmul x y = fpNaN ∧ fdiv x y = fpNaN ∧ fdiv y x = fpNaN ∧ ffma x y y = fpNaN ∧ ffma y y x = fpNaN) ∧
  (∀ x : W32, fpVal x ≠ .nan → roundFp (fpVal x) = x)

/-- GROUP (R251): a group of the command's partition, with slots, that overlaps no other group's areas on its core, is defined, and every other group stays;
one with no slots is taken away when no stream of it is open; a group of another partition is refused with ST_NO_RESOURCE, and an overlap, or the end of a
group in use, with ST_BAD_COMMAND, and every group stays. A row that names no such command changes nothing. The control operations of streams (R262, R276 to
R279): each row that passed its checks, and that names a stream no other row of the command names, moves its stream as Table STR-5 says: OPEN makes it OPEN in
the command's partition and group with no chunk arrived; PAUSE, PARK and CLOSE make it PAUSE, PARK and CLOSE, the last two without a slot; RESUME makes it
RUN, at its newest chunk when flag is set; RESET leaves its state and clears nonfinite; EXPORT, whose blobs here go to no remote window, makes it EXPORT with
its epoch advanced. Streams that no row names, and groups, stay; PAUSE, RESUME and CLOSE move no byte. Without its group the command meets ST_BAD_COMMAND, and
a row that names no such command changes nothing. It rests on choices of the model: log entries 98, 100, 101 and 103. -/
def Obligations.StreamRowsMoveTheirStreams : Prop :=
  ((∀ (s : State) (p : PartId) (q : QueId) (n : Nat) (c : Cmd), Runs s p q n .streamGroup c →
    let g := groupOf c.sGroup c.part c.sBlk
    let mine : Bool := match s.group? c.sGroup with
      | some x => x.part == c.part
      | none => true
    let used := s.streams.any fun x => x.group == c.sGroup && x.state != .close
    (mine = true → g.nslots ≠ 0 → s.groupClash g = false → Leads (.streamGroup p q n) s fun t =>
      RanWith t c [] ∧ t.group? c.sGroup = some g ∧ (∀ k, k ≠ c.sGroup → t.group? k = s.group? k) ∧ t.streams = s.streams ∧ MemStays s t ∧ Unmoved s t) ∧
    (mine = true → g.nslots = 0 → used = false → Leads (.streamGroup p q n) s fun t =>
      RanWith t c [] ∧ t.group? c.sGroup = none ∧ (∀ k, k ≠ c.sGroup → t.group? k = s.group? k) ∧ t.streams = s.streams ∧ MemStays s t ∧ Unmoved s t) ∧
    (mine = false → Leads (.streamGroup p q n) s fun t => RanWith t c [.noResource] ∧ t.groups = s.groups ∧ t.streams = s.streams ∧ MemStays s t) ∧
    (mine = true → ((g.nslots = 0 ∧ used = true) ∨ (g.nslots ≠ 0 ∧ s.groupClash g = true)) → Leads (.streamGroup p q n) s fun t =>
      RanWith t c [.badCommand] ∧ t.groups = s.groups ∧ t.streams = s.streams ∧ MemStays s t)) ∧
  ∀ (s : State) (p : PartId) (q : QueId) (n : Nat), (∀ c, ¬ Runs s p q n .streamGroup c) → Gives (.streamGroup p q n) s s) ∧
  ((∀ (s : State) (p : PartId) (q : QueId) (n : Nat) (c : Cmd) (g : Group) (k : CmdKind) (i : Instr),
    (k, i) ∈ [(CmdKind.streamOpen, Instr.streamOpen p q n), (.streamPause, .streamPause p q n), (.streamResume, .streamResume p q n),
      (.streamPark, .streamPark p q n), (.streamReset, .streamReset p q n), (.streamExport, .streamExport p q n), (.streamClose, .streamClose p q n)] →
    Runs s p q n k c → s.group? c.sGroup = some g → (k = .streamExport → c.life = .issued ∧ ∀ j, s.blobFar c g j = false) →
    Leads i s fun t => Ran t c ∧ t.groups = s.groups ∧ t.heaps = s.heaps ∧ t.seqs = s.seqs ∧ t.sems = s.sems ∧
      ((k = .streamPause ∨ k = .streamResume ∨ k = .streamClose) → t.mem = s.mem ∧ t.undef = s.undef ∧ t.poison = s.poison ∧ t.hostMem = s.hostMem) ∧
      (∀ m, (∀ r ∈ c.sRowList, r.num ≠ m) → t.stream? m = s.stream? m) ∧
      ∀ (j : Nat) (r : SRow), c.sRowList[j]? = some r → c.sCodes[j]? = some 0 →
        (∀ (l : Nat) (y : SRow), c.sRowList[l]? = some y → y.num = r.num → l = j) →
        let old := (s.stream? r.num).getD { num := r.num }
        ∃ x, t.stream? r.num = some x ∧
          (k = .streamOpen → x.state = .opened ∧ x.part = c.part ∧ x.group = g.num ∧ x.classB = g.classB ∧ x.home = ocHome c.sBlk j ∧
            x.ring = ocRing c.sBlk j ∧ x.arrived = 0 ∧ x.stepped = 0 ∧ x.epoch = (if r.epoch = 0 then 1 else BitVec.ofNat 16 r.epoch)) ∧
          (k = .streamPause → x = { old with state := .pause }) ∧
          (k = .streamResume → x = { old with state := .run, stepped := if c.sFlag then old.arrived else old.stepped }) ∧
          (k = .streamPark → x = { old with state := .park, slot := none }) ∧
          (k = .streamReset → x = { old with nonfinite := false }) ∧
          (k = .streamExport → x = { old with state := .exported, epoch := nextEpoch old.epoch, slot := none }) ∧
          (k = .streamClose → x = { old with state := .close, slot := none })) ∧
  ∀ (s : State) (p : PartId) (q : QueId) (n : Nat) (k : CmdKind) (i : Instr),
    (k, i) ∈ [(CmdKind.streamOpen, Instr.streamOpen p q n), (.streamPause, .streamPause p q n), (.streamResume, .streamResume p q n),
      (.streamPark, .streamPark p q n), (.streamReset, .streamReset p q n), (.streamExport, .streamExport p q n), (.streamClose, .streamClose p q n),
      (.streamImport, .streamImport p q n)] →
    ((∀ c, ¬ Runs s p q n k c) → Gives i s s) ∧
    ∀ c, Runs s p q n k c → s.group? c.sGroup = none → Leads i s fun t => RanWith t c [.badCommand] ∧ t.streams = s.streams ∧ t.groups = s.groups ∧ t.mem = s.mem)

/-- IMPORT (R279) of one stream: a blob that lies in a remote window is fetched first, and the stream is in IMPORT meanwhile; of one that does not, an
unpoisoned blob with the magic number, the group's record size and class and the right checksum makes it PARK in the command's partition and group with the
counts that the blob carries, its record at its home; any other blob leaves it CLOSE with ST_POISONED in its row and sets STR_ERR bit 4 (poisoned) or 5. It
rests on choices of the model: log entries 101 and 103. -/
def Obligations.ImportTakesAnIntactBlob : Prop :=
  (∀ (s : State) (p : PartId) (q : QueId) (n : Nat) (c : Cmd) (g : Group) (r : SRow), Runs s p q n .streamImport c → s.group? c.sGroup = some g →
    c.sNrows = 1 → c.sRowList = [r] → c.sCodes = [0] → s.opsOver c = true → s.blobFar c g 0 = false →
    (∀ x ∈ c.copies.drop 2, ¬ (ocBlob c.sBlk 0 ≤ x.1 ∧ x.1 < ocBlob c.sBlk 0 + (64 + g.recBytes))) →
    let blob := (s.strLoad (ocBlob c.sBlk 0) (64 + g.recBytes)).1
    let bs := plain blob
    let good := fieldAt bs 0 4 = 0x57A70001 ∧ fieldAt bs 4 4 = g.recBytes ∧ (fieldAt bs 15 1 % 2 == 1) = g.classB ∧
      fieldAt bs 56 4 = crc32c (bs.take 56 ++ (bs.drop 64).take g.recBytes)
    (anyPoison blob = false → good → Leads (.streamImport p q n) s fun t => Ran t c ∧ t.groups = s.groups ∧
      ∃ x, t.stream? r.num = some x ∧ x.state = .park ∧ x.part = c.part ∧ x.group = g.num ∧ x.epoch = BitVec.ofNat 16 (fieldAt bs 12 2) ∧
        x.arrived = BitVec.ofNat 32 (fieldAt bs 16 4) ∧ x.stepped = BitVec.ofNat 32 (fieldAt bs 20 4) ∧ x.home = ocHome c.sBlk 0 ∧ x.slot = none) ∧
    ((anyPoison blob = true ∨ ¬ good) → Leads (.streamImport p q n) s fun t => Ran t c ∧ t.groups = s.groups ∧ MemStays s t ∧
      (∃ x, t.stream? r.num = some x ∧ x.state = .close ∧ x.slot = none) ∧ (∃ d ∈ t.cmds, d.adm = c.adm ∧ d.sCodes = [St.poisoned.code]) ∧
      Flagged t (.str (s.strDie r.num)) (if anyPoison blob then 4 else 5))) ∧
  ∀ (s : State) (p : PartId) (q : QueId) (n : Nat) (c : Cmd) (g : Group) (r : SRow), Runs s p q n .streamImport c → s.group? c.sGroup = some g →
    c.sNrows = 1 → c.sRowList = [r] → c.sCodes = [0] → c.life = .issued → c.nextOp = 0 → St.windowClosed ∉ c.conds → s.blobFar c g 0 = true →
    Leads (.streamImport p q n) s fun t => (∃ x, t.stream? r.num = some x ∧ x.state = .imported ∧ x.part = c.part ∧ x.group = c.sGroup ∧ x.slot = none) ∧
      t.mem = s.mem ∧ t.undef = s.undef ∧ t.groups = s.groups ∧ (∃ d ∈ t.cmds, d.adm = c.adm ∧ d.life = .started) ∧ ∀ o ∈ s.ops, o ∈ t.ops

/-- The steps RSTEP, LSTEP and FEAT (R11, R135, R217, R253, R258, R260, R271): one that may run, over open ranges and without a fault, takes every row that
passed its checks: the row's stream is RUN and is the most recently stepped; a FEAT row that an overrun ends advances to the next chunk and sets STR_ERR bit
3. A unit fault ends the step with ST_INTERNAL, poisons what it declares as written and the records of its rows, and leaves every byte and every stream; a
closed write range ends it with ST_WINDOW_CLOSED and changes nothing either; without its group it meets ST_BAD_COMMAND. Groups, heaps and sequences stay. A
row that names no such command changes nothing. It rests on a choice of the model: log entry 28. -/
def Obligations.StepsTakeTheirRows : Prop :=
  (∀ (s : State) (p : PartId) (q : QueId) (n : Nat) (flt : UnitFault) (c : Cmd) (k : CmdKind) (i : Instr),
    (k, i) ∈ [(CmdKind.rstep, Instr.rstep p q n flt), (.lstep, .lstep p q n flt), (.feat, .feat p q n flt)] → Runs s p q n k c →
    ((∃ r ∈ c.writes, s.mayWrite true c.adm r.lo r.len = false) → Leads i s fun t =>
      RanWith t c [.windowClosed] ∧ Unmoved s t ∧ StoresStay s t ∧ t.mem = s.mem ∧ t.undef = s.undef ∧ t.poison = s.poison) ∧
    ((∀ r ∈ c.writes, s.mayWrite true c.adm r.lo r.len = true) → flt ≠ .none → Leads i s fun t =>
      RanWith t c [.internal] ∧ Unmoved s t ∧ StoresStay s t ∧ t.mem = s.mem ∧ t.undef = s.undef ∧ t.poison = (s.poisonWrites (s.stepMarks c)).poison ∧
      Flagged t (.eng c.clus) (unitFaultBit flt) ∧ t.scHalt = if flt = .microcode then s.scHalt.set c.coreId true else s.scHalt) ∧
    ((∀ r ∈ c.writes, s.mayWrite true c.adm r.lo r.len = true) → flt = .none → ∀ g, s.group? c.sGroup = some g → Leads i s fun t =>
      Ran t c ∧ Unmoved s t ∧ t.groups = s.groups ∧ t.heaps = s.heaps ∧ t.seqs = s.seqs ∧ t.scHalt = s.scHalt ∧
      (s.streams.Pairwise (fun x y => x.num < y.num) → ∀ m, (∀ x, s.stream? m = some x → x.slot = none) → (∀ r ∈ c.sRowList, r.num ≠ m) →
        t.stream? m = s.stream? m) ∧
      ∀ (j : Nat) (r : SRow) (x : Stream), c.sRowList[j]? = some r → s.stream? r.num = some x →
        (c.sCodes[j]? = some 0 → ∃ y, t.stream? r.num = some y ∧ y.state = .run ∧ y.last = s.now ∧ y.part = x.part ∧ y.group = x.group ∧ y.home = x.home) ∧
        (k = .feat → c.sCodes[j]? = some St.missed.code → (∃ y, t.stream? r.num = some y ∧ y.state = .run ∧ y.stepped = BitVec.ofNat 32 (c.sChunk + 1)) ∧
          Flagged t (.str (s.strDie r.num)) 3))) ∧
  ∀ (s : State) (p : PartId) (q : QueId) (n : Nat) (flt : UnitFault) (k : CmdKind) (i : Instr),
    (k, i) ∈ [(CmdKind.rstep, Instr.rstep p q n flt), (.lstep, .lstep p q n flt), (.feat, .feat p q n flt)] →
    ((∀ c, ¬ Runs s p q n k c) → Gives i s s) ∧
    ∀ c, Runs s p q n k c → (∀ r ∈ c.writes, s.mayWrite true c.adm r.lo r.len = true) → flt = .none → s.group? c.sGroup = none →
      Leads i s fun t => RanWith t c [.badCommand] ∧ t.streams = s.streams ∧ t.groups = s.groups ∧ t.mem = s.mem

/-- HEAP (R282): a heap block defines its heap for the command's partition, or takes it away when it has no slots, unless the heap is another partition's
(ST_NO_RESOURCE), or pages are in it and it would go, or change its format or dimension (ST_BAD_COMMAND); where both hold, both are met. Other heaps, every
sequence and every byte stay. A row that names no such command changes nothing. Opening and closing sequences (R284, R285, R287): a record in main memory that
keeps the rules, with a heap of the partition and descriptors that keep theirs, is opened; one that breaks them, is open already or lies elsewhere is refused,
a poisoned record or table gives ST_POISONED, and a descriptor that does not name its place ST_SCALE_SKEW. SEQ_CLOSE, with no page on its way, frees every
page and takes the sequence away; while a page is SPILLING or RETURNING it waits; a sequence that is not open, or another partition's, is refused. A row that
names no such command changes nothing. It rests on choices of the model: log entries 108 and 229. -/
def Obligations.HeapsAndSequencesComeAndGo : Prop :=
  ((∀ (s : State) (p : PartId) (q : QueId) (n : Nat) (c : Cmd), Runs s p q n .heap c →
    let b := c.aBlk
    let k := fieldAt b 0 1
    let h : Heap := { num := k, part := c.part, fmt := fieldAt b 1 1, dim := fieldAt b 2 1, nslots := fieldAt b 4 4, base := fieldAt b 8 8
                      low := fieldAt b 16 4, high := fieldAt b 20 4 }
    let pages := ∃ x ∈ s.placesOf k, (s.desc x.addr).state ≠ pgNone
    let foreign := fun (o : Heap) => o.part ≠ c.part
    let clash := fun (o : Heap) => pages ∧ (h.nslots = 0 ∨ h.fmt ≠ o.fmt ∨ h.dim ≠ o.dim)
    ((∀ o, s.heap? k = some o → ¬ foreign o ∧ ¬ clash o) → Leads (.heap p q n) s fun t =>
      RanWith t c [] ∧ t.heap? k = (if h.nslots = 0 then none else some h) ∧ (∀ m, m ≠ k → t.heap? m = s.heap? m) ∧
      t.seqs = s.seqs ∧ t.streams = s.streams ∧ MemStays s t ∧ Unmoved s t) ∧
    (∀ o, s.heap? k = some o → foreign o ∨ clash o → Leads (.heap p q n) s fun t => StoresStay s t ∧ MemStays s t ∧ Unmoved s t ∧
      (foreign o → clash o → RanWith t c [.noResource, .badCommand]) ∧ (foreign o → ¬ clash o → RanWith t c [.noResource]) ∧
      (¬ foreign o → RanWith t c [.badCommand]))) ∧
  ∀ (s : State) (p : PartId) (q : QueId) (n : Nat), (∀ c, ¬ Runs s p q n .heap c) → Gives (.heap p q n) s s) ∧
  ((∀ (s : State) (p : PartId) (q : QueId) (n : Nat) (c : Cmd), Runs s p q n .seqOpen c →
    let a := aSeqAddr c.aBlk
    let rec_ := (s.load a 64).1
    let x := seqOf a c.part (plain rec_)
    ((s.inMain a 64 = false ∨ s.seq? a ≠ none) → Leads (.seqOpen p q n) s fun t => RanWith t c [.badCommand] ∧ StoresStay s t ∧ MemStays s t) ∧
    (s.inMain a 64 = true → s.seq? a = none → anyPoison rec_ = true → Leads (.seqOpen p q n) s fun t =>
      RanWith t c [.poisoned] ∧ StoresStay s t ∧ MemStays s t) ∧
    (s.inMain a 64 = true → s.seq? a = none → anyPoison rec_ = false →
      (∀ h, s.heap? x.heap = some h → h.part ≠ c.part ∨ s.seqFieldsOk x (plain rec_) = false) → Leads (.seqOpen p q n) s fun t =>
      RanWith t c [.badCommand] ∧ StoresStay s t ∧ MemStays s t) ∧
    (∀ h, s.inMain a 64 = true → s.seq? a = none → anyPoison rec_ = false → s.heap? x.heap = some h → h.part = c.part →
      s.seqFieldsOk x (plain rec_) = true →
      let bad := anyPoison (s.load x.table (16 * x.maxPages * x.layers * x.kvHeads)).1
      let skew := x.places.any fun y => !s.placed y
      let conds : List St := (if bad then [.poisoned] else []) ++ (if skew then [.scaleSkew] else []) ++ if s.descsOk x h then [] else [.badCommand]
      Leads (.seqOpen p q n) s fun t => RanWith t c conds ∧ t.seqs = (if conds = [] then s.seqs ++ [x] else s.seqs) ∧ t.heaps = s.heaps ∧
        t.spills = s.spills ∧ t.returns = s.returns ∧ MemStays s t ∧ Unmoved s t ∧
        (skew = true → Flagged t (.atn (s.atnDie c.part)) 1))) ∧
  (∀ (s : State) (p : PartId) (q : QueId) (n : Nat) (c : Cmd) (x : Seq), Runs s p q n .seqClose c → s.seq? (aSeqAddr c.aBlk) = some x → x.part = c.part →
    ((∀ y ∈ x.places, (s.desc y.addr).state ≠ pgSpilling ∧ (s.desc y.addr).state ≠ pgReturning) → s.spills = [] →
      x.table + 16 * (x.maxPages * x.layers * x.kvHeads) ≤ wellBase → Leads (.seqClose p q n) s fun t =>
      RanWith t c (if (x.places.any fun y => !s.placed y) then [.scaleSkew] else []) ∧ t.seqs = s.seqs.filter (fun y => y.addr != x.addr) ∧
      (∀ y ∈ x.places, (t.desc y.addr).state = pgNone) ∧ t.heaps = s.heaps ∧
      MemStaysBut s t x.table (16 * (x.maxPages * x.layers * x.kvHeads)) ∧ Unmoved s t) ∧
    ((∃ y ∈ x.places, (s.desc y.addr).state = pgSpilling ∨ (s.desc y.addr).state = pgReturning) → Leads (.seqClose p q n) s fun t =>
      (∃ d ∈ t.cmds, d.adm = c.adm ∧ d.life = .started) ∧ StoresStay s t ∧ MemStays s t)) ∧
  (∀ (s : State) (p : PartId) (q : QueId) (n : Nat) (c : Cmd), Runs s p q n .seqClose c → (∀ x, s.seq? (aSeqAddr c.aBlk) = some x → x.part ≠ c.part) →
    Leads (.seqClose p q n) s fun t => RanWith t c [.badCommand] ∧ StoresStay s t ∧ MemStays s t) ∧
  ∀ (s : State) (p : PartId) (q : QueId) (n : Nat),
    ((∀ c, ¬ Runs s p q n .seqOpen c) → Gives (.seqOpen p q n) s s) ∧ ((∀ c, ¬ Runs s p q n .seqClose c) → Gives (.seqClose p q n) s s))

/-- PIN, UNPIN and TRIM (R285, R287): PIN and UNPIN set and clear the pinned bit of every page that holds a position from pos_a to below pos_b and whose
descriptor names its place, and of no other; TRIM, with no page below pos_a on its way, frees every page wholly below pos_a and no other, and waits while one
is; a descriptor that does not name its place is reported as ST_SCALE_SKEW. Outside the sequence's table every byte stays, and the sequence stays open. One
that names no open sequence of its partition is refused and changes nothing, and so does a row that names no such command. Pages on their way (R155, R297,
R300): a spill acknowledged makes a SPILLING page SPILLED at its cistern span, and the spill is over; a page whose return lands is RESIDENT with the bytes of
its span, or LOST with ATN_ERR bit 4 when they came poisoned or never, or its region is gone; a return that reaches 10 ms makes it LOST and sets
cistern_timeout. A return that another cistern access goes before, and an acknowledgement, return or timeout that nobody waits for, change nothing. It rests
on choices of the model: log entries 114, 115, 220 and 223. -/
def Obligations.PagesMoveThroughTheirStates : Prop :=
  ((∀ (s : State) (p : PartId) (q : QueId) (n : Nat) (c : Cmd) (x : Seq) (on : Bool) (k : CmdKind) (i : Instr),
    (k, i, on) ∈ [(CmdKind.pin, Instr.pin p q n, true), (.unpin, .unpin p q n, false)] → Runs s p q n k c → s.seq? (aSeqAddr c.aBlk) = some x →
    x.part = c.part → x.table + 16 * (x.maxPages * x.layers * x.kvHeads) ≤ wellBase →
    let hit := fun (y : PageAt) => decide (256 * y.j < aPosB c.aBlk ∧ aPosA c.aBlk < 256 * (y.j + 1) ∧ aPosA c.aBlk < aPosB c.aBlk)
    let skew := x.places.any fun y => hit y && !s.placed y
    Leads i s fun t => RanWith t c (if skew then [.scaleSkew] else []) ∧ StoresStay s t ∧ Unmoved s t ∧
      MemStaysBut s t x.table (16 * (x.maxPages * x.layers * x.kvHeads)) ∧ (skew = true → Flagged t (.atn (s.atnDie c.part)) 1) ∧
      ∀ y ∈ x.places, t.desc y.addr = if hit y && s.placed y then { s.desc y.addr with pinned := on } else s.desc y.addr) ∧
  (∀ (s : State) (p : PartId) (q : QueId) (n : Nat) (c : Cmd) (x : Seq), Runs s p q n .trim c → s.seq? (aSeqAddr c.aBlk) = some x → x.part = c.part →
    let below := fun (y : PageAt) => decide (256 * (y.j + 1) ≤ aPosA c.aBlk)
    ((∀ y ∈ x.places, below y = true → (s.desc y.addr).state ≠ pgSpilling ∧ (s.desc y.addr).state ≠ pgReturning) → s.spills = [] →
      x.table + 16 * (x.maxPages * x.layers * x.kvHeads) ≤ wellBase → Leads (.trim p q n) s fun t =>
      RanWith t c (if (x.places.any fun y => below y && !s.placed y) then [.scaleSkew] else []) ∧ StoresStay s t ∧ Unmoved s t ∧
      MemStaysBut s t x.table (16 * (x.maxPages * x.layers * x.kvHeads)) ∧
      ∀ y ∈ x.places, (below y = true → (t.desc y.addr).state = pgNone) ∧ (below y = false → t.desc y.addr = s.desc y.addr)) ∧
    ((∃ y ∈ x.places, below y = true ∧ ((s.desc y.addr).state = pgSpilling ∨ (s.desc y.addr).state = pgReturning)) → Leads (.trim p q n) s fun t =>
      (∃ d ∈ t.cmds, d.adm = c.adm ∧ d.life = .started) ∧ StoresStay s t ∧ MemStays s t)) ∧
  (∀ (s : State) (p : PartId) (q : QueId) (n : Nat) (c : Cmd) (k : CmdKind) (i : Instr),
    (k, i) ∈ [(CmdKind.pin, Instr.pin p q n), (.unpin, .unpin p q n), (.trim, .trim p q n)] → Runs s p q n k c →
    (∀ x, s.seq? (aSeqAddr c.aBlk) = some x → x.part ≠ c.part) →
    Leads i s fun t => RanWith t c [.badCommand] ∧ StoresStay s t ∧ MemStays s t) ∧
  ∀ (s : State) (p : PartId) (q : QueId) (n : Nat) (k : CmdKind) (i : Instr),
    (k, i) ∈ [(CmdKind.pin, Instr.pin p q n), (.unpin, .unpin p q n), (.trim, .trim p q n)] → (∀ c, ¬ Runs s p q n k c) → Gives i s s) ∧
  ((∀ (s : State) (a : Nat) (x : Spill), s.spills.find? (fun y => y.desc == a) = some x → (s.desc a).state = pgSpilling → x.span < 2 ^ 40 →
    Leads (.spillAcknowledged a) s fun t => (∀ y ∈ t.spills, y.desc ≠ a) ∧ t.seqs = s.seqs ∧ t.heaps = s.heaps ∧ Unmoved s t ∧
      (x.taker = none → x.retSlot = none → a + 16 ≤ wellBase →
        t.desc a = { s.desc a with state := pgSpilled, addr := x.span } ∧ MemStaysBut s t a 16 ∧ t.returns = s.returns)) ∧
  (∀ (s : State) (a : Nat), (s.spills.find? (fun y => y.desc == a) = none ∨ (s.desc a).state ≠ pgSpilling) → Gives (.spillAcknowledged a) s s) ∧
  (∀ (s : State) (a : Nat) (x : PageReturn) (y : PageAt) (h : Heap), s.returns.find? (fun z => z.desc == a) = some x → s.returnWaits x = false →
    s.placeAt a = some y → s.heap? y.seq.heap = some h → a + 16 ≤ wellBase →
    (∀ r, s.reach x.span = .cistern r → s.cisternFails r x.span h.pageBytes = false →
      Leads (.returnLanded a false) s fun t => t.desc a = { s.desc a with state := pgResident } ∧ (∀ z ∈ t.returns, z.desc ≠ a) ∧ t.seqs = s.seqs ∧
        t.spills = s.spills ∧ Unmoved s t ∧
        ∀ i, i < h.pageBytes → ¬ (a ≤ (s.desc a).addr + i ∧ (s.desc a).addr + i < a + 16) → t.unfilled ((s.desc a).addr + i) 1 = false →
          t.byteAt ((s.desc a).addr + i) = (s.hostLoad r.port (r.host + (x.span - r.loc)) h.pageBytes).getD i 0) ∧
    (∀ b, (b = true ∨ (∀ r, s.reach x.span ≠ .cistern r) ∨ ∃ r, s.reach x.span = .cistern r ∧ s.cisternFails r x.span h.pageBytes = true) →
      Leads (.returnLanded a b) s fun t => t.desc a = { s.desc a with state := pgLost } ∧ (∀ z ∈ t.returns, z.desc ≠ a) ∧ MemStaysBut s t a 16 ∧
        Flagged t (.atn (s.atnDie y.seq.part)) 4 ∧ t.seqs = s.seqs ∧ Unmoved s t) ∧
    (∀ o, s.spanPort x.span = some o → x.at_ + 6400000 ≤ s.now →
      Leads (.cisternTimeout (.page a)) s fun t => t.desc a = { s.desc a with state := pgLost } ∧ (∀ z ∈ t.returns, z.desc ≠ a) ∧ MemStaysBut s t a 16 ∧
        Flagged t (.atn (s.atnDie y.seq.part)) 4 ∧ Flagged t (.mem (dieOfPort o)) 7 ∧ t.seqs = s.seqs ∧ Unmoved s t)) ∧
  (∀ (s : State) (a : Nat) (b : Bool), (∀ x, s.returns.find? (fun z => z.desc == a) = some x → s.returnWaits x = true) → Gives (.returnLanded a b) s s) ∧
  (∀ (s : State) (a : Nat), (∀ x, s.returns.find? (fun z => z.desc == a) = some x → s.now < x.at_ + 6400000) → Gives (.cisternTimeout (.page a)) s s))

/-- Attention steps (R11, R135, R217, R290 to R300): a combine step, and a finish or nodes step none of whose pages is on its way, runs its entries and waits
for its completion; a step with pages on their way waits for them, started. A closed write range ends a step with ST_WINDOW_CLOSED and a unit fault with
ST_INTERNAL, and either leaves every byte, heap, sequence and page. No step touches a stream, a heap or a machine unit outside its own. A row that names no
such command changes nothing. It rests on choices of the model: log entries 44 and 107. -/
def Obligations.AttentionStepsRunTheirEntries : Prop :=
  (∀ (s : State) (p : PartId) (q : QueId) (n : Nat) (flt : UnitFault) (c : Cmd) (k : CmdKind) (i : Instr),
    (k, i) ∈ [(CmdKind.attnFinish, Instr.attnStepFinish p q n flt), (.attnNodes, .attnStepNodes p q n flt), (.attnCombine, .attnStepCombine p q n flt)] →
    Runs s p q n k c →
    ((∃ r ∈ c.writes, s.mayWrite true c.adm r.lo r.len = false) → Leads i s fun t =>
      RanWith t c [.windowClosed] ∧ Unmoved s t ∧ StoresStay s t ∧ t.mem = s.mem ∧ t.undef = s.undef ∧ t.poison = s.poison) ∧
    ((∀ r ∈ c.writes, s.mayWrite true c.adm r.lo r.len = true) → flt ≠ .none → Leads i s fun t =>
      RanWith t c [.internal] ∧ Unmoved s t ∧ StoresStay s t ∧ t.mem = s.mem ∧ t.undef = s.undef ∧ t.poison = (s.poisonWrites c.ranges).poison ∧
      Flagged t (.eng c.clus) (unitFaultBit flt) ∧ t.scHalt = if flt = .microcode then s.scHalt.set c.coreId true else s.scHalt) ∧
    ((∀ r ∈ c.writes, s.mayWrite true c.adm r.lo r.len = true) → flt = .none →
      let w := (s.startCmd c).1.lateAllocs (s.startCmd c).2
      ((k = .attnCombine ∨ w.1.outstanding w.2 = []) → Leads i s fun t =>
        Ran t c ∧ Unmoved s t ∧ t.heaps = s.heaps ∧ t.streams = s.streams ∧ t.groups = s.groups ∧ t.scHalt = s.scHalt) ∧
      (k ≠ .attnCombine → w.1.outstanding w.2 ≠ [] → Leads i s fun t =>
        (∃ d ∈ t.cmds, d.adm = c.adm ∧ d.life = .started ∧ d.desc = c.desc) ∧ Unmoved s t ∧ t.mem = w.1.mem ∧ t.heaps = s.heaps ∧ t.streams = s.streams))) ∧
  ∀ (s : State) (p : PartId) (q : QueId) (n : Nat) (flt : UnitFault) (k : CmdKind) (i : Instr),
    (k, i) ∈ [(CmdKind.attnFinish, Instr.attnStepFinish p q n flt), (.attnNodes, .attnStepNodes p q n flt), (.attnCombine, .attnStepCombine p q n flt)] →
    (∀ c, ¬ Runs s p q n k c) → Gives i s s

/-- Who may switch a power domain, and switching on (R136, R402, R442, R443, Table PWR-4), through a port that an access reaches: a request by a port that
does not own the domain changes nothing and sets PWR_ERR bit 6; one that is answered at once changes only the port's PWR_PD_RESULT; a switching on that goes
ahead makes a half-well or pool POWERING and enters any other domain as moving since now, without turning a bit of PWR_PD_STAT, and its twin in a joined pair
follows 24 counts later; a switching that has lasted its time turns the domain on and answers the port that asked, and one that has not waits, as one does
that is not under way. A half-well or pool that has been POWERING for 3,200 counts is UNFILLED with undefined contents. Switching off (R134, R135, R137, R402,
R442, Table PWR-4): a request that goes ahead closes a half-well or pool, with the operations and commands that write there and the partner's registered
writes counted, and turns the bit of any other domain off at once; its twin in a joined pair follows 24 counts later; a part with nothing left of what was
counted is OFF; 2 µs after the closure what is still counted is dropped: its operations are gone, its commands have ended, WEL_ERR bit 2 is set when there was
any, the partner's writes are refused when their data come, and the part is OFF; before that it waits. It rests on choices of the model: log entries 167, 211
and 224. -/
def Obligations.PowerDomainsAreSwitched : Prop :=
  ((∀ (s : State) (p : Port) (pd : PdId), s.reached p = true → s.ownsPd p pd = false →
    Gives (.domainOn p pd) s (s.flag .pwr 6) ∧ Gives (.domainOff p pd) s (s.flag .pwr 6)) ∧
  (∀ (s : State) (p : Port) (pd : PdId) (st : St), s.reached p = true → s.ownsPd p pd = true →
    (s.pdAnswer p pd true = some st → Gives (.domainOn p pd) s (s.pdResult p pd st true)) ∧
    (s.pdAnswer p pd false = some st → Gives (.domainOff p pd) s (s.pdResult p pd st true))) ∧
  (∀ (s : State) (p : Port) (pd : PdId), s.reached p = true → s.ownsPd p pd = true → s.pdAnswer p pd true = none → Leads (.domainOn p pd) s fun t =>
    t.pdOn = s.pdOn ∧ t.mem = s.mem ∧ t.undef = s.undef ∧ t.parts = s.parts ∧ t.cmds = s.cmds ∧ t.sys = s.sys ∧ (t.port p).pdDone = false ∧
    (t.port p).pdDomain = BitVec.ofNat 7 pd.val ∧
    (∀ r, pdPart pd = some r → (t.wctl r).st = .powering ∧ (t.wctl r).since = s.now ∧ (t.wctl r).port = some p ∧ t.pdMoves = s.pdMoves) ∧
    (pdPart pd = none → t.pdMoves = s.pdMoves ++ [⟨pd, true, some p, s.now⟩]) ∧
    (∀ r, pdPart pd ≠ some r → t.wctl r = s.wctl r) ∧
    (∀ d ∈ s.pdSet pd, d ≠ pd → (d, true, s.now + 24) ∈ t.pm.pdTwins) ∧ (∀ x ∈ t.pm.pdTwins, x ∈ s.pm.pdTwins ∨ (x.1 ∈ s.pdSet pd ∧ x.1 ≠ pd))) ∧
  (∀ (s : State) (pd : PdId) (m : PdMove), s.pdMoves.find? (fun x => x.pd == pd) = some m →
    (m.since + pdTime pd ≤ s.now → Leads (.domainSwitchDone pd) s fun t => t.domainOn pd = true ∧ (∀ x ∈ t.pdMoves, x.pd ≠ pd) ∧ t.mem = s.mem ∧
      t.parts = s.parts ∧ t.cmds = s.cmds ∧ t.hw = s.hw ∧ ∀ q, m.port = some q → (t.port q).pdDone = true ∧ (t.port q).pdStatus = 0) ∧
    (s.now < m.since + pdTime pd → Gives (.domainSwitchDone pd) s s)) ∧
  (∀ (s : State) (pd : PdId), s.pdMoves.find? (fun x => x.pd == pd) = none → Gives (.domainSwitchDone pd) s s) ∧
  (∀ (s : State) (r : WellPart), (s.wctl r).st = .powering → (s.wctl r).since + 3200 ≤ s.now → Leads (.halfWellPowerUpDone r) s fun t =>
    (t.wctl r).st = .unfilled ∧ t.domainOn (partPd r) = true ∧ t.mem = s.mem ∧ t.parts = s.parts ∧ t.cmds = s.cmds ∧
    (∀ a, (partSpan r).1 ≤ a → a < (partSpan r).1 + (partSpan r).2 → t.undefAt a = some s.fresh) ∧
    ∀ q, (s.wctl r).port = some q → (t.port q).pdDone = true ∧ (t.port q).pdStatus = 0) ∧
  (∀ (s : State) (r : WellPart), ¬ ((s.wctl r).st = .powering ∧ (s.wctl r).since + 3200 ≤ s.now) → Gives (.halfWellPowerUpDone r) s s)) ∧
  ((∀ (s : State) (p : Port) (pd : PdId), s.reached p = true → s.ownsPd p pd = true → s.pdAnswer p pd false = none → Leads (.domainOff p pd) s fun t =>
    t.sys = s.sys ∧ (t.port p).pdDone = (pdPart pd).isNone ∧ (t.port p).pdStatus = 0 ∧ (t.port p).pdDomain = BitVec.ofNat 7 pd.val ∧
    (∀ r, pdPart pd = some r → t.mem = s.mem ∧ t.cmds = s.cmds ∧ t.pdOn = s.pdOn ∧ t.parts = s.parts ∧
      (t.wctl r).st = .closing ∧ (t.wctl r).since = s.now ∧ (t.wctl r).port = some p ∧
      (∀ o ∈ s.ops, o.id ∈ (t.wctl r).ops ↔ ∃ o' ∈ s.ops, o'.id = o.id ∧ ∃ w ∈ o'.writes, overlap w.lo w.len (partSpan r).1 (partSpan r).2 = true) ∧
      (∀ c ∈ s.cmds, c.countedAt r = true → c.adm ∈ (t.wctl r).cmds) ∧
      (∀ x ∈ s.sph.remoteRegs, x.2.wr = true → x.1 ∉ s.sph.lateRegs → overlap x.2.lo x.2.len (partSpan r).1 (partSpan r).2 = true → x.1 ∈ (t.wctl r).regs)) ∧
    (pdPart pd = none → t.domainOn pd = false) ∧
    (∀ d ∈ s.pdSet pd, d ≠ pd → (d, false, s.now + 24) ∈ t.pm.pdTwins)) ∧
  (∀ (s : State) (r : WellPart), (s.wctl r).st = .closing → s.inflightOf r = 0 → Leads (.halfWellPowerDownDone r) s fun t =>
    t.wctl r = {} ∧ t.domainOn (partPd r) = false ∧ t.mem = s.mem ∧ t.parts = s.parts ∧ t.cmds = s.cmds ∧ t.ops = s.ops ∧
    ∀ q, (s.wctl r).port = some q → (t.port q).pdDone = true ∧ (t.port q).pdStatus = 0) ∧
  (∀ (s : State) (r : WellPart), ¬ ((s.wctl r).st = .closing ∧ s.inflightOf r = 0) → Gives (.halfWellPowerDownDone r) s s) ∧
  (∀ (s : State) (r : WellPart), (s.wctl r).st = .closing → (s.wctl r).since + 1280 ≤ s.now → Leads (.gateTimeout r) s fun t =>
    t.wctl r = {} ∧ t.domainOn (partPd r) = false ∧ (∀ o ∈ t.ops, o.id ∉ (s.wctl r).ops) ∧
    (∀ c ∈ s.countedCmds r, ∀ d ∈ t.cmds, d.adm = c.adm → d.life = .ended) ∧ (∀ k ∈ s.countedRegs r, k ∈ t.sph.lateRegs) ∧
    (s.inflightOf r ≠ 0 → Flagged t (.wel (partClus r)) 2) ∧
    ∀ q, (s.wctl r).port = some q → (t.port q).pdDone = true ∧ (t.port q).pdStatus = 0) ∧
  (∀ (s : State) (r : WellPart), ¬ ((s.wctl r).st = .closing ∧ (s.wctl r).since + 1280 ≤ s.now) → Gives (.gateTimeout r) s s))

/-- Network time (R391 to R394, R422; that a cycle passes on an empty queue is the model's choice, log entry 17), through a port that an access reaches: a
read of TB_NOW_CNT latches the count and its network time for the reading port alone and returns the count's low word; an op written to TB_CMD waits, and a
module that follows its partner's timebase refuses it. At the next count of a clocked module one op that waits applies, the first of port A's before those of
port B: a rate in range takes effect there, where network time does not jump, and each count after it adds the new rate; one out of range and a step beyond
jump_max without force are refused in TB_RESULT and leave the time of every count; a step adds its value to the time of every count. No op moves the counter.
PPS (R396, R397): PPS_OUT rises at the count at which network time reaches a new whole second for which it has not risen, with out_en set, and falls after its
width; an edge of PPS_IN stores its count and is counted; 1.5 s without one under in_watch sets TB_ERR bit 1. Before they are due the rows change nothing, and
an edge does not in a module that is off or not clocked. It rests on choices of the model: log entries 81, 149 and 211. -/
def Obligations.NetworkTimeFollowsItsOps : Prop :=
  ((∀ (s : State) (p : Port), s.reached p = true → Leads (.tbNowRead p) s fun t => Emits s t (.readData (some p) (leBytes 4 s.now)) ∧ t.tb = s.tb ∧
    t.counter = s.counter ∧ (t.port p).nowCnt = s.counter ∧ (t.port p).nowTime = BitVec.ofNat 80 (s.tb.time s.now) ∧
    (t.port p.other).nowCnt = (s.port p.other).nowCnt ∧ (t.port p.other).nowTime = (s.port p.other).nowTime) ∧
  (∀ (s : State) (p : Port) (force : Bool), s.reached p = true → s.tbFollows = false →
    Gives (.tbRateOp p) s { s with tb := { s.tb with ops := s.tb.ops ++ [.rate p (s.port p).tbRateSet] } } ∧
    Gives (.tbStepOp p force) s { s with tb := { s.tb with ops := s.tb.ops ++ [.step p (s.port p).tbAdj force] } }) ∧
  (∀ (s : State) (p : Port) (force : Bool), s.reached p = true → s.tbFollows = true →
    Gives (.tbRateOp p) s (s.flag .sph 8) ∧ Gives (.tbStepOp p force) s (s.flag .sph 8)) ∧
  (∀ (s : State) (before after : List TbOp) (o : TbOp), s.pending = [] → s.sys.rails = .on → s.sys.clocked = true → s.det.holdNow = false →
    s.tb.ops = before ++ o :: after → (∀ x ∈ before, x.port = .b) → (o.port = .a ∨ (before = [] ∧ ∀ x ∈ after, x.port = .b)) →
    let w := (s.counter + 1).toNat
    ∃ t, step s = .next t ∧ t.tb.ops = before ++ after ∧ t.counter = s.counter + 1 ∧ (t.port o.port).tbResCount = BitVec.ofNat 32 w ∧
      (∀ p r, o = .rate p r → r.toInt.natAbs ≤ 281474976710 →
        t.tb.rate = r ∧ t.tb.anchor = s.counter + 1 ∧ (t.port p).tbResStatus = 0 ∧
        ∀ k, (t.tb.time (w + k) : Int) = (s.tb.time w + k * 102400 + k * r.toInt * 102400 / 2 ^ 48) % 2 ^ 80) ∧
      (∀ p r, o = .rate p r → 281474976710 < r.toInt.natAbs →
        (∀ c, t.tb.time c = s.tb.time c) ∧ (t.port p).tbResStatus = BitVec.ofNat 16 St.badCommand.code) ∧
      (∀ p a force, o = .step p a force → (force = true ∨ a.toInt.natAbs ≤ s.tb.jumpMax.toNat * 65536) →
        (∀ c, (t.tb.time c : Int) = (s.tb.time c + a.toInt) % 2 ^ 80) ∧ t.tb.ppsSecond = none ∧ (t.port p).tbResStatus = 0) ∧
      (∀ p a, o = .step p a false → s.tb.jumpMax.toNat * 65536 < a.toInt.natAbs →
        (∀ c, t.tb.time c = s.tb.time c) ∧ (t.port p).tbResStatus = BitVec.ofNat 16 St.timeJumpRefused.code ∧ (t.err .tb).getLsbD 0 = true))) ∧
  ((∀ (s : State), s.tb.pps.getLsbD 0 = true → s.tb.ppsStopped = false → s.tb.ppsLevel = false → s.sys.clocked = true → s.now ≠ 0 →
    s.tb.second (s.now - 1) ≠ s.tb.second s.now → s.tb.ppsSecond ≠ some (s.tb.second s.now) → Leads .ppsOutRise s fun t =>
      Emits s t (.ppsOut true) ∧ t.tb = { s.tb with ppsLevel := true, ppsRose := s.now, ppsSecond := some (s.tb.second s.now) } ∧ t.errs = s.errs) ∧
  (∀ (s : State), (s.tb.pps.getLsbD 0 = false ∨ s.tb.ppsStopped = true ∨ s.tb.ppsLevel = true ∨ s.sys.clocked = false ∨ s.now = 0 ∨
      s.tb.second (s.now - 1) = s.tb.second s.now ∨ s.tb.ppsSecond = some (s.tb.second s.now)) → Gives .ppsOutRise s s) ∧
  (∀ (s : State), s.tb.ppsLevel = true → s.tb.ppsRose + s.tb.ppsWidth ≤ s.now → Leads .ppsOutFall s fun t =>
    Emits s t (.ppsOut false) ∧ t.tb = { s.tb with ppsLevel := false } ∧ t.errs = s.errs) ∧
  (∀ (s : State), ¬ (s.tb.ppsLevel = true ∧ s.tb.ppsRose + s.tb.ppsWidth ≤ s.now) → Gives .ppsOutFall s s) ∧
  (∀ (s : State) (c : W64), s.sys.rails = .on → s.sys.clocked = true →
    Gives (.ppsInEdge c) s { s with tb := { s.tb with ppsIn := c, ppsInN := s.tb.ppsInN + 1, ppsWatch := c.toNat } }) ∧
  (∀ (s : State) (c : W64), ¬ (s.sys.rails = .on ∧ s.sys.clocked = true) → Gives (.ppsInEdge c) s s) ∧
  (∀ (s : State), Gives .ppsInLost s (if s.tb.pps.getLsbD 1 = true ∧ s.tb.ppsWatch + 960000000 ≤ s.now then s.flag .tb 1 else s)))

/-- Ethernet ports of a die that is there, through a port that an access reaches (R382, R385, R386, R387, Table NET-5): a write by a host port that may not
write an Ethernet port changes nothing and sets NET_ERR bit 1; an enabled OFF port trains with its owner, or sets bit 0 when its mode is not one of its kind;
a disabled one is OFF without an owner; training ends UP at the link's speed, and an UP link lost is DOWN with bit 5; the other ports stay. Producer writes
set their counts; frames written while the port is not UP complete at once, unsent. In every other state an enable, a disable and a link change nothing, and
no write reaches a port of an absent die (R486). It rests on choices of the model: log entries 211 and 231. -/
def Obligations.EthernetPortsFollowTheirOps : Prop :=
  (∀ (s : State) (p : Port) (e : EthId) (b : Bool) (v : W32), s.reached p = true → s.diePresent (dieOfEth e) = true → s.mayEth p e = false →
    Gives (.netPortEnable p e) s (s.flag (.net (dieOfEth e)) 1) ∧ Gives (.netPortDisable p e) s (s.flag (.net (dieOfEth e)) 1) ∧
    Gives (.netTxProducerWrite p e b v) s (s.flag (.net (dieOfEth e)) 1) ∧ Gives (.netRxProducerWrite p e v) s (s.flag (.net (dieOfEth e)) 1)) ∧
  (∀ (s : State) (p : Port) (e : EthId) (b : Bool) (v : W32), s.diePresent (dieOfEth e) = false →
    Gives (.netPortEnable p e) s s ∧ Gives (.netPortDisable p e) s s ∧ Gives (.netTxProducerWrite p e b v) s s ∧ Gives (.netRxProducerWrite p e v) s s) ∧
  (∀ (s : State) (p : Port) (e : EthId), s.reached p = true → s.diePresent (dieOfEth e) = true → s.mayEth p e = true →
    (s.eth[e].state ≠ .off → Gives (.netPortEnable p e) s s) ∧
    (s.eth[e].state = .off ∨ s.eth[e].state = .fenced ∨ s.eth[e].state = .notReady → Gives (.netPortDisable p e) s s)) ∧
  (∀ (s : State) (p : Port) (e : EthId), s.reached p = true → s.diePresent (dieOfEth e) = true → s.mayEth p e = true → s.eth[e].state = .off → Gives (.netPortEnable p e) s
    (if (e.val < 4 ∧ 1 ≤ s.eth[e].cfg.toNat % 8 ∧ s.eth[e].cfg.toNat % 8 ≤ 3) ∨ (4 ≤ e.val ∧ s.eth[e].cfg.toNat % 8 = 4) then
      s.setEth e { s.eth[e] with state := .training, owner := some p } else s.flag (.net (dieOfEth e)) 0)) ∧
  (∀ (s : State) (p : Port) (e : EthId), s.reached p = true → s.diePresent (dieOfEth e) = true → s.mayEth p e = true → (s.eth[e].state = .training ∨ s.eth[e].state = .up ∨ s.eth[e].state = .down) →
    Leads (.netPortDisable p e) s fun t => t.eth[e].state = .off ∧ t.eth[e].owner = none ∧ t.eth[e].speed = 0 ∧
      (∀ f : EthId, f ≠ e → t.eth[f] = s.eth[f]) ∧ t.tb = s.tb ∧ t.parts = s.parts ∧ t.cmds = s.cmds ∧
      ∀ a : AxisId, (s.axes[a].state = .armed ∨ s.axes[a].state = .run) → ∀ h : s.axes[a].station < 32, (s.stations[s.axes[a].station]).port = e →
        t.axes[a].state = .fault ∧ t.axes[a].cause = 8) ∧
  (∀ (s : State) (e : EthId) (v : Nat), (s.eth[e].state = .training ∨ s.eth[e].state = .down) → 1 ≤ linkSpeed e s.eth[e].cfg v →
    linkSpeed e s.eth[e].cfg v ≤ 4 →
    Gives (.ethLinkUp e v) s (s.setEth e { s.eth[e] with state := .up, speed := linkSpeed e s.eth[e].cfg v, busy := s.now })) ∧
  (∀ (s : State) (e : EthId) (v : Nat), ¬ ((s.eth[e].state = .training ∨ s.eth[e].state = .down) ∧ 1 ≤ linkSpeed e s.eth[e].cfg v ∧
    linkSpeed e s.eth[e].cfg v ≤ 4) → Gives (.ethLinkUp e v) s s) ∧
  (∀ (s : State) (e : EthId), s.eth[e].state = .up → Leads (.ethLinkDown e) s fun t => t.eth[e].state = .down ∧ t.eth[e].speed = 0 ∧
    t.eth[e].owner = s.eth[e].owner ∧ Flagged t (.net (dieOfEth e)) 5 ∧ (∀ f : EthId, f ≠ e → t.eth[f] = s.eth[f]) ∧ t.axes = s.axes ∧
    t.parts = s.parts) ∧
  (∀ (s : State) (e : EthId), s.eth[e].state ≠ .up → Gives (.ethLinkDown e) s s) ∧
  (∀ (s : State) (p : Port) (e : EthId) (b : Bool) (v : W32), s.reached p = true → s.diePresent (dieOfEth e) = true → s.mayEth p e = true →
    (s.eth[e].state = .up ∨ ringOf (if b then s.eth[e].txtBase else s.eth[e].txgBase) = none) →
    Gives (.netTxProducerWrite p e b v) s (s.setEth e (if b then { s.eth[e] with txtProd := v } else { s.eth[e] with txgProd := v }))) ∧
  (∀ (s : State) (p : Port) (e : EthId) (v : W32), s.reached p = true → s.diePresent (dieOfEth e) = true → s.mayEth p e = true → s.eth[e].state ≠ .up →
    ((ringOf s.eth[e].txtBase).isSome = true → (v - s.eth[e].txtDone).toNat ≤ 4096 → Leads (.netTxProducerWrite p e true v) s fun t =>
      t.eth[e].txtProd = v ∧ t.eth[e].txtDone = v ∧ t.eth[e].txgDone = s.eth[e].txgDone ∧ ∀ f : EthId, f ≠ e → t.eth[f] = s.eth[f]) ∧
    ((ringOf s.eth[e].txgBase).isSome = true → (v - s.eth[e].txgDone).toNat ≤ 4096 → Leads (.netTxProducerWrite p e false v) s fun t =>
      t.eth[e].txgProd = v ∧ t.eth[e].txgDone = v ∧ t.eth[e].txtDone = s.eth[e].txtDone ∧ ∀ f : EthId, f ≠ e → t.eth[f] = s.eth[f])) ∧
  (∀ (s : State) (p : Port) (e : EthId) (v : W32), s.reached p = true → s.diePresent (dieOfEth e) = true → s.mayEth p e = true → Gives (.netRxProducerWrite p e v) s (s.setEth e { s.eth[e] with rxProd := v }))

/-- A received frame (R384, R387, Table NET-2): one at a port that is not UP is lost; one with a bad FCS or length is counted bad, and one that passes no
filter is counted filtered, and nothing else changes; one of the loop engine or of a binding waits there; any other takes the next descriptor of the host
receive ring, whose done count advances, or sets NET_ERR bit 4 when there is none. Transmission (R386, R388, R389): a port that is not UP, or that is still
sending, starts nothing; a head that breaks Table NET-3 completes with NET_ERR bit 2; a drive frame whose launch count is the present one leaves first, and
then the timed head at its launch count, which completes; each keeps the port busy for its wire time. With neither, the head of the general ring leaves when
it is over before the next reserved count. A drive frame that has missed its count is gone, and LPE_ERR bit 12 says so. A timed head that has missed its count
is dropped with ST_MISSED, or kept to be sent late, as its descriptor asks, and is counted. It rests on choices of the model: log entries 60, 71, 78, 79 and
82. -/
def Obligations.FramesComeAndGo : Prop :=
  (∀ (s : State) (e : EthId) (stamp : Nat) (fcs : Bool) (f : List Byte),
    let x := s.eth[e]
    let bad := fcs = false ∨ f.length < 60 ∨ 1518 < f.length
    let loop := (etherOf f).2 = 0x88B5 ∧ fieldAt f ((etherOf f).1 + 1) 1 = 2 ∧ s.stationsAt e (bytesAt f 6 6) ≠ []
    let audio := ∃ b ∈ s.bindings, b.matches e f = true
    (x.state ≠ .up → Gives (.ethFrameReceive e stamp fcs f) s s) ∧
    (x.state = .up → bad → Gives (.ethFrameReceive e stamp fcs f) s (s.setEth e { x with rxBad := satAdd 8 x.rxBad 1 })) ∧
    (x.state = .up → ¬ bad → x.passes (bytesAt f 0 6) = false →
      Gives (.ethFrameReceive e stamp fcs f) s (s.setEth e { x with rxFiltered := satAdd 16 x.rxFiltered 1 })) ∧
    (x.state = .up → ¬ bad → x.passes (bytesAt f 0 6) = true → loop →
      Gives (.ethFrameReceive e stamp fcs f) s (s.setEth e { x with toLoop := x.toLoop ++ [(stamp, f)] })) ∧
    (x.state = .up → ¬ bad → x.passes (bytesAt f 0 6) = true → ¬ loop → audio →
      Gives (.ethFrameReceive e stamp fcs f) s (s.setEth e { x with toAudio := x.toAudio ++ [(stamp, f)] })) ∧
    (x.state = .up → ¬ bad → x.passes (bytesAt f 0 6) = true → ¬ loop → ¬ audio → (ringOf x.rxBase = none ∨ x.rxProd = x.rxDone) →
      Gives (.ethFrameReceive e stamp fcs f) s ((s.setEth e { x with rxNoDesc := satAdd 8 x.rxNoDesc 1 }).flag (.net (dieOfEth e)) 4)) ∧
    (x.state = .up → ¬ bad → x.passes (bytesAt f 0 6) = true → ¬ loop → ¬ audio → (ringOf x.rxBase).isSome = true → x.rxProd ≠ x.rxDone →
      Leads (.ethFrameReceive e stamp fcs f) s fun t => t.eth[e] = { x with rxDone := x.rxDone + 1 } ∧ (∀ g : EthId, g ≠ e → t.eth[g] = s.eth[g]) ∧
        t.parts = s.parts ∧ t.cmds = s.cmds ∧ t.tb = s.tb)) ∧
  ((∀ (s : State) (e : EthId), s.eth[e].state ≠ .up → Gives (.transmitStart e) s s) ∧
  (∀ (s : State) (e : EthId) (d : List Byte), s.eth[e].state = .up → s.txHead e true = some d → s.txOk true d = false → Leads (.transmitStart e) s fun t =>
    t.eth[e].txtDone = s.eth[e].txtDone + 1 ∧ t.eth[e].txgDone = s.eth[e].txgDone ∧ Flagged t (.net (dieOfEth e)) 2 ∧
    t.eth[e].busy = s.eth[e].busy) ∧
  (∀ (s : State) (e : EthId), s.eth[e].state = .up → (∀ d, s.txHead e true = some d → s.txOk true d = true) → (∀ d, s.txHead e false = some d → s.txOk false d = true) →
    s.now < s.eth[e].busy → Gives (.transmitStart e) s s) ∧
  (∀ (s : State) (e : EthId) (f : DriveFrame), s.eth[e].state = .up → (∀ d, s.txHead e true = some d → s.txOk true d = true) →
    (∀ d, s.txHead e false = some d → s.txOk false d = true) → s.eth[e].busy ≤ s.now → s.driveNow e = some f → Leads (.transmitStart e) s fun t =>
      Emits s t (.ethFrame e s.now (f.frame ++ repByte (60 - f.frame.length) 0)) ∧ (∀ g ∈ t.eth[e].drives, g ≠ f) ∧
      t.stations[f.station] = { s.stations[f.station] with seq := BitVec.ofNat 32 f.k } ∧
      t.eth[e].busy = s.now + wireTime s.eth[e].speed (max 60 f.frame.length) ∧ t.eth[e].txtDone = s.eth[e].txtDone) ∧
  (∀ (s : State) (e : EthId) (d : List Byte), s.eth[e].state = .up → s.txHead e true = some d → s.txOk true d = true →
    (∀ g, s.txHead e false = some g → s.txOk false g = true) → s.eth[e].busy ≤ s.now → s.driveNow e = none → s.txLaunch d = s.now → s.eth[e].lateHead = false →
    clearUntil (s.nextReserved e s.now) (s.now + wireTime s.eth[e].speed (txLen d) + 16) = true → Leads (.transmitStart e) s fun t =>
      let f := s.insertPtp d (s.txRead d).1 s.now
      Out.ethFrame e s.now f ∈ t.out ∧ t.eth[e].txtDone = s.eth[e].txtDone + 1 ∧ t.eth[e].busy = s.now + wireTime s.eth[e].speed f.length ∧
      t.eth[e].txgDone = s.eth[e].txgDone) ∧
  (∀ (s : State) (e : EthId) (d : List Byte), s.eth[e].state = .up → s.txHead e true = none → s.txHead e false = some d → s.txOk false d = true →
    s.eth[e].busy ≤ s.now → s.driveNow e = none →
    clearUntil (s.nextReserved e s.now) (s.now + wireTime s.eth[e].speed (txLen d) + 16) = true → Leads (.transmitStart e) s fun t =>
      let f := s.insertPtp d (s.txRead d).1 s.now
      Out.ethFrame e s.now f ∈ t.out ∧ t.eth[e].txgDone = s.eth[e].txgDone + 1 ∧ t.eth[e].busy = s.now + wireTime s.eth[e].speed f.length ∧
      t.eth[e].txtDone = s.eth[e].txtDone) ∧
  (∀ (s : State) (e : EthId) (f : DriveFrame), f ∈ s.eth[e].drives → f.launch < s.now → Leads (.launchLate e) s fun t =>
    (∀ g ∈ t.eth[e].drives, s.now ≤ g.launch) ∧ Flagged t (.lpe (dieOfStation f.station)) 12 ∧
    (s.eth[e].state = .up → Flagged t (.net (dieOfEth e)) 3)) ∧
  (∀ (s : State) (e : EthId) (d : List Byte), s.eth[e].state = .up → s.eth[e].drives = [] → s.txHead e true = some d → s.txOk true d = true →
    s.txLaunch d < s.now → s.eth[e].lateHead = false → Leads (.launchLate e) s fun t => Flagged t (.net (dieOfEth e)) 3 ∧
      t.eth[e].late = satAdd 8 s.eth[e].late 1 ∧
      (txField d 52 1 = 0 → t.eth[e].txtDone = s.eth[e].txtDone + 1) ∧
      (txField d 52 1 ≠ 0 → t.eth[e].txtDone = s.eth[e].txtDone ∧ t.eth[e].lateHead = true)) ∧
  (∀ (s : State) (e : EthId), (∀ f ∈ s.eth[e].drives, s.now ≤ f.launch) → (∀ d, s.txHead e true = some d → s.now ≤ s.txLaunch d) → Gives (.launchLate e) s s))

/-- Stations and axes of a die that is there, through a port that an access reaches (R358 to R361, R374, R378, R486): a write by a port that may not write a
station or axis changes nothing and sets LPE_ERR bit 1; a block that may be loaded puts a station in RUN at its phase and an axis in ARMED with its block; one
that may not sets bit 0 and leaves it; a loaded axis that is ARMED or runs holds the new block as its reload; a station without axes and an ARMED or FAULT
axis go OFF; a tripped axis faults with cause SOFTWARE. FAULT_OUT's latch clears when no axis or pair causes it. No write reaches a station or axis of an
absent die. It rests on choices of the model: log entries 181, 202, 203, 211 and 231. -/
def Obligations.StationsAndAxesAreLoadedAndStopped : Prop :=
  (∀ (s : State) (p : Port) (k : StationId) (a : AxisId),
    (s.diePresent (dieOfStation k) = false → Gives (.stationLoad p k) s s ∧ Gives (.stationDisable p k) s s) ∧
    (s.diePresent (dieOfAxis a) = false → Gives (.axisLoad p a) s s ∧ Gives (.axisDisable p a) s s ∧ Gives (.axisTrip p a) s s)) ∧
  (∀ (s : State) (p : Port) (k : StationId), s.reached p = true → s.diePresent (dieOfStation k) = true → s.mayStation p k = false →
    Gives (.stationLoad p k) s (s.flag (.lpe (dieOfStation k)) 1) ∧ Gives (.stationDisable p k) s (s.flag (.lpe (dieOfStation k)) 1)) ∧
  (∀ (s : State) (p : Port) (a : AxisId), s.reached p = true → s.diePresent (dieOfAxis a) = true → s.mayAxis p a = false →
    Gives (.axisLoad p a) s (s.flag (.lpe (dieOfAxis a)) 1) ∧
    Gives (.axisDisable p a) s (s.flag (.lpe (dieOfAxis a)) 1) ∧ Gives (.axisTrip p a) s (s.flag (.lpe (dieOfAxis a)) 1)) ∧
  (∀ (s : State) (p : Port) (k : StationId), s.reached p = true → s.diePresent (dieOfStation k) = true → s.mayStation p k = true →
    let b := (s.readBlock s.stations[k].cfgAddr.toNat 64).1.getD []
    let phase := near48 s.now (fieldAt b 16 6)
    let good := (s.readBlock s.stations[k].cfgAddr.toNat 64).1 ≠ none ∧ stationOk k b = true ∧ (s.stations[k].state = .off ∨ s.stations[k].state = .notReady) ∧
      s.lpeUsable (dieOfStation k) = true ∧ s.owns p (Fin.ofNat 16 (fieldAt b 10 1)) = true ∧ s.sph.role ≠ 1 ∧ s.stationReserved k = false
    (good → Leads (.stationLoad p k) s fun t => t.stations[k].state = .run ∧ t.stations[k].blk = b ∧ t.stations[k].phase = phase ∧
      t.stations[k].next = (if s.now < phase then 0 else (s.now - phase) / fieldAt b 12 4 + 1) ∧ t.stations[k].updated = none ∧ t.stations[k].fb = none ∧
      (∀ l : StationId, l ≠ k → t.stations[l] = s.stations[l]) ∧ t.axes = s.axes ∧ t.mem = s.mem ∧ t.parts = s.parts) ∧
    (¬ good → Leads (.stationLoad p k) s fun t => Flagged t (.lpe (dieOfStation k)) 0 ∧ t.stations = s.stations ∧ t.axes = s.axes ∧ t.mem = s.mem)) ∧
  (∀ (s : State) (p : Port) (k : StationId), s.reached p = true → s.diePresent (dieOfStation k) = true → s.mayStation p k = true →
    (s.axesOf k ≠ [] → Gives (.stationDisable p k) s (s.flag (.lpe (dieOfStation k)) 0)) ∧
    (s.axesOf k = [] → Leads (.stationDisable p k) s fun t =>
      t.stations[k] = { s.stations[k] with state := .off, updated := none, fb := none, held := none } ∧
      (∀ l : StationId, l ≠ k → t.stations[l] = s.stations[l]) ∧ t.mem = s.mem ∧ t.errs = s.errs ∧
      (∀ a : AxisId, s.axes[a].state ≠ .notReady → t.axes[a] = s.axes[a]) ∧
      ∀ a : AxisId, s.axes[a].state = .notReady → s.axes[a].blk ≠ [] → s.axes[a].station = k.val → t.axes[a].state = .off)) ∧
  (∀ (s : State) (p : Port) (a : AxisId) (b : List Byte), s.reached p = true → s.diePresent (dieOfAxis a) = true → s.mayAxis p a = true →
    (s.readBlock s.axes[a].cfgAddr.toNat 128).1 = some b → axisOk b = true → s.axisFits a b = true →
    (s.axes[a].state ≠ .armed → s.axes[a].state ≠ .run → Leads (.axisLoad p a) s fun t => t.axes[a].state = .armed ∧ t.axes[a].blk = b ∧ t.axes[a].cause = 0 ∧
      t.axes[a].u = s.axes[a].u ∧ (∀ o : AxisId, o ≠ a → t.axes[o] = s.axes[o]) ∧ t.stations = s.stations ∧ t.mem = s.mem) ∧
    ((s.axes[a].state = .armed ∨ s.axes[a].state = .run) → b.take 8 = s.axes[a].blk.take 8 → b.drop 60 = s.axes[a].blk.drop 60 →
      Leads (.axisLoad p a) s fun t => t.axes[a] = { s.axes[a] with reload := some b } ∧
        (∀ o : AxisId, o ≠ a → t.axes[o] = s.axes[o]) ∧ t.stations = s.stations ∧ t.mem = s.mem)) ∧
  (∀ (s : State) (p : Port) (a : AxisId), s.reached p = true → s.diePresent (dieOfAxis a) = true → s.mayAxis p a = true →
    ((s.readBlock s.axes[a].cfgAddr.toNat 128).1 = none ∨ ∃ b, (s.readBlock s.axes[a].cfgAddr.toNat 128).1 = some b ∧ (axisOk b = false ∨ s.axisFits a b = false ∨
      ((s.axes[a].state = .armed ∨ s.axes[a].state = .run) ∧ (b.take 8 ≠ s.axes[a].blk.take 8 ∨ b.drop 60 ≠ s.axes[a].blk.drop 60)))) →
    Leads (.axisLoad p a) s fun t => Flagged t (.lpe (dieOfAxis a)) 0 ∧ t.axes = s.axes ∧ t.stations = s.stations ∧ t.mem = s.mem) ∧
  (∀ (s : State) (p : Port) (a : AxisId), s.reached p = true → s.diePresent (dieOfAxis a) = true → s.mayAxis p a = true → Gives (.axisDisable p a) s
    (if s.axes[a].state = .armed ∨ s.axes[a].state = .fault then
      s.setAxis a { s.axes[a] with state := .off, cause := 0, blk := [], reload := none, goRun := false, paired := false } else s.flag (.lpe (dieOfAxis a)) 0)) ∧
  (∀ (s : State) (p : Port) (a : AxisId), s.reached p = true → s.diePresent (dieOfAxis a) = true → s.mayAxis p a = true →
    ((s.axes[a].state = .armed ∨ s.axes[a].state = .run) → Leads (.axisTrip p a) s fun t =>
      t.axes[a] = { s.axes[a] with state := .fault, cause := 8, goRun := false } ∧ (∀ o : AxisId, o ≠ a → t.axes[o] = s.axes[o]) ∧
      t.lpeLatched = (s.lpeLatched || s.axes[a].faultOut) ∧ t.stations = s.stations ∧ t.mem = s.mem) ∧
    (¬ (s.axes[a].state = .armed ∨ s.axes[a].state = .run) → Gives (.axisTrip p a) s s)) ∧
  (∀ (s : State) (p : Port), s.reached p = true → s.axisCause = false → s.pairCause = false → Gives (.faultLatchClear p) s { s with lpeLatched := false }) ∧
  (∀ (s : State) (p : Port), (s.axisCause = true ∨ s.pairCause = true) → Gives (.faultLatchClear p) s s)

/-- A sample (R359, R361 to R363, R370 to R373; that a cycle passes on an empty queue is the model's choice, log entry 17): at t_k a reload that an axis of
the station holds takes effect and an ARMED axis whose queue has begun enters RUN with u_init; at t_k + fb_off the station's sample is updated once and waits
for its frame, unless another station of the engine is due first; axes of other stations stay. The one axis of a station, in FAULT, sends its safe output; in
RUN without feedback it counts a miss, and faults with LPE_ERR bit 5 when its limit is reached. Before that count the row changes nothing. Frames of the loop
engine (R363, R364, R375, R377, R409, R413): at its count a station in RUN with axes hands its drive frame to its port, or holds it for the comparison when it
runs paired, and one that is HALTED sends none; an equal comparison 64 counts later hands the frame over, an unequal one drops it, halts the station and
faults its axes with cause PAIR; the engines' test shows its outcome as Table PRG-5 has it. A feedback frame in time, of a sample to come, is kept for its
sample, unless one of it or of a later sample is kept already; one out of shape is counted with LPE_ERR bit 2, one that came too late sets bit 3, and both
leave the station's feedback. It rests on choices of the model: log entries 75, 83, 202 and 203. -/
def Obligations.LoopFramesMoveTheAxes : Prop :=
  ((∀ (s : State) (k : StationId) (a : AxisId), s.pending = [] → s.sys.rails = .on → s.sys.clocked = true → s.det.holdNow = false → s.tb.ops = [] → s.pm.pdTwins = [] →
    s.stations[k].atInst (s.counter + 1).toNat = true → a ∈ s.axesOf k → ∃ t, step s = .next t ∧
      (∀ b, s.axes[a].reload = some b → t.axes[a].blk = b ∧ t.axes[a].reload = none) ∧
      (s.axes[a].reload = none → s.axes[a].state = .armed → s.axes[a].goRun = true →
        t.axes[a].state = .run ∧ t.axes[a].goRun = false ∧ t.axes[a].i = 0 ∧ t.axes[a].d = 0 ∧ t.axes[a].uPrev = s.axes[a].uInit) ∧
      t.axes[a].u = s.axes[a].u ∧ t.stations = s.stations) ∧
  (∀ (s : State) (k : StationId), (s.stations[k].state = .run ∨ s.stations[k].state = .halted) → s.stations[k].updated = none →
    s.stations[k].inst s.stations[k].next + s.stations[k].fbOff ≤ s.now → s.stFirst k = false → Leads (.feedbackDue k) s fun t =>
      t.stations[k].next = s.stations[k].next + 1 ∧ t.stations[k].updated = some s.stations[k].next ∧ t.stations[k].state = s.stations[k].state ∧
      (∀ l : StationId, l ≠ k → t.stations[l] = s.stations[l]) ∧ (∀ a : AxisId, a ∉ s.axesOf k → t.axes[a] = s.axes[a]) ∧ t.mem = s.mem ∧ t.parts = s.parts ∧
      t.eth = s.eth ∧
      ∀ a : AxisId, s.axesOf k = [a] → s.stations[k].fb = none →
        (s.axes[a].state = .fault → t.axes[a].state = .fault ∧ t.axes[a].u = s.axes[a].safeOut ∧ t.axes[a].cause = s.axes[a].cause) ∧
        (s.axes[a].state = .run → t.axes[a].missTotal = satAdd 24 s.axes[a].missTotal 1 ∧
          (s.axes[a].missLimit ≤ s.axes[a].missRun + 1 → t.axes[a].state = .fault ∧ Flagged t (.lpe (dieOfAxis a)) 5))) ∧
  (∀ (s : State) (k : StationId), ((s.stations[k].state ≠ .run ∧ s.stations[k].state ≠ .halted) ∨ s.stations[k].updated ≠ none ∨
    s.now < s.stations[k].inst s.stations[k].next + s.stations[k].fbOff ∨ s.stFirst k = true) → Gives (.feedbackDue k) s s)) ∧
  ((∀ (s : State) (k : StationId) (n : Nat), s.stations[k].updated = some n →
    s.stations[k].inst n + s.stations[k].launchOff - leadOf (dieOfEth s.stations[k].port != dieOfStation k) (s.stPaired k) ≤ s.now →
    let f : DriveFrame := ⟨k, n, s.stations[k].inst n + s.stations[k].launchOff, s.driveFrame k n (s.axesOf k) (s.stPaired k)⟩
    Leads (.frameAssembly k) s fun t => t.stations[k].updated = none ∧ t.axes = s.axes ∧ t.mem = s.mem ∧
      (s.stations[k].state = .run → s.axesOf k ≠ [] → s.stPaired k = false → t.eth[s.stations[k].port].drives = s.eth[s.stations[k].port].drives ++ [f]) ∧
      (s.stations[k].state = .run → s.axesOf k ≠ [] → s.stPaired k = true → t.stations[k].held = some f ∧ t.eth = s.eth) ∧
      ((s.stations[k].state ≠ .run ∨ s.axesOf k = []) → t.eth = s.eth ∧ t.stations[k].held = s.stations[k].held)) ∧
  (∀ (s : State) (k : StationId), (s.stations[k].updated = none ∨ ∃ n, s.stations[k].updated = some n ∧
    s.now < s.stations[k].inst n + s.stations[k].launchOff - leadOf (dieOfEth s.stations[k].port != dieOfStation k) (s.stPaired k)) →
    Gives (.frameAssembly k) s s) ∧
  (∀ (s : State) (k : StationId) (f : DriveFrame), s.stations[k].held = some f → f.launch - leadOf (dieOfEth s.stations[k].port != dieOfStation k) false ≤ s.now →
    (Leads (.driveFrameCompare k true) s fun t => t.stations[k].held = none ∧ t.axes = s.axes ∧ t.pairs = s.pairs ∧
      t.eth[s.stations[k].port].drives = s.eth[s.stations[k].port].drives ++ [f]) ∧
    (Leads (.driveFrameCompare k false) s fun t => t.stations[k].held = none ∧ t.stations[k].state = .halted ∧ t.eth = s.eth ∧ t.lpeLatched = true ∧
      Flagged t (.lpe (dieOfStation k)) 10 ∧
      (∀ a ∈ s.axesOf k, t.axes[a].state = .fault ∧ (s.axes[a].state ≠ .fault → t.axes[a].cause = 1)) ∧ (∀ a, a ∉ s.axesOf k → t.axes[a] = s.axes[a]) ∧
      ((∀ a ∈ s.axesOf k, s.axes[a].paired = false) → t.pairs = s.pairs) ∧
      ∀ a, s.axesOf k = [a] → s.axes[a].paired = true → (s.pairs[s.axes[a].pairOf]).inFlow = false →
        (t.pairs[s.axes[a].pairOf]).axisTest = true ∧ (t.pairs[s.axes[a].pairOf]).group = 15 ∧ (t.err .prg).getLsbD 1 = true)) ∧
  (∀ (s : State) (k : StationId) (b : Bool), (s.stations[k].held = none ∨ ∃ f, s.stations[k].held = some f ∧
    s.now < f.launch - leadOf (dieOfEth s.stations[k].port != dieOfStation k) false) → Gives (.driveFrameCompare k b) s s) ∧
  (∀ (s : State) (r : PairId) (p0 p1 : Bool), s.pairs[r].axisTest = true → Leads (.axisSelftestDone r p0 p1) s fun t =>
    t.pairs[r].axisTest = false ∧ t.pairs[r].outcome = (if p0 ∧ p1 then 1 else if p0 ∨ p1 then 2 else 3) ∧ t.pairs[r].failD0 = !p0 ∧ t.pairs[r].failD1 = !p1 ∧
    t.pairs[r].state = s.pairs[r].state ∧ t.trb.fenced = s.trb.fenced ∧ (∀ q : PairId, q ≠ r → t.pairs[q] = s.pairs[q]) ∧ t.axes = s.axes) ∧
  (∀ (s : State) (r : PairId) (p0 p1 : Bool), s.pairs[r].axisTest = false → Gives (.axisSelftestDone r p0 p1) s s) ∧
  (∀ (s : State) (e : EthId), s.eth[e].toLoop = [] → Gives (.feedbackFrame e) s s) ∧
  (∀ (s : State) (e : EthId) (stamp : Nat) (f : List Byte) (rest : List (Nat × List Byte)), s.eth[e].toLoop = (stamp, f) :: rest →
    s.stationsAt e (bytesAt f 6 6) = [] → Gives (.feedbackFrame e) s (s.setEth e { s.eth[e] with toLoop := rest })) ∧
  (∀ (s : State) (e : EthId) (stamp : Nat) (f : List Byte) (rest : List (Nat × List Byte)) (k : StationId), s.eth[e].toLoop = (stamp, f) :: rest →
    (s.stationsAt e (bytesAt f 6 6)) = [k] →
    let p := f.drop (etherOf f).1
    let x := s.stations[k]
    let n := x.sampleOf stamp (fieldAt p 4 4)
    let tk := (x.phase : Int) + n * x.period
    let shape := fbOk p k = true ∧ tk ≤ (stamp : Int) ∧ 0 ≤ n
    Leads (.feedbackFrame e) s fun t => t.eth[e].toLoop = rest ∧ t.axes = s.axes ∧ t.mem = s.mem ∧
      (¬ shape → t.stations[k] = { x with fbBad := satAdd 16 x.fbBad 1 } ∧ Flagged t (.lpe (dieOfStation k)) 2) ∧
      (shape → tk + x.fbOff < stamp → t.stations[k] = x ∧ Flagged t (.lpe (dieOfStation k)) 3) ∧
      (shape → (stamp : Int) ≤ tk + x.fbOff → (∃ g, x.fb = some g ∧ n ≤ (g.k : Int)) → t.stations[k] = x) ∧
      (shape → (stamp : Int) ≤ tk + x.fbOff → (∀ g, x.fb = some g → (g.k : Int) < n) →
        t.stations[k] = { x with fb := some ⟨n.toNat, stamp, p⟩, fbLat := BitVec.ofInt 32 ((stamp : Int) - tk) })))

/-- Camera ports of a die that is there, through a port that an access reaches (R324, R325, R331 to R333, R486): a write by a port that may not write a camera
port changes nothing and sets INT_ERR bit 1; a load of a port that is not FENCED, its domain on, with a good block trains it with no frame, one with a bad
block leaves it OFF and sets bit 0, and with the domain off it is NOT_READY; a disabled port is OFF without a frame; a link that comes makes a training port
RUNNING, and one that is lost sends it back to training with bit 2. A CCI write leaves as it stands when none is in progress, and its end clears the busy bit
and shows the read byte, or sets bit 7. The trigger rises at its counts after the enable and falls 64 µs later. No write reaches a port of an absent die. It
rests on choices of the model: log entries 36, 52, 84, 211 and 231. -/
def Obligations.CameraPortsFollowTheirOps : Prop :=
  (∀ (s : State) (p : Port) (v : CamId) (w : W32), s.diePresent (dieOfCam v) = false →
    Gives (.cameraLoad p v) s s ∧ Gives (.cameraDisable p v) s s ∧ Gives (.cciTransaction p v w) s s) ∧
  (∀ (s : State) (p : Port) (v : CamId) (w : W32), s.reached p = true → s.diePresent (dieOfCam v) = true → s.mayCam p v = false →
    Gives (.cameraLoad p v) s (s.flag (.intk (dieOfCam v)) 1) ∧
    Gives (.cameraDisable p v) s (s.flag (.intk (dieOfCam v)) 1) ∧ Gives (.cciTransaction p v w) s (s.flag (.intk (dieOfCam v)) 1)) ∧
  (∀ (s : State) (p : Port) (v : CamId), s.reached p = true → s.diePresent (dieOfCam v) = true → s.mayCam p v = true →
    (s.cams[v].state = .fenced → Gives (.cameraLoad p v) s s) ∧
    (s.cams[v].state ≠ .fenced → s.domainOn (camPd v) = false → Gives (.cameraLoad p v) s (s.setCam v { s.cams[v] with state := .notReady }))) ∧
  (∀ (s : State) (p : Port) (v : CamId), s.reached p = true → s.diePresent (dieOfCam v) = true → s.mayCam p v = true → s.cams[v].state ≠ .fenced →
    s.domainOn (camPd v) = true →
    let b := (s.readBlock s.cams[v].cfgAddr.toNat 128).1.getD []
    let y : Camera := { blk := b }
    let good := (s.readBlock s.cams[v].cfgAddr.toNat 128).1 ≠ none ∧ cameraOk b = true ∧ s.cams[v].cfgAddr.toNat + 128 ≤ s.mainEnd ∧ s.owns p y.part = true ∧
      y.bufBytes ≤ y.bufStride ∧ (∀ i, i < y.nbuf → s.intakePlace y.part (y.bufBase + i * y.bufStride) y.bufBytes = true) ∧
      s.intakePlace y.part y.recBase (64 * y.nbuf) = true
    (good → Leads (.cameraLoad p v) s fun t => t.cams[v].state = .training ∧ t.cams[v].blk = b ∧ t.cams[v].frames = 0 ∧ t.cams[v].cur = none ∧
      t.cams[v].gpio = false ∧ t.cams[v].enabledAt = s.now ∧ (∀ o : CamId, o ≠ v → t.cams[o] = s.cams[o]) ∧ t.mem = s.mem ∧ t.cmds = s.cmds) ∧
    (¬ good → Leads (.cameraLoad p v) s fun t => t.cams[v].state = .off ∧ t.cams[v].blk = s.cams[v].blk ∧ t.cams[v].cur = none ∧ t.cams[v].gpio = false ∧
      Flagged t (.intk (dieOfCam v)) 0 ∧ (∀ o : CamId, o ≠ v → t.cams[o] = s.cams[o]) ∧ t.mem = s.mem ∧ t.cmds = s.cmds)) ∧
  (∀ (s : State) (p : Port) (v : CamId), s.reached p = true → s.diePresent (dieOfCam v) = true → s.mayCam p v = true →
    ((s.cams[v].state = .training ∨ s.cams[v].state = .running) →
      Leads (.cameraDisable p v) s fun t => t.cams[v].state = .off ∧ t.cams[v].cur = none ∧ t.cams[v].gpio = false ∧ t.cams[v].frames = s.cams[v].frames ∧
        (∀ o : CamId, o ≠ v → t.cams[o] = s.cams[o]) ∧ t.mem = s.mem ∧ t.cmds = s.cmds) ∧
    (¬ (s.cams[v].state = .training ∨ s.cams[v].state = .running) → Gives (.cameraDisable p v) s s)) ∧
  (∀ (s : State) (v : CamId), Gives (.aphyLinkUp v) s (if s.cams[v].state = .training then s.setCam v { s.cams[v] with state := .running } else s)) ∧
  (∀ (s : State) (v : CamId), s.cams[v].state = .running → Leads (.aphyLinkLost v) s fun t => t.cams[v].state = .training ∧ t.cams[v].cur = none ∧
    Flagged t (.intk (dieOfCam v)) 2 ∧ (∀ o : CamId, o ≠ v → t.cams[o] = s.cams[o]) ∧ t.mem = s.mem ∧ t.cmds = s.cmds) ∧
  (∀ (s : State) (v : CamId), s.cams[v].state ≠ .running → Gives (.aphyLinkLost v) s s) ∧
  (∀ (s : State) (p : Port) (v : CamId) (w : W32), s.reached p = true → s.diePresent (dieOfCam v) = true → s.mayCam p v = true →
    (s.cams[v].cciBusy = true → Gives (.cciTransaction p v w) s s) ∧
    (s.cams[v].cciBusy = false → Leads (.cciTransaction p v w) s fun t => Emits s t (.cci v w) ∧
      t.still = ({ s with cams := s.cams.set v { s.cams[v] with cci := w, cciBusy := true } } : State).still)) ∧
  (∀ (s : State) (v : CamId) (ack : Bool) (d : Byte), s.cams[v].cciBusy = true → Leads (.cciDone v ack d) s fun t =>
    t.cams[v].cciBusy = false ∧ t.cams[v].cciNack = (!ack) ∧ (ack = false → Flagged t (.intk (dieOfCam v)) 7 ∧ t.cams[v].cci = s.cams[v].cci) ∧
    (ack = true → s.cams[v].cci.getLsbD 31 = true → t.cams[v].cci.toNat = s.cams[v].cci.toNat / 256 * 256 + d.toNat) ∧
    (ack = true → s.cams[v].cci.getLsbD 31 = false → t.cams[v].cci = s.cams[v].cci) ∧ ∀ o : CamId, o ≠ v → t.cams[o] = s.cams[o]) ∧
  (∀ (s : State) (v : CamId) (ack : Bool) (d : Byte), s.cams[v].cciBusy = false → Gives (.cciDone v ack d) s s) ∧
  (∀ (s : State) (v : CamId),
    let start := near48 s.cams[v].enabledAt (fieldAt s.cams[v].blk 112 6)
    let due := (s.cams[v].state = .training ∨ s.cams[v].state = .running) ∧ s.cams[v].trigger = true ∧ start ≤ s.now ∧ s.cams[v].enabledAt < s.now ∧
      (s.now - start) % s.cams[v].trigPeriod = 0
    (due → Leads (.triggerPulse v) s fun t => Emits s t (.gpio v true) ∧
      t.still = (s.setCam v { s.cams[v] with gpio := true, gpioRose := s.now }).still) ∧
    (¬ due → Gives (.triggerPulse v) s s)) ∧
  (∀ (s : State) (v : CamId), s.cams[v].gpio = true → s.cams[v].gpioRose + 40960 ≤ s.now → Leads (.triggerEnd v) s fun t =>
    Emits s t (.gpio v false) ∧ t.still = (s.setCam v { s.cams[v] with gpio := false }).still) ∧
  (∀ (s : State) (v : CamId), ¬ (s.cams[v].gpio = true ∧ s.cams[v].gpioRose + 40960 ≤ s.now) → Gives (.triggerEnd v) s s)

/-- Camera frames (R323, R327 to R330, R332): a Frame Start of the port's virtual channel takes the next frame number, is written when a buffer is free and
counted dropped when none is; a sound long packet of the configured type adds its line, one with a bad CRC, too short or finding the line buffer full adds a
concealed line with its INT_ERR bit, and one with a bad header sets bit 3; a Frame End ends the frame: its writes become pump operations of the partition's
lowest-numbered core, or wait for an entry, and its record waits behind them; the record is written by an operation once what comes before it has landed, and
its signal counter grows by 1 once the record has. It rests on choices of the model: log entries 33, 35, 85, 86, 87, 144, 230, 232 and 247. -/
def Obligations.CameraFramesAreTakenAndRecorded : Prop :=
  (∀ (s : State) (v : CamId) (vc number stamp : Nat), s.camTakes v vc = true → Leads (.frameStart v vc number stamp) s fun t =>
    t.cams[v].frames = s.cams[v].frames + 1 ∧ t.cams[v].inFrame = true ∧ t.mem = s.mem ∧ t.cmds = s.cmds ∧ (∀ o : CamId, o ≠ v → t.cams[o] = s.cams[o]) ∧
    (s.cams[v].cur = none → t.parts = s.parts ∧ t.ops = s.ops ∧ t.cams[v].jobs = s.cams[v].jobs) ∧
    (∀ f, s.cams[v].cur = some f → t.cams[v].jobs.getLast? = some (.record s.cams[v].part s.cams[v].counter
      (s.cams[v].recBase + f.f.toNat % s.cams[v].nbuf * 64) (clean (s.cams[v].frameRecord f .truncated s.now)))) ∧
    ((s.cams[v].frames - s.cams[v].cons).toNat < s.cams[v].nbuf →
      t.cams[v].cur = some { f := s.cams[v].frames, csi := number, sof := stamp } ∧ t.cams[v].dropped = s.cams[v].dropped) ∧
    (s.cams[v].nbuf ≤ (s.cams[v].frames - s.cams[v].cons).toNat → t.cams[v].cur = none ∧ t.cams[v].dropped = satAdd 8 s.cams[v].dropped 1)) ∧
  (∀ (s : State) (v : CamId) (vc number stamp : Nat), s.camTakes v vc = false → Gives (.frameStart v vc number stamp) s s ∧ Gives (.frameEnd v vc stamp) s s) ∧
  (∀ (s : State) (v : CamId) (vc stamp : Nat) (f : CamFrame), s.camTakes v vc = true → s.cams[v].cur = some f → Leads (.frameEnd v vc stamp) s fun t =>
    t.cams[v].cur = none ∧ t.cams[v].inFrame = false ∧ (∀ o : CamId, o ≠ v → t.cams[o] = s.cams[o]) ∧ t.cmds = s.cmds ∧ t.mem = s.mem ∧
    t.cams[v].jobs.getLast? = some (.record s.cams[v].part s.cams[v].counter (s.cams[v].recBase + f.f.toNat % s.cams[v].nbuf * 64)
      (clean (s.cams[v].frameRecord f
        (if f.lines.length < s.cams[v].height then .truncated else if f.lines.any (·.2) then .concealed else .ok) stamp))) ∧
    ∀ q a bs, IoJob.put q a bs ∈ s.cams[v].framePuts v f → IoJob.put q a bs ∈ t.cams[v].jobs ∨
      ∃ o ∈ t.ops, o.owner = .io (.cam v) ∧ o.core = s.lowCore q ∧ o.kind = .put ∧ o.dst = movedAddr (s.parts[q]).moved a ∧ o.data = some bs) ∧
  (∀ (s : State) (v : CamId) (vc stamp : Nat), s.camTakes v vc = true → s.cams[v].cur = none →
    Gives (.frameEnd v vc stamp) s (s.setCam v { s.cams[v] with inFrame := false })) ∧
  (∀ (s : State) (v : CamId) (vc ty : Nat) (crc full : Bool) (pl : List Byte), s.cams[v].state = .running →
    Gives (.csiLinePacket v vc ty false crc ⟨full, pl⟩) s (s.flag (.intk (dieOfCam v)) 3)) ∧
  (∀ (s : State) (v : CamId) (vc ty : Nat) (crc full : Bool) (pl : List Byte), s.cams[v].state ≠ .running ∨ vc ≠ s.cams[v].vc ∨ ty ≠ s.cams[v].dtype ∨
    s.cams[v].cur = none ∨ (∃ f, s.cams[v].cur = some f ∧ s.cams[v].height ≤ f.lines.length) → Gives (.csiLinePacket v vc ty true crc ⟨full, pl⟩) s s) ∧
  (∀ (s : State) (v : CamId) (vc ty : Nat) (h crc full : Bool) (pl : List Byte), s.cams[v].state ≠ .running →
    Gives (.csiLinePacket v vc ty h crc ⟨full, pl⟩) s s) ∧
  (∀ (s : State) (v : CamId) (crc full : Bool) (pl : List Byte) (f : CamFrame), s.cams[v].state = .running → s.cams[v].cur = some f →
    f.lines.length < s.cams[v].height →
    let px := unpack s.cams[v].dtype pl
    let prev := (f.lines.getLast?.map (·.1)).getD []
    let cut := px.length < s.cams[v].width
    Leads (.csiLinePacket v s.cams[v].vc s.cams[v].dtype true crc ⟨full, pl⟩) s fun t =>
      t.cams[v].cur = some { f with lines := f.lines ++ [(s.cams[v].lineOf prev (crc && !full) px, !crc || decide cut || full)] } ∧ t.mem = s.mem ∧
      t.cams[v].crcLines = (if crc then s.cams[v].crcLines else satAdd 8 s.cams[v].crcLines 1) ∧ t.cams[v].frames = s.cams[v].frames ∧
      (crc = false → Flagged t (.intk (dieOfCam v)) 4) ∧ (cut → Flagged t (.intk (dieOfCam v)) 5) ∧
      (full = true → Flagged t (.intk (dieOfCam v)) 6) ∧ (∀ o : CamId, o ≠ v → t.cams[o] = s.cams[o])) ∧
  (∀ (s : State) (v : CamId) (q : PartId) (k a : Nat) (bs : List PByte) (rest : List IoJob), s.cams[v].jobs = .record q k a bs :: rest →
    (s.ioBusy (.cam v) = false → s.ioFull q = false → Leads (.frameRecordWrite v) s fun t =>
      t.cams[v].jobs = .signal q k :: rest ∧ t.cams[v].frames = s.cams[v].frames ∧ (∀ o : CamId, o ≠ v → t.cams[o] = s.cams[o]) ∧ t.cmds = s.cmds ∧
      t.mem = s.mem ∧ t.parts = s.parts ∧ t.ops.length = s.ops.length + 1 ∧ ∃ o ∈ t.ops, o.id = s.opNext ∧ o.owner = .io (.cam v) ∧ o.core = s.lowCore q ∧
        o.kind = .put ∧ o.dst = movedAddr (s.parts[q]).moved a ∧ o.len = bs.length ∧ o.data = some bs) ∧
    (s.ioBusy (.cam v) = true ∨ s.ioFull q = true → Gives (.frameRecordWrite v) s s)) ∧
  (∀ (s : State) (v : CamId) (q : PartId) (k : SemId), s.cams[v].jobs = [.signal q k.val] →
    (s.ioBusy (.cam v) = false → Gives (.frameRecordWrite v) s ((s.setCam v { s.cams[v] with jobs := [] }).setPart q { s.parts[q] with
      sigs := s.parts[q].sigs.set k (s.parts[q].sigs[k] + 1) })) ∧
    (s.ioBusy (.cam v) = true → Gives (.frameRecordWrite v) s s)) ∧
  (∀ (s : State) (v : CamId), s.cams[v].jobs = [] → Gives (.frameRecordWrite v) s s)

/-- Bindings, coefficients and audio frames (R334 to R339, R486), the first three through a port that an access reaches: BINDING_LOAD puts a good entry into
its place of the table, and otherwise loads nothing and sets INT_ERR bit 0; BINDING_CLEAR takes the entry out; FIR_LOAD copies the 72 coefficients. The oldest
packet leaves its port's intake: a malformed one sets bit 1 and gives no sample; one of a binding whose stream runs puts its samples in, or, outside its time,
is counted late with bit 2. A TDM frame of an enabled port counts, and gives a binding its slot: a master drives its clocks, and a slave's chunk completes
with its last frame; an FSYNC lost for two frame periods sets bit 4. Audio chunks (R336 to R339): a chunk of a bound stream that is open completes once
network time has passed its end by link_delay: its samples go to the next slot of the stream's ring, arrived advances, last_stamp takes the count at which it
was due and the run moves on by one chunk; a chunk that lacks a sample is counted and sets INT_ERR bit 3. Before that, and of a stream that is unbound or
takes no chunks, nothing changes. A TDM slave without FSYNC completes chunks of zeros every chunk time. It rests on choices of the model: log entries 37, 38,
53, 54, 82, 88, 211, 225, 231 and 250. -/
def Obligations.AudioReachesItsStreams : Prop :=
  ((∀ (s : State) (p : Port) (i : Nat), s.reached p = true →
    let r := (s.readBlock (s.audTable.toNat + 32 * (i % 4096)) 32).1
    let b : Binding := { index := i % 4096, entry := r.getD [] }
    let good := r ≠ none ∧ s.audTable.toNat + 32 * (i % 4096) + 32 ≤ s.mainEnd ∧ s.owns p b.part = true ∧ bindingOk b = true ∧
      s.diePresent b.die = true ∧ sessionsOf (putBinding b s.bindings) ≤ 2048 ∧ ∃ x, s.stream? b.stream = some x ∧ x.state ≠ .close ∧ x.part = b.part
    (good → Leads (.bindingLoad p i) s fun t => t.bindings = putBinding b s.bindings ∧ t.mem = s.mem ∧ t.streams = s.streams ∧ t.parts = s.parts ∧
      ((∃ y ∈ s.audio, y.stream = b.stream) → t.audio = s.audio)) ∧
    (¬ good → Leads (.bindingLoad p i) s fun t => t.bindings = s.bindings ∧ t.audio = s.audio ∧ t.mem = s.mem ∧ t.streams = s.streams ∧ t.parts = s.parts ∧
      Flagged t (.aud (if r ≠ none ∧ s.diePresent b.die = true then b.die else 0)) 0)) ∧
  (∀ (s : State) (p : Port) (i : Nat),
    (s.reached p = true → (∃ b ∈ s.bindings, b.index = i % 4096) → Leads (.bindingClear p i) s fun t =>
      t.bindings = s.bindings.filter (fun b => b.index != i % 4096) ∧ t.streams = s.streams ∧ t.mem = s.mem ∧ t.parts = s.parts ∧ t.errs = s.errs ∧
      ∀ r ∈ s.audio, (∃ b ∈ t.bindings, b.stream = r.stream) → r ∈ t.audio) ∧
    ((∀ b ∈ s.bindings, b.index ≠ i % 4096) → Gives (.bindingClear p i) s s)) ∧
  (∀ (s : State) (p : Port) (a : Nat), s.reached p = true →
    (∀ bs, (({ s with audFir := BitVec.ofNat 40 a } : State).readBlock (a % 2 ^ 40) 288).1 = some bs →
      Leads (.firLoad p a) s fun t => t.fir = (List.range 72).map (fun i => f32At bs (4 * i)) ∧ t.audFir = BitVec.ofNat 40 a ∧ t.mem = s.mem ∧
        t.bindings = s.bindings ∧ t.audio = s.audio ∧ t.streams = s.streams) ∧
    ((({ s with audFir := BitVec.ofNat 40 a } : State).readBlock (a % 2 ^ 40) 288).1 = none → Leads (.firLoad p a) s fun t =>
      t.fir = s.fir ∧ t.audFir = BitVec.ofNat 40 a ∧ t.mem = s.mem ∧ t.bindings = s.bindings ∧ t.audio = s.audio ∧ t.streams = s.streams)) ∧
  (∀ (s : State) (e : EthId), s.eth[e].toAudio = [] → Gives (.audioPacket e) s s) ∧
  (∀ (s : State) (e : EthId) (k : Nat) (f : List Byte) (rest : List (Nat × List Byte)), s.eth[e].toAudio = (k, f) :: rest →
    (rtpOf f = none ∨ udpSound f = false ∨ ∃ ts pl, rtpOf f = some (ts, pl) ∧ ∃ b ∈ s.bindings, b.matches e f = true ∧ b.samplesIn pl = none) →
    Gives (.audioPacket e) s ((s.setEth e { s.eth[e] with toAudio := rest }).flag (.aud (dieOfEth e)) 1)) ∧
  (∀ (s : State) (e : EthId) (k : Nat) (f : List Byte) (rest : List (Nat × List Byte)) (ts : Nat) (pl : List Byte) (b : Binding) (r : AudioRun) (n : Nat),
    s.eth[e].toAudio = (k, f) :: rest → rtpOf f = some (ts, pl) → udpSound f = true → s.bindings.filter (fun y => y.matches e f) = [b] →
    b.samplesIn pl = some n → s.audio.find? (fun y => y.stream == b.stream) = some r →
    let m := b.mediaOf ts (s.mediaNow b)
    let u := s.setEth e { s.eth[e] with toAudio := rest }
    let w := if b.l24 then 3 else 2
    Gives (.audioPacket e) s (if max m r.first < min (m + n) r.next ∨ s.mediaNow b + b.fs + 1 < m + n then
        ({ u with cnts := { u.cnts with audLate := vbump 16 u.cnts.audLate (dieOfEth e) 1 } } : State).flag (.aud (dieOfEth e)) 2
      else { u with audio := u.audio.map fun y => if y.stream == b.stream then
        (List.range n).foldl (fun (a : AudioRun) i =>
          a.put (m + i) (sampleVal (8 * w) (leNat (bytesAt pl ((i * b.nch + b.channel) * w) w).reverse))) r else y })) ∧
  (∀ (s : State) (q : TdmId) (sl : List Nat), ¬ ((s.tdm[q]).enable = true ∧ s.domainOn 127 = true ∧ s.diePresent 1 = true) → Gives (.tdmFrame q sl) s s) ∧
  (∀ (s : State) (q : TdmId) (sl : List Nat), (s.tdm[q]).enable = true → s.domainOn 127 = true → s.diePresent 1 = true →
    Leads (.tdmFrame q sl) s fun t => t.tdm = s.tdm.set q { s.tdm[q] with frames := (s.tdm[q]).frames + 1, last := s.now, lost := false } ∧
      t.bindings = s.bindings ∧ t.parts = s.parts ∧ t.cmds = s.cmds ∧
      ((s.tdm[q]).master = true → t.streams = s.streams ∧ t.mem = s.mem ∧ Emits s t (.tdmSync q (s.mediaAt (s.tdm[q]).fs s.now)) ∧
        ∀ (b : Binding) (r : AudioRun), s.bindings.filter (fun y => y.isTdm && y.tdmPort == q) = [b] →
          s.audio.find? (fun y => y.stream == b.stream) = some r → s.stream? b.stream ≠ none →
          let j := s.mediaAt (s.tdm[q]).fs s.now
          t.audio = s.audio.map fun z => if z.stream == b.stream then
            (if r.next ≤ j then r.put j (tdmSample (s.tdm[q]).slot (sl.getD b.channel 0)) else r) else z) ∧
      ((s.tdm[q]).master = false → (s.tdm[q]).lost = false →
        ∀ (b : Binding) (r : AudioRun) (x : Stream), s.bindings.filter (fun y => y.isTdm && y.tdmPort == q) = [b] →
          s.audio.find? (fun y => y.stream == b.stream) = some r → s.stream? b.stream = some x →
          let j := (s.tdm[q]).frames
          let n := 160 * x.frames * s.srcR b
          let r1 := if r.next ≤ j then r.put j (tdmSample (s.tdm[q]).slot (sl.getD b.channel 0)) else r
          (j + 1 < r.next + n ∨ x.state.fed = false → t.streams = s.streams ∧ t.mem = s.mem ∧
            t.audio = s.audio.map fun z => if z.stream == b.stream then r1 else z) ∧
          (r.next + n ≤ j + 1 → x.state.fed = true → t.stream? b.stream = some { x with arrived := x.arrived + 1, lastStamp := s.now % 2 ^ 48 } ∧
            t.mem = (s.devStore (x.ring + x.arrived.toNat % 2 ^ x.ringLog2 * (640 * x.frames))
              (clean ((s.chunkSamples r1 (s.srcR b) x.frames).flatMap f32Bytes))).mem))) ∧
  (∀ (s : State) (q : TdmId), Gives (.tdmFsyncLoss q) s
    (if (s.tdm[q]).enable = true ∧ (s.tdm[q]).master = false ∧ (s.tdm[q]).lost = false ∧ (s.tdm[q]).last * (s.tdm[q]).fs + 2 * 640000000 ≤ s.now * (s.tdm[q]).fs
     then ({ s with tdm := s.tdm.set q { s.tdm[q] with lost := true } } : State).flag (.aud 1) 4 else s))) ∧
  ((∀ (s : State) (n : Nat), (s.bindingOf n = none ∨ s.stream? n = none ∨ (∀ r ∈ s.audio, r.stream ≠ n) ∨ ∃ x, s.stream? n = some x ∧ x.state.fed = false) →
    Gives (.audioChunkDue n) s s) ∧
  (∀ (s : State) (n : Nat) (b : Binding) (x : Stream) (r : AudioRun), s.bindingOf n = some b → s.stream? n = some x →
    s.audio.find? (fun y => y.stream == n) = some r → x.state.fed = true → s.isSlave b = false →
    let q := 160 * x.frames * s.srcR b
    let fin := cdiv ((r.next + q) * (65536 * 1000000000)) (s.srcFs b) + b.delay * 1000 * 65536
    let due := fin ≤ s.tb.time s.now
    (¬ due → Gives (.audioChunkDue n) s s) ∧
    (due → Leads (.audioChunkDue n) s fun t =>
      t.stream? n = some { x with arrived := x.arrived + 1, lastStamp := s.tb.countBack s.now (s.tb.time s.now - fin) % 2 ^ 48 } ∧
      (∀ k, k ≠ n → t.stream? k = s.stream? k) ∧
      t.mem = (s.devStore (x.ring + x.arrived.toNat % 2 ^ x.ringLog2 * (640 * x.frames))
        (clean ((s.chunkSamples r (s.srcR b) x.frames).flatMap f32Bytes))).mem ∧
      (∃ y, t.audio.find? (fun z => z.stream == n) = some y ∧ y.next = r.next + q ∧ y.first = r.first) ∧
      t.parts = s.parts ∧ t.bindings = s.bindings ∧ t.cmds = s.cmds ∧
      ((∃ i, i < q ∧ ∀ y ∈ r.samples, y.1 ≠ r.next + i) → Flagged t (.aud b.die) 3 ∧
        t.cnts.audConc = vbump 16 s.cnts.audConc b.die 1) ∧
      ((∀ i, i < q → ∃ y ∈ r.samples, y.1 = r.next + i) → t.cnts.audConc = s.cnts.audConc))) ∧
  (∀ (s : State) (n : Nat) (b : Binding) (x : Stream) (r : AudioRun), s.bindingOf n = some b → s.stream? n = some x →
    s.audio.find? (fun y => y.stream == n) = some r → x.state.fed = true → s.isSlave b = true →
    let at_ := (if x.arrived = 0 then (s.tdm[b.tdmPort]).last else near48 s.now x.lastStamp) + chunkCounts x.chunk20
    let due := (s.tdm[b.tdmPort]).lost = true ∧ at_ ≤ s.now
    (¬ due → Gives (.audioChunkDue n) s s) ∧
    (due → Leads (.audioChunkDue n) s fun t =>
      t.stream? n = some { x with arrived := x.arrived + 1, lastStamp := at_ % 2 ^ 48 } ∧ (∀ k, k ≠ n → t.stream? k = s.stream? k) ∧
      t.mem = (s.devStore (x.ring + x.arrived.toNat % 2 ^ x.ringLog2 * (640 * x.frames))
        (clean (repByte (640 * x.frames) 0))).mem ∧
      Flagged t (.aud b.die) 3 ∧ t.parts = s.parts ∧ t.bindings = s.bindings ∧ t.cmds = s.cmds)))

/-- Pipelines (R342 to R345), the first rows through a port that an access reaches: a write by a port that may not write a pipeline changes nothing and sets
REC_ERR bit 1; a load with a good block whose areas lie in the partition's memory makes a pipeline that is not fenced IDLE (FENCED or NOT_READY as its
strainer is), and any other load leaves it OFF with its old block and sets bit 0; a stop turns it OFF without its samples; a fenced one stays as it is. An
IDLE pipeline takes the next job of its ring and runs; a refused job ends at once with bit 0. A running one starts its next position on a free lane once the
slot is free and it is its turn. The report of the lowest position, once decided, is put into hand with its label, to be written once the slot has landed, and
the increment of its counter follows them; after the last one the job is done. Samples (R344, R345, R349, R352, R353): a lane that is through with the only
position in progress, started in a STRICT partition, decides it: the verdict on its record under the budget gives its status, the writes of its slot with the
augmented image or by policy are put into hand, its report waits, the counts and REC_ERR bits of the status follow, and A moves by a sixteenth of the
difference for a status that moves it. In a RELAXED partition a lane that is through decides its position too, and one that passes its budget abandons it,
which neither does in a STRICT one. A position that no lane is on changes nothing. It rests on choices of the model: log entries 39, 51, 55, 56, 57, 89, 144,
211, 231, 234, 235 and 251. -/
def Obligations.PipelinesRunTheirJobs : Prop :=
  ((∀ (s : State) (p : Port) (i : PipeId), s.reached p = true → s.mayPipe p i = false →
    Gives (.pipelineLoad p i) s (s.flag (.reco s.pipes[i].die) 1) ∧ Gives (.pipelineStop p i) s (s.flag (.reco s.pipes[i].die) 1)) ∧
  (∀ (s : State) (p : Port) (i : PipeId), s.mayPipe p i = true → s.pipes[i].state = .fenced → Gives (.pipelineLoad p i) s s ∧ Gives (.pipelineStop p i) s s) ∧
  (∀ (s : State) (p : Port) (i : PipeId), s.reached p = true → s.mayPipe p i = true → s.pipes[i].state ≠ .fenced →
    let r := (s.readBlock s.pipes[i].cfgAddr.toNat 160).1
    let b := r.getD []
    let y : Pipe := { blk := b }
    let good := r ≠ none ∧ pipeOk b = true ∧ s.owns p y.part = true ∧ y.outBytes ≤ y.slotStride ∧
      s.pipePlace y.part y.slotBase ((y.nslots - 1) * y.slotStride + y.outBytes) = true ∧ s.pipePlace y.part y.reportBase (64 * y.nslots) = true ∧
      (y.labelBase = 0 ∨ s.pipePlace y.part y.labelBase (256 * y.nslots) = true) ∧ s.pipePlace y.part y.ringBase (32 * y.ringEntries) = true ∧
      s.diePresent (loadDie b) = true
    (good → Leads (.pipelineLoad p i) s fun t => t.mem = s.mem ∧ t.parts = s.parts ∧ (∀ k : PipeId, k ≠ i → t.pipes[k] = s.pipes[k]) ∧
      t.pipes[i] = { s.pipes[i] with
        blk := b, job := none, state := if s.isFenced 4 (loadDie b).val then .fenced else if s.domainOn (strainerPd (loadDie b)) then .idle else .notReady }) ∧
    (¬ good → Leads (.pipelineLoad p i) s fun t => (∀ k : PipeId, k ≠ i → t.pipes[k] = s.pipes[k]) ∧
      t.pipes[i] = { s.pipes[i] with job := none, state := .off } ∧ t.mem = s.mem ∧ t.parts = s.parts ∧
      Flagged t (.reco (if r = none then 0 else loadDie b)) 0)) ∧
  (∀ (s : State) (p : Port) (i : PipeId), s.reached p = true → s.mayPipe p i = true → s.pipes[i].state ≠ .fenced →
    Gives (.pipelineStop p i) s (s.setPipe i { s.pipes[i] with state := .off, job := none })) ∧
  (∀ (s : State) (i : PipeId), s.pipes[i].state ≠ .idle ∨ s.pipes[i].prod = s.pipes[i].jobs → Gives (.jobTake i) s s) ∧
  (∀ (s : State) (i : PipeId), s.pipes[i].state = .idle → s.pipes[i].prod ≠ s.pipes[i].jobs →
    let x := s.pipes[i]
    let e := (s.devLoad (x.ringBase + 32 * (x.jobs.toNat % x.ringEntries)) 32).1
    let b := plain (e.getD [])
    let job : Job := { list := fieldAt b 0 8, first := fieldAt b 8 4, count := fieldAt b 12 4, host := x.hostSrc, next := fieldAt b 8 4 }
    let sound := e ≠ none ∧ anyPoison (e.getD []) = false ∧ fieldAt b 0 8 < 2 ^ 40 ∧ fieldAt b 20 8 = 0 ∧ fieldAt b 28 4 = 0 ∧ fieldAt b 12 4 ≠ 0 ∧
      s.mapped (fieldAt b 0 8 + 4 * fieldAt b 8 4) (4 * fieldAt b 12 4) = true
    (sound → Leads (.jobTake i) s fun t => t.mem = s.mem ∧ t.parts = s.parts ∧ (∀ k : PipeId, k ≠ i → t.pipes[k] = s.pipes[k]) ∧
      t.pipes[i] = { x with state := .running, avg := BitVec.ofNat 32 (fieldAt b 16 4), job := some job }) ∧
    (¬ sound → Leads (.jobTake i) s fun t => t.mem = s.mem ∧ t.parts = s.parts ∧ (∀ k : PipeId, k ≠ i → t.pipes[k] = s.pipes[k]) ∧
      t.pipes[i] = { x with jobs := x.jobs + 1 } ∧ Flagged t (.reco x.die) 0)) ∧
  (∀ (s : State) (i : PipeId) (j : Job), s.pipes[i].job = some j →
    let free := s.pipes[i].state = .running ∧ j.next < j.first + j.count ∧ j.next < s.pipes[i].cons.toNat + s.pipes[i].nslots ∧ s.lanes s.pipes[i].die < 4 ∧
      s.pipeTurn i = true
    (free → Gives (.sampleStart i) s (({ s with recTurn := s.recTurn.set s.pipes[i].die i.val } : State).setPipe i { s.pipes[i] with
      job := some { j with next := j.next + 1, runs := j.runs ++ [{ pos := j.next, budget := s.pipes[i].budget, relaxed := s.parts[s.pipes[i].part].relaxed }] } })) ∧
    (¬ free → Gives (.sampleStart i) s s)) ∧
  (∀ (s : State) (i : PipeId), s.pipes[i].job = none → Gives (.sampleStart i) s s ∧ Gives (.sampleReportRelease i) s s) ∧
  (∀ (s : State) (i : PipeId) (j : Job), s.pipes[i].job = some j → (j.runs = [] ∨ ∃ r rest, j.runs = r :: rest ∧ r.report = none) →
    Gives (.sampleReportRelease i) s s) ∧
  (∀ (s : State) (i : PipeId) (j : Job) (r : SampleRun) (rest : List SampleRun) (rep : List Byte), s.pipes[i].job = some j → j.runs = r :: rest →
    r.report = some rep → Leads (.sampleReportRelease i) s fun t =>
      let x := s.pipes[i]
      let k := r.pos % x.nslots
      let op : Nat → List Byte → Prop := fun a bs => ∃ o ∈ t.ops, o.owner = .io (.pipe i) ∧ o.core = s.lowCore x.part ∧ o.kind = .put ∧
        o.dst = movedAddr (s.parts[x.part]).moved a ∧ o.data = some (clean bs)
      t.mem = s.mem ∧ t.cmds = s.cmds ∧ (∀ o : PipeId, o ≠ i → t.pipes[o] = s.pipes[o]) ∧
      t.pipes[i] = { (if rest = [] ∧ j.next = j.first + j.count then { x with job := none, jobs := x.jobs + 1, state := .idle }
        else { x with job := some { j with runs := rest } }) with writes := t.pipes[i].writes } ∧
      t.pipes[i].writes.getLast? = some (.signal x.part x.counter) ∧
      (x.writes = [] → s.ioBusy (.pipe i) = false → s.entriesOf (s.lowCore x.part) + 2 ≤ 512 →
        t.pipes[i].writes = [.signal x.part x.counter] ∧ t.parts = s.parts ∧ op (x.reportBase + 64 * k) (rep.take 64) ∧
        (x.labelBase ≠ 0 → 64 < rep.length → op (x.labelBase + 256 * k) (rep.drop 64))))) ∧
  ((∀ (s : State) (i : PipeId) (pos cyc : Nat), (∀ j, s.pipes[i].job = some j → ∀ r ∈ j.runs, r.pos = pos → r.through = true) →
    Gives (.sampleDone i pos cyc) s s ∧ Gives (.budgetExceeded i pos cyc) s s) ∧
  (∀ (s : State) (i : PipeId) (pos cyc : Nat), (∀ j, s.pipes[i].job = some j → ∀ r ∈ j.runs, r.pos = pos → r.relaxed = false ∨ cyc ≤ r.budget) →
    Gives (.budgetExceeded i pos cyc) s s) ∧
  (∀ (s : State) (i : PipeId) (pos cyc : Nat) (j : Job) (r : SampleRun), s.pipes[i].job = some j → j.runs = [r] → r.pos = pos → r.through = false →
    r.report = none → r.relaxed = false →
    let x := s.pipes[i]
    let v := (s.judge x j { r with through := true, cycles := cyc, overrun := false, avgAfter := x.avg, ndc := false } (some x.budget)).1
    let slot := x.slotBase + pos % x.nslots * x.slotStride
    Leads (.sampleDone i pos cyc) s fun t =>
      let inHand : List Byte → Prop := fun bs => ∀ q a d, IoJob.put q a d ∈ cutPuts x.part slot (clean (bs.take x.dataLen)) ++
        (if 3 ≤ x.outFmt then cutPuts x.part (slot + x.scaleOff) (clean (bs.drop x.dataLen)) else []) → IoJob.put q a d ∈ t.pipes[i].writes ∨
          ∃ o ∈ t.ops, o.owner = .io (.pipe i) ∧ o.core = s.lowCore q ∧ o.kind = .put ∧ o.dst = movedAddr (s.parts[q]).moved a ∧ o.data = some d
      t.pipes[i].avg = avgAfter x.avg v.st v.work ∧ t.pipes[i].state = x.state ∧ t.pipes[i].blk = x.blk ∧ t.pipes[i].jobs = x.jobs ∧
      (∃ j2 r2, t.pipes[i].job = some j2 ∧ j2.runs = [r2] ∧ j2.next = j.next ∧ r2.pos = pos ∧ r2.through = true ∧
        ∃ flags, r2.report = some (sampleReport pos v flags x.budget (avgAfter x.avg v.st v.work) ++ v.label)) ∧
      (∀ o : PipeId, o ≠ i → t.pipes[o] = s.pipes[o]) ∧ t.mem = s.mem ∧ t.cmds = s.cmds ∧ (x.writes = [] → t.parts = s.parts) ∧
      (∀ b ∈ v.stick, b < 32 → Flagged t (.reco x.die) b) ∧
      (v.st = .ok ∨ v.st = .concealed ∨ v.st = .truncated → inHand (x.slotBytes v.rows)) ∧
      (v.st = .badCommand → x.policy = 1 → t.ops = s.ops ∧ t.pipes[i].writes = x.writes) ∧
      (v.st = .badCommand → x.policy = 0 → inHand x.concealBytes) ∧
      (v.st = .timeBudget → t.cnts.recAband = vbump 8 s.cnts.recAband x.die 1) ∧ (v.st = .dimLimit → t.cnts.recDim = vbump 8 s.cnts.recDim x.die 1) ∧
      (v.st = .truncated → t.cnts.recTrunc = vbump 8 s.cnts.recTrunc x.die 1) ∧ (v.st = .concealed → t.cnts.recConc = vbump 8 s.cnts.recConc x.die 1)) ∧
  (∀ (s : State) (i : PipeId) (pos cyc : Nat) (j : Job) (r : SampleRun) (c : Instr), s.pipes[i].job = some j → j.runs = [r] → r.pos = pos → r.through = false →
    r.report = none → r.relaxed = true → (c = .sampleDone i pos cyc ∨ (c = .budgetExceeded i pos cyc ∧ r.budget < cyc)) → Leads c s fun t =>
      (∃ j2 r2, t.pipes[i].job = some j2 ∧ j2.runs = [r2] ∧ r2.pos = pos ∧ r2.through = true ∧ r2.report ≠ none) ∧
      (∀ o : PipeId, o ≠ i → t.pipes[o] = s.pipes[o]) ∧ t.mem = s.mem ∧ t.cmds = s.cmds))

/-- Alignment of a Siphon pair (R311, R314 to R319): a waiting loader measures again when its time has come; at its count L a loader that is still quiet adds
O to the counter, with the timebase moved so that network time does not, and the verifying exchanges begin, and one that is not quiet waits for 10 ms; before
that nothing changes. The four exchanges of a second give the residual offset: one beyond ±16 of an aligned or slewing pair slews it with DET_ERR bit 1, a
slewing pair within ±2 is ALIGNED, a module that does not load is ALIGNED within ±2 and slews up to ±65,536 after a relink, and a module that leads by a count
owes a hold unless it slews, which it takes at its next count with low bits 0xFFFF (every 256 counts while it slews), once at a count. It rests on choices of
the model: log entries 118, 119, 121, 222 and 246. -/
def Obligations.AlignmentFollowsItsRules : Prop :=
  (∀ (s : State),
    let due := s.det.state = .waiting ∧ s.det.loads = true ∧ s.det.retryAt ≠ 0 ∧ s.det.retryAt ≤ s.now
    (due → Leads .alignmentRetry s fun t => t.det = { s.det with samples := [], loadAt := none, retryAt := 0, nextAt := none, sentAt := s.now } ∧
      t.counter = s.counter ∧ t.tb = s.tb ∧ t.mem = s.mem ∧ t.cmds = s.cmds ∧ (s.sph.link = 2 → s.sph.txDark = false → Sent t 0x10 s.now)) ∧
    (¬ due → Gives .alignmentRetry s s)) ∧
  (∀ (s : State), s.det.loadAt ≠ some s.now → Gives .counterLoad s s) ∧
  (∀ (s : State), s.det.loadAt = some s.now → s.quiet = false → Leads .counterLoad s fun t => t.counter = s.counter ∧ t.tb = s.tb ∧
    t.det = { s.det with state := .waiting, loadAt := none, retryAt := s.now + 6400000, samples := [] } ∧ t.mem = s.mem ∧ t.cmds = s.cmds) ∧
  (∀ (s : State), s.det.loadAt = some s.now → s.quiet = true → Leads .counterLoad s fun t =>
    let o := s.det.offset
    t.counter = s.counter + BitVec.ofInt 64 o ∧ t.tb.offset = s.tb.offset - BitVec.ofInt 80 (o * 102400) ∧ t.tb.anchor = s.tb.anchor + BitVec.ofInt 64 o ∧
    t.tb.rate = s.tb.rate ∧ t.det.ofs = BitVec.ofInt 64 o ∧ t.det.loader = true ∧ t.det.verify = true ∧ t.det.state = .measuring ∧ t.det.samples = [] ∧
    t.det.loadAt = none ∧ t.mem = s.mem ∧ t.cmds = s.cmds ∧ t.parts = s.parts ∧ t.axes = s.axes) ∧
  (∀ (s : State) (os : List Int), s.sph.link ≠ 2 ∨ os = [] → Gives (.pairOffsetMeasure os) s s) ∧
  (∀ (s : State) (os : List Int), s.sph.link = 2 → os ≠ [] →
    let o := median os
    let d := { s.det with
      residual := clamp127 o, offset := if s.det.loads = true ∧ s.det.loadAt.isSome = true then s.det.offset else o
      owes := s.det.owes || decide (o ≤ -1) }
    let slews := { d with state := .slewing, owes := false }
    ((s.det.state = .aligned ∨ s.det.state = .slewing) → 16 < o.natAbs → Gives (.pairOffsetMeasure os) s ((s.setDet slews).flag .det 1)) ∧
    (s.det.state = .slewing → o.natAbs ≤ 2 → Gives (.pairOffsetMeasure os) s (s.setDet { d with state := .aligned })) ∧
    (s.det.state = .slewing → 2 < o.natAbs → o.natAbs ≤ 16 → Gives (.pairOffsetMeasure os) s (s.setDet slews)) ∧
    (s.det.state = .aligned → o.natAbs ≤ 16 → Gives (.pairOffsetMeasure os) s (s.setDet d)) ∧
    (s.det.state = .measuring → s.det.loads = false → o.natAbs ≤ 2 → Gives (.pairOffsetMeasure os) s (s.setDet { d with state := .aligned })) ∧
    (s.det.state = .measuring → s.det.loads = false → s.det.relink = true → 2 < o.natAbs → o.natAbs ≤ 65536 →
      Gives (.pairOffsetMeasure os) s (if 16 < o.natAbs then (s.setDet slews).flag .det 1 else s.setDet slews)) ∧
    (s.det.state = .measuring → s.det.loads = true ∨ (2 < o.natAbs ∧ (s.det.relink = false ∨ 65536 < o.natAbs)) →
      Gives (.pairOffsetMeasure os) s (s.setDet d)) ∧
    ((s.det.state = .none ∨ s.det.state = .waiting ∨ s.det.state = .failed ∨ s.det.state = .lost) → Gives (.pairOffsetMeasure os) s (s.setDet d))) ∧
  (∀ (s : State),
    let due := s.sph.link = 2 ∧ s.det.heldAt ≠ some s.now ∧ ((s.det.owes = true ∧ s.now % 65536 = 65535) ∨
      (s.det.state = .slewing ∧ s.det.offset < -2 ∧ s.now % 256 = 255))
    Gives .counterHold s (if due then
      s.setDet { s.det with holdNow := true, heldAt := some s.now, owes := false, holds := s.det.holds + 1, offset := s.det.offset + 1 } else s))

/-- The Siphon link (R314, R320, R415, R416, R418, R423, R424): it comes up on a powered engine that is neither fenced nor dark, with the partner's serial
number and role, sequence numbers from 0, and a loader chosen by the counters; it goes down from UP only, with its windows, registrations and messages in
flight gone, the alignment lost and SPH_ERR bit 0. The sender resends what the replay buffer holds from its oldest message on after 8 µs and gives the link up
after eight tries; a heartbeat leaves every 100 µs while the link is UP, and a partner silent for its time sets bit 4. A standby of an active partner takes
over where R424 says so: it becomes ACTIVE with its transmitters dark and bit 6. It rests on choices of the model: log entries 62, 122, 124, 126, 130 and 248. -/
def Obligations.TheSiphonLinkFollowsItsPartner : Prop :=
  (∀ (s : State) (n k : W64) (role : Nat),
    let up := s.sys.rails = .on ∧ s.sys.clocked = true ∧ s.domainOn 122 = true ∧ s.sph.link.toNat ≤ 1 ∧ s.sph.txDark = false
    (up → Leads (.siphonLinkUp n k role) s fun t => t.sph.link = 2 ∧ t.sph.partner = n ∧ t.sph.partnerKnown = true ∧ t.sph.partnerRole = BitVec.ofNat 2 role ∧
      t.sph.alive = true ∧ t.sph.beatAt = s.now ∧ t.sph.rxSeq = 0 ∧ t.sph.rxAhead = [] ∧ Sent t 0x1A s.sph.role.toNat ∧
      t.sph.conflict = !rolesOk s.sph.role (BitVec.ofNat 2 role) ∧ t.det.state = .measuring ∧
      (s.now < k.toNat → t.det.loads = true ∧ Sent t 0x10 s.now) ∧ (k.toNat < s.now → t.det.loads = false) ∧
      t.mem = s.mem ∧ t.cmds = s.cmds ∧ t.counter = s.counter) ∧
    (¬ up → Gives (.siphonLinkUp n k role) s s)) ∧
  (∀ (s : State), s.sph.link ≠ 2 → Gives .siphonLinkDown s s ∧ Gives .siphonRetransmit s s ∧ Gives .heartbeatSend s s ∧ Gives .partnerSilent s s) ∧
  (∀ (s : State), s.sph.link = 2 → (s.sph.mayTakeOver && s.sph.dark && !s.sph.fenceNotice) = false → Leads .siphonLinkDown s fun t =>
    t.sph.link = 0 ∧ t.sph.alive = false ∧ t.sph.partnerKnown = false ∧ t.sph.replay = [] ∧ t.sph.remoteRegs = [] ∧ t.sph.regWait = [] ∧
    t.windows = [] ∧ t.det.state = .lost ∧ t.det.loadAt = none ∧ t.sph.role = s.sph.role ∧ (t.err .sph).getLsbD 0 = true ∧ (t.err .det).getLsbD 2 = true ∧
    t.counter = s.counter ∧ t.tb = s.tb ∧ (∀ m : MirId, t.mirrors[m].enable = true → t.mirrors[m].state = .off) ∧
    (∀ o ∈ t.ops, o.waits = [])) ∧
  (∀ (s : State), s.sph.link = 2 → s.sph.mayTakeOver = true → s.sph.dark = true → s.sph.fenceNotice = false → Leads .siphonLinkDown s fun t =>
    t.sph.link = 0 ∧ t.sph.role = 0 ∧ t.sph.takenOver = true ∧ t.sph.txDark = true ∧ (t.err .sph).getLsbD 6 = true ∧ t.windows = []) ∧
  (∀ (s : State) (m : SentMsg) (rest : List SentMsg), s.sph.replay = m :: rest → s.sph.link = 2 → m.sentAt + 5120 ≤ s.now →
    (s.sph.resends < 8 → Leads .siphonRetransmit s fun t => t.sph = { s.sph with
      replay := s.sph.replay.map fun x => { x with sentAt := s.now }, resends := s.sph.resends + 1
      retries := satAdd 16 s.sph.retries (sentPart s.sph.replay).length } ∧
      (∀ x ∈ sentPart s.sph.replay, .siphon x.type x.msg ∈ t.out) ∧ t.errs = s.errs ∧ t.mem = s.mem ∧ t.cmds = s.cmds) ∧
    (8 ≤ s.sph.resends → Leads .siphonRetransmit s fun t => t.sph.link = 0 ∧ t.sph.replay = [] ∧ t.windows = [] ∧
      (t.err .sph).getLsbD 1 = true ∧ (t.err .sph).getLsbD 0 = true)) ∧
  (∀ (s : State), (s.sph.replay = [] ∨ ∃ m rest, s.sph.replay = m :: rest ∧ s.now < m.sentAt + 5120) → Gives .siphonRetransmit s s) ∧
  (∀ (s : State), s.now < s.sph.beatAt + 64000 → Gives .heartbeatSend s s) ∧
  (∀ (s : State), s.sph.link = 2 → s.sph.txDark = false → s.sph.beatAt + 64000 ≤ s.now → Leads .heartbeatSend s fun t => t.sph.beatAt = s.now ∧
    (∃ x ∈ t.sph.replay, x.type = 0x18 ∧ x.msg.arg = BitVec.ofNat 64 s.now ∧ x.msg.payload = s.heartbeatBytes) ∧ (s.sph.role = 0 → Sent t 0x11 s.now) ∧
    t.mem = s.mem ∧ t.errs = s.errs ∧ t.cmds = s.cmds ∧ t.det = s.det ∧ t.tb = s.tb) ∧
  (∀ (s : State), s.sph.link = 2 → s.sph.alive = true → s.sph.lastHeard + s.sph.silence ≤ s.now →
    ((s.sph.mayTakeOver && s.sph.silent) = false →
      Gives .partnerSilent s ((s.setSph { s.sph with alive := false }).flag .sph 4)) ∧
    (s.sph.mayTakeOver = true → s.sph.silent = true → Leads .partnerSilent s fun t =>
      t.sph.role = 0 ∧ t.sph.takenOver = true ∧ t.sph.txDark = true ∧ t.sph.link = 0 ∧ (t.err .sph).getLsbD 4 = true ∧ (t.err .sph).getLsbD 6 = true)) ∧
  (∀ (s : State), (s.sph.alive = false ∨ s.now < s.sph.lastHeard + s.sph.silence) → Gives .partnerSilent s s)

/-- Messages that move data between the modules (R129, R134, R416, R417): with the link not UP no message acts; one that breaks a field is dropped, counted
and flagged (SPH_ERR bit 2). In its turn, a WRITE stores its bytes and is acknowledged, or is answered ST_WINDOW_CLOSED where its bytes are not there to write
or a gate is closed to it, and ST_LATE_WRITE where a gate has dropped it; a READ_REQ is answered with the bytes read; READ_DATA goes to the operation or the
BAR2 read that asked; REGISTER is entered and answered at once unless an entry holds it; REG_DONE lets its operation move data; RELEASE removes its entry; a
SIGNAL adds to a counter of an open partition; an ACK ends what waits for it. It rests on choices of the model: log entries 123, 125, 127, 132 and 148. -/
def Obligations.SiphonDataMessagesAct : Prop :=
  (∀ (s : State) (m : Msg), s.sph.link ≠ 2 → Gives (.siphonWrite m) s s ∧ Gives (.siphonReadReq m) s s ∧ Gives (.siphonReadData m) s s ∧
    Gives (.siphonRegister m) s s ∧ Gives (.siphonRegDone m) s s ∧ Gives (.siphonRelease m) s s ∧ Gives (.siphonSignal m) s s ∧ Gives (.siphonAck m) s s) ∧
  (∀ (s : State) (m : Msg), s.sph.link = 2 →
    let u := (s.setSph { s.sph with bad := satAdd 8 s.sph.bad 1 }).flag .sph 2
    (headerOk 0x01 m = false → Gives (.siphonWrite m) s u) ∧ (headerOk 0x02 m = false → Gives (.siphonReadReq m) s u) ∧
    (headerOk 0x03 m = false → Gives (.siphonReadData m) s u) ∧ (headerOk 0x04 m = false → Gives (.siphonRegister m) s u) ∧
    (headerOk 0x05 m = false → Gives (.siphonRegDone m) s u) ∧ (headerOk 0x06 m = false → Gives (.siphonRelease m) s u) ∧
    (headerOk 0x08 m = false → Gives (.siphonSignal m) s u) ∧ (headerOk 0x09 m = false → Gives (.siphonAck m) s u)) ∧
  (∀ (s : State) (m : Msg), InTurn s 0x01 m → s.sph.txDark = false → m.payload ≠ [] →
    let a := m.addr.toNat
    let n := m.payload.length
    let late := ∃ k ∈ s.regsOf a n, k ∈ s.sph.lateRegs
    let fits := s.mapped a n = true ∧ a + n ≤ windowBase ∧
      ∀ r ∈ touched a n, (s.wctl r).shut = false ∨ ((s.wctl r).st = .closing ∧ ∃ k ∈ s.regsOf a n, k ∈ (s.wctl r).regs)
    (late → Leads (.siphonWrite m) s fun t => t.mem = s.mem ∧ t.hostMem = s.hostMem ∧ Sent t 0x09 (ackArg m .lateWrite) ∧
      t.sph.rxSeq = s.sph.rxSeq + 1 ∧ t.cmds = s.cmds ∧ t.parts = s.parts) ∧
    (¬ late → fits → Leads (.siphonWrite m) s fun t => t.mem = (s.writeStretches (s.stretches a n) (msgData m)).mem ∧ Sent t 0x09 (ackArg m .ok) ∧
      t.sph.rxSeq = s.sph.rxSeq + 1 ∧ t.cmds = s.cmds ∧ t.parts = s.parts) ∧
    (¬ late → ¬ fits → Leads (.siphonWrite m) s fun t => t.mem = s.mem ∧ t.hostMem = s.hostMem ∧ Sent t 0x09 (ackArg m .windowClosed) ∧
      t.sph.rxSeq = s.sph.rxSeq + 1 ∧ t.cmds = s.cmds ∧ t.parts = s.parts)) ∧
  (∀ (s : State) (m : Msg), InTurn s 0x02 m → s.sph.txDark = false → Leads (.siphonReadReq m) s fun t =>
    (∃ x ∈ t.sph.replay, x.type = 0x03 ∧ x.msg.arg = BitVec.ofNat 64 m.seq.toNat ∧ x.msg.payload = plain (s.remoteRead m.addr.toNat m.arg.toNat).1) ∧
    t.mem = s.mem ∧ t.hostMem = s.hostMem ∧ t.cmds = s.cmds ∧ t.parts = s.parts ∧ t.sph.rxSeq = s.sph.rxSeq + 1) ∧
  (∀ (s : State) (m : Msg), InTurn s 0x03 m →
    let n := m.arg.toNat
    let asks := s.ops.find? fun o => o.asked && !o.sent && (waitOf o.waits n).isSome
    (∀ o, asks = some o → Leads (.siphonReadData m) s fun t => t.mem = s.mem ∧ t.cmds = s.cmds ∧ t.bar2Reads = s.bar2Reads ∧
      t.ops = s.ops.map fun x => if x.id = o.id then
        { o with waits := waitsLeft o.waits n, got := o.got ++ [((waitOf o.waits n).getD 0, msgData m)] } else x) ∧
    (∀ b : Bar2Read, asks = none → s.bar2Reads.find? (fun b => (waitOf b.waits n).isSome) = some b →
      let bs := b.lay ((waitOf b.waits n).getD 0) m.payload
      Leads (.siphonReadData m) s fun t => t.mem = s.mem ∧ t.cmds = s.cmds ∧ t.ops = s.ops ∧
        (waitsLeft b.waits n = [] → t.bar2Reads = s.bar2Reads.filter (fun x => x != b) ∧ .readData (some b.port) bs ∈ t.out) ∧
        (waitsLeft b.waits n ≠ [] →
          t.bar2Reads = s.bar2Reads.map fun x => if x = b then { b with data := bs, waits := waitsLeft b.waits n } else x)) ∧
    (asks = none → s.bar2Reads.find? (fun b => (waitOf b.waits n).isSome) = none →
      Leads (.siphonReadData m) s fun t => t.mem = s.mem ∧ t.cmds = s.cmds ∧ t.ops = s.ops ∧ t.bar2Reads = s.bar2Reads)) ∧
  (∀ (s : State) (m : Msg), InTurn s 0x04 m → s.sph.txDark = false → Leads (.siphonRegister m) s fun t =>
    let r : Rng := ⟨m.addr.toNat, m.arg.toNat, m.flags.getLsbD 0⟩
    t.sph.remoteRegs = s.sph.remoteRegs ++ [(m.seq, r)] ∧ t.mem = s.mem ∧ t.cmds = s.cmds ∧ t.ops = s.ops ∧
    (s.holdsRemote r s.sph.remoteRegs = true → t.sph.regWait = s.sph.regWait ++ [m.seq]) ∧
    (s.holdsRemote r s.sph.remoteRegs = false → t.sph.regWait = s.sph.regWait ∧ Sent t 0x05 m.seq.toNat)) ∧
  (∀ (s : State) (m : Msg), InTurn s 0x05 m → Leads (.siphonRegDone m) s fun t => t.mem = s.mem ∧ t.cmds = s.cmds ∧
    t.ops = s.ops.map fun o => { o with regWait := o.regWait.filter fun x => x.toNat != m.arg.toNat }) ∧
  (∀ (s : State) (m : Msg), InTurn s 0x06 m → Leads (.siphonRelease m) s fun t => t.mem = s.mem ∧ t.cmds = s.cmds ∧ t.ops = s.ops ∧
    t.sph.remoteRegs = s.sph.remoteRegs.filter (fun x => x.1.toNat != m.arg.toNat) ∧
    t.sph.lateRegs = s.sph.lateRegs.filter (fun x => x.toNat != m.arg.toNat) ∧ t.sph.regWait = s.sph.regWait.filter (fun x => x.toNat != m.arg.toNat)) ∧
  (∀ (s : State) (m : Msg), InTurn s 0x08 m → s.sph.txDark = false → Leads (.siphonSignal m) s fun t => t.mem = s.mem ∧ t.cmds = s.cmds ∧
    (s.parts[m.partition].isOpen = true → Sent t 0x09 (ackArg m .ok) ∧
      t.parts[m.partition].sigs[m.counter] = s.parts[m.partition].sigs[m.counter] + BitVec.ofNat 32 m.arg.toNat ∧
      (∀ k : SemId, k ≠ m.counter → t.parts[m.partition].sigs[k] = s.parts[m.partition].sigs[k]) ∧
      (∀ o : PartId, o ≠ m.partition → t.parts[o] = s.parts[o])) ∧
    (s.parts[m.partition].isOpen = false → Sent t 0x09 (ackArg m .notReady) ∧ t.parts = s.parts)) ∧
  (∀ (s : State) (m : Msg) (q : PartId) (n : W32), InTurn s 0x09 m → n = BitVec.ofNat 32 (m.arg.toNat / 2 ^ 32) →
    s.sph.sigOut.find? (fun x => x.1 == n) = some (n, q) →
    let mine := fun (c : Cmd) => c.kind == .signalRemote && c.life == .started && c.notes == [n.toNat]
    (s.cmds.any mine = true → Leads (.siphonAck m) s fun t => t.mem = s.mem ∧ t.parts = s.parts ∧
      t.sph.sigOut = s.sph.sigOut.filter (fun x => x.1 != n) ∧
      t.cmds = s.cmds.map fun c => if mine c then { c.cond (ackStatus (m.arg.toNat % 65536)) with life := .ran } else c) ∧
    (s.cmds.any mine = false → Leads (.siphonAck m) s fun t => t.mem = s.mem ∧ t.cmds = s.cmds ∧
      t.sph.sigOut = s.sph.sigOut.filter (fun x => x.1 != n) ∧ Flagged t (.par s.parts[q].die) 1 ∧
      ∀ o : PartId, o ≠ q → t.parts[o] = s.parts[o])) ∧
  (∀ (s : State) (m : Msg) (n : W32), InTurn s 0x09 m → n = BitVec.ofNat 32 (m.arg.toNat / 2 ^ 32) → s.sph.sigOut.find? (fun x => x.1 == n) = none →
    let st := ackStatus (m.arg.toNat % 65536)
    let waits := s.ops.find? fun o => o.sent && (waitOf o.waits n.toNat).isSome
    (waits = none → Leads (.siphonAck m) s fun t => t.mem = s.mem ∧ t.parts = s.parts ∧ t.cmds = s.cmds ∧ t.ops = s.ops) ∧
    (∀ o, waits = some o → st = .ok → Leads (.siphonAck m) s fun t => t.mem = s.mem ∧ t.parts = s.parts ∧ t.cmds = s.cmds ∧
      t.ops = s.ops.map fun x => if x.id = o.id then { o with waits := waitsLeft o.waits n.toNat } else x) ∧
    (∀ o c, waits = some o → st ≠ .ok → s.opCmd o = some c → Leads (.siphonAck m) s fun t => t.mem = s.mem ∧ t.parts = s.parts ∧
      ∃ d ∈ t.cmds, d.adm = c.adm ∧ d.conds = c.conds ++ [st]))

/-- Messages about the pair (R315, R417, R418, R420, R422, R423, R424): none acts with the link not UP, and one that breaks a field is dropped and flagged. A
TIME that ends no exchange is answered with a TIME, and one that ends one of the loader's sixteen adds its offset, and the next one begins 64 µs after it. A
following standby takes the timebase of an active partner; a heartbeat gives the partner's role and its input-low flag; a MIRROR write of an active partner is
applied by a standby with its count; a ROLE gives the partner's role and its notice of a fence, and a last gasp makes a standby take over where it is set to.
Mirrored regions (R420): enabling one of whole 64 KiB blocks of mapped main memory, which the standby of an active module maps, sends its contents and leaves
it SYNCING; any other is refused with SPH_ERR bit 7; through a port that no access reaches, or once enabled, nothing changes. It is SYNCED when no message of
it waits to be received. It rests on choices of the model: log entries 117, 125, 126, 147, 211 and 250. -/
def Obligations.SiphonPairMessagesAct : Prop :=
  ((∀ (s : State) (m : Msg) (k : Nat) (d : Int), s.sph.link ≠ 2 → Gives (.siphonTime m k d) s s ∧ Gives (.siphonTimebase m) s s ∧
    Gives (.siphonHeartbeat m) s s ∧ Gives (.siphonMirror m) s s ∧ Gives (.siphonRole m) s s) ∧
  (∀ (s : State) (m : Msg) (k : Nat) (d : Int), s.sph.link = 2 →
    let u := (s.setSph { s.sph with bad := satAdd 8 s.sph.bad 1 }).flag .sph 2
    (headerOk 0x10 m = false → Gives (.siphonTime m k d) s u) ∧ (headerOk 0x11 m = false → Gives (.siphonTimebase m) s u) ∧
    (headerOk 0x18 m = false → Gives (.siphonHeartbeat m) s u) ∧ (headerOk 0x19 m = false → Gives (.siphonMirror m) s u) ∧
    (headerOk 0x1A m = false → Gives (.siphonRole m) s u)) ∧
  (∀ (s : State) (m : Msg) (k : Nat) (d : Int), InTurn s 0x10 m → s.sph.txDark = false →
    (s.det.collects = false → Leads (.siphonTime m k d) s fun t => Sent t 0x10 s.now ∧ t.det = s.det ∧ t.counter = s.counter ∧ t.mem = s.mem) ∧
    (s.det.collects = true → s.det.samples.length + 1 < 16 → Leads (.siphonTime m k d) s fun t => Sent t 0x09 (ackArg m .ok) ∧ t.counter = s.counter ∧ t.mem = s.mem ∧
      t.det = { s.det with samples := s.det.samples ++ [halfEven (d + ((m.arg.toNat : Int) - k))], nextAt := some (s.det.sentAt + 40960) })) ∧
  (∀ (s : State) (m : Msg), InTurn s 0x11 m → Leads (.siphonTimebase m) s fun t => t.det = s.det ∧ t.counter = s.counter ∧ t.mem = s.mem ∧
    (s.tbFollows = true → s.sph.partnerRole = 0 → t.tb.offset = BitVec.ofNat 80 (fieldAt m.payload 0 10) ∧
      t.tb.rate = BitVec.ofNat 40 (fieldAt m.payload 12 5) ∧ t.tb.anchor = BitVec.ofNat 64 (fieldAt m.payload 20 8)) ∧
    (s.tbFollows = false ∨ s.sph.partnerRole ≠ 0 → t.tb = s.tb)) ∧
  (∀ (s : State) (m : Msg), InTurn s 0x18 m → Leads (.siphonHeartbeat m) s fun t => t.sph.partnerRole = BitVec.ofNat 2 (fieldAt m.payload 0 1) ∧
    t.sph.partnerKnown = true ∧ t.sph.partnerLow = decide (fieldAt m.payload 3 1 % 2 = 1) ∧ t.sph.alive = true ∧ t.sph.lastHeard = s.now ∧
    t.sph.role = s.sph.role ∧ t.sph.conflict = !rolesOk s.sph.role (BitVec.ofNat 2 (fieldAt m.payload 0 1)) ∧ t.mem = s.mem ∧ t.det = s.det) ∧
  (∀ (s : State) (m : Msg), InTurn s 0x19 m →
    let mine := s.sph.role = 1 ∧ s.sph.partnerRole = 0 ∧ s.inMain m.addr.toNat m.payload.length = true
    (mine → Leads (.siphonMirror m) s fun t => t.mem = (s.devStore m.addr.toNat (msgData m)).mem ∧ t.sph.mirAt = m.arg ∧ t.cmds = s.cmds ∧ t.parts = s.parts) ∧
    (¬ mine → Leads (.siphonMirror m) s fun t => t.mem = s.mem ∧ t.sph.mirAt = s.sph.mirAt ∧ t.cmds = s.cmds ∧ t.parts = s.parts)) ∧
  (∀ (s : State) (m : Msg), InTurn s 0x1A m → m.arg.getLsbD 8 = false → Leads (.siphonRole m) s fun t =>
    t.sph.partnerRole = BitVec.ofNat 2 (m.arg.toNat % 4) ∧ t.sph.partnerKnown = true ∧ t.sph.role = s.sph.role ∧
    t.sph.fenceNotice = (s.sph.fenceNotice || m.arg.getLsbD 9) ∧ t.mem = s.mem ∧ t.det = s.det) ∧
  (∀ (s : State) (m : Msg), InTurn s 0x1A m → m.arg.getLsbD 8 = true → Leads (.siphonRole m) s fun t => (t.err .sph).getLsbD 5 = true ∧
    (s.sph.role = 1 → BitVec.ofNat 2 (m.arg.toNat % 4) = (0 : BitVec 2) → s.sph.lastgasp = true → t.sph.role = 0 ∧ t.sph.takenOver = true ∧ t.sph.link = 0 ∧
      (t.err .sph).getLsbD 6 = true) ∧
    (s.sph.role ≠ 1 → t.sph.role = s.sph.role ∧ t.sph.link = 2 ∧ t.sph.takenOver = s.sph.takenOver))) ∧
  ((∀ (s : State) (p : Port) (r : MirId) (maps : Bool), s.reached p = false ∨ s.mirrors[r].enable = true → Gives (.mirrorEnable p r maps) s s) ∧
  (∀ (s : State) (p : Port) (r : MirId) (maps : Bool), s.reached p = true → s.mirrors[r].enable = false →
    let m := s.mirrors[r]
    let n := m.len.toNat * 65536
    let good := m.base.toNat % 65536 = 0 ∧ 0 < n ∧ s.inMain m.base.toNat n = true ∧ maps = true ∧ s.sph.link = 2 ∧ s.sph.role = 0 ∧
      s.sph.partnerKnown = true ∧ s.sph.partnerRole = 1
    (good → Leads (.mirrorEnable p r maps) s fun t => t.mirrors = s.mirrors.set r { m with enable := true, state := .syncing } ∧ t.mem = s.mem ∧
      t.cmds = s.cmds ∧ t.parts = s.parts ∧ (s.sph.txDark = false → ∀ k, k < n / 4096 →
        ∃ x ∈ t.sph.replay, x.type = 0x19 ∧ x.msg.addr = BitVec.ofNat 40 (m.base.toNat + 4096 * k))) ∧
    (¬ good → Gives (.mirrorEnable p r maps) s
      (({ s with mirrors := s.mirrors.set r { m with enable := true, state := .refused } } : State).flag .sph 7))) ∧
  (∀ (s : State) (r : MirId),
    let m := s.mirrors[r]
    let ready := m.enable = true ∧ m.state = .syncing ∧ s.sph.link = 2 ∧
      ∀ x ∈ s.sph.replay, x.type = 0x19 → overlap x.msg.addr.toNat x.msg.payload.length m.base.toNat (m.len.toNat * 65536) = false
    (ready → Gives (.mirrorSyncDone r) s { s with mirrors := s.mirrors.set r { m with state := .synced } }) ∧ (¬ ready → Gives (.mirrorSyncDone r) s s)))

/-- Pairing (R400, R401, R406 to R408, Tables PRG-1, PRG-4): a MODE_SET to PAIRED of a pair at rest whose clusters are whole, whose checker nobody owns and
whose save area is there enters with the side that PRG_PAIR_CFG.main names: the commands running on the main cluster are told to stop, and once its units are
idle the checker takes the power states of the main side; a failed comparator test is counted and refused. A checker in use, or no save area, is
ST_NO_RESOURCE; a pair already PAIRED answers so, and one with a fenced cluster or in another flow says which. A MODE_SET to SPLIT waits while the comparators
judge what came before it, and then lets the checker go; a pair already SPLIT or DEGRADED answers so. It rests on choices of the model: log entries 58, 134
and 145. -/
def Obligations.PairsJoinAndPart : Prop :=
  (∀ (s : State) (p : Port) (i : SlotId) (r : PairId) (testOk : Bool), Asks s p i 6 .any → (s.slot p i).pay 0 1 = 2 → (s.slot p i).pay 1 1 = 0 →
    (s.slot p i).modeBad 2 4 = [] → (s.slot p i).pay 2 2 = r.val →
    let y := { s.pairs[r] with mainDie := if s.pairs[r].main then 1 else 0 }
    let main := y.mainClus r
    let chk := y.checker r
    let rest := s.pairs[r].state = .split ∨ s.pairs[r].state = .degraded
    let quiet := (∀ o ∈ s.ops, clusOfCore o.core ≠ main) ∧ (∀ c ∈ s.cmds, c.runsOn main = false) ∧
      ∀ w ∈ partsOfClus main, (s.wctl w).st ≠ .closing ∧ (s.wctl w).st ≠ .powering
    (s.pairs[r].state = .paired ∨ s.pairs[r].state = .leaving → Leads (.modeSetPaired p i testOk) s fun t =>
      AnsweredOk t p i (s.slot p i) (modeAnswer 0 0) ∧ t.pairs = s.pairs ∧ t.mem = s.mem) ∧
    (s.pairs[r].state = .testing ∨ s.pairs[r].state = .resync ∨ s.pairs[r].state = .entering ∨ (rest ∧ s.sys.die1 = false) →
      Leads (.modeSetPaired p i testOk) s fun t => Answered t p i (s.slot p i) .notReady 0 0xFFFF [] ∧ t.pairs = s.pairs ∧ t.mem = s.mem) ∧
    (rest → s.sys.die1 = true → (s.clusFenced main = true ∨ s.clusFenced chk = true) → Leads (.modeSetPaired p i testOk) s fun t =>
      Answered t p i (s.slot p i) .fenced 0 0xFFFF [] ∧ t.pairs = s.pairs ∧ t.mem = s.mem) ∧
    (rest → s.sys.die1 = true → s.clusFenced main = false → s.clusFenced chk = false →
      ((s.clusOwned chk = true ∨ s.saveAreaOk s.pairs[r] = false) → Leads (.modeSetPaired p i testOk) s fun t =>
        Answered t p i (s.slot p i) .noResource 0 0xFFFF [] ∧ t.pairs = s.pairs ∧ t.mem = s.mem) ∧
      (s.clusOwned chk = false → s.saveAreaOk s.pairs[r] = true → ¬ quiet → Leads (.modeSetPaired p i testOk) s fun t =>
        t.pairs[r] = { y with state := .entering } ∧ (t.slot p i).busy = true ∧ (t.slot p i).started = true ∧ t.mem = s.mem ∧ t.ops = s.ops ∧
        ∀ c ∈ t.cmds, c.runsOn main = true → c.stop ≠ none) ∧
      (s.clusOwned chk = false → s.saveAreaOk s.pairs[r] = true → quiet → testOk = true → Leads (.modeSetPaired p i testOk) s fun t =>
        t.pairs[r] = { y with state := .paired, group := 0 } ∧ (∀ o : PairId, o ≠ r → t.pairs[o] = s.pairs[o]) ∧
        AnsweredOk t p i (s.slot p i) (modeAnswer 1 0) ∧ (∀ w ∈ partsOfClus main, (t.wctl (twin w)).st = (s.wctl w).st) ∧ t.parts = s.parts ∧
        t.cmds = s.cmds ∧ t.errs = s.errs) ∧
      (s.clusOwned chk = false → s.saveAreaOk s.pairs[r] = true → quiet → testOk = false → Leads (.modeSetPaired p i testOk) s fun t =>
        t.pairs[r].state = .split ∧ t.pairs[r].refusals = satAdd 8 s.pairs[r].refusals 1 ∧ (t.err .prg).getLsbD 2 = true ∧
        Answered t p i (s.slot p i) .pairRefused 0 0xFFFF [] ∧ t.mem = s.mem ∧ t.hw = s.hw))) ∧
  (∀ (s : State) (p : Port) (i : SlotId) (r : PairId), s.mailRuns p i 6 = true → (s.slot p i).started = true → (s.slot p i).orphaned = false →
    (s.slot p i).pay 0 1 = 2 → (s.slot p i).pay 1 1 = 0 → (s.slot p i).pay 2 2 = r.val → s.pairs[r].state = .entering →
    (s.clusQuiet (s.pairs[r].mainClus r) = true → Leads (.modeSetPaired p i true) s fun t =>
      t.pairs[r] = { s.pairs[r] with state := .paired, group := 0 } ∧ AnsweredOk t p i (s.slot p i) (modeAnswer 1 0) ∧ t.cmds = s.cmds) ∧
    (s.clusQuiet (s.pairs[r].mainClus r) = false → ∀ b : Bool, Gives (.modeSetPaired p i b) s s)) ∧
  (∀ (s : State) (p : Port) (i : SlotId) (r : PairId), Asks s p i 6 .any → (s.slot p i).pay 0 1 = 2 → (s.slot p i).pay 1 1 = 1 →
    (s.slot p i).modeBad 2 4 = [] → (s.slot p i).pay 2 2 = r.val →
    (s.pairs[r].state = .paired → Leads (.modeSetSplit p i) s fun t => t.pairs[r] = { s.pairs[r] with state := .leaving, splitWaits := some (p, i) } ∧
      (t.slot p i).busy = true ∧ (t.slot p i).started = true ∧ t.mem = s.mem ∧ t.hw = s.hw) ∧
    (s.pairs[r].state = .testing ∨ s.pairs[r].state = .resync → Leads (.modeSetSplit p i) s fun t =>
      t.pairs[r] = { s.pairs[r] with splitWaits := some (p, i) } ∧ (t.slot p i).busy = true ∧ (t.slot p i).started = true ∧ t.mem = s.mem ∧ t.hw = s.hw) ∧
    (s.pairs[r].state = .split ∨ s.pairs[r].state = .degraded → Leads (.modeSetSplit p i) s fun t => AnsweredOk t p i (s.slot p i) (modeAnswer 1 1) ∧
      t.pairs[r] = { s.pairs[r] with state := .split } ∧ (∀ o : PairId, o ≠ r → t.pairs[o] = s.pairs[o]) ∧ t.mem = s.mem)) ∧
  (∀ (s : State) (p : Port) (i : SlotId) (r : PairId), s.mailRuns p i 6 = true → (s.slot p i).started = true → (s.slot p i).orphaned = false →
    (s.slot p i).pay 0 1 = 2 → (s.slot p i).pay 1 1 = 1 → (s.slot p i).pay 2 2 = r.val → s.pairs[r].state = .leaving →
    Leads (.modeSetSplit p i) s fun t => t.pairs[r] = { s.pairs[r] with state := .split, splitWaits := none } ∧
      AnsweredOk t p i (s.slot p i) (modeAnswer 0 1) ∧ (∀ o : PairId, o ≠ r → t.pairs[o] = s.pairs[o]) ∧ t.parts = s.parts ∧ t.cmds = s.cmds ∧
      ∀ w ∈ partsOfClus (s.pairs[r].checker r), (s.wctl w).st = .on → (t.wctl w).st = .unfilled)

/-- A mismatch and the self-test after it (R404, R405, R409 to R412, Tables PRG-2, PRG-3, PRG-5): where the signatures of the values that the two clusters
drive in a cycle differ, the first group that differs is recorded, the commands in flight on the main cluster end, the save area is written and the pair tests
itself. Both sides passing, the pair is PAIRED again and the transient counted; one or both failing, it is DEGRADED (SPLIT where both pass but the comparator
test fails) with the failed clusters fenced, and without policy CONTINUE the partitions of the main cluster are barred from it. Debug actions act on a
cluster, and on its checker too while it is paired; one addressed to a checker is refused with PRG_ERR bit 5. It rests on choices of the model: log entries
14, 140, 141, 142, 146, 160, 231, 243, 249 and 250. -/
def Obligations.MismatchesEndInATest : Prop :=
  (∀ (s : State) (r : PairId) (k : Nat) (xs ys : List Nat),
    (s.pairs[r].state ≠ .paired ∧ s.pairs[r].state ≠ .leaving) ∨ signature xs = signature ys → Gives (.pairMismatch r k ⟨xs, ys⟩) s s) ∧
  (∀ (s : State) (r : PairId) (k : Nat) (xs ys : List Nat), (s.pairs[r].state = .paired ∨ s.pairs[r].state = .leaving) → signature xs ≠ signature ys →
    Leads (.pairMismatch r k ⟨xs, ys⟩) s fun t =>
    let hit := s.cmds.filter fun c => c.inFlight && c.onClus (s.pairs[r].mainClus r)
    let differ : Nat → Prop := fun i => xs.getD i 0 % 2 ^ sigWidths.getD i 0 ≠ ys.getD i 0 % 2 ^ sigWidths.getD i 0
    (∃ g, g < 6 ∧ differ g ∧ (∀ i, i < g → ¬ differ i) ∧ t.pairs[r] = { s.pairs[r] with
      state := .testing, mismatches := satAdd 8 s.pairs[r].mismatches 1, group := BitVec.ofNat 4 g, evt := BitVec.ofNat 64 k, ended := hit }) ∧
    (∀ o : PairId, o ≠ r → t.pairs[o] = s.pairs[o]) ∧ (t.err .prg).getLsbD 0 = true ∧ (∀ c ∈ hit, ∀ d ∈ t.cmds, d.adm = c.adm → d.life = .ended) ∧
    t.mem = s.mem ∧ ∀ a, s.pairs[r].save.toNat ≤ a → a < s.pairs[r].save.toNat + 0x3200000 → (t.undefAt a).isSome = true) ∧
  (∀ (s : State) (r : PairId) (a b q : Bool), s.pairs[r].state ≠ .testing → Gives (.pairSelftestDone r a b q) s s) ∧
  (∀ (s : State) (r : PairId), s.pairs[r].state = .testing → s.pairs[r].splitWaits = none → Leads (.pairSelftestDone r true true true) s fun t =>
    t.pairs[r].state = .paired ∧ t.pairs[r].outcome = 1 ∧ t.pairs[r].transients = satAdd 8 s.pairs[r].transients 1 ∧ t.pairs[r].ended = [] ∧
    t.pairs[r].mainDie = s.pairs[r].mainDie ∧ (t.err .prg).getLsbD 4 = true ∧ (∀ o : PairId, o ≠ r → t.pairs[o] = s.pairs[o]) ∧
    (s.pairs[r].rerun = false → t.cmds = s.cmds) ∧ t.parts = s.parts) ∧
  (∀ (s : State) (r : PairId), s.pairs[r].state = .testing → s.pairs[r].splitWaits = none → Leads (.pairSelftestDone r true true false) s fun t =>
    t.pairs[r].state = .split ∧ t.pairs[r].outcome = 1 ∧ t.pairs[r].refusals = satAdd 8 s.pairs[r].refusals 1 ∧ t.pairs[r].ended = [] ∧
    (t.err .prg).getLsbD 2 = true ∧ (t.err .prg).getLsbD 4 = true ∧ (∀ o : PairId, o ≠ r → t.pairs[o] = s.pairs[o]) ∧ t.parts = s.parts) ∧
  (∀ (s : State) (r : PairId) (a b q : Bool), s.pairs[r].state = .testing → s.pairs[r].splitWaits = none → (a && b) = false →
    Leads (.pairSelftestDone r a b q) s fun t =>
      t.pairs[r].state = .degraded ∧ t.pairs[r].outcome = (if a || b then 2 else 3) ∧ t.pairs[r].failD0 = !a ∧ t.pairs[r].failD1 = !b ∧
      t.pairs[r].ended = [] ∧ (t.err .prg).getLsbD 3 = true ∧ (a = false → t.clusFenced (clusOfPair r 0) = true) ∧
      (b = false → t.clusFenced (clusOfPair r 1) = true) ∧ (∀ o : PairId, o ≠ r → t.pairs[o] = s.pairs[o]) ∧
      ((a || b) = true → s.pairs[r].policy ≠ 1 → ∀ o ∈ s.holders (s.pairs[r].mainClus r), o ∈ t.pairs[r].barred)) ∧
  (∀ (s : State) (c : ClusId) (x : DebugAct), s.isChecker c = true → Gives (.debugAction c x) s (s.flag .prg 5)) ∧
  (∀ (s : State) (c : ClusId) (x : DebugAct), s.isChecker c = false → s.diePresent (dieOfClus c) = false → Gives (.debugAction c x) s s) ∧
  (∀ (s : State) (c : ClusId) (x : DebugAct), s.isChecker c = false → s.diePresent (dieOfClus c) = true → Leads (.debugAction c x) s fun t =>
    .debug c x false ∈ t.out ∧ (s.pairs[pairOfClus c].joined = true → .debug (s.pairs[pairOfClus c].checker (pairOfClus c)) x true ∈ t.out) ∧
    (x = .halt → t.halted = s.halted.set c true) ∧ (x = .resume → t.halted = s.halted.set c false) ∧
    ((x = .halt ∨ x = .resume ∨ x = .step) → t.mem = s.mem ∧ t.errs = s.errs) ∧ t.cmds = s.cmds ∧ t.parts = s.parts ∧ t.pairs = s.pairs ∧
    ∀ a bs, x = .write a bs → t.halted = s.halted ∧ (s.pairs[pairOfClus c].joined = false → bs ≠ [] →
      (∃ w ∈ partsOfClus c, (partSpan w).1 ≤ a ∧ a + bs.length ≤ (partSpan w).1 + (partSpan w).2) → t.mem = (s.devStore a (clean bs)).mem))

/-- Register writes, sticky bits and the SMBus (R5 to R7, R33, R37, R38, R193, R400, R476, R486): a write to BAR0 needs a port that accesses reach, and word
alignment; a write of an offset that is not RW changes nothing; an RW field takes the value: the BAR2 base, the DONE interrupt enable, the alert mask, PAR_SIG
and the completion interrupts of a partition that the port owns (a foreign one sets its bit), the MSI-X entries, the DET_STEEP operands, and a SPLIT pair's
configuration (PRG_ERR bit 6 otherwise); registers of an absent die take nothing. The port's function takes its power state, BAR2's size and its AER bits at
the offsets of log entry 211, which are the model's choice. A write of 1 clears the sticky bits of a present die, but for one that hardware has set in the
same FCLK cycle, and a core's high_water by its bit 10. The SMBus target of a module out of reset gives the value of each register it serves and its packet
error code (log entry 50; log entry 49 has the registers without a stated value), and answers no other offset. It rests on choices of the model: log entries
49, 50, 197, 211 and 231. -/
def Obligations.RegistersAreWrittenAndCleared : Prop :=
  (∀ (s : State) (p : Port) (off : Nat) (v : W32), s.reached p = false →
    Gives (.stickyClear p off v) s s ∧ (off < 0x1000000 → Gives (.registerWrite p off v) s s)) ∧
  (∀ (s : State) (p : Port) (off : Nat) (v : W32), ((off % 4 ≠ 0 ∧ off < 0x1000000) ∨ off < 0x104 ∨ (0x108 ≤ off ∧ off < 0x1800C) ∨ (0x1000000 ≤ off ∧ (s.port p).link = false)) →
    Gives (.registerWrite p off v) s s) ∧
  (∀ (s : State) (p : Port) (v : W32), s.reached p = true →
    Gives (.registerWrite p 0x104 v) s (s.setPort p { s.port p with bar2Base := BitVec.ofNat 6 (v.toNat / 4) }) ∧
    Gives (.registerWrite p 0x1800C v) s (s.setPort p { s.port p with doneIrqEn := v.getLsbD 0 }) ∧
    Gives (.registerWrite p 0x56108 v) s { s with det := { s.det with stream := v } } ∧
    Gives (.registerWrite p 0x5610C v) s { s with det := { s.det with elem := v } } ∧
    Gives (.registerWrite p 0x54000 v) s { s with strPeek := BitVec.ofNat 18 v.toNat } ∧
    Gives (.registerWrite p 0x50004 v) s { s with trb := { s.trb with alertMask := BitVec.ofNat 20 v.toNat } } ∧
    Gives (.registerWrite p 0x40068 v) s { s with tb := { s.tb with jumpMax := v } } ∧
    (s.diePresent 1 = false → ∀ off, (0x57180 ≤ off ∧ off < 0x57300) ∨ (0x57420 ≤ off ∧ off < 0x57430) → Gives (.registerWrite p off v) s s)) ∧
  (∀ (s : State) (p : Port) (q : PartId) (k : SemId) (v : W32), s.reached p = true → Gives (.registerWrite p (0x53000 + 0x100 * q.val + 4 * k.val) v) s
    (if s.owns p q then s.setPart q { s.parts[q] with sigs := s.parts[q].sigs.set k v } else s.flag (.par s.parts[q].die) 9)) ∧
  (∀ (s : State) (p : Port) (q : PartId) (k : QueId) (v : W32), s.reached p = true → Gives (.registerWrite p (0x70008 + 0x40 * q.val + 16 * k.val) v) s
    (if s.owns p q then s.setQueue q k { s.queue q k with
        irqVec := BitVec.ofNat 6 v.toNat, irqBatch := BitVec.ofNat 8 (v.toNat / 256), irqEn := v.getLsbD 16 } else s.flag .mbx 3)) ∧
  (∀ (s : State) (p : Port) (n : Fin 64) (v : W32), s.reached p = true →
    Leads (.registerWrite p (0x80008 + 16 * n.val) v) s fun t => (t.port p).msix[n].data = v ∧ (t.port p).msix[n].addr = (s.port p).msix[n].addr ∧
      (t.port p).msix[n].masked = (s.port p).msix[n].masked ∧ (∀ m : Fin 64, m ≠ n → ((t.port p).msix[m]).data = ((s.port p).msix[m]).data) ∧
      t.parts = s.parts ∧ t.mem = s.mem ∧ t.errs = s.errs) ∧
  (∀ (s : State) (p : Port) (n : Fin 64) (v : W32), s.reached p = true → (s.port p).msix[n].pending = true → v.getLsbD 0 = false →
    Leads (.registerWrite p (0x8000C + 16 * n.val) v) s fun t => (t.port p).msix[n].masked = false ∧
      Emits s t (.msix p n.val ((s.port p).msix[n].addr).toNat ((s.port p).msix[n].data).toNat) ∧ t.parts = s.parts ∧ t.mem = s.mem ∧ t.errs = s.errs) ∧
  (∀ (s : State) (p : Port) (r : PairId) (v : W32), s.reached p = true → Gives (.registerWrite p (0x5C000 + 32 * r.val) v) s
    (if s.pairs[r].state = .split then
      s.setPair r { s.pairs[r] with main := v.getLsbD 0, policy := BitVec.ofNat 2 (v.toNat / 2), rerun := v.getLsbD 3 }
     else s.flag .prg 6)) ∧
  (∀ (s : State) (p : Port) (v : W32), (s.port p).link = true →
    Gives (.registerWrite p 0x1000000 v) s (if v.toNat % 4 = 0 then s.setPort p { s.port p with d3hot := false } else s) ∧
    (∀ n, 14 ≤ n → n ≤ 18 → v.toNat / 256 % 64 = n → Gives (.registerWrite p 0x1000004 v) s (s.setPort p { s.port p with bar2Log2 := 20 + n })) ∧
    Gives (.registerWrite p 0x1000008 v) s (s.setPort p { s.port p with aer := (s.port p).aer.filter fun e => !v.getLsbD e.code })) ∧
  (∀ (s : State) (p : Port) (k : Sticky) (v : W32), s.reached p = true → s.diePresent k.die = true → Leads (.stickyClear p k.off v) s fun t =>
    t.err k = s.err k &&& ~~~(v &&& ~~~s.setNow[k.idx]) ∧ (∀ j : Sticky, j ≠ k → t.err j = s.err j) ∧ t.parts = s.parts ∧ t.mem = s.mem ∧
    t.cnts = s.cnts ∧ t.cmds = s.cmds) ∧
  (∀ (s : State) (p : Port) (k : Sticky) (v : W32), s.diePresent k.die = false → Gives (.stickyClear p k.off v) s s) ∧
  (∀ (s : State) (p : Port) (n : CoreId) (v : W32), s.reached p = true → Gives (.stickyClear p (0x51080 + 4 * n.val) v) s
    (if v.getLsbD 10 = true ∧ s.diePresent (dieOfCore n) = true then { s with cnts := { s.cnts with highWater := s.cnts.highWater.set n 0 } } else s)) ∧
  (∀ (s : State) (off : Nat), s.sys.rails = .on → s.sys.rstN = true → smbusServes off = true →
    Leads (.smbusRead off) s fun t => Emits s t (.readData none (smbusBytes off (s.smbusValue off))) ∧ t.still = s.still ∧
      (off ≠ 0x0C → off ≠ 0x60004 → off ≠ 0x60104 → s.smbusValue off = s.reg .a off)) ∧
  (∀ (s : State) (off : Nat), (s.sys.rails ≠ .on ∨ s.sys.rstN = false ∨ smbusServes off = false) →
    Leads (.smbusRead off) s fun t => Emits s t .smbusNack ∧ t.still = s.still)

/-- A step runs the command at the front of the queue on the state with the rest of the queue. -/
def Obligations.StepRunsTheFrontCommand : Prop :=
  ∀ (s : State) (c : Instr) (rest : List Instr), step { s with pending := c :: rest } = exec c { s with pending := rest }

/-- With no command waiting one FCLK cycle passes (R22, R23, R30, R120, R311, R393; that it passes on an empty queue is the model's choice, log entry 17): the
counter of a powered, clocked module advances by one, or holds its value for the one cycle in which alignment holds it (R318), and at a new value the first op
on the timebase that waits applies; the ACLK frame goes on, each cluster takes its skip value at the frame's end, and each core that is on counts its
suppressed ACLK cycles; each partition may issue again (R176) and vector 1 may be raised again (R41). Regions and windows may only leave. With nothing else
due (no op, no partner's domain, no alignment exchange, no write of a camera port or pipeline, no registration, no drained region or window, no station in RUN
or HALTED) everything else stays. A module without power or clock only forgets what was set and issued in the cycle before. It rests on choices of the model:
log entries 61, 176, 200 and 230. -/
def Obligations.AnEmptyQueueLetsACyclePass : Prop :=
  (∀ (s : State), s.pending = [] → (s.sys.rails ≠ .on ∨ s.sys.clocked = false) → ∃ t, step s = .next t ∧
    t.still = ({ s with setNow := .replicate 59 0, issuedNow := [] } : State).still) ∧
  (∀ (s : State), s.pending = [] → s.sys.rails = .on → s.sys.clocked = true → ∃ t, step s = .next t ∧
    t.counter = (if s.det.holdNow = true then s.counter else s.counter + 1) ∧ t.det.holdNow = false ∧ t.issuedNow = [] ∧ t.pending = [] ∧
    t.sys = s.sys ∧ t.tb.ops = (if s.det.holdNow = true then s.tb.ops else match nextTbOp s.tb.ops with
      | some o => s.tb.ops.erase o
      | none => s.tb.ops) ∧
    t.pm.phase = (s.pm.phase + 1) % 8 ∧ (∀ c : ClusId, t.pm.skip[c] = if (s.pm.phase + 1) % 8 = 0 then s.skipAt c else s.pm.skip[c]) ∧
    (∀ w ∈ t.windows, w ∈ s.windows) ∧ (∀ r ∈ t.regions, r ∈ s.regions) ∧
    (s.tb.ops = [] → s.pm.pdTwins = [] → s.det.nextAt = none → s.sph.regWait = [] → (∀ u ∈ ioUnits, s.ioJobs u = []) →
      (∀ r ∈ s.regions, s.idleRegion r = false) → (∀ w ∈ s.windows, w.draining = false) →
      (∀ j : StationId, s.stations[j].state ≠ .run ∧ s.stations[j].state ≠ .halted) →
      t.mem = s.mem ∧ t.hostMem = s.hostMem ∧ t.cmds = s.cmds ∧ t.ops = s.ops ∧ t.errs = s.errs ∧ t.parts = s.parts ∧ t.sems = s.sems ∧ t.tb = s.tb ∧
      t.regions = s.regions ∧ t.windows = s.windows ∧ t.streams = s.streams ∧ t.seqs = s.seqs ∧ t.axes = s.axes ∧ t.cams = s.cams ∧ t.eth = s.eth ∧
      (∀ (p : Port) (i : SlotId), t.slot p i = s.slot p i) ∧
      ∀ n : CoreId, t.cnts.stallB[n] = s.cnts.stallB[n] + if s.domainOn (Fin.ofNat 128 n.val) = true then
        ([2 * s.pm.phase, 2 * s.pm.phase + 1].filter fun i => suppressed s.pm.skip[clusOfCore n] i).length else 0))

/-- Reset (R31, R42, R50, R56, R175, R193, R285, R324, R342, R400, R460, R479): the counter, every sticky register, every queue pointer, epoch and signal
counter is zero; no semaphore is held, no slot is BUSY or DONE, no partition is open, no command, stream, heap, region or window is there; cameras, pipelines,
Ethernet ports, axes and stations are OFF and every pair is SPLIT; the event log is empty; nothing has left the module and no command waits. Module memory and
the hosts' memories are in canonical form. It rests on choices of the model: log entries 1, 3, 4 and 6. -/
def Obligations.ResetLeavesTheModuleAtRest : Prop :=
  let s := State.reset
  s.counter = 0 ∧ (∀ k : Sticky, s.err k = 0) ∧ (∀ k : SemId, s.sems[k].held = false ∧ s.sems[k].broken = false) ∧
  (∀ (p : Port) (i : SlotId), (s.slot p i).busy = false ∧ (s.slot p i).done = false) ∧
  (∀ p : PartId, s.parts[p].state = .closed ∧ s.parts[p].epoch = 0 ∧ (∀ k : SemId, s.parts[p].sigs[k] = 0) ∧
    ∀ q : QueId, (s.queue p q).prod = 0 ∧ (s.queue p q).fetched = 0 ∧ (s.queue p q).crProd = 0 ∧ (s.queue p q).crCons = 0) ∧
  s.cmds = [] ∧ s.ops = [] ∧ s.streams = [] ∧ s.groups = [] ∧ s.heaps = [] ∧ s.seqs = [] ∧ s.regions = [] ∧ s.windows = [] ∧
  (∀ v : CamId, s.cams[v].state = .off) ∧ (∀ i : PipeId, s.pipes[i].state = .off) ∧ (∀ e : EthId, s.eth[e].state = .off) ∧
  (∀ a : AxisId, s.axes[a].state = .off) ∧ (∀ j : StationId, s.stations[j].state = .off) ∧ (∀ r : PairId, s.pairs[r].state = .split) ∧
  s.sys.rstN = false ∧ s.sys.fwState = 0 ∧ s.trb.log = [] ∧ s.out = [] ∧ s.pending = [] ∧ MemInv s

/-- Memory keeps its canonical form, and the queue is first in, first out: a step from any state whose module and host memories are canonical that goes on,
ends in one whose memories are, with the queue one command shorter at its front (no command touches the queue, and a cycle leaves it empty). -/
def Obligations.StepKeepsMemoryCanonical : Prop :=
  ∀ s t : State, MemInv s → step s = .next t → MemInv t ∧ t.pending = s.pending.tail

/-- Every command of the table ends in a next state, whatever the state and its operands (R3). A sticky register that was zero before it and is not after it
is in the event log as an error event with the register's offset and value (R460, Table TRB-7); and when a bit of ERR_SUMMARY is newly set, vector 1 is raised
in that cycle (R41, R458). It rests on a choice of the model: log entry 18. -/
def Obligations.EveryCommandGoesOnAndReportsErrors : Prop :=
  ∀ (c : Instr) (s : State), ∃ t, exec c s = .next t ∧
    (∀ k : Sticky, s.err k = 0 → t.err k ≠ 0 → ∃ e ∈ t.trb.log, e.code = 3 ∧ e.count = t.now ∧ e.args = leBytes 4 k.off ++ leBytes 4 (t.err k).toNat) ∧
    ((∃ i, i < 20 ∧ t.summary.testBit i = true ∧ s.summary.testBit i = false) → t.v1Raised = true)
end

