-- ==== Sys2Proof/Laws/State.lean ====
section
/-! SUPPORT. What the named updates of the state leave as it was, one lemma for each field, and what they put in place. -/
namespace Sys2Proof.Machine

/-! State.setPort -/
@[simp] theorem State.setPort_sys (s : State) (p : Port) (x : HostPort) : (State.setPort s p x).sys = s.sys := rfl
@[simp] theorem State.setPort_counter (s : State) (p : Port) (x : HostPort) : (State.setPort s p x).counter = s.counter := rfl
@[simp] theorem State.setPort_trb (s : State) (p : Port) (x : HostPort) : (State.setPort s p x).trb = s.trb := rfl
@[simp] theorem State.setPort_reqs (s : State) (p : Port) (x : HostPort) : (State.setPort s p x).reqs = s.reqs := rfl
@[simp] theorem State.setPort_sems (s : State) (p : Port) (x : HostPort) : (State.setPort s p x).sems = s.sems := rfl
@[simp] theorem State.setPort_errs (s : State) (p : Port) (x : HostPort) : (State.setPort s p x).errs = s.errs := rfl
@[simp] theorem State.setPort_setNow (s : State) (p : Port) (x : HostPort) : (State.setPort s p x).setNow = s.setNow := rfl
@[simp] theorem State.setPort_v1Raised (s : State) (p : Port) (x : HostPort) : (State.setPort s p x).v1Raised = s.v1Raised := rfl
@[simp] theorem State.setPort_cnts (s : State) (p : Port) (x : HostPort) : (State.setPort s p x).cnts = s.cnts := rfl
@[simp] theorem State.setPort_parts (s : State) (p : Port) (x : HostPort) : (State.setPort s p x).parts = s.parts := rfl
@[simp] theorem State.setPort_cmds (s : State) (p : Port) (x : HostPort) : (State.setPort s p x).cmds = s.cmds := rfl
@[simp] theorem State.setPort_admitNext (s : State) (p : Port) (x : HostPort) : (State.setPort s p x).admitNext = s.admitNext := rfl
@[simp] theorem State.setPort_issuedNow (s : State) (p : Port) (x : HostPort) : (State.setPort s p x).issuedNow = s.issuedNow := rfl
@[simp] theorem State.setPort_issueNext (s : State) (p : Port) (x : HostPort) : (State.setPort s p x).issueNext = s.issueNext := rfl
@[simp] theorem State.setPort_keys (s : State) (p : Port) (x : HostPort) : (State.setPort s p x).keys = s.keys := rfl
@[simp] theorem State.setPort_ops (s : State) (p : Port) (x : HostPort) : (State.setPort s p x).ops = s.ops := rfl
@[simp] theorem State.setPort_opNext (s : State) (p : Port) (x : HostPort) : (State.setPort s p x).opNext = s.opNext := rfl
@[simp] theorem State.setPort_scHalt (s : State) (p : Port) (x : HostPort) : (State.setPort s p x).scHalt = s.scHalt := rfl
@[simp] theorem State.setPort_halted (s : State) (p : Port) (x : HostPort) : (State.setPort s p x).halted = s.halted := rfl
@[simp] theorem State.setPort_mem (s : State) (p : Port) (x : HostPort) : (State.setPort s p x).mem = s.mem := rfl
@[simp] theorem State.setPort_undef (s : State) (p : Port) (x : HostPort) : (State.setPort s p x).undef = s.undef := rfl
@[simp] theorem State.setPort_poison (s : State) (p : Port) (x : HostPort) : (State.setPort s p x).poison = s.poison := rfl
@[simp] theorem State.setPort_ecc (s : State) (p : Port) (x : HostPort) : (State.setPort s p x).ecc = s.ecc := rfl
@[simp] theorem State.setPort_hw (s : State) (p : Port) (x : HostPort) : (State.setPort s p x).hw = s.hw := rfl
@[simp] theorem State.setPort_pools (s : State) (p : Port) (x : HostPort) : (State.setPort s p x).pools = s.pools := rfl
@[simp] theorem State.setPort_hostMem (s : State) (p : Port) (x : HostPort) : (State.setPort s p x).hostMem = s.hostMem := rfl
@[simp] theorem State.setPort_hostErr (s : State) (p : Port) (x : HostPort) : (State.setPort s p x).hostErr = s.hostErr := rfl
@[simp] theorem State.setPort_cisPoison (s : State) (p : Port) (x : HostPort) : (State.setPort s p x).cisPoison = s.cisPoison := rfl
@[simp] theorem State.setPort_bar2Reads (s : State) (p : Port) (x : HostPort) : (State.setPort s p x).bar2Reads = s.bar2Reads := rfl
@[simp] theorem State.setPort_ecs (s : State) (p : Port) (x : HostPort) : (State.setPort s p x).ecs = s.ecs := rfl
@[simp] theorem State.setPort_fence (s : State) (p : Port) (x : HostPort) : (State.setPort s p x).fence = s.fence := rfl
@[simp] theorem State.setPort_regions (s : State) (p : Port) (x : HostPort) : (State.setPort s p x).regions = s.regions := rfl
@[simp] theorem State.setPort_windows (s : State) (p : Port) (x : HostPort) : (State.setPort s p x).windows = s.windows := rfl
@[simp] theorem State.setPort_streams (s : State) (p : Port) (x : HostPort) : (State.setPort s p x).streams = s.streams := rfl
@[simp] theorem State.setPort_groups (s : State) (p : Port) (x : HostPort) : (State.setPort s p x).groups = s.groups := rfl
@[simp] theorem State.setPort_strPeek (s : State) (p : Port) (x : HostPort) : (State.setPort s p x).strPeek = s.strPeek := rfl
@[simp] theorem State.setPort_heaps (s : State) (p : Port) (x : HostPort) : (State.setPort s p x).heaps = s.heaps := rfl
@[simp] theorem State.setPort_seqs (s : State) (p : Port) (x : HostPort) : (State.setPort s p x).seqs = s.seqs := rfl
@[simp] theorem State.setPort_spills (s : State) (p : Port) (x : HostPort) : (State.setPort s p x).spills = s.spills := rfl
@[simp] theorem State.setPort_returns (s : State) (p : Port) (x : HostPort) : (State.setPort s p x).returns = s.returns := rfl
@[simp] theorem State.setPort_det (s : State) (p : Port) (x : HostPort) : (State.setPort s p x).det = s.det := rfl
@[simp] theorem State.setPort_cams (s : State) (p : Port) (x : HostPort) : (State.setPort s p x).cams = s.cams := rfl
@[simp] theorem State.setPort_audTable (s : State) (p : Port) (x : HostPort) : (State.setPort s p x).audTable = s.audTable := rfl
@[simp] theorem State.setPort_audFir (s : State) (p : Port) (x : HostPort) : (State.setPort s p x).audFir = s.audFir := rfl
@[simp] theorem State.setPort_fir (s : State) (p : Port) (x : HostPort) : (State.setPort s p x).fir = s.fir := rfl
@[simp] theorem State.setPort_bindings (s : State) (p : Port) (x : HostPort) : (State.setPort s p x).bindings = s.bindings := rfl
@[simp] theorem State.setPort_audio (s : State) (p : Port) (x : HostPort) : (State.setPort s p x).audio = s.audio := rfl
@[simp] theorem State.setPort_tdm (s : State) (p : Port) (x : HostPort) : (State.setPort s p x).tdm = s.tdm := rfl
@[simp] theorem State.setPort_pipes (s : State) (p : Port) (x : HostPort) : (State.setPort s p x).pipes = s.pipes := rfl
@[simp] theorem State.setPort_recTurn (s : State) (p : Port) (x : HostPort) : (State.setPort s p x).recTurn = s.recTurn := rfl
@[simp] theorem State.setPort_axes (s : State) (p : Port) (x : HostPort) : (State.setPort s p x).axes = s.axes := rfl
@[simp] theorem State.setPort_stations (s : State) (p : Port) (x : HostPort) : (State.setPort s p x).stations = s.stations := rfl
@[simp] theorem State.setPort_lpeLatched (s : State) (p : Port) (x : HostPort) : (State.setPort s p x).lpeLatched = s.lpeLatched := rfl
@[simp] theorem State.setPort_lpeBusy (s : State) (p : Port) (x : HostPort) : (State.setPort s p x).lpeBusy = s.lpeBusy := rfl
@[simp] theorem State.setPort_tb (s : State) (p : Port) (x : HostPort) : (State.setPort s p x).tb = s.tb := rfl
@[simp] theorem State.setPort_eth (s : State) (p : Port) (x : HostPort) : (State.setPort s p x).eth = s.eth := rfl
@[simp] theorem State.setPort_pm (s : State) (p : Port) (x : HostPort) : (State.setPort s p x).pm = s.pm := rfl
@[simp] theorem State.setPort_pdOn (s : State) (p : Port) (x : HostPort) : (State.setPort s p x).pdOn = s.pdOn := rfl
@[simp] theorem State.setPort_pdMoves (s : State) (p : Port) (x : HostPort) : (State.setPort s p x).pdMoves = s.pdMoves := rfl
@[simp] theorem State.setPort_pairs (s : State) (p : Port) (x : HostPort) : (State.setPort s p x).pairs = s.pairs := rfl
@[simp] theorem State.setPort_sph (s : State) (p : Port) (x : HostPort) : (State.setPort s p x).sph = s.sph := rfl
@[simp] theorem State.setPort_mirrors (s : State) (p : Port) (x : HostPort) : (State.setPort s p x).mirrors = s.mirrors := rfl
@[simp] theorem State.setPort_pending (s : State) (p : Port) (x : HostPort) : (State.setPort s p x).pending = s.pending := rfl
@[simp] theorem State.setPort_out (s : State) (p : Port) (x : HostPort) : (State.setPort s p x).out = s.out := rfl
@[simp] theorem State.setPort_fresh (s : State) (p : Port) (x : HostPort) : (State.setPort s p x).fresh = s.fresh := rfl

/-! State.setPart -/
@[simp] theorem State.setPart_sys (s : State) (p : PartId) (x : Part) : (State.setPart s p x).sys = s.sys := rfl
@[simp] theorem State.setPart_counter (s : State) (p : PartId) (x : Part) : (State.setPart s p x).counter = s.counter := rfl
@[simp] theorem State.setPart_trb (s : State) (p : PartId) (x : Part) : (State.setPart s p x).trb = s.trb := rfl
@[simp] theorem State.setPart_ports (s : State) (p : PartId) (x : Part) : (State.setPart s p x).ports = s.ports := rfl
@[simp] theorem State.setPart_reqs (s : State) (p : PartId) (x : Part) : (State.setPart s p x).reqs = s.reqs := rfl
@[simp] theorem State.setPart_sems (s : State) (p : PartId) (x : Part) : (State.setPart s p x).sems = s.sems := rfl
@[simp] theorem State.setPart_errs (s : State) (p : PartId) (x : Part) : (State.setPart s p x).errs = s.errs := rfl
@[simp] theorem State.setPart_setNow (s : State) (p : PartId) (x : Part) : (State.setPart s p x).setNow = s.setNow := rfl
@[simp] theorem State.setPart_v1Raised (s : State) (p : PartId) (x : Part) : (State.setPart s p x).v1Raised = s.v1Raised := rfl
@[simp] theorem State.setPart_cnts (s : State) (p : PartId) (x : Part) : (State.setPart s p x).cnts = s.cnts := rfl
@[simp] theorem State.setPart_cmds (s : State) (p : PartId) (x : Part) : (State.setPart s p x).cmds = s.cmds := rfl
@[simp] theorem State.setPart_admitNext (s : State) (p : PartId) (x : Part) : (State.setPart s p x).admitNext = s.admitNext := rfl
@[simp] theorem State.setPart_issuedNow (s : State) (p : PartId) (x : Part) : (State.setPart s p x).issuedNow = s.issuedNow := rfl
@[simp] theorem State.setPart_issueNext (s : State) (p : PartId) (x : Part) : (State.setPart s p x).issueNext = s.issueNext := rfl
@[simp] theorem State.setPart_keys (s : State) (p : PartId) (x : Part) : (State.setPart s p x).keys = s.keys := rfl
@[simp] theorem State.setPart_ops (s : State) (p : PartId) (x : Part) : (State.setPart s p x).ops = s.ops := rfl
@[simp] theorem State.setPart_opNext (s : State) (p : PartId) (x : Part) : (State.setPart s p x).opNext = s.opNext := rfl
@[simp] theorem State.setPart_scHalt (s : State) (p : PartId) (x : Part) : (State.setPart s p x).scHalt = s.scHalt := rfl
@[simp] theorem State.setPart_halted (s : State) (p : PartId) (x : Part) : (State.setPart s p x).halted = s.halted := rfl
@[simp] theorem State.setPart_mem (s : State) (p : PartId) (x : Part) : (State.setPart s p x).mem = s.mem := rfl
@[simp] theorem State.setPart_undef (s : State) (p : PartId) (x : Part) : (State.setPart s p x).undef = s.undef := rfl
@[simp] theorem State.setPart_poison (s : State) (p : PartId) (x : Part) : (State.setPart s p x).poison = s.poison := rfl
@[simp] theorem State.setPart_ecc (s : State) (p : PartId) (x : Part) : (State.setPart s p x).ecc = s.ecc := rfl
@[simp] theorem State.setPart_hw (s : State) (p : PartId) (x : Part) : (State.setPart s p x).hw = s.hw := rfl
@[simp] theorem State.setPart_pools (s : State) (p : PartId) (x : Part) : (State.setPart s p x).pools = s.pools := rfl
@[simp] theorem State.setPart_hostMem (s : State) (p : PartId) (x : Part) : (State.setPart s p x).hostMem = s.hostMem := rfl
@[simp] theorem State.setPart_hostErr (s : State) (p : PartId) (x : Part) : (State.setPart s p x).hostErr = s.hostErr := rfl
@[simp] theorem State.setPart_cisPoison (s : State) (p : PartId) (x : Part) : (State.setPart s p x).cisPoison = s.cisPoison := rfl
@[simp] theorem State.setPart_bar2Reads (s : State) (p : PartId) (x : Part) : (State.setPart s p x).bar2Reads = s.bar2Reads := rfl
@[simp] theorem State.setPart_ecs (s : State) (p : PartId) (x : Part) : (State.setPart s p x).ecs = s.ecs := rfl
@[simp] theorem State.setPart_fence (s : State) (p : PartId) (x : Part) : (State.setPart s p x).fence = s.fence := rfl
@[simp] theorem State.setPart_regions (s : State) (p : PartId) (x : Part) : (State.setPart s p x).regions = s.regions := rfl
@[simp] theorem State.setPart_windows (s : State) (p : PartId) (x : Part) : (State.setPart s p x).windows = s.windows := rfl
@[simp] theorem State.setPart_streams (s : State) (p : PartId) (x : Part) : (State.setPart s p x).streams = s.streams := rfl
@[simp] theorem State.setPart_groups (s : State) (p : PartId) (x : Part) : (State.setPart s p x).groups = s.groups := rfl
@[simp] theorem State.setPart_strPeek (s : State) (p : PartId) (x : Part) : (State.setPart s p x).strPeek = s.strPeek := rfl
@[simp] theorem State.setPart_heaps (s : State) (p : PartId) (x : Part) : (State.setPart s p x).heaps = s.heaps := rfl
@[simp] theorem State.setPart_seqs (s : State) (p : PartId) (x : Part) : (State.setPart s p x).seqs = s.seqs := rfl
@[simp] theorem State.setPart_spills (s : State) (p : PartId) (x : Part) : (State.setPart s p x).spills = s.spills := rfl
@[simp] theorem State.setPart_returns (s : State) (p : PartId) (x : Part) : (State.setPart s p x).returns = s.returns := rfl
@[simp] theorem State.setPart_det (s : State) (p : PartId) (x : Part) : (State.setPart s p x).det = s.det := rfl
@[simp] theorem State.setPart_cams (s : State) (p : PartId) (x : Part) : (State.setPart s p x).cams = s.cams := rfl
@[simp] theorem State.setPart_audTable (s : State) (p : PartId) (x : Part) : (State.setPart s p x).audTable = s.audTable := rfl
@[simp] theorem State.setPart_audFir (s : State) (p : PartId) (x : Part) : (State.setPart s p x).audFir = s.audFir := rfl
@[simp] theorem State.setPart_fir (s : State) (p : PartId) (x : Part) : (State.setPart s p x).fir = s.fir := rfl
@[simp] theorem State.setPart_bindings (s : State) (p : PartId) (x : Part) : (State.setPart s p x).bindings = s.bindings := rfl
@[simp] theorem State.setPart_audio (s : State) (p : PartId) (x : Part) : (State.setPart s p x).audio = s.audio := rfl
@[simp] theorem State.setPart_tdm (s : State) (p : PartId) (x : Part) : (State.setPart s p x).tdm = s.tdm := rfl
@[simp] theorem State.setPart_pipes (s : State) (p : PartId) (x : Part) : (State.setPart s p x).pipes = s.pipes := rfl
@[simp] theorem State.setPart_recTurn (s : State) (p : PartId) (x : Part) : (State.setPart s p x).recTurn = s.recTurn := rfl
@[simp] theorem State.setPart_axes (s : State) (p : PartId) (x : Part) : (State.setPart s p x).axes = s.axes := rfl
@[simp] theorem State.setPart_stations (s : State) (p : PartId) (x : Part) : (State.setPart s p x).stations = s.stations := rfl
@[simp] theorem State.setPart_lpeLatched (s : State) (p : PartId) (x : Part) : (State.setPart s p x).lpeLatched = s.lpeLatched := rfl
@[simp] theorem State.setPart_lpeBusy (s : State) (p : PartId) (x : Part) : (State.setPart s p x).lpeBusy = s.lpeBusy := rfl
@[simp] theorem State.setPart_tb (s : State) (p : PartId) (x : Part) : (State.setPart s p x).tb = s.tb := rfl
@[simp] theorem State.setPart_eth (s : State) (p : PartId) (x : Part) : (State.setPart s p x).eth = s.eth := rfl
@[simp] theorem State.setPart_pm (s : State) (p : PartId) (x : Part) : (State.setPart s p x).pm = s.pm := rfl
@[simp] theorem State.setPart_pdOn (s : State) (p : PartId) (x : Part) : (State.setPart s p x).pdOn = s.pdOn := rfl
@[simp] theorem State.setPart_pdMoves (s : State) (p : PartId) (x : Part) : (State.setPart s p x).pdMoves = s.pdMoves := rfl
@[simp] theorem State.setPart_pairs (s : State) (p : PartId) (x : Part) : (State.setPart s p x).pairs = s.pairs := rfl
@[simp] theorem State.setPart_sph (s : State) (p : PartId) (x : Part) : (State.setPart s p x).sph = s.sph := rfl
@[simp] theorem State.setPart_mirrors (s : State) (p : PartId) (x : Part) : (State.setPart s p x).mirrors = s.mirrors := rfl
@[simp] theorem State.setPart_pending (s : State) (p : PartId) (x : Part) : (State.setPart s p x).pending = s.pending := rfl
@[simp] theorem State.setPart_out (s : State) (p : PartId) (x : Part) : (State.setPart s p x).out = s.out := rfl
@[simp] theorem State.setPart_fresh (s : State) (p : PartId) (x : Part) : (State.setPart s p x).fresh = s.fresh := rfl

/-! State.setSlot -/
@[simp] theorem State.setSlot_sys (s : State) (p : Port) (i : SlotId) (x : Slot) : (State.setSlot s p i x).sys = s.sys := rfl
@[simp] theorem State.setSlot_counter (s : State) (p : Port) (i : SlotId) (x : Slot) : (State.setSlot s p i x).counter = s.counter := rfl
@[simp] theorem State.setSlot_trb (s : State) (p : Port) (i : SlotId) (x : Slot) : (State.setSlot s p i x).trb = s.trb := rfl
@[simp] theorem State.setSlot_reqs (s : State) (p : Port) (i : SlotId) (x : Slot) : (State.setSlot s p i x).reqs = s.reqs := rfl
@[simp] theorem State.setSlot_sems (s : State) (p : Port) (i : SlotId) (x : Slot) : (State.setSlot s p i x).sems = s.sems := rfl
@[simp] theorem State.setSlot_errs (s : State) (p : Port) (i : SlotId) (x : Slot) : (State.setSlot s p i x).errs = s.errs := rfl
@[simp] theorem State.setSlot_setNow (s : State) (p : Port) (i : SlotId) (x : Slot) : (State.setSlot s p i x).setNow = s.setNow := rfl
@[simp] theorem State.setSlot_v1Raised (s : State) (p : Port) (i : SlotId) (x : Slot) : (State.setSlot s p i x).v1Raised = s.v1Raised := rfl
@[simp] theorem State.setSlot_cnts (s : State) (p : Port) (i : SlotId) (x : Slot) : (State.setSlot s p i x).cnts = s.cnts := rfl
@[simp] theorem State.setSlot_parts (s : State) (p : Port) (i : SlotId) (x : Slot) : (State.setSlot s p i x).parts = s.parts := rfl
@[simp] theorem State.setSlot_cmds (s : State) (p : Port) (i : SlotId) (x : Slot) : (State.setSlot s p i x).cmds = s.cmds := rfl
@[simp] theorem State.setSlot_admitNext (s : State) (p : Port) (i : SlotId) (x : Slot) : (State.setSlot s p i x).admitNext = s.admitNext := rfl
@[simp] theorem State.setSlot_issuedNow (s : State) (p : Port) (i : SlotId) (x : Slot) : (State.setSlot s p i x).issuedNow = s.issuedNow := rfl
@[simp] theorem State.setSlot_issueNext (s : State) (p : Port) (i : SlotId) (x : Slot) : (State.setSlot s p i x).issueNext = s.issueNext := rfl
@[simp] theorem State.setSlot_keys (s : State) (p : Port) (i : SlotId) (x : Slot) : (State.setSlot s p i x).keys = s.keys := rfl
@[simp] theorem State.setSlot_ops (s : State) (p : Port) (i : SlotId) (x : Slot) : (State.setSlot s p i x).ops = s.ops := rfl
@[simp] theorem State.setSlot_opNext (s : State) (p : Port) (i : SlotId) (x : Slot) : (State.setSlot s p i x).opNext = s.opNext := rfl
@[simp] theorem State.setSlot_scHalt (s : State) (p : Port) (i : SlotId) (x : Slot) : (State.setSlot s p i x).scHalt = s.scHalt := rfl
@[simp] theorem State.setSlot_halted (s : State) (p : Port) (i : SlotId) (x : Slot) : (State.setSlot s p i x).halted = s.halted := rfl
@[simp] theorem State.setSlot_mem (s : State) (p : Port) (i : SlotId) (x : Slot) : (State.setSlot s p i x).mem = s.mem := rfl
@[simp] theorem State.setSlot_undef (s : State) (p : Port) (i : SlotId) (x : Slot) : (State.setSlot s p i x).undef = s.undef := rfl
@[simp] theorem State.setSlot_poison (s : State) (p : Port) (i : SlotId) (x : Slot) : (State.setSlot s p i x).poison = s.poison := rfl
@[simp] theorem State.setSlot_ecc (s : State) (p : Port) (i : SlotId) (x : Slot) : (State.setSlot s p i x).ecc = s.ecc := rfl
@[simp] theorem State.setSlot_hw (s : State) (p : Port) (i : SlotId) (x : Slot) : (State.setSlot s p i x).hw = s.hw := rfl
@[simp] theorem State.setSlot_pools (s : State) (p : Port) (i : SlotId) (x : Slot) : (State.setSlot s p i x).pools = s.pools := rfl
@[simp] theorem State.setSlot_hostMem (s : State) (p : Port) (i : SlotId) (x : Slot) : (State.setSlot s p i x).hostMem = s.hostMem := rfl
@[simp] theorem State.setSlot_hostErr (s : State) (p : Port) (i : SlotId) (x : Slot) : (State.setSlot s p i x).hostErr = s.hostErr := rfl
@[simp] theorem State.setSlot_cisPoison (s : State) (p : Port) (i : SlotId) (x : Slot) : (State.setSlot s p i x).cisPoison = s.cisPoison := rfl
@[simp] theorem State.setSlot_bar2Reads (s : State) (p : Port) (i : SlotId) (x : Slot) : (State.setSlot s p i x).bar2Reads = s.bar2Reads := rfl
@[simp] theorem State.setSlot_ecs (s : State) (p : Port) (i : SlotId) (x : Slot) : (State.setSlot s p i x).ecs = s.ecs := rfl
@[simp] theorem State.setSlot_fence (s : State) (p : Port) (i : SlotId) (x : Slot) : (State.setSlot s p i x).fence = s.fence := rfl
@[simp] theorem State.setSlot_regions (s : State) (p : Port) (i : SlotId) (x : Slot) : (State.setSlot s p i x).regions = s.regions := rfl
@[simp] theorem State.setSlot_windows (s : State) (p : Port) (i : SlotId) (x : Slot) : (State.setSlot s p i x).windows = s.windows := rfl
@[simp] theorem State.setSlot_streams (s : State) (p : Port) (i : SlotId) (x : Slot) : (State.setSlot s p i x).streams = s.streams := rfl
@[simp] theorem State.setSlot_groups (s : State) (p : Port) (i : SlotId) (x : Slot) : (State.setSlot s p i x).groups = s.groups := rfl
@[simp] theorem State.setSlot_strPeek (s : State) (p : Port) (i : SlotId) (x : Slot) : (State.setSlot s p i x).strPeek = s.strPeek := rfl
@[simp] theorem State.setSlot_heaps (s : State) (p : Port) (i : SlotId) (x : Slot) : (State.setSlot s p i x).heaps = s.heaps := rfl
@[simp] theorem State.setSlot_seqs (s : State) (p : Port) (i : SlotId) (x : Slot) : (State.setSlot s p i x).seqs = s.seqs := rfl
@[simp] theorem State.setSlot_spills (s : State) (p : Port) (i : SlotId) (x : Slot) : (State.setSlot s p i x).spills = s.spills := rfl
@[simp] theorem State.setSlot_returns (s : State) (p : Port) (i : SlotId) (x : Slot) : (State.setSlot s p i x).returns = s.returns := rfl
@[simp] theorem State.setSlot_det (s : State) (p : Port) (i : SlotId) (x : Slot) : (State.setSlot s p i x).det = s.det := rfl
@[simp] theorem State.setSlot_cams (s : State) (p : Port) (i : SlotId) (x : Slot) : (State.setSlot s p i x).cams = s.cams := rfl
@[simp] theorem State.setSlot_audTable (s : State) (p : Port) (i : SlotId) (x : Slot) : (State.setSlot s p i x).audTable = s.audTable := rfl
@[simp] theorem State.setSlot_audFir (s : State) (p : Port) (i : SlotId) (x : Slot) : (State.setSlot s p i x).audFir = s.audFir := rfl
@[simp] theorem State.setSlot_fir (s : State) (p : Port) (i : SlotId) (x : Slot) : (State.setSlot s p i x).fir = s.fir := rfl
@[simp] theorem State.setSlot_bindings (s : State) (p : Port) (i : SlotId) (x : Slot) : (State.setSlot s p i x).bindings = s.bindings := rfl
@[simp] theorem State.setSlot_audio (s : State) (p : Port) (i : SlotId) (x : Slot) : (State.setSlot s p i x).audio = s.audio := rfl
@[simp] theorem State.setSlot_tdm (s : State) (p : Port) (i : SlotId) (x : Slot) : (State.setSlot s p i x).tdm = s.tdm := rfl
@[simp] theorem State.setSlot_pipes (s : State) (p : Port) (i : SlotId) (x : Slot) : (State.setSlot s p i x).pipes = s.pipes := rfl
@[simp] theorem State.setSlot_recTurn (s : State) (p : Port) (i : SlotId) (x : Slot) : (State.setSlot s p i x).recTurn = s.recTurn := rfl
@[simp] theorem State.setSlot_axes (s : State) (p : Port) (i : SlotId) (x : Slot) : (State.setSlot s p i x).axes = s.axes := rfl
@[simp] theorem State.setSlot_stations (s : State) (p : Port) (i : SlotId) (x : Slot) : (State.setSlot s p i x).stations = s.stations := rfl
@[simp] theorem State.setSlot_lpeLatched (s : State) (p : Port) (i : SlotId) (x : Slot) : (State.setSlot s p i x).lpeLatched = s.lpeLatched := rfl
@[simp] theorem State.setSlot_lpeBusy (s : State) (p : Port) (i : SlotId) (x : Slot) : (State.setSlot s p i x).lpeBusy = s.lpeBusy := rfl
@[simp] theorem State.setSlot_tb (s : State) (p : Port) (i : SlotId) (x : Slot) : (State.setSlot s p i x).tb = s.tb := rfl
@[simp] theorem State.setSlot_eth (s : State) (p : Port) (i : SlotId) (x : Slot) : (State.setSlot s p i x).eth = s.eth := rfl
@[simp] theorem State.setSlot_pm (s : State) (p : Port) (i : SlotId) (x : Slot) : (State.setSlot s p i x).pm = s.pm := rfl
@[simp] theorem State.setSlot_pdOn (s : State) (p : Port) (i : SlotId) (x : Slot) : (State.setSlot s p i x).pdOn = s.pdOn := rfl
@[simp] theorem State.setSlot_pdMoves (s : State) (p : Port) (i : SlotId) (x : Slot) : (State.setSlot s p i x).pdMoves = s.pdMoves := rfl
@[simp] theorem State.setSlot_pairs (s : State) (p : Port) (i : SlotId) (x : Slot) : (State.setSlot s p i x).pairs = s.pairs := rfl
@[simp] theorem State.setSlot_sph (s : State) (p : Port) (i : SlotId) (x : Slot) : (State.setSlot s p i x).sph = s.sph := rfl
@[simp] theorem State.setSlot_mirrors (s : State) (p : Port) (i : SlotId) (x : Slot) : (State.setSlot s p i x).mirrors = s.mirrors := rfl
@[simp] theorem State.setSlot_pending (s : State) (p : Port) (i : SlotId) (x : Slot) : (State.setSlot s p i x).pending = s.pending := rfl
@[simp] theorem State.setSlot_out (s : State) (p : Port) (i : SlotId) (x : Slot) : (State.setSlot s p i x).out = s.out := rfl
@[simp] theorem State.setSlot_fresh (s : State) (p : Port) (i : SlotId) (x : Slot) : (State.setSlot s p i x).fresh = s.fresh := rfl

/-! State.setCam -/
@[simp] theorem State.setCam_sys (s : State) (v : CamId) (x : Camera) : (State.setCam s v x).sys = s.sys := rfl
@[simp] theorem State.setCam_counter (s : State) (v : CamId) (x : Camera) : (State.setCam s v x).counter = s.counter := rfl
@[simp] theorem State.setCam_trb (s : State) (v : CamId) (x : Camera) : (State.setCam s v x).trb = s.trb := rfl
@[simp] theorem State.setCam_ports (s : State) (v : CamId) (x : Camera) : (State.setCam s v x).ports = s.ports := rfl
@[simp] theorem State.setCam_reqs (s : State) (v : CamId) (x : Camera) : (State.setCam s v x).reqs = s.reqs := rfl
@[simp] theorem State.setCam_sems (s : State) (v : CamId) (x : Camera) : (State.setCam s v x).sems = s.sems := rfl
@[simp] theorem State.setCam_errs (s : State) (v : CamId) (x : Camera) : (State.setCam s v x).errs = s.errs := rfl
@[simp] theorem State.setCam_setNow (s : State) (v : CamId) (x : Camera) : (State.setCam s v x).setNow = s.setNow := rfl
@[simp] theorem State.setCam_v1Raised (s : State) (v : CamId) (x : Camera) : (State.setCam s v x).v1Raised = s.v1Raised := rfl
@[simp] theorem State.setCam_cnts (s : State) (v : CamId) (x : Camera) : (State.setCam s v x).cnts = s.cnts := rfl
@[simp] theorem State.setCam_parts (s : State) (v : CamId) (x : Camera) : (State.setCam s v x).parts = s.parts := rfl
@[simp] theorem State.setCam_cmds (s : State) (v : CamId) (x : Camera) : (State.setCam s v x).cmds = s.cmds := rfl
@[simp] theorem State.setCam_admitNext (s : State) (v : CamId) (x : Camera) : (State.setCam s v x).admitNext = s.admitNext := rfl
@[simp] theorem State.setCam_issuedNow (s : State) (v : CamId) (x : Camera) : (State.setCam s v x).issuedNow = s.issuedNow := rfl
@[simp] theorem State.setCam_issueNext (s : State) (v : CamId) (x : Camera) : (State.setCam s v x).issueNext = s.issueNext := rfl
@[simp] theorem State.setCam_keys (s : State) (v : CamId) (x : Camera) : (State.setCam s v x).keys = s.keys := rfl
@[simp] theorem State.setCam_ops (s : State) (v : CamId) (x : Camera) : (State.setCam s v x).ops = s.ops := rfl
@[simp] theorem State.setCam_opNext (s : State) (v : CamId) (x : Camera) : (State.setCam s v x).opNext = s.opNext := rfl
@[simp] theorem State.setCam_scHalt (s : State) (v : CamId) (x : Camera) : (State.setCam s v x).scHalt = s.scHalt := rfl
@[simp] theorem State.setCam_halted (s : State) (v : CamId) (x : Camera) : (State.setCam s v x).halted = s.halted := rfl
@[simp] theorem State.setCam_mem (s : State) (v : CamId) (x : Camera) : (State.setCam s v x).mem = s.mem := rfl
@[simp] theorem State.setCam_undef (s : State) (v : CamId) (x : Camera) : (State.setCam s v x).undef = s.undef := rfl
@[simp] theorem State.setCam_poison (s : State) (v : CamId) (x : Camera) : (State.setCam s v x).poison = s.poison := rfl
@[simp] theorem State.setCam_ecc (s : State) (v : CamId) (x : Camera) : (State.setCam s v x).ecc = s.ecc := rfl
@[simp] theorem State.setCam_hw (s : State) (v : CamId) (x : Camera) : (State.setCam s v x).hw = s.hw := rfl
@[simp] theorem State.setCam_pools (s : State) (v : CamId) (x : Camera) : (State.setCam s v x).pools = s.pools := rfl
@[simp] theorem State.setCam_hostMem (s : State) (v : CamId) (x : Camera) : (State.setCam s v x).hostMem = s.hostMem := rfl
@[simp] theorem State.setCam_hostErr (s : State) (v : CamId) (x : Camera) : (State.setCam s v x).hostErr = s.hostErr := rfl
@[simp] theorem State.setCam_cisPoison (s : State) (v : CamId) (x : Camera) : (State.setCam s v x).cisPoison = s.cisPoison := rfl
@[simp] theorem State.setCam_bar2Reads (s : State) (v : CamId) (x : Camera) : (State.setCam s v x).bar2Reads = s.bar2Reads := rfl
@[simp] theorem State.setCam_ecs (s : State) (v : CamId) (x : Camera) : (State.setCam s v x).ecs = s.ecs := rfl
@[simp] theorem State.setCam_fence (s : State) (v : CamId) (x : Camera) : (State.setCam s v x).fence = s.fence := rfl
@[simp] theorem State.setCam_regions (s : State) (v : CamId) (x : Camera) : (State.setCam s v x).regions = s.regions := rfl
@[simp] theorem State.setCam_windows (s : State) (v : CamId) (x : Camera) : (State.setCam s v x).windows = s.windows := rfl
@[simp] theorem State.setCam_streams (s : State) (v : CamId) (x : Camera) : (State.setCam s v x).streams = s.streams := rfl
@[simp] theorem State.setCam_groups (s : State) (v : CamId) (x : Camera) : (State.setCam s v x).groups = s.groups := rfl
@[simp] theorem State.setCam_strPeek (s : State) (v : CamId) (x : Camera) : (State.setCam s v x).strPeek = s.strPeek := rfl
@[simp] theorem State.setCam_heaps (s : State) (v : CamId) (x : Camera) : (State.setCam s v x).heaps = s.heaps := rfl
@[simp] theorem State.setCam_seqs (s : State) (v : CamId) (x : Camera) : (State.setCam s v x).seqs = s.seqs := rfl
@[simp] theorem State.setCam_spills (s : State) (v : CamId) (x : Camera) : (State.setCam s v x).spills = s.spills := rfl
@[simp] theorem State.setCam_returns (s : State) (v : CamId) (x : Camera) : (State.setCam s v x).returns = s.returns := rfl
@[simp] theorem State.setCam_det (s : State) (v : CamId) (x : Camera) : (State.setCam s v x).det = s.det := rfl
@[simp] theorem State.setCam_audTable (s : State) (v : CamId) (x : Camera) : (State.setCam s v x).audTable = s.audTable := rfl
@[simp] theorem State.setCam_audFir (s : State) (v : CamId) (x : Camera) : (State.setCam s v x).audFir = s.audFir := rfl
@[simp] theorem State.setCam_fir (s : State) (v : CamId) (x : Camera) : (State.setCam s v x).fir = s.fir := rfl
@[simp] theorem State.setCam_bindings (s : State) (v : CamId) (x : Camera) : (State.setCam s v x).bindings = s.bindings := rfl
@[simp] theorem State.setCam_audio (s : State) (v : CamId) (x : Camera) : (State.setCam s v x).audio = s.audio := rfl
@[simp] theorem State.setCam_tdm (s : State) (v : CamId) (x : Camera) : (State.setCam s v x).tdm = s.tdm := rfl
@[simp] theorem State.setCam_pipes (s : State) (v : CamId) (x : Camera) : (State.setCam s v x).pipes = s.pipes := rfl
@[simp] theorem State.setCam_recTurn (s : State) (v : CamId) (x : Camera) : (State.setCam s v x).recTurn = s.recTurn := rfl
@[simp] theorem State.setCam_axes (s : State) (v : CamId) (x : Camera) : (State.setCam s v x).axes = s.axes := rfl
@[simp] theorem State.setCam_stations (s : State) (v : CamId) (x : Camera) : (State.setCam s v x).stations = s.stations := rfl
@[simp] theorem State.setCam_lpeLatched (s : State) (v : CamId) (x : Camera) : (State.setCam s v x).lpeLatched = s.lpeLatched := rfl
@[simp] theorem State.setCam_lpeBusy (s : State) (v : CamId) (x : Camera) : (State.setCam s v x).lpeBusy = s.lpeBusy := rfl
@[simp] theorem State.setCam_tb (s : State) (v : CamId) (x : Camera) : (State.setCam s v x).tb = s.tb := rfl
@[simp] theorem State.setCam_eth (s : State) (v : CamId) (x : Camera) : (State.setCam s v x).eth = s.eth := rfl
@[simp] theorem State.setCam_pm (s : State) (v : CamId) (x : Camera) : (State.setCam s v x).pm = s.pm := rfl
@[simp] theorem State.setCam_pdOn (s : State) (v : CamId) (x : Camera) : (State.setCam s v x).pdOn = s.pdOn := rfl
@[simp] theorem State.setCam_pdMoves (s : State) (v : CamId) (x : Camera) : (State.setCam s v x).pdMoves = s.pdMoves := rfl
@[simp] theorem State.setCam_pairs (s : State) (v : CamId) (x : Camera) : (State.setCam s v x).pairs = s.pairs := rfl
@[simp] theorem State.setCam_sph (s : State) (v : CamId) (x : Camera) : (State.setCam s v x).sph = s.sph := rfl
@[simp] theorem State.setCam_mirrors (s : State) (v : CamId) (x : Camera) : (State.setCam s v x).mirrors = s.mirrors := rfl
@[simp] theorem State.setCam_pending (s : State) (v : CamId) (x : Camera) : (State.setCam s v x).pending = s.pending := rfl
@[simp] theorem State.setCam_out (s : State) (v : CamId) (x : Camera) : (State.setCam s v x).out = s.out := rfl
@[simp] theorem State.setCam_fresh (s : State) (v : CamId) (x : Camera) : (State.setCam s v x).fresh = s.fresh := rfl

/-! State.setAxis -/
@[simp] theorem State.setAxis_sys (s : State) (a : AxisId) (x : Axis) : (State.setAxis s a x).sys = s.sys := rfl
@[simp] theorem State.setAxis_counter (s : State) (a : AxisId) (x : Axis) : (State.setAxis s a x).counter = s.counter := rfl
@[simp] theorem State.setAxis_trb (s : State) (a : AxisId) (x : Axis) : (State.setAxis s a x).trb = s.trb := rfl
@[simp] theorem State.setAxis_ports (s : State) (a : AxisId) (x : Axis) : (State.setAxis s a x).ports = s.ports := rfl
@[simp] theorem State.setAxis_reqs (s : State) (a : AxisId) (x : Axis) : (State.setAxis s a x).reqs = s.reqs := rfl
@[simp] theorem State.setAxis_sems (s : State) (a : AxisId) (x : Axis) : (State.setAxis s a x).sems = s.sems := rfl
@[simp] theorem State.setAxis_errs (s : State) (a : AxisId) (x : Axis) : (State.setAxis s a x).errs = s.errs := rfl
@[simp] theorem State.setAxis_setNow (s : State) (a : AxisId) (x : Axis) : (State.setAxis s a x).setNow = s.setNow := rfl
@[simp] theorem State.setAxis_v1Raised (s : State) (a : AxisId) (x : Axis) : (State.setAxis s a x).v1Raised = s.v1Raised := rfl
@[simp] theorem State.setAxis_cnts (s : State) (a : AxisId) (x : Axis) : (State.setAxis s a x).cnts = s.cnts := rfl
@[simp] theorem State.setAxis_parts (s : State) (a : AxisId) (x : Axis) : (State.setAxis s a x).parts = s.parts := rfl
@[simp] theorem State.setAxis_cmds (s : State) (a : AxisId) (x : Axis) : (State.setAxis s a x).cmds = s.cmds := rfl
@[simp] theorem State.setAxis_admitNext (s : State) (a : AxisId) (x : Axis) : (State.setAxis s a x).admitNext = s.admitNext := rfl
@[simp] theorem State.setAxis_issuedNow (s : State) (a : AxisId) (x : Axis) : (State.setAxis s a x).issuedNow = s.issuedNow := rfl
@[simp] theorem State.setAxis_issueNext (s : State) (a : AxisId) (x : Axis) : (State.setAxis s a x).issueNext = s.issueNext := rfl
@[simp] theorem State.setAxis_keys (s : State) (a : AxisId) (x : Axis) : (State.setAxis s a x).keys = s.keys := rfl
@[simp] theorem State.setAxis_ops (s : State) (a : AxisId) (x : Axis) : (State.setAxis s a x).ops = s.ops := rfl
@[simp] theorem State.setAxis_opNext (s : State) (a : AxisId) (x : Axis) : (State.setAxis s a x).opNext = s.opNext := rfl
@[simp] theorem State.setAxis_scHalt (s : State) (a : AxisId) (x : Axis) : (State.setAxis s a x).scHalt = s.scHalt := rfl
@[simp] theorem State.setAxis_halted (s : State) (a : AxisId) (x : Axis) : (State.setAxis s a x).halted = s.halted := rfl
@[simp] theorem State.setAxis_mem (s : State) (a : AxisId) (x : Axis) : (State.setAxis s a x).mem = s.mem := rfl
@[simp] theorem State.setAxis_undef (s : State) (a : AxisId) (x : Axis) : (State.setAxis s a x).undef = s.undef := rfl
@[simp] theorem State.setAxis_poison (s : State) (a : AxisId) (x : Axis) : (State.setAxis s a x).poison = s.poison := rfl
@[simp] theorem State.setAxis_ecc (s : State) (a : AxisId) (x : Axis) : (State.setAxis s a x).ecc = s.ecc := rfl
@[simp] theorem State.setAxis_hw (s : State) (a : AxisId) (x : Axis) : (State.setAxis s a x).hw = s.hw := rfl
@[simp] theorem State.setAxis_pools (s : State) (a : AxisId) (x : Axis) : (State.setAxis s a x).pools = s.pools := rfl
@[simp] theorem State.setAxis_hostMem (s : State) (a : AxisId) (x : Axis) : (State.setAxis s a x).hostMem = s.hostMem := rfl
@[simp] theorem State.setAxis_hostErr (s : State) (a : AxisId) (x : Axis) : (State.setAxis s a x).hostErr = s.hostErr := rfl
@[simp] theorem State.setAxis_cisPoison (s : State) (a : AxisId) (x : Axis) : (State.setAxis s a x).cisPoison = s.cisPoison := rfl
@[simp] theorem State.setAxis_bar2Reads (s : State) (a : AxisId) (x : Axis) : (State.setAxis s a x).bar2Reads = s.bar2Reads := rfl
@[simp] theorem State.setAxis_ecs (s : State) (a : AxisId) (x : Axis) : (State.setAxis s a x).ecs = s.ecs := rfl
@[simp] theorem State.setAxis_fence (s : State) (a : AxisId) (x : Axis) : (State.setAxis s a x).fence = s.fence := rfl
@[simp] theorem State.setAxis_regions (s : State) (a : AxisId) (x : Axis) : (State.setAxis s a x).regions = s.regions := rfl
@[simp] theorem State.setAxis_windows (s : State) (a : AxisId) (x : Axis) : (State.setAxis s a x).windows = s.windows := rfl
@[simp] theorem State.setAxis_streams (s : State) (a : AxisId) (x : Axis) : (State.setAxis s a x).streams = s.streams := rfl
@[simp] theorem State.setAxis_groups (s : State) (a : AxisId) (x : Axis) : (State.setAxis s a x).groups = s.groups := rfl
@[simp] theorem State.setAxis_strPeek (s : State) (a : AxisId) (x : Axis) : (State.setAxis s a x).strPeek = s.strPeek := rfl
@[simp] theorem State.setAxis_heaps (s : State) (a : AxisId) (x : Axis) : (State.setAxis s a x).heaps = s.heaps := rfl
@[simp] theorem State.setAxis_seqs (s : State) (a : AxisId) (x : Axis) : (State.setAxis s a x).seqs = s.seqs := rfl
@[simp] theorem State.setAxis_spills (s : State) (a : AxisId) (x : Axis) : (State.setAxis s a x).spills = s.spills := rfl
@[simp] theorem State.setAxis_returns (s : State) (a : AxisId) (x : Axis) : (State.setAxis s a x).returns = s.returns := rfl
@[simp] theorem State.setAxis_det (s : State) (a : AxisId) (x : Axis) : (State.setAxis s a x).det = s.det := rfl
@[simp] theorem State.setAxis_cams (s : State) (a : AxisId) (x : Axis) : (State.setAxis s a x).cams = s.cams := rfl
@[simp] theorem State.setAxis_audTable (s : State) (a : AxisId) (x : Axis) : (State.setAxis s a x).audTable = s.audTable := rfl
@[simp] theorem State.setAxis_audFir (s : State) (a : AxisId) (x : Axis) : (State.setAxis s a x).audFir = s.audFir := rfl
@[simp] theorem State.setAxis_fir (s : State) (a : AxisId) (x : Axis) : (State.setAxis s a x).fir = s.fir := rfl
@[simp] theorem State.setAxis_bindings (s : State) (a : AxisId) (x : Axis) : (State.setAxis s a x).bindings = s.bindings := rfl
@[simp] theorem State.setAxis_audio (s : State) (a : AxisId) (x : Axis) : (State.setAxis s a x).audio = s.audio := rfl
@[simp] theorem State.setAxis_tdm (s : State) (a : AxisId) (x : Axis) : (State.setAxis s a x).tdm = s.tdm := rfl
@[simp] theorem State.setAxis_pipes (s : State) (a : AxisId) (x : Axis) : (State.setAxis s a x).pipes = s.pipes := rfl
@[simp] theorem State.setAxis_recTurn (s : State) (a : AxisId) (x : Axis) : (State.setAxis s a x).recTurn = s.recTurn := rfl
@[simp] theorem State.setAxis_stations (s : State) (a : AxisId) (x : Axis) : (State.setAxis s a x).stations = s.stations := rfl
@[simp] theorem State.setAxis_lpeLatched (s : State) (a : AxisId) (x : Axis) : (State.setAxis s a x).lpeLatched = s.lpeLatched := rfl
@[simp] theorem State.setAxis_lpeBusy (s : State) (a : AxisId) (x : Axis) : (State.setAxis s a x).lpeBusy = s.lpeBusy := rfl
@[simp] theorem State.setAxis_tb (s : State) (a : AxisId) (x : Axis) : (State.setAxis s a x).tb = s.tb := rfl
@[simp] theorem State.setAxis_eth (s : State) (a : AxisId) (x : Axis) : (State.setAxis s a x).eth = s.eth := rfl
@[simp] theorem State.setAxis_pm (s : State) (a : AxisId) (x : Axis) : (State.setAxis s a x).pm = s.pm := rfl
@[simp] theorem State.setAxis_pdOn (s : State) (a : AxisId) (x : Axis) : (State.setAxis s a x).pdOn = s.pdOn := rfl
@[simp] theorem State.setAxis_pdMoves (s : State) (a : AxisId) (x : Axis) : (State.setAxis s a x).pdMoves = s.pdMoves := rfl
@[simp] theorem State.setAxis_pairs (s : State) (a : AxisId) (x : Axis) : (State.setAxis s a x).pairs = s.pairs := rfl
@[simp] theorem State.setAxis_sph (s : State) (a : AxisId) (x : Axis) : (State.setAxis s a x).sph = s.sph := rfl
@[simp] theorem State.setAxis_mirrors (s : State) (a : AxisId) (x : Axis) : (State.setAxis s a x).mirrors = s.mirrors := rfl
@[simp] theorem State.setAxis_pending (s : State) (a : AxisId) (x : Axis) : (State.setAxis s a x).pending = s.pending := rfl
@[simp] theorem State.setAxis_out (s : State) (a : AxisId) (x : Axis) : (State.setAxis s a x).out = s.out := rfl
@[simp] theorem State.setAxis_fresh (s : State) (a : AxisId) (x : Axis) : (State.setAxis s a x).fresh = s.fresh := rfl

/-! State.setStation -/
@[simp] theorem State.setStation_sys (s : State) (i : StationId) (x : Station) : (State.setStation s i x).sys = s.sys := rfl
@[simp] theorem State.setStation_counter (s : State) (i : StationId) (x : Station) : (State.setStation s i x).counter = s.counter := rfl
@[simp] theorem State.setStation_trb (s : State) (i : StationId) (x : Station) : (State.setStation s i x).trb = s.trb := rfl
@[simp] theorem State.setStation_ports (s : State) (i : StationId) (x : Station) : (State.setStation s i x).ports = s.ports := rfl
@[simp] theorem State.setStation_reqs (s : State) (i : StationId) (x : Station) : (State.setStation s i x).reqs = s.reqs := rfl
@[simp] theorem State.setStation_sems (s : State) (i : StationId) (x : Station) : (State.setStation s i x).sems = s.sems := rfl
@[simp] theorem State.setStation_errs (s : State) (i : StationId) (x : Station) : (State.setStation s i x).errs = s.errs := rfl
@[simp] theorem State.setStation_setNow (s : State) (i : StationId) (x : Station) : (State.setStation s i x).setNow = s.setNow := rfl
@[simp] theorem State.setStation_v1Raised (s : State) (i : StationId) (x : Station) : (State.setStation s i x).v1Raised = s.v1Raised := rfl
@[simp] theorem State.setStation_cnts (s : State) (i : StationId) (x : Station) : (State.setStation s i x).cnts = s.cnts := rfl
@[simp] theorem State.setStation_parts (s : State) (i : StationId) (x : Station) : (State.setStation s i x).parts = s.parts := rfl
@[simp] theorem State.setStation_cmds (s : State) (i : StationId) (x : Station) : (State.setStation s i x).cmds = s.cmds := rfl
@[simp] theorem State.setStation_admitNext (s : State) (i : StationId) (x : Station) : (State.setStation s i x).admitNext = s.admitNext := rfl
@[simp] theorem State.setStation_issuedNow (s : State) (i : StationId) (x : Station) : (State.setStation s i x).issuedNow = s.issuedNow := rfl
@[simp] theorem State.setStation_issueNext (s : State) (i : StationId) (x : Station) : (State.setStation s i x).issueNext = s.issueNext := rfl
@[simp] theorem State.setStation_keys (s : State) (i : StationId) (x : Station) : (State.setStation s i x).keys = s.keys := rfl
@[simp] theorem State.setStation_ops (s : State) (i : StationId) (x : Station) : (State.setStation s i x).ops = s.ops := rfl
@[simp] theorem State.setStation_opNext (s : State) (i : StationId) (x : Station) : (State.setStation s i x).opNext = s.opNext := rfl
@[simp] theorem State.setStation_scHalt (s : State) (i : StationId) (x : Station) : (State.setStation s i x).scHalt = s.scHalt := rfl
@[simp] theorem State.setStation_halted (s : State) (i : StationId) (x : Station) : (State.setStation s i x).halted = s.halted := rfl
@[simp] theorem State.setStation_mem (s : State) (i : StationId) (x : Station) : (State.setStation s i x).mem = s.mem := rfl
@[simp] theorem State.setStation_undef (s : State) (i : StationId) (x : Station) : (State.setStation s i x).undef = s.undef := rfl
@[simp] theorem State.setStation_poison (s : State) (i : StationId) (x : Station) : (State.setStation s i x).poison = s.poison := rfl
@[simp] theorem State.setStation_ecc (s : State) (i : StationId) (x : Station) : (State.setStation s i x).ecc = s.ecc := rfl
@[simp] theorem State.setStation_hw (s : State) (i : StationId) (x : Station) : (State.setStation s i x).hw = s.hw := rfl
@[simp] theorem State.setStation_pools (s : State) (i : StationId) (x : Station) : (State.setStation s i x).pools = s.pools := rfl
@[simp] theorem State.setStation_hostMem (s : State) (i : StationId) (x : Station) : (State.setStation s i x).hostMem = s.hostMem := rfl
@[simp] theorem State.setStation_hostErr (s : State) (i : StationId) (x : Station) : (State.setStation s i x).hostErr = s.hostErr := rfl
@[simp] theorem State.setStation_cisPoison (s : State) (i : StationId) (x : Station) : (State.setStation s i x).cisPoison = s.cisPoison := rfl
@[simp] theorem State.setStation_bar2Reads (s : State) (i : StationId) (x : Station) : (State.setStation s i x).bar2Reads = s.bar2Reads := rfl
@[simp] theorem State.setStation_ecs (s : State) (i : StationId) (x : Station) : (State.setStation s i x).ecs = s.ecs := rfl
@[simp] theorem State.setStation_fence (s : State) (i : StationId) (x : Station) : (State.setStation s i x).fence = s.fence := rfl
@[simp] theorem State.setStation_regions (s : State) (i : StationId) (x : Station) : (State.setStation s i x).regions = s.regions := rfl
@[simp] theorem State.setStation_windows (s : State) (i : StationId) (x : Station) : (State.setStation s i x).windows = s.windows := rfl
@[simp] theorem State.setStation_streams (s : State) (i : StationId) (x : Station) : (State.setStation s i x).streams = s.streams := rfl
@[simp] theorem State.setStation_groups (s : State) (i : StationId) (x : Station) : (State.setStation s i x).groups = s.groups := rfl
@[simp] theorem State.setStation_strPeek (s : State) (i : StationId) (x : Station) : (State.setStation s i x).strPeek = s.strPeek := rfl
@[simp] theorem State.setStation_heaps (s : State) (i : StationId) (x : Station) : (State.setStation s i x).heaps = s.heaps := rfl
@[simp] theorem State.setStation_seqs (s : State) (i : StationId) (x : Station) : (State.setStation s i x).seqs = s.seqs := rfl
@[simp] theorem State.setStation_spills (s : State) (i : StationId) (x : Station) : (State.setStation s i x).spills = s.spills := rfl
@[simp] theorem State.setStation_returns (s : State) (i : StationId) (x : Station) : (State.setStation s i x).returns = s.returns := rfl
@[simp] theorem State.setStation_det (s : State) (i : StationId) (x : Station) : (State.setStation s i x).det = s.det := rfl
@[simp] theorem State.setStation_cams (s : State) (i : StationId) (x : Station) : (State.setStation s i x).cams = s.cams := rfl
@[simp] theorem State.setStation_audTable (s : State) (i : StationId) (x : Station) : (State.setStation s i x).audTable = s.audTable := rfl
@[simp] theorem State.setStation_audFir (s : State) (i : StationId) (x : Station) : (State.setStation s i x).audFir = s.audFir := rfl
@[simp] theorem State.setStation_fir (s : State) (i : StationId) (x : Station) : (State.setStation s i x).fir = s.fir := rfl
@[simp] theorem State.setStation_bindings (s : State) (i : StationId) (x : Station) : (State.setStation s i x).bindings = s.bindings := rfl
@[simp] theorem State.setStation_audio (s : State) (i : StationId) (x : Station) : (State.setStation s i x).audio = s.audio := rfl
@[simp] theorem State.setStation_tdm (s : State) (i : StationId) (x : Station) : (State.setStation s i x).tdm = s.tdm := rfl
@[simp] theorem State.setStation_pipes (s : State) (i : StationId) (x : Station) : (State.setStation s i x).pipes = s.pipes := rfl
@[simp] theorem State.setStation_recTurn (s : State) (i : StationId) (x : Station) : (State.setStation s i x).recTurn = s.recTurn := rfl
@[simp] theorem State.setStation_axes (s : State) (i : StationId) (x : Station) : (State.setStation s i x).axes = s.axes := rfl
@[simp] theorem State.setStation_lpeLatched (s : State) (i : StationId) (x : Station) : (State.setStation s i x).lpeLatched = s.lpeLatched := rfl
@[simp] theorem State.setStation_lpeBusy (s : State) (i : StationId) (x : Station) : (State.setStation s i x).lpeBusy = s.lpeBusy := rfl
@[simp] theorem State.setStation_tb (s : State) (i : StationId) (x : Station) : (State.setStation s i x).tb = s.tb := rfl
@[simp] theorem State.setStation_eth (s : State) (i : StationId) (x : Station) : (State.setStation s i x).eth = s.eth := rfl
@[simp] theorem State.setStation_pm (s : State) (i : StationId) (x : Station) : (State.setStation s i x).pm = s.pm := rfl
@[simp] theorem State.setStation_pdOn (s : State) (i : StationId) (x : Station) : (State.setStation s i x).pdOn = s.pdOn := rfl
@[simp] theorem State.setStation_pdMoves (s : State) (i : StationId) (x : Station) : (State.setStation s i x).pdMoves = s.pdMoves := rfl
@[simp] theorem State.setStation_pairs (s : State) (i : StationId) (x : Station) : (State.setStation s i x).pairs = s.pairs := rfl
@[simp] theorem State.setStation_sph (s : State) (i : StationId) (x : Station) : (State.setStation s i x).sph = s.sph := rfl
@[simp] theorem State.setStation_mirrors (s : State) (i : StationId) (x : Station) : (State.setStation s i x).mirrors = s.mirrors := rfl
@[simp] theorem State.setStation_pending (s : State) (i : StationId) (x : Station) : (State.setStation s i x).pending = s.pending := rfl
@[simp] theorem State.setStation_out (s : State) (i : StationId) (x : Station) : (State.setStation s i x).out = s.out := rfl
@[simp] theorem State.setStation_fresh (s : State) (i : StationId) (x : Station) : (State.setStation s i x).fresh = s.fresh := rfl

/-! State.setEth -/
@[simp] theorem State.setEth_sys (s : State) (e : EthId) (x : EthPort) : (State.setEth s e x).sys = s.sys := rfl
@[simp] theorem State.setEth_counter (s : State) (e : EthId) (x : EthPort) : (State.setEth s e x).counter = s.counter := rfl
@[simp] theorem State.setEth_trb (s : State) (e : EthId) (x : EthPort) : (State.setEth s e x).trb = s.trb := rfl
@[simp] theorem State.setEth_ports (s : State) (e : EthId) (x : EthPort) : (State.setEth s e x).ports = s.ports := rfl
@[simp] theorem State.setEth_reqs (s : State) (e : EthId) (x : EthPort) : (State.setEth s e x).reqs = s.reqs := rfl
@[simp] theorem State.setEth_sems (s : State) (e : EthId) (x : EthPort) : (State.setEth s e x).sems = s.sems := rfl
@[simp] theorem State.setEth_errs (s : State) (e : EthId) (x : EthPort) : (State.setEth s e x).errs = s.errs := rfl
@[simp] theorem State.setEth_setNow (s : State) (e : EthId) (x : EthPort) : (State.setEth s e x).setNow = s.setNow := rfl
@[simp] theorem State.setEth_v1Raised (s : State) (e : EthId) (x : EthPort) : (State.setEth s e x).v1Raised = s.v1Raised := rfl
@[simp] theorem State.setEth_cnts (s : State) (e : EthId) (x : EthPort) : (State.setEth s e x).cnts = s.cnts := rfl
@[simp] theorem State.setEth_parts (s : State) (e : EthId) (x : EthPort) : (State.setEth s e x).parts = s.parts := rfl
@[simp] theorem State.setEth_cmds (s : State) (e : EthId) (x : EthPort) : (State.setEth s e x).cmds = s.cmds := rfl
@[simp] theorem State.setEth_admitNext (s : State) (e : EthId) (x : EthPort) : (State.setEth s e x).admitNext = s.admitNext := rfl
@[simp] theorem State.setEth_issuedNow (s : State) (e : EthId) (x : EthPort) : (State.setEth s e x).issuedNow = s.issuedNow := rfl
@[simp] theorem State.setEth_issueNext (s : State) (e : EthId) (x : EthPort) : (State.setEth s e x).issueNext = s.issueNext := rfl
@[simp] theorem State.setEth_keys (s : State) (e : EthId) (x : EthPort) : (State.setEth s e x).keys = s.keys := rfl
@[simp] theorem State.setEth_ops (s : State) (e : EthId) (x : EthPort) : (State.setEth s e x).ops = s.ops := rfl
@[simp] theorem State.setEth_opNext (s : State) (e : EthId) (x : EthPort) : (State.setEth s e x).opNext = s.opNext := rfl
@[simp] theorem State.setEth_scHalt (s : State) (e : EthId) (x : EthPort) : (State.setEth s e x).scHalt = s.scHalt := rfl
@[simp] theorem State.setEth_halted (s : State) (e : EthId) (x : EthPort) : (State.setEth s e x).halted = s.halted := rfl
@[simp] theorem State.setEth_mem (s : State) (e : EthId) (x : EthPort) : (State.setEth s e x).mem = s.mem := rfl
@[simp] theorem State.setEth_undef (s : State) (e : EthId) (x : EthPort) : (State.setEth s e x).undef = s.undef := rfl
@[simp] theorem State.setEth_poison (s : State) (e : EthId) (x : EthPort) : (State.setEth s e x).poison = s.poison := rfl
@[simp] theorem State.setEth_ecc (s : State) (e : EthId) (x : EthPort) : (State.setEth s e x).ecc = s.ecc := rfl
@[simp] theorem State.setEth_hw (s : State) (e : EthId) (x : EthPort) : (State.setEth s e x).hw = s.hw := rfl
@[simp] theorem State.setEth_pools (s : State) (e : EthId) (x : EthPort) : (State.setEth s e x).pools = s.pools := rfl
@[simp] theorem State.setEth_hostMem (s : State) (e : EthId) (x : EthPort) : (State.setEth s e x).hostMem = s.hostMem := rfl
@[simp] theorem State.setEth_hostErr (s : State) (e : EthId) (x : EthPort) : (State.setEth s e x).hostErr = s.hostErr := rfl
@[simp] theorem State.setEth_cisPoison (s : State) (e : EthId) (x : EthPort) : (State.setEth s e x).cisPoison = s.cisPoison := rfl
@[simp] theorem State.setEth_bar2Reads (s : State) (e : EthId) (x : EthPort) : (State.setEth s e x).bar2Reads = s.bar2Reads := rfl
@[simp] theorem State.setEth_ecs (s : State) (e : EthId) (x : EthPort) : (State.setEth s e x).ecs = s.ecs := rfl
@[simp] theorem State.setEth_fence (s : State) (e : EthId) (x : EthPort) : (State.setEth s e x).fence = s.fence := rfl
@[simp] theorem State.setEth_regions (s : State) (e : EthId) (x : EthPort) : (State.setEth s e x).regions = s.regions := rfl
@[simp] theorem State.setEth_windows (s : State) (e : EthId) (x : EthPort) : (State.setEth s e x).windows = s.windows := rfl
@[simp] theorem State.setEth_streams (s : State) (e : EthId) (x : EthPort) : (State.setEth s e x).streams = s.streams := rfl
@[simp] theorem State.setEth_groups (s : State) (e : EthId) (x : EthPort) : (State.setEth s e x).groups = s.groups := rfl
@[simp] theorem State.setEth_strPeek (s : State) (e : EthId) (x : EthPort) : (State.setEth s e x).strPeek = s.strPeek := rfl
@[simp] theorem State.setEth_heaps (s : State) (e : EthId) (x : EthPort) : (State.setEth s e x).heaps = s.heaps := rfl
@[simp] theorem State.setEth_seqs (s : State) (e : EthId) (x : EthPort) : (State.setEth s e x).seqs = s.seqs := rfl
@[simp] theorem State.setEth_spills (s : State) (e : EthId) (x : EthPort) : (State.setEth s e x).spills = s.spills := rfl
@[simp] theorem State.setEth_returns (s : State) (e : EthId) (x : EthPort) : (State.setEth s e x).returns = s.returns := rfl
@[simp] theorem State.setEth_det (s : State) (e : EthId) (x : EthPort) : (State.setEth s e x).det = s.det := rfl
@[simp] theorem State.setEth_cams (s : State) (e : EthId) (x : EthPort) : (State.setEth s e x).cams = s.cams := rfl
@[simp] theorem State.setEth_audTable (s : State) (e : EthId) (x : EthPort) : (State.setEth s e x).audTable = s.audTable := rfl
@[simp] theorem State.setEth_audFir (s : State) (e : EthId) (x : EthPort) : (State.setEth s e x).audFir = s.audFir := rfl
@[simp] theorem State.setEth_fir (s : State) (e : EthId) (x : EthPort) : (State.setEth s e x).fir = s.fir := rfl
@[simp] theorem State.setEth_bindings (s : State) (e : EthId) (x : EthPort) : (State.setEth s e x).bindings = s.bindings := rfl
@[simp] theorem State.setEth_audio (s : State) (e : EthId) (x : EthPort) : (State.setEth s e x).audio = s.audio := rfl
@[simp] theorem State.setEth_tdm (s : State) (e : EthId) (x : EthPort) : (State.setEth s e x).tdm = s.tdm := rfl
@[simp] theorem State.setEth_pipes (s : State) (e : EthId) (x : EthPort) : (State.setEth s e x).pipes = s.pipes := rfl
@[simp] theorem State.setEth_recTurn (s : State) (e : EthId) (x : EthPort) : (State.setEth s e x).recTurn = s.recTurn := rfl
@[simp] theorem State.setEth_axes (s : State) (e : EthId) (x : EthPort) : (State.setEth s e x).axes = s.axes := rfl
@[simp] theorem State.setEth_stations (s : State) (e : EthId) (x : EthPort) : (State.setEth s e x).stations = s.stations := rfl
@[simp] theorem State.setEth_lpeLatched (s : State) (e : EthId) (x : EthPort) : (State.setEth s e x).lpeLatched = s.lpeLatched := rfl
@[simp] theorem State.setEth_lpeBusy (s : State) (e : EthId) (x : EthPort) : (State.setEth s e x).lpeBusy = s.lpeBusy := rfl
@[simp] theorem State.setEth_tb (s : State) (e : EthId) (x : EthPort) : (State.setEth s e x).tb = s.tb := rfl
@[simp] theorem State.setEth_pm (s : State) (e : EthId) (x : EthPort) : (State.setEth s e x).pm = s.pm := rfl
@[simp] theorem State.setEth_pdOn (s : State) (e : EthId) (x : EthPort) : (State.setEth s e x).pdOn = s.pdOn := rfl
@[simp] theorem State.setEth_pdMoves (s : State) (e : EthId) (x : EthPort) : (State.setEth s e x).pdMoves = s.pdMoves := rfl
@[simp] theorem State.setEth_pairs (s : State) (e : EthId) (x : EthPort) : (State.setEth s e x).pairs = s.pairs := rfl
@[simp] theorem State.setEth_sph (s : State) (e : EthId) (x : EthPort) : (State.setEth s e x).sph = s.sph := rfl
@[simp] theorem State.setEth_mirrors (s : State) (e : EthId) (x : EthPort) : (State.setEth s e x).mirrors = s.mirrors := rfl
@[simp] theorem State.setEth_pending (s : State) (e : EthId) (x : EthPort) : (State.setEth s e x).pending = s.pending := rfl
@[simp] theorem State.setEth_out (s : State) (e : EthId) (x : EthPort) : (State.setEth s e x).out = s.out := rfl
@[simp] theorem State.setEth_fresh (s : State) (e : EthId) (x : EthPort) : (State.setEth s e x).fresh = s.fresh := rfl

/-! State.setPipe -/
@[simp] theorem State.setPipe_sys (s : State) (i : PipeId) (x : Pipe) : (State.setPipe s i x).sys = s.sys := rfl
@[simp] theorem State.setPipe_counter (s : State) (i : PipeId) (x : Pipe) : (State.setPipe s i x).counter = s.counter := rfl
@[simp] theorem State.setPipe_trb (s : State) (i : PipeId) (x : Pipe) : (State.setPipe s i x).trb = s.trb := rfl
@[simp] theorem State.setPipe_ports (s : State) (i : PipeId) (x : Pipe) : (State.setPipe s i x).ports = s.ports := rfl
@[simp] theorem State.setPipe_reqs (s : State) (i : PipeId) (x : Pipe) : (State.setPipe s i x).reqs = s.reqs := rfl
@[simp] theorem State.setPipe_sems (s : State) (i : PipeId) (x : Pipe) : (State.setPipe s i x).sems = s.sems := rfl
@[simp] theorem State.setPipe_errs (s : State) (i : PipeId) (x : Pipe) : (State.setPipe s i x).errs = s.errs := rfl
@[simp] theorem State.setPipe_setNow (s : State) (i : PipeId) (x : Pipe) : (State.setPipe s i x).setNow = s.setNow := rfl
@[simp] theorem State.setPipe_v1Raised (s : State) (i : PipeId) (x : Pipe) : (State.setPipe s i x).v1Raised = s.v1Raised := rfl
@[simp] theorem State.setPipe_cnts (s : State) (i : PipeId) (x : Pipe) : (State.setPipe s i x).cnts = s.cnts := rfl
@[simp] theorem State.setPipe_parts (s : State) (i : PipeId) (x : Pipe) : (State.setPipe s i x).parts = s.parts := rfl
@[simp] theorem State.setPipe_cmds (s : State) (i : PipeId) (x : Pipe) : (State.setPipe s i x).cmds = s.cmds := rfl
@[simp] theorem State.setPipe_admitNext (s : State) (i : PipeId) (x : Pipe) : (State.setPipe s i x).admitNext = s.admitNext := rfl
@[simp] theorem State.setPipe_issuedNow (s : State) (i : PipeId) (x : Pipe) : (State.setPipe s i x).issuedNow = s.issuedNow := rfl
@[simp] theorem State.setPipe_issueNext (s : State) (i : PipeId) (x : Pipe) : (State.setPipe s i x).issueNext = s.issueNext := rfl
@[simp] theorem State.setPipe_keys (s : State) (i : PipeId) (x : Pipe) : (State.setPipe s i x).keys = s.keys := rfl
@[simp] theorem State.setPipe_ops (s : State) (i : PipeId) (x : Pipe) : (State.setPipe s i x).ops = s.ops := rfl
@[simp] theorem State.setPipe_opNext (s : State) (i : PipeId) (x : Pipe) : (State.setPipe s i x).opNext = s.opNext := rfl
@[simp] theorem State.setPipe_scHalt (s : State) (i : PipeId) (x : Pipe) : (State.setPipe s i x).scHalt = s.scHalt := rfl
@[simp] theorem State.setPipe_halted (s : State) (i : PipeId) (x : Pipe) : (State.setPipe s i x).halted = s.halted := rfl
@[simp] theorem State.setPipe_mem (s : State) (i : PipeId) (x : Pipe) : (State.setPipe s i x).mem = s.mem := rfl
@[simp] theorem State.setPipe_undef (s : State) (i : PipeId) (x : Pipe) : (State.setPipe s i x).undef = s.undef := rfl
@[simp] theorem State.setPipe_poison (s : State) (i : PipeId) (x : Pipe) : (State.setPipe s i x).poison = s.poison := rfl
@[simp] theorem State.setPipe_ecc (s : State) (i : PipeId) (x : Pipe) : (State.setPipe s i x).ecc = s.ecc := rfl
@[simp] theorem State.setPipe_hw (s : State) (i : PipeId) (x : Pipe) : (State.setPipe s i x).hw = s.hw := rfl
@[simp] theorem State.setPipe_pools (s : State) (i : PipeId) (x : Pipe) : (State.setPipe s i x).pools = s.pools := rfl
@[simp] theorem State.setPipe_hostMem (s : State) (i : PipeId) (x : Pipe) : (State.setPipe s i x).hostMem = s.hostMem := rfl
@[simp] theorem State.setPipe_hostErr (s : State) (i : PipeId) (x : Pipe) : (State.setPipe s i x).hostErr = s.hostErr := rfl
@[simp] theorem State.setPipe_cisPoison (s : State) (i : PipeId) (x : Pipe) : (State.setPipe s i x).cisPoison = s.cisPoison := rfl
@[simp] theorem State.setPipe_bar2Reads (s : State) (i : PipeId) (x : Pipe) : (State.setPipe s i x).bar2Reads = s.bar2Reads := rfl
@[simp] theorem State.setPipe_ecs (s : State) (i : PipeId) (x : Pipe) : (State.setPipe s i x).ecs = s.ecs := rfl
@[simp] theorem State.setPipe_fence (s : State) (i : PipeId) (x : Pipe) : (State.setPipe s i x).fence = s.fence := rfl
@[simp] theorem State.setPipe_regions (s : State) (i : PipeId) (x : Pipe) : (State.setPipe s i x).regions = s.regions := rfl
@[simp] theorem State.setPipe_windows (s : State) (i : PipeId) (x : Pipe) : (State.setPipe s i x).windows = s.windows := rfl
@[simp] theorem State.setPipe_streams (s : State) (i : PipeId) (x : Pipe) : (State.setPipe s i x).streams = s.streams := rfl
@[simp] theorem State.setPipe_groups (s : State) (i : PipeId) (x : Pipe) : (State.setPipe s i x).groups = s.groups := rfl
@[simp] theorem State.setPipe_strPeek (s : State) (i : PipeId) (x : Pipe) : (State.setPipe s i x).strPeek = s.strPeek := rfl
@[simp] theorem State.setPipe_heaps (s : State) (i : PipeId) (x : Pipe) : (State.setPipe s i x).heaps = s.heaps := rfl
@[simp] theorem State.setPipe_seqs (s : State) (i : PipeId) (x : Pipe) : (State.setPipe s i x).seqs = s.seqs := rfl
@[simp] theorem State.setPipe_spills (s : State) (i : PipeId) (x : Pipe) : (State.setPipe s i x).spills = s.spills := rfl
@[simp] theorem State.setPipe_returns (s : State) (i : PipeId) (x : Pipe) : (State.setPipe s i x).returns = s.returns := rfl
@[simp] theorem State.setPipe_det (s : State) (i : PipeId) (x : Pipe) : (State.setPipe s i x).det = s.det := rfl
@[simp] theorem State.setPipe_cams (s : State) (i : PipeId) (x : Pipe) : (State.setPipe s i x).cams = s.cams := rfl
@[simp] theorem State.setPipe_audTable (s : State) (i : PipeId) (x : Pipe) : (State.setPipe s i x).audTable = s.audTable := rfl
@[simp] theorem State.setPipe_audFir (s : State) (i : PipeId) (x : Pipe) : (State.setPipe s i x).audFir = s.audFir := rfl
@[simp] theorem State.setPipe_fir (s : State) (i : PipeId) (x : Pipe) : (State.setPipe s i x).fir = s.fir := rfl
@[simp] theorem State.setPipe_bindings (s : State) (i : PipeId) (x : Pipe) : (State.setPipe s i x).bindings = s.bindings := rfl
@[simp] theorem State.setPipe_audio (s : State) (i : PipeId) (x : Pipe) : (State.setPipe s i x).audio = s.audio := rfl
@[simp] theorem State.setPipe_tdm (s : State) (i : PipeId) (x : Pipe) : (State.setPipe s i x).tdm = s.tdm := rfl
@[simp] theorem State.setPipe_recTurn (s : State) (i : PipeId) (x : Pipe) : (State.setPipe s i x).recTurn = s.recTurn := rfl
@[simp] theorem State.setPipe_axes (s : State) (i : PipeId) (x : Pipe) : (State.setPipe s i x).axes = s.axes := rfl
@[simp] theorem State.setPipe_stations (s : State) (i : PipeId) (x : Pipe) : (State.setPipe s i x).stations = s.stations := rfl
@[simp] theorem State.setPipe_lpeLatched (s : State) (i : PipeId) (x : Pipe) : (State.setPipe s i x).lpeLatched = s.lpeLatched := rfl
@[simp] theorem State.setPipe_lpeBusy (s : State) (i : PipeId) (x : Pipe) : (State.setPipe s i x).lpeBusy = s.lpeBusy := rfl
@[simp] theorem State.setPipe_tb (s : State) (i : PipeId) (x : Pipe) : (State.setPipe s i x).tb = s.tb := rfl
@[simp] theorem State.setPipe_eth (s : State) (i : PipeId) (x : Pipe) : (State.setPipe s i x).eth = s.eth := rfl
@[simp] theorem State.setPipe_pm (s : State) (i : PipeId) (x : Pipe) : (State.setPipe s i x).pm = s.pm := rfl
@[simp] theorem State.setPipe_pdOn (s : State) (i : PipeId) (x : Pipe) : (State.setPipe s i x).pdOn = s.pdOn := rfl
@[simp] theorem State.setPipe_pdMoves (s : State) (i : PipeId) (x : Pipe) : (State.setPipe s i x).pdMoves = s.pdMoves := rfl
@[simp] theorem State.setPipe_pairs (s : State) (i : PipeId) (x : Pipe) : (State.setPipe s i x).pairs = s.pairs := rfl
@[simp] theorem State.setPipe_sph (s : State) (i : PipeId) (x : Pipe) : (State.setPipe s i x).sph = s.sph := rfl
@[simp] theorem State.setPipe_mirrors (s : State) (i : PipeId) (x : Pipe) : (State.setPipe s i x).mirrors = s.mirrors := rfl
@[simp] theorem State.setPipe_pending (s : State) (i : PipeId) (x : Pipe) : (State.setPipe s i x).pending = s.pending := rfl
@[simp] theorem State.setPipe_out (s : State) (i : PipeId) (x : Pipe) : (State.setPipe s i x).out = s.out := rfl
@[simp] theorem State.setPipe_fresh (s : State) (i : PipeId) (x : Pipe) : (State.setPipe s i x).fresh = s.fresh := rfl

/-! State.setPair -/
@[simp] theorem State.setPair_sys (s : State) (r : PairId) (x : Pair) : (State.setPair s r x).sys = s.sys := rfl
@[simp] theorem State.setPair_counter (s : State) (r : PairId) (x : Pair) : (State.setPair s r x).counter = s.counter := rfl
@[simp] theorem State.setPair_trb (s : State) (r : PairId) (x : Pair) : (State.setPair s r x).trb = s.trb := rfl
@[simp] theorem State.setPair_ports (s : State) (r : PairId) (x : Pair) : (State.setPair s r x).ports = s.ports := rfl
@[simp] theorem State.setPair_reqs (s : State) (r : PairId) (x : Pair) : (State.setPair s r x).reqs = s.reqs := rfl
@[simp] theorem State.setPair_sems (s : State) (r : PairId) (x : Pair) : (State.setPair s r x).sems = s.sems := rfl
@[simp] theorem State.setPair_errs (s : State) (r : PairId) (x : Pair) : (State.setPair s r x).errs = s.errs := rfl
@[simp] theorem State.setPair_setNow (s : State) (r : PairId) (x : Pair) : (State.setPair s r x).setNow = s.setNow := rfl
@[simp] theorem State.setPair_v1Raised (s : State) (r : PairId) (x : Pair) : (State.setPair s r x).v1Raised = s.v1Raised := rfl
@[simp] theorem State.setPair_cnts (s : State) (r : PairId) (x : Pair) : (State.setPair s r x).cnts = s.cnts := rfl
@[simp] theorem State.setPair_parts (s : State) (r : PairId) (x : Pair) : (State.setPair s r x).parts = s.parts := rfl
@[simp] theorem State.setPair_cmds (s : State) (r : PairId) (x : Pair) : (State.setPair s r x).cmds = s.cmds := rfl
@[simp] theorem State.setPair_admitNext (s : State) (r : PairId) (x : Pair) : (State.setPair s r x).admitNext = s.admitNext := rfl
@[simp] theorem State.setPair_issuedNow (s : State) (r : PairId) (x : Pair) : (State.setPair s r x).issuedNow = s.issuedNow := rfl
@[simp] theorem State.setPair_issueNext (s : State) (r : PairId) (x : Pair) : (State.setPair s r x).issueNext = s.issueNext := rfl
@[simp] theorem State.setPair_keys (s : State) (r : PairId) (x : Pair) : (State.setPair s r x).keys = s.keys := rfl
@[simp] theorem State.setPair_ops (s : State) (r : PairId) (x : Pair) : (State.setPair s r x).ops = s.ops := rfl
@[simp] theorem State.setPair_opNext (s : State) (r : PairId) (x : Pair) : (State.setPair s r x).opNext = s.opNext := rfl
@[simp] theorem State.setPair_scHalt (s : State) (r : PairId) (x : Pair) : (State.setPair s r x).scHalt = s.scHalt := rfl
@[simp] theorem State.setPair_halted (s : State) (r : PairId) (x : Pair) : (State.setPair s r x).halted = s.halted := rfl
@[simp] theorem State.setPair_mem (s : State) (r : PairId) (x : Pair) : (State.setPair s r x).mem = s.mem := rfl
@[simp] theorem State.setPair_undef (s : State) (r : PairId) (x : Pair) : (State.setPair s r x).undef = s.undef := rfl
@[simp] theorem State.setPair_poison (s : State) (r : PairId) (x : Pair) : (State.setPair s r x).poison = s.poison := rfl
@[simp] theorem State.setPair_ecc (s : State) (r : PairId) (x : Pair) : (State.setPair s r x).ecc = s.ecc := rfl
@[simp] theorem State.setPair_hw (s : State) (r : PairId) (x : Pair) : (State.setPair s r x).hw = s.hw := rfl
@[simp] theorem State.setPair_pools (s : State) (r : PairId) (x : Pair) : (State.setPair s r x).pools = s.pools := rfl
@[simp] theorem State.setPair_hostMem (s : State) (r : PairId) (x : Pair) : (State.setPair s r x).hostMem = s.hostMem := rfl
@[simp] theorem State.setPair_hostErr (s : State) (r : PairId) (x : Pair) : (State.setPair s r x).hostErr = s.hostErr := rfl
@[simp] theorem State.setPair_cisPoison (s : State) (r : PairId) (x : Pair) : (State.setPair s r x).cisPoison = s.cisPoison := rfl
@[simp] theorem State.setPair_bar2Reads (s : State) (r : PairId) (x : Pair) : (State.setPair s r x).bar2Reads = s.bar2Reads := rfl
@[simp] theorem State.setPair_ecs (s : State) (r : PairId) (x : Pair) : (State.setPair s r x).ecs = s.ecs := rfl
@[simp] theorem State.setPair_fence (s : State) (r : PairId) (x : Pair) : (State.setPair s r x).fence = s.fence := rfl
@[simp] theorem State.setPair_regions (s : State) (r : PairId) (x : Pair) : (State.setPair s r x).regions = s.regions := rfl
@[simp] theorem State.setPair_windows (s : State) (r : PairId) (x : Pair) : (State.setPair s r x).windows = s.windows := rfl
@[simp] theorem State.setPair_streams (s : State) (r : PairId) (x : Pair) : (State.setPair s r x).streams = s.streams := rfl
@[simp] theorem State.setPair_groups (s : State) (r : PairId) (x : Pair) : (State.setPair s r x).groups = s.groups := rfl
@[simp] theorem State.setPair_strPeek (s : State) (r : PairId) (x : Pair) : (State.setPair s r x).strPeek = s.strPeek := rfl
@[simp] theorem State.setPair_heaps (s : State) (r : PairId) (x : Pair) : (State.setPair s r x).heaps = s.heaps := rfl
@[simp] theorem State.setPair_seqs (s : State) (r : PairId) (x : Pair) : (State.setPair s r x).seqs = s.seqs := rfl
@[simp] theorem State.setPair_spills (s : State) (r : PairId) (x : Pair) : (State.setPair s r x).spills = s.spills := rfl
@[simp] theorem State.setPair_returns (s : State) (r : PairId) (x : Pair) : (State.setPair s r x).returns = s.returns := rfl
@[simp] theorem State.setPair_det (s : State) (r : PairId) (x : Pair) : (State.setPair s r x).det = s.det := rfl
@[simp] theorem State.setPair_cams (s : State) (r : PairId) (x : Pair) : (State.setPair s r x).cams = s.cams := rfl
@[simp] theorem State.setPair_audTable (s : State) (r : PairId) (x : Pair) : (State.setPair s r x).audTable = s.audTable := rfl
@[simp] theorem State.setPair_audFir (s : State) (r : PairId) (x : Pair) : (State.setPair s r x).audFir = s.audFir := rfl
@[simp] theorem State.setPair_fir (s : State) (r : PairId) (x : Pair) : (State.setPair s r x).fir = s.fir := rfl
@[simp] theorem State.setPair_bindings (s : State) (r : PairId) (x : Pair) : (State.setPair s r x).bindings = s.bindings := rfl
@[simp] theorem State.setPair_audio (s : State) (r : PairId) (x : Pair) : (State.setPair s r x).audio = s.audio := rfl
@[simp] theorem State.setPair_tdm (s : State) (r : PairId) (x : Pair) : (State.setPair s r x).tdm = s.tdm := rfl
@[simp] theorem State.setPair_pipes (s : State) (r : PairId) (x : Pair) : (State.setPair s r x).pipes = s.pipes := rfl
@[simp] theorem State.setPair_recTurn (s : State) (r : PairId) (x : Pair) : (State.setPair s r x).recTurn = s.recTurn := rfl
@[simp] theorem State.setPair_axes (s : State) (r : PairId) (x : Pair) : (State.setPair s r x).axes = s.axes := rfl
@[simp] theorem State.setPair_stations (s : State) (r : PairId) (x : Pair) : (State.setPair s r x).stations = s.stations := rfl
@[simp] theorem State.setPair_lpeLatched (s : State) (r : PairId) (x : Pair) : (State.setPair s r x).lpeLatched = s.lpeLatched := rfl
@[simp] theorem State.setPair_lpeBusy (s : State) (r : PairId) (x : Pair) : (State.setPair s r x).lpeBusy = s.lpeBusy := rfl
@[simp] theorem State.setPair_tb (s : State) (r : PairId) (x : Pair) : (State.setPair s r x).tb = s.tb := rfl
@[simp] theorem State.setPair_eth (s : State) (r : PairId) (x : Pair) : (State.setPair s r x).eth = s.eth := rfl
@[simp] theorem State.setPair_pm (s : State) (r : PairId) (x : Pair) : (State.setPair s r x).pm = s.pm := rfl
@[simp] theorem State.setPair_pdOn (s : State) (r : PairId) (x : Pair) : (State.setPair s r x).pdOn = s.pdOn := rfl
@[simp] theorem State.setPair_pdMoves (s : State) (r : PairId) (x : Pair) : (State.setPair s r x).pdMoves = s.pdMoves := rfl
@[simp] theorem State.setPair_sph (s : State) (r : PairId) (x : Pair) : (State.setPair s r x).sph = s.sph := rfl
@[simp] theorem State.setPair_mirrors (s : State) (r : PairId) (x : Pair) : (State.setPair s r x).mirrors = s.mirrors := rfl
@[simp] theorem State.setPair_pending (s : State) (r : PairId) (x : Pair) : (State.setPair s r x).pending = s.pending := rfl
@[simp] theorem State.setPair_out (s : State) (r : PairId) (x : Pair) : (State.setPair s r x).out = s.out := rfl
@[simp] theorem State.setPair_fresh (s : State) (r : PairId) (x : Pair) : (State.setPair s r x).fresh = s.fresh := rfl

/-! State.setSph -/
@[simp] theorem State.setSph_sys (s : State) (x : Sph) : (State.setSph s x).sys = s.sys := rfl
@[simp] theorem State.setSph_counter (s : State) (x : Sph) : (State.setSph s x).counter = s.counter := rfl
@[simp] theorem State.setSph_trb (s : State) (x : Sph) : (State.setSph s x).trb = s.trb := rfl
@[simp] theorem State.setSph_ports (s : State) (x : Sph) : (State.setSph s x).ports = s.ports := rfl
@[simp] theorem State.setSph_reqs (s : State) (x : Sph) : (State.setSph s x).reqs = s.reqs := rfl
@[simp] theorem State.setSph_sems (s : State) (x : Sph) : (State.setSph s x).sems = s.sems := rfl
@[simp] theorem State.setSph_errs (s : State) (x : Sph) : (State.setSph s x).errs = s.errs := rfl
@[simp] theorem State.setSph_setNow (s : State) (x : Sph) : (State.setSph s x).setNow = s.setNow := rfl
@[simp] theorem State.setSph_v1Raised (s : State) (x : Sph) : (State.setSph s x).v1Raised = s.v1Raised := rfl
@[simp] theorem State.setSph_cnts (s : State) (x : Sph) : (State.setSph s x).cnts = s.cnts := rfl
@[simp] theorem State.setSph_parts (s : State) (x : Sph) : (State.setSph s x).parts = s.parts := rfl
@[simp] theorem State.setSph_cmds (s : State) (x : Sph) : (State.setSph s x).cmds = s.cmds := rfl
@[simp] theorem State.setSph_admitNext (s : State) (x : Sph) : (State.setSph s x).admitNext = s.admitNext := rfl
@[simp] theorem State.setSph_issuedNow (s : State) (x : Sph) : (State.setSph s x).issuedNow = s.issuedNow := rfl
@[simp] theorem State.setSph_issueNext (s : State) (x : Sph) : (State.setSph s x).issueNext = s.issueNext := rfl
@[simp] theorem State.setSph_keys (s : State) (x : Sph) : (State.setSph s x).keys = s.keys := rfl
@[simp] theorem State.setSph_ops (s : State) (x : Sph) : (State.setSph s x).ops = s.ops := rfl
@[simp] theorem State.setSph_opNext (s : State) (x : Sph) : (State.setSph s x).opNext = s.opNext := rfl
@[simp] theorem State.setSph_scHalt (s : State) (x : Sph) : (State.setSph s x).scHalt = s.scHalt := rfl
@[simp] theorem State.setSph_halted (s : State) (x : Sph) : (State.setSph s x).halted = s.halted := rfl
@[simp] theorem State.setSph_mem (s : State) (x : Sph) : (State.setSph s x).mem = s.mem := rfl
@[simp] theorem State.setSph_undef (s : State) (x : Sph) : (State.setSph s x).undef = s.undef := rfl
@[simp] theorem State.setSph_poison (s : State) (x : Sph) : (State.setSph s x).poison = s.poison := rfl
@[simp] theorem State.setSph_ecc (s : State) (x : Sph) : (State.setSph s x).ecc = s.ecc := rfl
@[simp] theorem State.setSph_hw (s : State) (x : Sph) : (State.setSph s x).hw = s.hw := rfl
@[simp] theorem State.setSph_pools (s : State) (x : Sph) : (State.setSph s x).pools = s.pools := rfl
@[simp] theorem State.setSph_hostMem (s : State) (x : Sph) : (State.setSph s x).hostMem = s.hostMem := rfl
@[simp] theorem State.setSph_hostErr (s : State) (x : Sph) : (State.setSph s x).hostErr = s.hostErr := rfl
@[simp] theorem State.setSph_cisPoison (s : State) (x : Sph) : (State.setSph s x).cisPoison = s.cisPoison := rfl
@[simp] theorem State.setSph_bar2Reads (s : State) (x : Sph) : (State.setSph s x).bar2Reads = s.bar2Reads := rfl
@[simp] theorem State.setSph_ecs (s : State) (x : Sph) : (State.setSph s x).ecs = s.ecs := rfl
@[simp] theorem State.setSph_fence (s : State) (x : Sph) : (State.setSph s x).fence = s.fence := rfl
@[simp] theorem State.setSph_regions (s : State) (x : Sph) : (State.setSph s x).regions = s.regions := rfl
@[simp] theorem State.setSph_windows (s : State) (x : Sph) : (State.setSph s x).windows = s.windows := rfl
@[simp] theorem State.setSph_streams (s : State) (x : Sph) : (State.setSph s x).streams = s.streams := rfl
@[simp] theorem State.setSph_groups (s : State) (x : Sph) : (State.setSph s x).groups = s.groups := rfl
@[simp] theorem State.setSph_strPeek (s : State) (x : Sph) : (State.setSph s x).strPeek = s.strPeek := rfl
@[simp] theorem State.setSph_heaps (s : State) (x : Sph) : (State.setSph s x).heaps = s.heaps := rfl
@[simp] theorem State.setSph_seqs (s : State) (x : Sph) : (State.setSph s x).seqs = s.seqs := rfl
@[simp] theorem State.setSph_spills (s : State) (x : Sph) : (State.setSph s x).spills = s.spills := rfl
@[simp] theorem State.setSph_returns (s : State) (x : Sph) : (State.setSph s x).returns = s.returns := rfl
@[simp] theorem State.setSph_det (s : State) (x : Sph) : (State.setSph s x).det = s.det := rfl
@[simp] theorem State.setSph_cams (s : State) (x : Sph) : (State.setSph s x).cams = s.cams := rfl
@[simp] theorem State.setSph_audTable (s : State) (x : Sph) : (State.setSph s x).audTable = s.audTable := rfl
@[simp] theorem State.setSph_audFir (s : State) (x : Sph) : (State.setSph s x).audFir = s.audFir := rfl
@[simp] theorem State.setSph_fir (s : State) (x : Sph) : (State.setSph s x).fir = s.fir := rfl
@[simp] theorem State.setSph_bindings (s : State) (x : Sph) : (State.setSph s x).bindings = s.bindings := rfl
@[simp] theorem State.setSph_audio (s : State) (x : Sph) : (State.setSph s x).audio = s.audio := rfl
@[simp] theorem State.setSph_tdm (s : State) (x : Sph) : (State.setSph s x).tdm = s.tdm := rfl
@[simp] theorem State.setSph_pipes (s : State) (x : Sph) : (State.setSph s x).pipes = s.pipes := rfl
@[simp] theorem State.setSph_recTurn (s : State) (x : Sph) : (State.setSph s x).recTurn = s.recTurn := rfl
@[simp] theorem State.setSph_axes (s : State) (x : Sph) : (State.setSph s x).axes = s.axes := rfl
@[simp] theorem State.setSph_stations (s : State) (x : Sph) : (State.setSph s x).stations = s.stations := rfl
@[simp] theorem State.setSph_lpeLatched (s : State) (x : Sph) : (State.setSph s x).lpeLatched = s.lpeLatched := rfl
@[simp] theorem State.setSph_lpeBusy (s : State) (x : Sph) : (State.setSph s x).lpeBusy = s.lpeBusy := rfl
@[simp] theorem State.setSph_tb (s : State) (x : Sph) : (State.setSph s x).tb = s.tb := rfl
@[simp] theorem State.setSph_eth (s : State) (x : Sph) : (State.setSph s x).eth = s.eth := rfl
@[simp] theorem State.setSph_pm (s : State) (x : Sph) : (State.setSph s x).pm = s.pm := rfl
@[simp] theorem State.setSph_pdOn (s : State) (x : Sph) : (State.setSph s x).pdOn = s.pdOn := rfl
@[simp] theorem State.setSph_pdMoves (s : State) (x : Sph) : (State.setSph s x).pdMoves = s.pdMoves := rfl
@[simp] theorem State.setSph_pairs (s : State) (x : Sph) : (State.setSph s x).pairs = s.pairs := rfl
@[simp] theorem State.setSph_mirrors (s : State) (x : Sph) : (State.setSph s x).mirrors = s.mirrors := rfl
@[simp] theorem State.setSph_pending (s : State) (x : Sph) : (State.setSph s x).pending = s.pending := rfl
@[simp] theorem State.setSph_out (s : State) (x : Sph) : (State.setSph s x).out = s.out := rfl
@[simp] theorem State.setSph_fresh (s : State) (x : Sph) : (State.setSph s x).fresh = s.fresh := rfl

/-! State.setDet -/
@[simp] theorem State.setDet_sys (s : State) (x : Det) : (State.setDet s x).sys = s.sys := rfl
@[simp] theorem State.setDet_counter (s : State) (x : Det) : (State.setDet s x).counter = s.counter := rfl
@[simp] theorem State.setDet_trb (s : State) (x : Det) : (State.setDet s x).trb = s.trb := rfl
@[simp] theorem State.setDet_ports (s : State) (x : Det) : (State.setDet s x).ports = s.ports := rfl
@[simp] theorem State.setDet_reqs (s : State) (x : Det) : (State.setDet s x).reqs = s.reqs := rfl
@[simp] theorem State.setDet_sems (s : State) (x : Det) : (State.setDet s x).sems = s.sems := rfl
@[simp] theorem State.setDet_errs (s : State) (x : Det) : (State.setDet s x).errs = s.errs := rfl
@[simp] theorem State.setDet_setNow (s : State) (x : Det) : (State.setDet s x).setNow = s.setNow := rfl
@[simp] theorem State.setDet_v1Raised (s : State) (x : Det) : (State.setDet s x).v1Raised = s.v1Raised := rfl
@[simp] theorem State.setDet_cnts (s : State) (x : Det) : (State.setDet s x).cnts = s.cnts := rfl
@[simp] theorem State.setDet_parts (s : State) (x : Det) : (State.setDet s x).parts = s.parts := rfl
@[simp] theorem State.setDet_cmds (s : State) (x : Det) : (State.setDet s x).cmds = s.cmds := rfl
@[simp] theorem State.setDet_admitNext (s : State) (x : Det) : (State.setDet s x).admitNext = s.admitNext := rfl
@[simp] theorem State.setDet_issuedNow (s : State) (x : Det) : (State.setDet s x).issuedNow = s.issuedNow := rfl
@[simp] theorem State.setDet_issueNext (s : State) (x : Det) : (State.setDet s x).issueNext = s.issueNext := rfl
@[simp] theorem State.setDet_keys (s : State) (x : Det) : (State.setDet s x).keys = s.keys := rfl
@[simp] theorem State.setDet_ops (s : State) (x : Det) : (State.setDet s x).ops = s.ops := rfl
@[simp] theorem State.setDet_opNext (s : State) (x : Det) : (State.setDet s x).opNext = s.opNext := rfl
@[simp] theorem State.setDet_scHalt (s : State) (x : Det) : (State.setDet s x).scHalt = s.scHalt := rfl
@[simp] theorem State.setDet_halted (s : State) (x : Det) : (State.setDet s x).halted = s.halted := rfl
@[simp] theorem State.setDet_mem (s : State) (x : Det) : (State.setDet s x).mem = s.mem := rfl
@[simp] theorem State.setDet_undef (s : State) (x : Det) : (State.setDet s x).undef = s.undef := rfl
@[simp] theorem State.setDet_poison (s : State) (x : Det) : (State.setDet s x).poison = s.poison := rfl
@[simp] theorem State.setDet_ecc (s : State) (x : Det) : (State.setDet s x).ecc = s.ecc := rfl
@[simp] theorem State.setDet_hw (s : State) (x : Det) : (State.setDet s x).hw = s.hw := rfl
@[simp] theorem State.setDet_pools (s : State) (x : Det) : (State.setDet s x).pools = s.pools := rfl
@[simp] theorem State.setDet_hostMem (s : State) (x : Det) : (State.setDet s x).hostMem = s.hostMem := rfl
@[simp] theorem State.setDet_hostErr (s : State) (x : Det) : (State.setDet s x).hostErr = s.hostErr := rfl
@[simp] theorem State.setDet_cisPoison (s : State) (x : Det) : (State.setDet s x).cisPoison = s.cisPoison := rfl
@[simp] theorem State.setDet_bar2Reads (s : State) (x : Det) : (State.setDet s x).bar2Reads = s.bar2Reads := rfl
@[simp] theorem State.setDet_ecs (s : State) (x : Det) : (State.setDet s x).ecs = s.ecs := rfl
@[simp] theorem State.setDet_fence (s : State) (x : Det) : (State.setDet s x).fence = s.fence := rfl
@[simp] theorem State.setDet_regions (s : State) (x : Det) : (State.setDet s x).regions = s.regions := rfl
@[simp] theorem State.setDet_windows (s : State) (x : Det) : (State.setDet s x).windows = s.windows := rfl
@[simp] theorem State.setDet_streams (s : State) (x : Det) : (State.setDet s x).streams = s.streams := rfl
@[simp] theorem State.setDet_groups (s : State) (x : Det) : (State.setDet s x).groups = s.groups := rfl
@[simp] theorem State.setDet_strPeek (s : State) (x : Det) : (State.setDet s x).strPeek = s.strPeek := rfl
@[simp] theorem State.setDet_heaps (s : State) (x : Det) : (State.setDet s x).heaps = s.heaps := rfl
@[simp] theorem State.setDet_seqs (s : State) (x : Det) : (State.setDet s x).seqs = s.seqs := rfl
@[simp] theorem State.setDet_spills (s : State) (x : Det) : (State.setDet s x).spills = s.spills := rfl
@[simp] theorem State.setDet_returns (s : State) (x : Det) : (State.setDet s x).returns = s.returns := rfl
@[simp] theorem State.setDet_cams (s : State) (x : Det) : (State.setDet s x).cams = s.cams := rfl
@[simp] theorem State.setDet_audTable (s : State) (x : Det) : (State.setDet s x).audTable = s.audTable := rfl
@[simp] theorem State.setDet_audFir (s : State) (x : Det) : (State.setDet s x).audFir = s.audFir := rfl
@[simp] theorem State.setDet_fir (s : State) (x : Det) : (State.setDet s x).fir = s.fir := rfl
@[simp] theorem State.setDet_bindings (s : State) (x : Det) : (State.setDet s x).bindings = s.bindings := rfl
@[simp] theorem State.setDet_audio (s : State) (x : Det) : (State.setDet s x).audio = s.audio := rfl
@[simp] theorem State.setDet_tdm (s : State) (x : Det) : (State.setDet s x).tdm = s.tdm := rfl
@[simp] theorem State.setDet_pipes (s : State) (x : Det) : (State.setDet s x).pipes = s.pipes := rfl
@[simp] theorem State.setDet_recTurn (s : State) (x : Det) : (State.setDet s x).recTurn = s.recTurn := rfl
@[simp] theorem State.setDet_axes (s : State) (x : Det) : (State.setDet s x).axes = s.axes := rfl
@[simp] theorem State.setDet_stations (s : State) (x : Det) : (State.setDet s x).stations = s.stations := rfl
@[simp] theorem State.setDet_lpeLatched (s : State) (x : Det) : (State.setDet s x).lpeLatched = s.lpeLatched := rfl
@[simp] theorem State.setDet_lpeBusy (s : State) (x : Det) : (State.setDet s x).lpeBusy = s.lpeBusy := rfl
@[simp] theorem State.setDet_tb (s : State) (x : Det) : (State.setDet s x).tb = s.tb := rfl
@[simp] theorem State.setDet_eth (s : State) (x : Det) : (State.setDet s x).eth = s.eth := rfl
@[simp] theorem State.setDet_pm (s : State) (x : Det) : (State.setDet s x).pm = s.pm := rfl
@[simp] theorem State.setDet_pdOn (s : State) (x : Det) : (State.setDet s x).pdOn = s.pdOn := rfl
@[simp] theorem State.setDet_pdMoves (s : State) (x : Det) : (State.setDet s x).pdMoves = s.pdMoves := rfl
@[simp] theorem State.setDet_pairs (s : State) (x : Det) : (State.setDet s x).pairs = s.pairs := rfl
@[simp] theorem State.setDet_sph (s : State) (x : Det) : (State.setDet s x).sph = s.sph := rfl
@[simp] theorem State.setDet_mirrors (s : State) (x : Det) : (State.setDet s x).mirrors = s.mirrors := rfl
@[simp] theorem State.setDet_pending (s : State) (x : Det) : (State.setDet s x).pending = s.pending := rfl
@[simp] theorem State.setDet_out (s : State) (x : Det) : (State.setDet s x).out = s.out := rfl
@[simp] theorem State.setDet_fresh (s : State) (x : Det) : (State.setDet s x).fresh = s.fresh := rfl

/-! State.setPd -/
@[simp] theorem State.setPd_sys (s : State) (pd : PdId) (b : Bool) : (State.setPd s pd b).sys = s.sys := rfl
@[simp] theorem State.setPd_counter (s : State) (pd : PdId) (b : Bool) : (State.setPd s pd b).counter = s.counter := rfl
@[simp] theorem State.setPd_trb (s : State) (pd : PdId) (b : Bool) : (State.setPd s pd b).trb = s.trb := rfl
@[simp] theorem State.setPd_ports (s : State) (pd : PdId) (b : Bool) : (State.setPd s pd b).ports = s.ports := rfl
@[simp] theorem State.setPd_reqs (s : State) (pd : PdId) (b : Bool) : (State.setPd s pd b).reqs = s.reqs := rfl
@[simp] theorem State.setPd_sems (s : State) (pd : PdId) (b : Bool) : (State.setPd s pd b).sems = s.sems := rfl
@[simp] theorem State.setPd_errs (s : State) (pd : PdId) (b : Bool) : (State.setPd s pd b).errs = s.errs := rfl
@[simp] theorem State.setPd_setNow (s : State) (pd : PdId) (b : Bool) : (State.setPd s pd b).setNow = s.setNow := rfl
@[simp] theorem State.setPd_v1Raised (s : State) (pd : PdId) (b : Bool) : (State.setPd s pd b).v1Raised = s.v1Raised := rfl
@[simp] theorem State.setPd_cnts (s : State) (pd : PdId) (b : Bool) : (State.setPd s pd b).cnts = s.cnts := rfl
@[simp] theorem State.setPd_parts (s : State) (pd : PdId) (b : Bool) : (State.setPd s pd b).parts = s.parts := rfl
@[simp] theorem State.setPd_cmds (s : State) (pd : PdId) (b : Bool) : (State.setPd s pd b).cmds = s.cmds := rfl
@[simp] theorem State.setPd_admitNext (s : State) (pd : PdId) (b : Bool) : (State.setPd s pd b).admitNext = s.admitNext := rfl
@[simp] theorem State.setPd_issuedNow (s : State) (pd : PdId) (b : Bool) : (State.setPd s pd b).issuedNow = s.issuedNow := rfl
@[simp] theorem State.setPd_issueNext (s : State) (pd : PdId) (b : Bool) : (State.setPd s pd b).issueNext = s.issueNext := rfl
@[simp] theorem State.setPd_keys (s : State) (pd : PdId) (b : Bool) : (State.setPd s pd b).keys = s.keys := rfl
@[simp] theorem State.setPd_ops (s : State) (pd : PdId) (b : Bool) : (State.setPd s pd b).ops = s.ops := rfl
@[simp] theorem State.setPd_opNext (s : State) (pd : PdId) (b : Bool) : (State.setPd s pd b).opNext = s.opNext := rfl
@[simp] theorem State.setPd_scHalt (s : State) (pd : PdId) (b : Bool) : (State.setPd s pd b).scHalt = s.scHalt := rfl
@[simp] theorem State.setPd_halted (s : State) (pd : PdId) (b : Bool) : (State.setPd s pd b).halted = s.halted := rfl
@[simp] theorem State.setPd_mem (s : State) (pd : PdId) (b : Bool) : (State.setPd s pd b).mem = s.mem := rfl
@[simp] theorem State.setPd_undef (s : State) (pd : PdId) (b : Bool) : (State.setPd s pd b).undef = s.undef := rfl
@[simp] theorem State.setPd_poison (s : State) (pd : PdId) (b : Bool) : (State.setPd s pd b).poison = s.poison := rfl
@[simp] theorem State.setPd_ecc (s : State) (pd : PdId) (b : Bool) : (State.setPd s pd b).ecc = s.ecc := rfl
@[simp] theorem State.setPd_hw (s : State) (pd : PdId) (b : Bool) : (State.setPd s pd b).hw = s.hw := rfl
@[simp] theorem State.setPd_pools (s : State) (pd : PdId) (b : Bool) : (State.setPd s pd b).pools = s.pools := rfl
@[simp] theorem State.setPd_hostMem (s : State) (pd : PdId) (b : Bool) : (State.setPd s pd b).hostMem = s.hostMem := rfl
@[simp] theorem State.setPd_hostErr (s : State) (pd : PdId) (b : Bool) : (State.setPd s pd b).hostErr = s.hostErr := rfl
@[simp] theorem State.setPd_cisPoison (s : State) (pd : PdId) (b : Bool) : (State.setPd s pd b).cisPoison = s.cisPoison := rfl
@[simp] theorem State.setPd_bar2Reads (s : State) (pd : PdId) (b : Bool) : (State.setPd s pd b).bar2Reads = s.bar2Reads := rfl
@[simp] theorem State.setPd_ecs (s : State) (pd : PdId) (b : Bool) : (State.setPd s pd b).ecs = s.ecs := rfl
@[simp] theorem State.setPd_fence (s : State) (pd : PdId) (b : Bool) : (State.setPd s pd b).fence = s.fence := rfl
@[simp] theorem State.setPd_regions (s : State) (pd : PdId) (b : Bool) : (State.setPd s pd b).regions = s.regions := rfl
@[simp] theorem State.setPd_windows (s : State) (pd : PdId) (b : Bool) : (State.setPd s pd b).windows = s.windows := rfl
@[simp] theorem State.setPd_streams (s : State) (pd : PdId) (b : Bool) : (State.setPd s pd b).streams = s.streams := rfl
@[simp] theorem State.setPd_groups (s : State) (pd : PdId) (b : Bool) : (State.setPd s pd b).groups = s.groups := rfl
@[simp] theorem State.setPd_strPeek (s : State) (pd : PdId) (b : Bool) : (State.setPd s pd b).strPeek = s.strPeek := rfl
@[simp] theorem State.setPd_heaps (s : State) (pd : PdId) (b : Bool) : (State.setPd s pd b).heaps = s.heaps := rfl
@[simp] theorem State.setPd_seqs (s : State) (pd : PdId) (b : Bool) : (State.setPd s pd b).seqs = s.seqs := rfl
@[simp] theorem State.setPd_spills (s : State) (pd : PdId) (b : Bool) : (State.setPd s pd b).spills = s.spills := rfl
@[simp] theorem State.setPd_returns (s : State) (pd : PdId) (b : Bool) : (State.setPd s pd b).returns = s.returns := rfl
@[simp] theorem State.setPd_det (s : State) (pd : PdId) (b : Bool) : (State.setPd s pd b).det = s.det := rfl
@[simp] theorem State.setPd_cams (s : State) (pd : PdId) (b : Bool) : (State.setPd s pd b).cams = s.cams := rfl
@[simp] theorem State.setPd_audTable (s : State) (pd : PdId) (b : Bool) : (State.setPd s pd b).audTable = s.audTable := rfl
@[simp] theorem State.setPd_audFir (s : State) (pd : PdId) (b : Bool) : (State.setPd s pd b).audFir = s.audFir := rfl
@[simp] theorem State.setPd_fir (s : State) (pd : PdId) (b : Bool) : (State.setPd s pd b).fir = s.fir := rfl
@[simp] theorem State.setPd_bindings (s : State) (pd : PdId) (b : Bool) : (State.setPd s pd b).bindings = s.bindings := rfl
@[simp] theorem State.setPd_audio (s : State) (pd : PdId) (b : Bool) : (State.setPd s pd b).audio = s.audio := rfl
@[simp] theorem State.setPd_tdm (s : State) (pd : PdId) (b : Bool) : (State.setPd s pd b).tdm = s.tdm := rfl
@[simp] theorem State.setPd_pipes (s : State) (pd : PdId) (b : Bool) : (State.setPd s pd b).pipes = s.pipes := rfl
@[simp] theorem State.setPd_recTurn (s : State) (pd : PdId) (b : Bool) : (State.setPd s pd b).recTurn = s.recTurn := rfl
@[simp] theorem State.setPd_axes (s : State) (pd : PdId) (b : Bool) : (State.setPd s pd b).axes = s.axes := rfl
@[simp] theorem State.setPd_stations (s : State) (pd : PdId) (b : Bool) : (State.setPd s pd b).stations = s.stations := rfl
@[simp] theorem State.setPd_lpeLatched (s : State) (pd : PdId) (b : Bool) : (State.setPd s pd b).lpeLatched = s.lpeLatched := rfl
@[simp] theorem State.setPd_lpeBusy (s : State) (pd : PdId) (b : Bool) : (State.setPd s pd b).lpeBusy = s.lpeBusy := rfl
@[simp] theorem State.setPd_tb (s : State) (pd : PdId) (b : Bool) : (State.setPd s pd b).tb = s.tb := rfl
@[simp] theorem State.setPd_eth (s : State) (pd : PdId) (b : Bool) : (State.setPd s pd b).eth = s.eth := rfl
@[simp] theorem State.setPd_pm (s : State) (pd : PdId) (b : Bool) : (State.setPd s pd b).pm = s.pm := rfl
@[simp] theorem State.setPd_pdMoves (s : State) (pd : PdId) (b : Bool) : (State.setPd s pd b).pdMoves = s.pdMoves := rfl
@[simp] theorem State.setPd_pairs (s : State) (pd : PdId) (b : Bool) : (State.setPd s pd b).pairs = s.pairs := rfl
@[simp] theorem State.setPd_sph (s : State) (pd : PdId) (b : Bool) : (State.setPd s pd b).sph = s.sph := rfl
@[simp] theorem State.setPd_mirrors (s : State) (pd : PdId) (b : Bool) : (State.setPd s pd b).mirrors = s.mirrors := rfl
@[simp] theorem State.setPd_pending (s : State) (pd : PdId) (b : Bool) : (State.setPd s pd b).pending = s.pending := rfl
@[simp] theorem State.setPd_out (s : State) (pd : PdId) (b : Bool) : (State.setPd s pd b).out = s.out := rfl
@[simp] theorem State.setPd_fresh (s : State) (pd : PdId) (b : Bool) : (State.setPd s pd b).fresh = s.fresh := rfl

/-! State.setStream -/
@[simp] theorem State.setStream_sys (s : State) (x : Stream) : (State.setStream s x).sys = s.sys := rfl
@[simp] theorem State.setStream_counter (s : State) (x : Stream) : (State.setStream s x).counter = s.counter := rfl
@[simp] theorem State.setStream_trb (s : State) (x : Stream) : (State.setStream s x).trb = s.trb := rfl
@[simp] theorem State.setStream_ports (s : State) (x : Stream) : (State.setStream s x).ports = s.ports := rfl
@[simp] theorem State.setStream_reqs (s : State) (x : Stream) : (State.setStream s x).reqs = s.reqs := rfl
@[simp] theorem State.setStream_sems (s : State) (x : Stream) : (State.setStream s x).sems = s.sems := rfl
@[simp] theorem State.setStream_errs (s : State) (x : Stream) : (State.setStream s x).errs = s.errs := rfl
@[simp] theorem State.setStream_setNow (s : State) (x : Stream) : (State.setStream s x).setNow = s.setNow := rfl
@[simp] theorem State.setStream_v1Raised (s : State) (x : Stream) : (State.setStream s x).v1Raised = s.v1Raised := rfl
@[simp] theorem State.setStream_cnts (s : State) (x : Stream) : (State.setStream s x).cnts = s.cnts := rfl
@[simp] theorem State.setStream_parts (s : State) (x : Stream) : (State.setStream s x).parts = s.parts := rfl
@[simp] theorem State.setStream_cmds (s : State) (x : Stream) : (State.setStream s x).cmds = s.cmds := rfl
@[simp] theorem State.setStream_admitNext (s : State) (x : Stream) : (State.setStream s x).admitNext = s.admitNext := rfl
@[simp] theorem State.setStream_issuedNow (s : State) (x : Stream) : (State.setStream s x).issuedNow = s.issuedNow := rfl
@[simp] theorem State.setStream_issueNext (s : State) (x : Stream) : (State.setStream s x).issueNext = s.issueNext := rfl
@[simp] theorem State.setStream_keys (s : State) (x : Stream) : (State.setStream s x).keys = s.keys := rfl
@[simp] theorem State.setStream_ops (s : State) (x : Stream) : (State.setStream s x).ops = s.ops := rfl
@[simp] theorem State.setStream_opNext (s : State) (x : Stream) : (State.setStream s x).opNext = s.opNext := rfl
@[simp] theorem State.setStream_scHalt (s : State) (x : Stream) : (State.setStream s x).scHalt = s.scHalt := rfl
@[simp] theorem State.setStream_halted (s : State) (x : Stream) : (State.setStream s x).halted = s.halted := rfl
@[simp] theorem State.setStream_mem (s : State) (x : Stream) : (State.setStream s x).mem = s.mem := rfl
@[simp] theorem State.setStream_undef (s : State) (x : Stream) : (State.setStream s x).undef = s.undef := rfl
@[simp] theorem State.setStream_poison (s : State) (x : Stream) : (State.setStream s x).poison = s.poison := rfl
@[simp] theorem State.setStream_ecc (s : State) (x : Stream) : (State.setStream s x).ecc = s.ecc := rfl
@[simp] theorem State.setStream_hw (s : State) (x : Stream) : (State.setStream s x).hw = s.hw := rfl
@[simp] theorem State.setStream_pools (s : State) (x : Stream) : (State.setStream s x).pools = s.pools := rfl
@[simp] theorem State.setStream_hostMem (s : State) (x : Stream) : (State.setStream s x).hostMem = s.hostMem := rfl
@[simp] theorem State.setStream_hostErr (s : State) (x : Stream) : (State.setStream s x).hostErr = s.hostErr := rfl
@[simp] theorem State.setStream_cisPoison (s : State) (x : Stream) : (State.setStream s x).cisPoison = s.cisPoison := rfl
@[simp] theorem State.setStream_bar2Reads (s : State) (x : Stream) : (State.setStream s x).bar2Reads = s.bar2Reads := rfl
@[simp] theorem State.setStream_ecs (s : State) (x : Stream) : (State.setStream s x).ecs = s.ecs := rfl
@[simp] theorem State.setStream_fence (s : State) (x : Stream) : (State.setStream s x).fence = s.fence := rfl
@[simp] theorem State.setStream_regions (s : State) (x : Stream) : (State.setStream s x).regions = s.regions := rfl
@[simp] theorem State.setStream_windows (s : State) (x : Stream) : (State.setStream s x).windows = s.windows := rfl
@[simp] theorem State.setStream_groups (s : State) (x : Stream) : (State.setStream s x).groups = s.groups := rfl
@[simp] theorem State.setStream_strPeek (s : State) (x : Stream) : (State.setStream s x).strPeek = s.strPeek := rfl
@[simp] theorem State.setStream_heaps (s : State) (x : Stream) : (State.setStream s x).heaps = s.heaps := rfl
@[simp] theorem State.setStream_seqs (s : State) (x : Stream) : (State.setStream s x).seqs = s.seqs := rfl
@[simp] theorem State.setStream_spills (s : State) (x : Stream) : (State.setStream s x).spills = s.spills := rfl
@[simp] theorem State.setStream_returns (s : State) (x : Stream) : (State.setStream s x).returns = s.returns := rfl
@[simp] theorem State.setStream_det (s : State) (x : Stream) : (State.setStream s x).det = s.det := rfl
@[simp] theorem State.setStream_cams (s : State) (x : Stream) : (State.setStream s x).cams = s.cams := rfl
@[simp] theorem State.setStream_audTable (s : State) (x : Stream) : (State.setStream s x).audTable = s.audTable := rfl
@[simp] theorem State.setStream_audFir (s : State) (x : Stream) : (State.setStream s x).audFir = s.audFir := rfl
@[simp] theorem State.setStream_fir (s : State) (x : Stream) : (State.setStream s x).fir = s.fir := rfl
@[simp] theorem State.setStream_bindings (s : State) (x : Stream) : (State.setStream s x).bindings = s.bindings := rfl
@[simp] theorem State.setStream_audio (s : State) (x : Stream) : (State.setStream s x).audio = s.audio := rfl
@[simp] theorem State.setStream_tdm (s : State) (x : Stream) : (State.setStream s x).tdm = s.tdm := rfl
@[simp] theorem State.setStream_pipes (s : State) (x : Stream) : (State.setStream s x).pipes = s.pipes := rfl
@[simp] theorem State.setStream_recTurn (s : State) (x : Stream) : (State.setStream s x).recTurn = s.recTurn := rfl
@[simp] theorem State.setStream_axes (s : State) (x : Stream) : (State.setStream s x).axes = s.axes := rfl
@[simp] theorem State.setStream_stations (s : State) (x : Stream) : (State.setStream s x).stations = s.stations := rfl
@[simp] theorem State.setStream_lpeLatched (s : State) (x : Stream) : (State.setStream s x).lpeLatched = s.lpeLatched := rfl
@[simp] theorem State.setStream_lpeBusy (s : State) (x : Stream) : (State.setStream s x).lpeBusy = s.lpeBusy := rfl
@[simp] theorem State.setStream_tb (s : State) (x : Stream) : (State.setStream s x).tb = s.tb := rfl
@[simp] theorem State.setStream_eth (s : State) (x : Stream) : (State.setStream s x).eth = s.eth := rfl
@[simp] theorem State.setStream_pm (s : State) (x : Stream) : (State.setStream s x).pm = s.pm := rfl
@[simp] theorem State.setStream_pdOn (s : State) (x : Stream) : (State.setStream s x).pdOn = s.pdOn := rfl
@[simp] theorem State.setStream_pdMoves (s : State) (x : Stream) : (State.setStream s x).pdMoves = s.pdMoves := rfl
@[simp] theorem State.setStream_pairs (s : State) (x : Stream) : (State.setStream s x).pairs = s.pairs := rfl
@[simp] theorem State.setStream_sph (s : State) (x : Stream) : (State.setStream s x).sph = s.sph := rfl
@[simp] theorem State.setStream_mirrors (s : State) (x : Stream) : (State.setStream s x).mirrors = s.mirrors := rfl
@[simp] theorem State.setStream_pending (s : State) (x : Stream) : (State.setStream s x).pending = s.pending := rfl
@[simp] theorem State.setStream_out (s : State) (x : Stream) : (State.setStream s x).out = s.out := rfl
@[simp] theorem State.setStream_fresh (s : State) (x : Stream) : (State.setStream s x).fresh = s.fresh := rfl

/-! State.setQueue -/
@[simp] theorem State.setQueue_sys (s : State) (p : PartId) (q : QueId) (x : Queue) : (State.setQueue s p q x).sys = s.sys := rfl
@[simp] theorem State.setQueue_counter (s : State) (p : PartId) (q : QueId) (x : Queue) : (State.setQueue s p q x).counter = s.counter := rfl
@[simp] theorem State.setQueue_trb (s : State) (p : PartId) (q : QueId) (x : Queue) : (State.setQueue s p q x).trb = s.trb := rfl
@[simp] theorem State.setQueue_ports (s : State) (p : PartId) (q : QueId) (x : Queue) : (State.setQueue s p q x).ports = s.ports := rfl
@[simp] theorem State.setQueue_reqs (s : State) (p : PartId) (q : QueId) (x : Queue) : (State.setQueue s p q x).reqs = s.reqs := rfl
@[simp] theorem State.setQueue_sems (s : State) (p : PartId) (q : QueId) (x : Queue) : (State.setQueue s p q x).sems = s.sems := rfl
@[simp] theorem State.setQueue_errs (s : State) (p : PartId) (q : QueId) (x : Queue) : (State.setQueue s p q x).errs = s.errs := rfl
@[simp] theorem State.setQueue_setNow (s : State) (p : PartId) (q : QueId) (x : Queue) : (State.setQueue s p q x).setNow = s.setNow := rfl
@[simp] theorem State.setQueue_v1Raised (s : State) (p : PartId) (q : QueId) (x : Queue) : (State.setQueue s p q x).v1Raised = s.v1Raised := rfl
@[simp] theorem State.setQueue_cnts (s : State) (p : PartId) (q : QueId) (x : Queue) : (State.setQueue s p q x).cnts = s.cnts := rfl
@[simp] theorem State.setQueue_cmds (s : State) (p : PartId) (q : QueId) (x : Queue) : (State.setQueue s p q x).cmds = s.cmds := rfl
@[simp] theorem State.setQueue_admitNext (s : State) (p : PartId) (q : QueId) (x : Queue) : (State.setQueue s p q x).admitNext = s.admitNext := rfl
@[simp] theorem State.setQueue_issuedNow (s : State) (p : PartId) (q : QueId) (x : Queue) : (State.setQueue s p q x).issuedNow = s.issuedNow := rfl
@[simp] theorem State.setQueue_issueNext (s : State) (p : PartId) (q : QueId) (x : Queue) : (State.setQueue s p q x).issueNext = s.issueNext := rfl
@[simp] theorem State.setQueue_keys (s : State) (p : PartId) (q : QueId) (x : Queue) : (State.setQueue s p q x).keys = s.keys := rfl
@[simp] theorem State.setQueue_ops (s : State) (p : PartId) (q : QueId) (x : Queue) : (State.setQueue s p q x).ops = s.ops := rfl
@[simp] theorem State.setQueue_opNext (s : State) (p : PartId) (q : QueId) (x : Queue) : (State.setQueue s p q x).opNext = s.opNext := rfl
@[simp] theorem State.setQueue_scHalt (s : State) (p : PartId) (q : QueId) (x : Queue) : (State.setQueue s p q x).scHalt = s.scHalt := rfl
@[simp] theorem State.setQueue_halted (s : State) (p : PartId) (q : QueId) (x : Queue) : (State.setQueue s p q x).halted = s.halted := rfl
@[simp] theorem State.setQueue_mem (s : State) (p : PartId) (q : QueId) (x : Queue) : (State.setQueue s p q x).mem = s.mem := rfl
@[simp] theorem State.setQueue_undef (s : State) (p : PartId) (q : QueId) (x : Queue) : (State.setQueue s p q x).undef = s.undef := rfl
@[simp] theorem State.setQueue_poison (s : State) (p : PartId) (q : QueId) (x : Queue) : (State.setQueue s p q x).poison = s.poison := rfl
@[simp] theorem State.setQueue_ecc (s : State) (p : PartId) (q : QueId) (x : Queue) : (State.setQueue s p q x).ecc = s.ecc := rfl
@[simp] theorem State.setQueue_hw (s : State) (p : PartId) (q : QueId) (x : Queue) : (State.setQueue s p q x).hw = s.hw := rfl
@[simp] theorem State.setQueue_pools (s : State) (p : PartId) (q : QueId) (x : Queue) : (State.setQueue s p q x).pools = s.pools := rfl
@[simp] theorem State.setQueue_hostMem (s : State) (p : PartId) (q : QueId) (x : Queue) : (State.setQueue s p q x).hostMem = s.hostMem := rfl
@[simp] theorem State.setQueue_hostErr (s : State) (p : PartId) (q : QueId) (x : Queue) : (State.setQueue s p q x).hostErr = s.hostErr := rfl
@[simp] theorem State.setQueue_cisPoison (s : State) (p : PartId) (q : QueId) (x : Queue) : (State.setQueue s p q x).cisPoison = s.cisPoison := rfl
@[simp] theorem State.setQueue_bar2Reads (s : State) (p : PartId) (q : QueId) (x : Queue) : (State.setQueue s p q x).bar2Reads = s.bar2Reads := rfl
@[simp] theorem State.setQueue_ecs (s : State) (p : PartId) (q : QueId) (x : Queue) : (State.setQueue s p q x).ecs = s.ecs := rfl
@[simp] theorem State.setQueue_fence (s : State) (p : PartId) (q : QueId) (x : Queue) : (State.setQueue s p q x).fence = s.fence := rfl
@[simp] theorem State.setQueue_regions (s : State) (p : PartId) (q : QueId) (x : Queue) : (State.setQueue s p q x).regions = s.regions := rfl
@[simp] theorem State.setQueue_windows (s : State) (p : PartId) (q : QueId) (x : Queue) : (State.setQueue s p q x).windows = s.windows := rfl
@[simp] theorem State.setQueue_streams (s : State) (p : PartId) (q : QueId) (x : Queue) : (State.setQueue s p q x).streams = s.streams := rfl
@[simp] theorem State.setQueue_groups (s : State) (p : PartId) (q : QueId) (x : Queue) : (State.setQueue s p q x).groups = s.groups := rfl
@[simp] theorem State.setQueue_strPeek (s : State) (p : PartId) (q : QueId) (x : Queue) : (State.setQueue s p q x).strPeek = s.strPeek := rfl
@[simp] theorem State.setQueue_heaps (s : State) (p : PartId) (q : QueId) (x : Queue) : (State.setQueue s p q x).heaps = s.heaps := rfl
@[simp] theorem State.setQueue_seqs (s : State) (p : PartId) (q : QueId) (x : Queue) : (State.setQueue s p q x).seqs = s.seqs := rfl
@[simp] theorem State.setQueue_spills (s : State) (p : PartId) (q : QueId) (x : Queue) : (State.setQueue s p q x).spills = s.spills := rfl
@[simp] theorem State.setQueue_returns (s : State) (p : PartId) (q : QueId) (x : Queue) : (State.setQueue s p q x).returns = s.returns := rfl
@[simp] theorem State.setQueue_det (s : State) (p : PartId) (q : QueId) (x : Queue) : (State.setQueue s p q x).det = s.det := rfl
@[simp] theorem State.setQueue_cams (s : State) (p : PartId) (q : QueId) (x : Queue) : (State.setQueue s p q x).cams = s.cams := rfl
@[simp] theorem State.setQueue_audTable (s : State) (p : PartId) (q : QueId) (x : Queue) : (State.setQueue s p q x).audTable = s.audTable := rfl
@[simp] theorem State.setQueue_audFir (s : State) (p : PartId) (q : QueId) (x : Queue) : (State.setQueue s p q x).audFir = s.audFir := rfl
@[simp] theorem State.setQueue_fir (s : State) (p : PartId) (q : QueId) (x : Queue) : (State.setQueue s p q x).fir = s.fir := rfl
@[simp] theorem State.setQueue_bindings (s : State) (p : PartId) (q : QueId) (x : Queue) : (State.setQueue s p q x).bindings = s.bindings := rfl
@[simp] theorem State.setQueue_audio (s : State) (p : PartId) (q : QueId) (x : Queue) : (State.setQueue s p q x).audio = s.audio := rfl
@[simp] theorem State.setQueue_tdm (s : State) (p : PartId) (q : QueId) (x : Queue) : (State.setQueue s p q x).tdm = s.tdm := rfl
@[simp] theorem State.setQueue_pipes (s : State) (p : PartId) (q : QueId) (x : Queue) : (State.setQueue s p q x).pipes = s.pipes := rfl
@[simp] theorem State.setQueue_recTurn (s : State) (p : PartId) (q : QueId) (x : Queue) : (State.setQueue s p q x).recTurn = s.recTurn := rfl
@[simp] theorem State.setQueue_axes (s : State) (p : PartId) (q : QueId) (x : Queue) : (State.setQueue s p q x).axes = s.axes := rfl
@[simp] theorem State.setQueue_stations (s : State) (p : PartId) (q : QueId) (x : Queue) : (State.setQueue s p q x).stations = s.stations := rfl
@[simp] theorem State.setQueue_lpeLatched (s : State) (p : PartId) (q : QueId) (x : Queue) : (State.setQueue s p q x).lpeLatched = s.lpeLatched := rfl
@[simp] theorem State.setQueue_lpeBusy (s : State) (p : PartId) (q : QueId) (x : Queue) : (State.setQueue s p q x).lpeBusy = s.lpeBusy := rfl
@[simp] theorem State.setQueue_tb (s : State) (p : PartId) (q : QueId) (x : Queue) : (State.setQueue s p q x).tb = s.tb := rfl
@[simp] theorem State.setQueue_eth (s : State) (p : PartId) (q : QueId) (x : Queue) : (State.setQueue s p q x).eth = s.eth := rfl
@[simp] theorem State.setQueue_pm (s : State) (p : PartId) (q : QueId) (x : Queue) : (State.setQueue s p q x).pm = s.pm := rfl
@[simp] theorem State.setQueue_pdOn (s : State) (p : PartId) (q : QueId) (x : Queue) : (State.setQueue s p q x).pdOn = s.pdOn := rfl
@[simp] theorem State.setQueue_pdMoves (s : State) (p : PartId) (q : QueId) (x : Queue) : (State.setQueue s p q x).pdMoves = s.pdMoves := rfl
@[simp] theorem State.setQueue_pairs (s : State) (p : PartId) (q : QueId) (x : Queue) : (State.setQueue s p q x).pairs = s.pairs := rfl
@[simp] theorem State.setQueue_sph (s : State) (p : PartId) (q : QueId) (x : Queue) : (State.setQueue s p q x).sph = s.sph := rfl
@[simp] theorem State.setQueue_mirrors (s : State) (p : PartId) (q : QueId) (x : Queue) : (State.setQueue s p q x).mirrors = s.mirrors := rfl
@[simp] theorem State.setQueue_pending (s : State) (p : PartId) (q : QueId) (x : Queue) : (State.setQueue s p q x).pending = s.pending := rfl
@[simp] theorem State.setQueue_out (s : State) (p : PartId) (q : QueId) (x : Queue) : (State.setQueue s p q x).out = s.out := rfl
@[simp] theorem State.setQueue_fresh (s : State) (p : PartId) (q : QueId) (x : Queue) : (State.setQueue s p q x).fresh = s.fresh := rfl

/-! State.putCmd -/
@[simp] theorem State.putCmd_sys (s : State) (c : Cmd) : (State.putCmd s c).sys = s.sys := rfl
@[simp] theorem State.putCmd_counter (s : State) (c : Cmd) : (State.putCmd s c).counter = s.counter := rfl
@[simp] theorem State.putCmd_trb (s : State) (c : Cmd) : (State.putCmd s c).trb = s.trb := rfl
@[simp] theorem State.putCmd_ports (s : State) (c : Cmd) : (State.putCmd s c).ports = s.ports := rfl
@[simp] theorem State.putCmd_reqs (s : State) (c : Cmd) : (State.putCmd s c).reqs = s.reqs := rfl
@[simp] theorem State.putCmd_sems (s : State) (c : Cmd) : (State.putCmd s c).sems = s.sems := rfl
@[simp] theorem State.putCmd_errs (s : State) (c : Cmd) : (State.putCmd s c).errs = s.errs := rfl
@[simp] theorem State.putCmd_setNow (s : State) (c : Cmd) : (State.putCmd s c).setNow = s.setNow := rfl
@[simp] theorem State.putCmd_v1Raised (s : State) (c : Cmd) : (State.putCmd s c).v1Raised = s.v1Raised := rfl
@[simp] theorem State.putCmd_cnts (s : State) (c : Cmd) : (State.putCmd s c).cnts = s.cnts := rfl
@[simp] theorem State.putCmd_parts (s : State) (c : Cmd) : (State.putCmd s c).parts = s.parts := rfl
@[simp] theorem State.putCmd_admitNext (s : State) (c : Cmd) : (State.putCmd s c).admitNext = s.admitNext := rfl
@[simp] theorem State.putCmd_issuedNow (s : State) (c : Cmd) : (State.putCmd s c).issuedNow = s.issuedNow := rfl
@[simp] theorem State.putCmd_issueNext (s : State) (c : Cmd) : (State.putCmd s c).issueNext = s.issueNext := rfl
@[simp] theorem State.putCmd_keys (s : State) (c : Cmd) : (State.putCmd s c).keys = s.keys := rfl
@[simp] theorem State.putCmd_ops (s : State) (c : Cmd) : (State.putCmd s c).ops = s.ops := rfl
@[simp] theorem State.putCmd_opNext (s : State) (c : Cmd) : (State.putCmd s c).opNext = s.opNext := rfl
@[simp] theorem State.putCmd_scHalt (s : State) (c : Cmd) : (State.putCmd s c).scHalt = s.scHalt := rfl
@[simp] theorem State.putCmd_halted (s : State) (c : Cmd) : (State.putCmd s c).halted = s.halted := rfl
@[simp] theorem State.putCmd_mem (s : State) (c : Cmd) : (State.putCmd s c).mem = s.mem := rfl
@[simp] theorem State.putCmd_undef (s : State) (c : Cmd) : (State.putCmd s c).undef = s.undef := rfl
@[simp] theorem State.putCmd_poison (s : State) (c : Cmd) : (State.putCmd s c).poison = s.poison := rfl
@[simp] theorem State.putCmd_ecc (s : State) (c : Cmd) : (State.putCmd s c).ecc = s.ecc := rfl
@[simp] theorem State.putCmd_hw (s : State) (c : Cmd) : (State.putCmd s c).hw = s.hw := rfl
@[simp] theorem State.putCmd_pools (s : State) (c : Cmd) : (State.putCmd s c).pools = s.pools := rfl
@[simp] theorem State.putCmd_hostMem (s : State) (c : Cmd) : (State.putCmd s c).hostMem = s.hostMem := rfl
@[simp] theorem State.putCmd_hostErr (s : State) (c : Cmd) : (State.putCmd s c).hostErr = s.hostErr := rfl
@[simp] theorem State.putCmd_cisPoison (s : State) (c : Cmd) : (State.putCmd s c).cisPoison = s.cisPoison := rfl
@[simp] theorem State.putCmd_bar2Reads (s : State) (c : Cmd) : (State.putCmd s c).bar2Reads = s.bar2Reads := rfl
@[simp] theorem State.putCmd_ecs (s : State) (c : Cmd) : (State.putCmd s c).ecs = s.ecs := rfl
@[simp] theorem State.putCmd_fence (s : State) (c : Cmd) : (State.putCmd s c).fence = s.fence := rfl
@[simp] theorem State.putCmd_regions (s : State) (c : Cmd) : (State.putCmd s c).regions = s.regions := rfl
@[simp] theorem State.putCmd_windows (s : State) (c : Cmd) : (State.putCmd s c).windows = s.windows := rfl
@[simp] theorem State.putCmd_streams (s : State) (c : Cmd) : (State.putCmd s c).streams = s.streams := rfl
@[simp] theorem State.putCmd_groups (s : State) (c : Cmd) : (State.putCmd s c).groups = s.groups := rfl
@[simp] theorem State.putCmd_strPeek (s : State) (c : Cmd) : (State.putCmd s c).strPeek = s.strPeek := rfl
@[simp] theorem State.putCmd_heaps (s : State) (c : Cmd) : (State.putCmd s c).heaps = s.heaps := rfl
@[simp] theorem State.putCmd_seqs (s : State) (c : Cmd) : (State.putCmd s c).seqs = s.seqs := rfl
@[simp] theorem State.putCmd_spills (s : State) (c : Cmd) : (State.putCmd s c).spills = s.spills := rfl
@[simp] theorem State.putCmd_returns (s : State) (c : Cmd) : (State.putCmd s c).returns = s.returns := rfl
@[simp] theorem State.putCmd_det (s : State) (c : Cmd) : (State.putCmd s c).det = s.det := rfl
@[simp] theorem State.putCmd_cams (s : State) (c : Cmd) : (State.putCmd s c).cams = s.cams := rfl
@[simp] theorem State.putCmd_audTable (s : State) (c : Cmd) : (State.putCmd s c).audTable = s.audTable := rfl
@[simp] theorem State.putCmd_audFir (s : State) (c : Cmd) : (State.putCmd s c).audFir = s.audFir := rfl
@[simp] theorem State.putCmd_fir (s : State) (c : Cmd) : (State.putCmd s c).fir = s.fir := rfl
@[simp] theorem State.putCmd_bindings (s : State) (c : Cmd) : (State.putCmd s c).bindings = s.bindings := rfl
@[simp] theorem State.putCmd_audio (s : State) (c : Cmd) : (State.putCmd s c).audio = s.audio := rfl
@[simp] theorem State.putCmd_tdm (s : State) (c : Cmd) : (State.putCmd s c).tdm = s.tdm := rfl
@[simp] theorem State.putCmd_pipes (s : State) (c : Cmd) : (State.putCmd s c).pipes = s.pipes := rfl
@[simp] theorem State.putCmd_recTurn (s : State) (c : Cmd) : (State.putCmd s c).recTurn = s.recTurn := rfl
@[simp] theorem State.putCmd_axes (s : State) (c : Cmd) : (State.putCmd s c).axes = s.axes := rfl
@[simp] theorem State.putCmd_stations (s : State) (c : Cmd) : (State.putCmd s c).stations = s.stations := rfl
@[simp] theorem State.putCmd_lpeLatched (s : State) (c : Cmd) : (State.putCmd s c).lpeLatched = s.lpeLatched := rfl
@[simp] theorem State.putCmd_lpeBusy (s : State) (c : Cmd) : (State.putCmd s c).lpeBusy = s.lpeBusy := rfl
@[simp] theorem State.putCmd_tb (s : State) (c : Cmd) : (State.putCmd s c).tb = s.tb := rfl
@[simp] theorem State.putCmd_eth (s : State) (c : Cmd) : (State.putCmd s c).eth = s.eth := rfl
@[simp] theorem State.putCmd_pm (s : State) (c : Cmd) : (State.putCmd s c).pm = s.pm := rfl
@[simp] theorem State.putCmd_pdOn (s : State) (c : Cmd) : (State.putCmd s c).pdOn = s.pdOn := rfl
@[simp] theorem State.putCmd_pdMoves (s : State) (c : Cmd) : (State.putCmd s c).pdMoves = s.pdMoves := rfl
@[simp] theorem State.putCmd_pairs (s : State) (c : Cmd) : (State.putCmd s c).pairs = s.pairs := rfl
@[simp] theorem State.putCmd_sph (s : State) (c : Cmd) : (State.putCmd s c).sph = s.sph := rfl
@[simp] theorem State.putCmd_mirrors (s : State) (c : Cmd) : (State.putCmd s c).mirrors = s.mirrors := rfl
@[simp] theorem State.putCmd_pending (s : State) (c : Cmd) : (State.putCmd s c).pending = s.pending := rfl
@[simp] theorem State.putCmd_out (s : State) (c : Cmd) : (State.putCmd s c).out = s.out := rfl
@[simp] theorem State.putCmd_fresh (s : State) (c : Cmd) : (State.putCmd s c).fresh = s.fresh := rfl

/-! State.dropCmd -/
@[simp] theorem State.dropCmd_sys (s : State) (c : Cmd) : (State.dropCmd s c).sys = s.sys := rfl
@[simp] theorem State.dropCmd_counter (s : State) (c : Cmd) : (State.dropCmd s c).counter = s.counter := rfl
@[simp] theorem State.dropCmd_trb (s : State) (c : Cmd) : (State.dropCmd s c).trb = s.trb := rfl
@[simp] theorem State.dropCmd_ports (s : State) (c : Cmd) : (State.dropCmd s c).ports = s.ports := rfl
@[simp] theorem State.dropCmd_reqs (s : State) (c : Cmd) : (State.dropCmd s c).reqs = s.reqs := rfl
@[simp] theorem State.dropCmd_sems (s : State) (c : Cmd) : (State.dropCmd s c).sems = s.sems := rfl
@[simp] theorem State.dropCmd_errs (s : State) (c : Cmd) : (State.dropCmd s c).errs = s.errs := rfl
@[simp] theorem State.dropCmd_setNow (s : State) (c : Cmd) : (State.dropCmd s c).setNow = s.setNow := rfl
@[simp] theorem State.dropCmd_v1Raised (s : State) (c : Cmd) : (State.dropCmd s c).v1Raised = s.v1Raised := rfl
@[simp] theorem State.dropCmd_cnts (s : State) (c : Cmd) : (State.dropCmd s c).cnts = s.cnts := rfl
@[simp] theorem State.dropCmd_parts (s : State) (c : Cmd) : (State.dropCmd s c).parts = s.parts := rfl
@[simp] theorem State.dropCmd_admitNext (s : State) (c : Cmd) : (State.dropCmd s c).admitNext = s.admitNext := rfl
@[simp] theorem State.dropCmd_issuedNow (s : State) (c : Cmd) : (State.dropCmd s c).issuedNow = s.issuedNow := rfl
@[simp] theorem State.dropCmd_issueNext (s : State) (c : Cmd) : (State.dropCmd s c).issueNext = s.issueNext := rfl
@[simp] theorem State.dropCmd_keys (s : State) (c : Cmd) : (State.dropCmd s c).keys = s.keys := rfl
@[simp] theorem State.dropCmd_ops (s : State) (c : Cmd) : (State.dropCmd s c).ops = s.ops := rfl
@[simp] theorem State.dropCmd_opNext (s : State) (c : Cmd) : (State.dropCmd s c).opNext = s.opNext := rfl
@[simp] theorem State.dropCmd_scHalt (s : State) (c : Cmd) : (State.dropCmd s c).scHalt = s.scHalt := rfl
@[simp] theorem State.dropCmd_halted (s : State) (c : Cmd) : (State.dropCmd s c).halted = s.halted := rfl
@[simp] theorem State.dropCmd_mem (s : State) (c : Cmd) : (State.dropCmd s c).mem = s.mem := rfl
@[simp] theorem State.dropCmd_undef (s : State) (c : Cmd) : (State.dropCmd s c).undef = s.undef := rfl
@[simp] theorem State.dropCmd_poison (s : State) (c : Cmd) : (State.dropCmd s c).poison = s.poison := rfl
@[simp] theorem State.dropCmd_ecc (s : State) (c : Cmd) : (State.dropCmd s c).ecc = s.ecc := rfl
@[simp] theorem State.dropCmd_hw (s : State) (c : Cmd) : (State.dropCmd s c).hw = s.hw := rfl
@[simp] theorem State.dropCmd_pools (s : State) (c : Cmd) : (State.dropCmd s c).pools = s.pools := rfl
@[simp] theorem State.dropCmd_hostMem (s : State) (c : Cmd) : (State.dropCmd s c).hostMem = s.hostMem := rfl
@[simp] theorem State.dropCmd_hostErr (s : State) (c : Cmd) : (State.dropCmd s c).hostErr = s.hostErr := rfl
@[simp] theorem State.dropCmd_cisPoison (s : State) (c : Cmd) : (State.dropCmd s c).cisPoison = s.cisPoison := rfl
@[simp] theorem State.dropCmd_bar2Reads (s : State) (c : Cmd) : (State.dropCmd s c).bar2Reads = s.bar2Reads := rfl
@[simp] theorem State.dropCmd_ecs (s : State) (c : Cmd) : (State.dropCmd s c).ecs = s.ecs := rfl
@[simp] theorem State.dropCmd_fence (s : State) (c : Cmd) : (State.dropCmd s c).fence = s.fence := rfl
@[simp] theorem State.dropCmd_regions (s : State) (c : Cmd) : (State.dropCmd s c).regions = s.regions := rfl
@[simp] theorem State.dropCmd_windows (s : State) (c : Cmd) : (State.dropCmd s c).windows = s.windows := rfl
@[simp] theorem State.dropCmd_streams (s : State) (c : Cmd) : (State.dropCmd s c).streams = s.streams := rfl
@[simp] theorem State.dropCmd_groups (s : State) (c : Cmd) : (State.dropCmd s c).groups = s.groups := rfl
@[simp] theorem State.dropCmd_strPeek (s : State) (c : Cmd) : (State.dropCmd s c).strPeek = s.strPeek := rfl
@[simp] theorem State.dropCmd_heaps (s : State) (c : Cmd) : (State.dropCmd s c).heaps = s.heaps := rfl
@[simp] theorem State.dropCmd_seqs (s : State) (c : Cmd) : (State.dropCmd s c).seqs = s.seqs := rfl
@[simp] theorem State.dropCmd_spills (s : State) (c : Cmd) : (State.dropCmd s c).spills = s.spills := rfl
@[simp] theorem State.dropCmd_returns (s : State) (c : Cmd) : (State.dropCmd s c).returns = s.returns := rfl
@[simp] theorem State.dropCmd_det (s : State) (c : Cmd) : (State.dropCmd s c).det = s.det := rfl
@[simp] theorem State.dropCmd_cams (s : State) (c : Cmd) : (State.dropCmd s c).cams = s.cams := rfl
@[simp] theorem State.dropCmd_audTable (s : State) (c : Cmd) : (State.dropCmd s c).audTable = s.audTable := rfl
@[simp] theorem State.dropCmd_audFir (s : State) (c : Cmd) : (State.dropCmd s c).audFir = s.audFir := rfl
@[simp] theorem State.dropCmd_fir (s : State) (c : Cmd) : (State.dropCmd s c).fir = s.fir := rfl
@[simp] theorem State.dropCmd_bindings (s : State) (c : Cmd) : (State.dropCmd s c).bindings = s.bindings := rfl
@[simp] theorem State.dropCmd_audio (s : State) (c : Cmd) : (State.dropCmd s c).audio = s.audio := rfl
@[simp] theorem State.dropCmd_tdm (s : State) (c : Cmd) : (State.dropCmd s c).tdm = s.tdm := rfl
@[simp] theorem State.dropCmd_pipes (s : State) (c : Cmd) : (State.dropCmd s c).pipes = s.pipes := rfl
@[simp] theorem State.dropCmd_recTurn (s : State) (c : Cmd) : (State.dropCmd s c).recTurn = s.recTurn := rfl
@[simp] theorem State.dropCmd_axes (s : State) (c : Cmd) : (State.dropCmd s c).axes = s.axes := rfl
@[simp] theorem State.dropCmd_stations (s : State) (c : Cmd) : (State.dropCmd s c).stations = s.stations := rfl
@[simp] theorem State.dropCmd_lpeLatched (s : State) (c : Cmd) : (State.dropCmd s c).lpeLatched = s.lpeLatched := rfl
@[simp] theorem State.dropCmd_lpeBusy (s : State) (c : Cmd) : (State.dropCmd s c).lpeBusy = s.lpeBusy := rfl
@[simp] theorem State.dropCmd_tb (s : State) (c : Cmd) : (State.dropCmd s c).tb = s.tb := rfl
@[simp] theorem State.dropCmd_eth (s : State) (c : Cmd) : (State.dropCmd s c).eth = s.eth := rfl
@[simp] theorem State.dropCmd_pm (s : State) (c : Cmd) : (State.dropCmd s c).pm = s.pm := rfl
@[simp] theorem State.dropCmd_pdOn (s : State) (c : Cmd) : (State.dropCmd s c).pdOn = s.pdOn := rfl
@[simp] theorem State.dropCmd_pdMoves (s : State) (c : Cmd) : (State.dropCmd s c).pdMoves = s.pdMoves := rfl
@[simp] theorem State.dropCmd_pairs (s : State) (c : Cmd) : (State.dropCmd s c).pairs = s.pairs := rfl
@[simp] theorem State.dropCmd_sph (s : State) (c : Cmd) : (State.dropCmd s c).sph = s.sph := rfl
@[simp] theorem State.dropCmd_mirrors (s : State) (c : Cmd) : (State.dropCmd s c).mirrors = s.mirrors := rfl
@[simp] theorem State.dropCmd_pending (s : State) (c : Cmd) : (State.dropCmd s c).pending = s.pending := rfl
@[simp] theorem State.dropCmd_out (s : State) (c : Cmd) : (State.dropCmd s c).out = s.out := rfl
@[simp] theorem State.dropCmd_fresh (s : State) (c : Cmd) : (State.dropCmd s c).fresh = s.fresh := rfl

/-! State.flag -/
@[simp] theorem State.flag_sys (s : State) (k : Sticky) (b : Nat) : (State.flag s k b).sys = s.sys := by unfold State.flag; split <;> rfl
@[simp] theorem State.flag_counter (s : State) (k : Sticky) (b : Nat) : (State.flag s k b).counter = s.counter := by unfold State.flag; split <;> rfl
@[simp] theorem State.flag_trb (s : State) (k : Sticky) (b : Nat) : (State.flag s k b).trb = s.trb := by unfold State.flag; split <;> rfl
@[simp] theorem State.flag_ports (s : State) (k : Sticky) (b : Nat) : (State.flag s k b).ports = s.ports := by unfold State.flag; split <;> rfl
@[simp] theorem State.flag_reqs (s : State) (k : Sticky) (b : Nat) : (State.flag s k b).reqs = s.reqs := by unfold State.flag; split <;> rfl
@[simp] theorem State.flag_sems (s : State) (k : Sticky) (b : Nat) : (State.flag s k b).sems = s.sems := by unfold State.flag; split <;> rfl
@[simp] theorem State.flag_v1Raised (s : State) (k : Sticky) (b : Nat) : (State.flag s k b).v1Raised = s.v1Raised := by unfold State.flag; split <;> rfl
@[simp] theorem State.flag_cnts (s : State) (k : Sticky) (b : Nat) : (State.flag s k b).cnts = s.cnts := by unfold State.flag; split <;> rfl
@[simp] theorem State.flag_parts (s : State) (k : Sticky) (b : Nat) : (State.flag s k b).parts = s.parts := by unfold State.flag; split <;> rfl
@[simp] theorem State.flag_cmds (s : State) (k : Sticky) (b : Nat) : (State.flag s k b).cmds = s.cmds := by unfold State.flag; split <;> rfl
@[simp] theorem State.flag_admitNext (s : State) (k : Sticky) (b : Nat) : (State.flag s k b).admitNext = s.admitNext := by unfold State.flag; split <;> rfl
@[simp] theorem State.flag_issuedNow (s : State) (k : Sticky) (b : Nat) : (State.flag s k b).issuedNow = s.issuedNow := by unfold State.flag; split <;> rfl
@[simp] theorem State.flag_issueNext (s : State) (k : Sticky) (b : Nat) : (State.flag s k b).issueNext = s.issueNext := by unfold State.flag; split <;> rfl
@[simp] theorem State.flag_keys (s : State) (k : Sticky) (b : Nat) : (State.flag s k b).keys = s.keys := by unfold State.flag; split <;> rfl
@[simp] theorem State.flag_ops (s : State) (k : Sticky) (b : Nat) : (State.flag s k b).ops = s.ops := by unfold State.flag; split <;> rfl
@[simp] theorem State.flag_opNext (s : State) (k : Sticky) (b : Nat) : (State.flag s k b).opNext = s.opNext := by unfold State.flag; split <;> rfl
@[simp] theorem State.flag_scHalt (s : State) (k : Sticky) (b : Nat) : (State.flag s k b).scHalt = s.scHalt := by unfold State.flag; split <;> rfl
@[simp] theorem State.flag_halted (s : State) (k : Sticky) (b : Nat) : (State.flag s k b).halted = s.halted := by unfold State.flag; split <;> rfl
@[simp] theorem State.flag_mem (s : State) (k : Sticky) (b : Nat) : (State.flag s k b).mem = s.mem := by unfold State.flag; split <;> rfl
@[simp] theorem State.flag_undef (s : State) (k : Sticky) (b : Nat) : (State.flag s k b).undef = s.undef := by unfold State.flag; split <;> rfl
@[simp] theorem State.flag_poison (s : State) (k : Sticky) (b : Nat) : (State.flag s k b).poison = s.poison := by unfold State.flag; split <;> rfl
@[simp] theorem State.flag_ecc (s : State) (k : Sticky) (b : Nat) : (State.flag s k b).ecc = s.ecc := by unfold State.flag; split <;> rfl
@[simp] theorem State.flag_hw (s : State) (k : Sticky) (b : Nat) : (State.flag s k b).hw = s.hw := by unfold State.flag; split <;> rfl
@[simp] theorem State.flag_pools (s : State) (k : Sticky) (b : Nat) : (State.flag s k b).pools = s.pools := by unfold State.flag; split <;> rfl
@[simp] theorem State.flag_hostMem (s : State) (k : Sticky) (b : Nat) : (State.flag s k b).hostMem = s.hostMem := by unfold State.flag; split <;> rfl
@[simp] theorem State.flag_hostErr (s : State) (k : Sticky) (b : Nat) : (State.flag s k b).hostErr = s.hostErr := by unfold State.flag; split <;> rfl
@[simp] theorem State.flag_cisPoison (s : State) (k : Sticky) (b : Nat) : (State.flag s k b).cisPoison = s.cisPoison := by unfold State.flag; split <;> rfl
@[simp] theorem State.flag_bar2Reads (s : State) (k : Sticky) (b : Nat) : (State.flag s k b).bar2Reads = s.bar2Reads := by unfold State.flag; split <;> rfl
@[simp] theorem State.flag_ecs (s : State) (k : Sticky) (b : Nat) : (State.flag s k b).ecs = s.ecs := by unfold State.flag; split <;> rfl
@[simp] theorem State.flag_fence (s : State) (k : Sticky) (b : Nat) : (State.flag s k b).fence = s.fence := by unfold State.flag; split <;> rfl
@[simp] theorem State.flag_regions (s : State) (k : Sticky) (b : Nat) : (State.flag s k b).regions = s.regions := by unfold State.flag; split <;> rfl
@[simp] theorem State.flag_windows (s : State) (k : Sticky) (b : Nat) : (State.flag s k b).windows = s.windows := by unfold State.flag; split <;> rfl
@[simp] theorem State.flag_streams (s : State) (k : Sticky) (b : Nat) : (State.flag s k b).streams = s.streams := by unfold State.flag; split <;> rfl
@[simp] theorem State.flag_groups (s : State) (k : Sticky) (b : Nat) : (State.flag s k b).groups = s.groups := by unfold State.flag; split <;> rfl
@[simp] theorem State.flag_strPeek (s : State) (k : Sticky) (b : Nat) : (State.flag s k b).strPeek = s.strPeek := by unfold State.flag; split <;> rfl
@[simp] theorem State.flag_heaps (s : State) (k : Sticky) (b : Nat) : (State.flag s k b).heaps = s.heaps := by unfold State.flag; split <;> rfl
@[simp] theorem State.flag_seqs (s : State) (k : Sticky) (b : Nat) : (State.flag s k b).seqs = s.seqs := by unfold State.flag; split <;> rfl
@[simp] theorem State.flag_spills (s : State) (k : Sticky) (b : Nat) : (State.flag s k b).spills = s.spills := by unfold State.flag; split <;> rfl
@[simp] theorem State.flag_returns (s : State) (k : Sticky) (b : Nat) : (State.flag s k b).returns = s.returns := by unfold State.flag; split <;> rfl
@[simp] theorem State.flag_det (s : State) (k : Sticky) (b : Nat) : (State.flag s k b).det = s.det := by unfold State.flag; split <;> rfl
@[simp] theorem State.flag_cams (s : State) (k : Sticky) (b : Nat) : (State.flag s k b).cams = s.cams := by unfold State.flag; split <;> rfl
@[simp] theorem State.flag_audTable (s : State) (k : Sticky) (b : Nat) : (State.flag s k b).audTable = s.audTable := by unfold State.flag; split <;> rfl
@[simp] theorem State.flag_audFir (s : State) (k : Sticky) (b : Nat) : (State.flag s k b).audFir = s.audFir := by unfold State.flag; split <;> rfl
@[simp] theorem State.flag_fir (s : State) (k : Sticky) (b : Nat) : (State.flag s k b).fir = s.fir := by unfold State.flag; split <;> rfl
@[simp] theorem State.flag_bindings (s : State) (k : Sticky) (b : Nat) : (State.flag s k b).bindings = s.bindings := by unfold State.flag; split <;> rfl
@[simp] theorem State.flag_audio (s : State) (k : Sticky) (b : Nat) : (State.flag s k b).audio = s.audio := by unfold State.flag; split <;> rfl
@[simp] theorem State.flag_tdm (s : State) (k : Sticky) (b : Nat) : (State.flag s k b).tdm = s.tdm := by unfold State.flag; split <;> rfl
@[simp] theorem State.flag_pipes (s : State) (k : Sticky) (b : Nat) : (State.flag s k b).pipes = s.pipes := by unfold State.flag; split <;> rfl
@[simp] theorem State.flag_recTurn (s : State) (k : Sticky) (b : Nat) : (State.flag s k b).recTurn = s.recTurn := by unfold State.flag; split <;> rfl
@[simp] theorem State.flag_axes (s : State) (k : Sticky) (b : Nat) : (State.flag s k b).axes = s.axes := by unfold State.flag; split <;> rfl
@[simp] theorem State.flag_stations (s : State) (k : Sticky) (b : Nat) : (State.flag s k b).stations = s.stations := by unfold State.flag; split <;> rfl
@[simp] theorem State.flag_lpeLatched (s : State) (k : Sticky) (b : Nat) : (State.flag s k b).lpeLatched = s.lpeLatched := by unfold State.flag; split <;> rfl
@[simp] theorem State.flag_lpeBusy (s : State) (k : Sticky) (b : Nat) : (State.flag s k b).lpeBusy = s.lpeBusy := by unfold State.flag; split <;> rfl
@[simp] theorem State.flag_tb (s : State) (k : Sticky) (b : Nat) : (State.flag s k b).tb = s.tb := by unfold State.flag; split <;> rfl
@[simp] theorem State.flag_eth (s : State) (k : Sticky) (b : Nat) : (State.flag s k b).eth = s.eth := by unfold State.flag; split <;> rfl
@[simp] theorem State.flag_pm (s : State) (k : Sticky) (b : Nat) : (State.flag s k b).pm = s.pm := by unfold State.flag; split <;> rfl
@[simp] theorem State.flag_pdOn (s : State) (k : Sticky) (b : Nat) : (State.flag s k b).pdOn = s.pdOn := by unfold State.flag; split <;> rfl
@[simp] theorem State.flag_pdMoves (s : State) (k : Sticky) (b : Nat) : (State.flag s k b).pdMoves = s.pdMoves := by unfold State.flag; split <;> rfl
@[simp] theorem State.flag_pairs (s : State) (k : Sticky) (b : Nat) : (State.flag s k b).pairs = s.pairs := by unfold State.flag; split <;> rfl
@[simp] theorem State.flag_sph (s : State) (k : Sticky) (b : Nat) : (State.flag s k b).sph = s.sph := by unfold State.flag; split <;> rfl
@[simp] theorem State.flag_mirrors (s : State) (k : Sticky) (b : Nat) : (State.flag s k b).mirrors = s.mirrors := by unfold State.flag; split <;> rfl
@[simp] theorem State.flag_pending (s : State) (k : Sticky) (b : Nat) : (State.flag s k b).pending = s.pending := by unfold State.flag; split <;> rfl
@[simp] theorem State.flag_out (s : State) (k : Sticky) (b : Nat) : (State.flag s k b).out = s.out := by unfold State.flag; split <;> rfl
@[simp] theorem State.flag_fresh (s : State) (k : Sticky) (b : Nat) : (State.flag s k b).fresh = s.fresh := by unfold State.flag; split <;> rfl

/-! State.flagIf -/
@[simp] theorem State.flagIf_sys (s : State) (v : Bool) (k : Sticky) (b : Nat) : (State.flagIf s v k b).sys = s.sys := by cases v <;> simp [State.flagIf]
@[simp] theorem State.flagIf_counter (s : State) (v : Bool) (k : Sticky) (b : Nat) : (State.flagIf s v k b).counter = s.counter := by cases v <;> simp [State.flagIf]
@[simp] theorem State.flagIf_trb (s : State) (v : Bool) (k : Sticky) (b : Nat) : (State.flagIf s v k b).trb = s.trb := by cases v <;> simp [State.flagIf]
@[simp] theorem State.flagIf_ports (s : State) (v : Bool) (k : Sticky) (b : Nat) : (State.flagIf s v k b).ports = s.ports := by cases v <;> simp [State.flagIf]
@[simp] theorem State.flagIf_reqs (s : State) (v : Bool) (k : Sticky) (b : Nat) : (State.flagIf s v k b).reqs = s.reqs := by cases v <;> simp [State.flagIf]
@[simp] theorem State.flagIf_sems (s : State) (v : Bool) (k : Sticky) (b : Nat) : (State.flagIf s v k b).sems = s.sems := by cases v <;> simp [State.flagIf]
@[simp] theorem State.flagIf_v1Raised (s : State) (v : Bool) (k : Sticky) (b : Nat) : (State.flagIf s v k b).v1Raised = s.v1Raised := by cases v <;> simp [State.flagIf]
@[simp] theorem State.flagIf_cnts (s : State) (v : Bool) (k : Sticky) (b : Nat) : (State.flagIf s v k b).cnts = s.cnts := by cases v <;> simp [State.flagIf]
@[simp] theorem State.flagIf_parts (s : State) (v : Bool) (k : Sticky) (b : Nat) : (State.flagIf s v k b).parts = s.parts := by cases v <;> simp [State.flagIf]
@[simp] theorem State.flagIf_cmds (s : State) (v : Bool) (k : Sticky) (b : Nat) : (State.flagIf s v k b).cmds = s.cmds := by cases v <;> simp [State.flagIf]
@[simp] theorem State.flagIf_admitNext (s : State) (v : Bool) (k : Sticky) (b : Nat) : (State.flagIf s v k b).admitNext = s.admitNext := by cases v <;> simp [State.flagIf]
@[simp] theorem State.flagIf_issuedNow (s : State) (v : Bool) (k : Sticky) (b : Nat) : (State.flagIf s v k b).issuedNow = s.issuedNow := by cases v <;> simp [State.flagIf]
@[simp] theorem State.flagIf_issueNext (s : State) (v : Bool) (k : Sticky) (b : Nat) : (State.flagIf s v k b).issueNext = s.issueNext := by cases v <;> simp [State.flagIf]
@[simp] theorem State.flagIf_keys (s : State) (v : Bool) (k : Sticky) (b : Nat) : (State.flagIf s v k b).keys = s.keys := by cases v <;> simp [State.flagIf]
@[simp] theorem State.flagIf_ops (s : State) (v : Bool) (k : Sticky) (b : Nat) : (State.flagIf s v k b).ops = s.ops := by cases v <;> simp [State.flagIf]
@[simp] theorem State.flagIf_opNext (s : State) (v : Bool) (k : Sticky) (b : Nat) : (State.flagIf s v k b).opNext = s.opNext := by cases v <;> simp [State.flagIf]
@[simp] theorem State.flagIf_scHalt (s : State) (v : Bool) (k : Sticky) (b : Nat) : (State.flagIf s v k b).scHalt = s.scHalt := by cases v <;> simp [State.flagIf]
@[simp] theorem State.flagIf_halted (s : State) (v : Bool) (k : Sticky) (b : Nat) : (State.flagIf s v k b).halted = s.halted := by cases v <;> simp [State.flagIf]
@[simp] theorem State.flagIf_mem (s : State) (v : Bool) (k : Sticky) (b : Nat) : (State.flagIf s v k b).mem = s.mem := by cases v <;> simp [State.flagIf]
@[simp] theorem State.flagIf_undef (s : State) (v : Bool) (k : Sticky) (b : Nat) : (State.flagIf s v k b).undef = s.undef := by cases v <;> simp [State.flagIf]
@[simp] theorem State.flagIf_poison (s : State) (v : Bool) (k : Sticky) (b : Nat) : (State.flagIf s v k b).poison = s.poison := by cases v <;> simp [State.flagIf]
@[simp] theorem State.flagIf_ecc (s : State) (v : Bool) (k : Sticky) (b : Nat) : (State.flagIf s v k b).ecc = s.ecc := by cases v <;> simp [State.flagIf]
@[simp] theorem State.flagIf_hw (s : State) (v : Bool) (k : Sticky) (b : Nat) : (State.flagIf s v k b).hw = s.hw := by cases v <;> simp [State.flagIf]
@[simp] theorem State.flagIf_pools (s : State) (v : Bool) (k : Sticky) (b : Nat) : (State.flagIf s v k b).pools = s.pools := by cases v <;> simp [State.flagIf]
@[simp] theorem State.flagIf_hostMem (s : State) (v : Bool) (k : Sticky) (b : Nat) : (State.flagIf s v k b).hostMem = s.hostMem := by cases v <;> simp [State.flagIf]
@[simp] theorem State.flagIf_hostErr (s : State) (v : Bool) (k : Sticky) (b : Nat) : (State.flagIf s v k b).hostErr = s.hostErr := by cases v <;> simp [State.flagIf]
@[simp] theorem State.flagIf_cisPoison (s : State) (v : Bool) (k : Sticky) (b : Nat) : (State.flagIf s v k b).cisPoison = s.cisPoison := by cases v <;> simp [State.flagIf]
@[simp] theorem State.flagIf_bar2Reads (s : State) (v : Bool) (k : Sticky) (b : Nat) : (State.flagIf s v k b).bar2Reads = s.bar2Reads := by cases v <;> simp [State.flagIf]
@[simp] theorem State.flagIf_ecs (s : State) (v : Bool) (k : Sticky) (b : Nat) : (State.flagIf s v k b).ecs = s.ecs := by cases v <;> simp [State.flagIf]
@[simp] theorem State.flagIf_fence (s : State) (v : Bool) (k : Sticky) (b : Nat) : (State.flagIf s v k b).fence = s.fence := by cases v <;> simp [State.flagIf]
@[simp] theorem State.flagIf_regions (s : State) (v : Bool) (k : Sticky) (b : Nat) : (State.flagIf s v k b).regions = s.regions := by cases v <;> simp [State.flagIf]
@[simp] theorem State.flagIf_windows (s : State) (v : Bool) (k : Sticky) (b : Nat) : (State.flagIf s v k b).windows = s.windows := by cases v <;> simp [State.flagIf]
@[simp] theorem State.flagIf_streams (s : State) (v : Bool) (k : Sticky) (b : Nat) : (State.flagIf s v k b).streams = s.streams := by cases v <;> simp [State.flagIf]
@[simp] theorem State.flagIf_groups (s : State) (v : Bool) (k : Sticky) (b : Nat) : (State.flagIf s v k b).groups = s.groups := by cases v <;> simp [State.flagIf]
@[simp] theorem State.flagIf_strPeek (s : State) (v : Bool) (k : Sticky) (b : Nat) : (State.flagIf s v k b).strPeek = s.strPeek := by cases v <;> simp [State.flagIf]
@[simp] theorem State.flagIf_heaps (s : State) (v : Bool) (k : Sticky) (b : Nat) : (State.flagIf s v k b).heaps = s.heaps := by cases v <;> simp [State.flagIf]
@[simp] theorem State.flagIf_seqs (s : State) (v : Bool) (k : Sticky) (b : Nat) : (State.flagIf s v k b).seqs = s.seqs := by cases v <;> simp [State.flagIf]
@[simp] theorem State.flagIf_spills (s : State) (v : Bool) (k : Sticky) (b : Nat) : (State.flagIf s v k b).spills = s.spills := by cases v <;> simp [State.flagIf]
@[simp] theorem State.flagIf_returns (s : State) (v : Bool) (k : Sticky) (b : Nat) : (State.flagIf s v k b).returns = s.returns := by cases v <;> simp [State.flagIf]
@[simp] theorem State.flagIf_det (s : State) (v : Bool) (k : Sticky) (b : Nat) : (State.flagIf s v k b).det = s.det := by cases v <;> simp [State.flagIf]
@[simp] theorem State.flagIf_cams (s : State) (v : Bool) (k : Sticky) (b : Nat) : (State.flagIf s v k b).cams = s.cams := by cases v <;> simp [State.flagIf]
@[simp] theorem State.flagIf_audTable (s : State) (v : Bool) (k : Sticky) (b : Nat) : (State.flagIf s v k b).audTable = s.audTable := by cases v <;> simp [State.flagIf]
@[simp] theorem State.flagIf_audFir (s : State) (v : Bool) (k : Sticky) (b : Nat) : (State.flagIf s v k b).audFir = s.audFir := by cases v <;> simp [State.flagIf]
@[simp] theorem State.flagIf_fir (s : State) (v : Bool) (k : Sticky) (b : Nat) : (State.flagIf s v k b).fir = s.fir := by cases v <;> simp [State.flagIf]
@[simp] theorem State.flagIf_bindings (s : State) (v : Bool) (k : Sticky) (b : Nat) : (State.flagIf s v k b).bindings = s.bindings := by cases v <;> simp [State.flagIf]
@[simp] theorem State.flagIf_audio (s : State) (v : Bool) (k : Sticky) (b : Nat) : (State.flagIf s v k b).audio = s.audio := by cases v <;> simp [State.flagIf]
@[simp] theorem State.flagIf_tdm (s : State) (v : Bool) (k : Sticky) (b : Nat) : (State.flagIf s v k b).tdm = s.tdm := by cases v <;> simp [State.flagIf]
@[simp] theorem State.flagIf_pipes (s : State) (v : Bool) (k : Sticky) (b : Nat) : (State.flagIf s v k b).pipes = s.pipes := by cases v <;> simp [State.flagIf]
@[simp] theorem State.flagIf_recTurn (s : State) (v : Bool) (k : Sticky) (b : Nat) : (State.flagIf s v k b).recTurn = s.recTurn := by cases v <;> simp [State.flagIf]
@[simp] theorem State.flagIf_axes (s : State) (v : Bool) (k : Sticky) (b : Nat) : (State.flagIf s v k b).axes = s.axes := by cases v <;> simp [State.flagIf]
@[simp] theorem State.flagIf_stations (s : State) (v : Bool) (k : Sticky) (b : Nat) : (State.flagIf s v k b).stations = s.stations := by cases v <;> simp [State.flagIf]
@[simp] theorem State.flagIf_lpeLatched (s : State) (v : Bool) (k : Sticky) (b : Nat) : (State.flagIf s v k b).lpeLatched = s.lpeLatched := by cases v <;> simp [State.flagIf]
@[simp] theorem State.flagIf_lpeBusy (s : State) (v : Bool) (k : Sticky) (b : Nat) : (State.flagIf s v k b).lpeBusy = s.lpeBusy := by cases v <;> simp [State.flagIf]
@[simp] theorem State.flagIf_tb (s : State) (v : Bool) (k : Sticky) (b : Nat) : (State.flagIf s v k b).tb = s.tb := by cases v <;> simp [State.flagIf]
@[simp] theorem State.flagIf_eth (s : State) (v : Bool) (k : Sticky) (b : Nat) : (State.flagIf s v k b).eth = s.eth := by cases v <;> simp [State.flagIf]
@[simp] theorem State.flagIf_pm (s : State) (v : Bool) (k : Sticky) (b : Nat) : (State.flagIf s v k b).pm = s.pm := by cases v <;> simp [State.flagIf]
@[simp] theorem State.flagIf_pdOn (s : State) (v : Bool) (k : Sticky) (b : Nat) : (State.flagIf s v k b).pdOn = s.pdOn := by cases v <;> simp [State.flagIf]
@[simp] theorem State.flagIf_pdMoves (s : State) (v : Bool) (k : Sticky) (b : Nat) : (State.flagIf s v k b).pdMoves = s.pdMoves := by cases v <;> simp [State.flagIf]
@[simp] theorem State.flagIf_pairs (s : State) (v : Bool) (k : Sticky) (b : Nat) : (State.flagIf s v k b).pairs = s.pairs := by cases v <;> simp [State.flagIf]
@[simp] theorem State.flagIf_sph (s : State) (v : Bool) (k : Sticky) (b : Nat) : (State.flagIf s v k b).sph = s.sph := by cases v <;> simp [State.flagIf]
@[simp] theorem State.flagIf_mirrors (s : State) (v : Bool) (k : Sticky) (b : Nat) : (State.flagIf s v k b).mirrors = s.mirrors := by cases v <;> simp [State.flagIf]
@[simp] theorem State.flagIf_pending (s : State) (v : Bool) (k : Sticky) (b : Nat) : (State.flagIf s v k b).pending = s.pending := by cases v <;> simp [State.flagIf]
@[simp] theorem State.flagIf_out (s : State) (v : Bool) (k : Sticky) (b : Nat) : (State.flagIf s v k b).out = s.out := by cases v <;> simp [State.flagIf]
@[simp] theorem State.flagIf_fresh (s : State) (v : Bool) (k : Sticky) (b : Nat) : (State.flagIf s v k b).fresh = s.fresh := by cases v <;> simp [State.flagIf]

/-! State.log -/
@[simp] theorem State.log_sys (s : State) (code sub inst : Nat) (args : List Byte) : (State.log s code sub inst args).sys = s.sys := rfl
@[simp] theorem State.log_counter (s : State) (code sub inst : Nat) (args : List Byte) : (State.log s code sub inst args).counter = s.counter := rfl
@[simp] theorem State.log_ports (s : State) (code sub inst : Nat) (args : List Byte) : (State.log s code sub inst args).ports = s.ports := rfl
@[simp] theorem State.log_reqs (s : State) (code sub inst : Nat) (args : List Byte) : (State.log s code sub inst args).reqs = s.reqs := rfl
@[simp] theorem State.log_sems (s : State) (code sub inst : Nat) (args : List Byte) : (State.log s code sub inst args).sems = s.sems := rfl
@[simp] theorem State.log_errs (s : State) (code sub inst : Nat) (args : List Byte) : (State.log s code sub inst args).errs = s.errs := rfl
@[simp] theorem State.log_setNow (s : State) (code sub inst : Nat) (args : List Byte) : (State.log s code sub inst args).setNow = s.setNow := rfl
@[simp] theorem State.log_v1Raised (s : State) (code sub inst : Nat) (args : List Byte) : (State.log s code sub inst args).v1Raised = s.v1Raised := rfl
@[simp] theorem State.log_cnts (s : State) (code sub inst : Nat) (args : List Byte) : (State.log s code sub inst args).cnts = s.cnts := rfl
@[simp] theorem State.log_parts (s : State) (code sub inst : Nat) (args : List Byte) : (State.log s code sub inst args).parts = s.parts := rfl
@[simp] theorem State.log_cmds (s : State) (code sub inst : Nat) (args : List Byte) : (State.log s code sub inst args).cmds = s.cmds := rfl
@[simp] theorem State.log_admitNext (s : State) (code sub inst : Nat) (args : List Byte) : (State.log s code sub inst args).admitNext = s.admitNext := rfl
@[simp] theorem State.log_issuedNow (s : State) (code sub inst : Nat) (args : List Byte) : (State.log s code sub inst args).issuedNow = s.issuedNow := rfl
@[simp] theorem State.log_issueNext (s : State) (code sub inst : Nat) (args : List Byte) : (State.log s code sub inst args).issueNext = s.issueNext := rfl
@[simp] theorem State.log_keys (s : State) (code sub inst : Nat) (args : List Byte) : (State.log s code sub inst args).keys = s.keys := rfl
@[simp] theorem State.log_ops (s : State) (code sub inst : Nat) (args : List Byte) : (State.log s code sub inst args).ops = s.ops := rfl
@[simp] theorem State.log_opNext (s : State) (code sub inst : Nat) (args : List Byte) : (State.log s code sub inst args).opNext = s.opNext := rfl
@[simp] theorem State.log_scHalt (s : State) (code sub inst : Nat) (args : List Byte) : (State.log s code sub inst args).scHalt = s.scHalt := rfl
@[simp] theorem State.log_halted (s : State) (code sub inst : Nat) (args : List Byte) : (State.log s code sub inst args).halted = s.halted := rfl
@[simp] theorem State.log_mem (s : State) (code sub inst : Nat) (args : List Byte) : (State.log s code sub inst args).mem = s.mem := rfl
@[simp] theorem State.log_undef (s : State) (code sub inst : Nat) (args : List Byte) : (State.log s code sub inst args).undef = s.undef := rfl
@[simp] theorem State.log_poison (s : State) (code sub inst : Nat) (args : List Byte) : (State.log s code sub inst args).poison = s.poison := rfl
@[simp] theorem State.log_ecc (s : State) (code sub inst : Nat) (args : List Byte) : (State.log s code sub inst args).ecc = s.ecc := rfl
@[simp] theorem State.log_hw (s : State) (code sub inst : Nat) (args : List Byte) : (State.log s code sub inst args).hw = s.hw := rfl
@[simp] theorem State.log_pools (s : State) (code sub inst : Nat) (args : List Byte) : (State.log s code sub inst args).pools = s.pools := rfl
@[simp] theorem State.log_hostMem (s : State) (code sub inst : Nat) (args : List Byte) : (State.log s code sub inst args).hostMem = s.hostMem := rfl
@[simp] theorem State.log_hostErr (s : State) (code sub inst : Nat) (args : List Byte) : (State.log s code sub inst args).hostErr = s.hostErr := rfl
@[simp] theorem State.log_cisPoison (s : State) (code sub inst : Nat) (args : List Byte) : (State.log s code sub inst args).cisPoison = s.cisPoison := rfl
@[simp] theorem State.log_bar2Reads (s : State) (code sub inst : Nat) (args : List Byte) : (State.log s code sub inst args).bar2Reads = s.bar2Reads := rfl
@[simp] theorem State.log_ecs (s : State) (code sub inst : Nat) (args : List Byte) : (State.log s code sub inst args).ecs = s.ecs := rfl
@[simp] theorem State.log_fence (s : State) (code sub inst : Nat) (args : List Byte) : (State.log s code sub inst args).fence = s.fence := rfl
@[simp] theorem State.log_regions (s : State) (code sub inst : Nat) (args : List Byte) : (State.log s code sub inst args).regions = s.regions := rfl
@[simp] theorem State.log_windows (s : State) (code sub inst : Nat) (args : List Byte) : (State.log s code sub inst args).windows = s.windows := rfl
@[simp] theorem State.log_streams (s : State) (code sub inst : Nat) (args : List Byte) : (State.log s code sub inst args).streams = s.streams := rfl
@[simp] theorem State.log_groups (s : State) (code sub inst : Nat) (args : List Byte) : (State.log s code sub inst args).groups = s.groups := rfl
@[simp] theorem State.log_strPeek (s : State) (code sub inst : Nat) (args : List Byte) : (State.log s code sub inst args).strPeek = s.strPeek := rfl
@[simp] theorem State.log_heaps (s : State) (code sub inst : Nat) (args : List Byte) : (State.log s code sub inst args).heaps = s.heaps := rfl
@[simp] theorem State.log_seqs (s : State) (code sub inst : Nat) (args : List Byte) : (State.log s code sub inst args).seqs = s.seqs := rfl
@[simp] theorem State.log_spills (s : State) (code sub inst : Nat) (args : List Byte) : (State.log s code sub inst args).spills = s.spills := rfl
@[simp] theorem State.log_returns (s : State) (code sub inst : Nat) (args : List Byte) : (State.log s code sub inst args).returns = s.returns := rfl
@[simp] theorem State.log_det (s : State) (code sub inst : Nat) (args : List Byte) : (State.log s code sub inst args).det = s.det := rfl
@[simp] theorem State.log_cams (s : State) (code sub inst : Nat) (args : List Byte) : (State.log s code sub inst args).cams = s.cams := rfl
@[simp] theorem State.log_audTable (s : State) (code sub inst : Nat) (args : List Byte) : (State.log s code sub inst args).audTable = s.audTable := rfl
@[simp] theorem State.log_audFir (s : State) (code sub inst : Nat) (args : List Byte) : (State.log s code sub inst args).audFir = s.audFir := rfl
@[simp] theorem State.log_fir (s : State) (code sub inst : Nat) (args : List Byte) : (State.log s code sub inst args).fir = s.fir := rfl
@[simp] theorem State.log_bindings (s : State) (code sub inst : Nat) (args : List Byte) : (State.log s code sub inst args).bindings = s.bindings := rfl
@[simp] theorem State.log_audio (s : State) (code sub inst : Nat) (args : List Byte) : (State.log s code sub inst args).audio = s.audio := rfl
@[simp] theorem State.log_tdm (s : State) (code sub inst : Nat) (args : List Byte) : (State.log s code sub inst args).tdm = s.tdm := rfl
@[simp] theorem State.log_pipes (s : State) (code sub inst : Nat) (args : List Byte) : (State.log s code sub inst args).pipes = s.pipes := rfl
@[simp] theorem State.log_recTurn (s : State) (code sub inst : Nat) (args : List Byte) : (State.log s code sub inst args).recTurn = s.recTurn := rfl
@[simp] theorem State.log_axes (s : State) (code sub inst : Nat) (args : List Byte) : (State.log s code sub inst args).axes = s.axes := rfl
@[simp] theorem State.log_stations (s : State) (code sub inst : Nat) (args : List Byte) : (State.log s code sub inst args).stations = s.stations := rfl
@[simp] theorem State.log_lpeLatched (s : State) (code sub inst : Nat) (args : List Byte) : (State.log s code sub inst args).lpeLatched = s.lpeLatched := rfl
@[simp] theorem State.log_lpeBusy (s : State) (code sub inst : Nat) (args : List Byte) : (State.log s code sub inst args).lpeBusy = s.lpeBusy := rfl
@[simp] theorem State.log_tb (s : State) (code sub inst : Nat) (args : List Byte) : (State.log s code sub inst args).tb = s.tb := rfl
@[simp] theorem State.log_eth (s : State) (code sub inst : Nat) (args : List Byte) : (State.log s code sub inst args).eth = s.eth := rfl
@[simp] theorem State.log_pm (s : State) (code sub inst : Nat) (args : List Byte) : (State.log s code sub inst args).pm = s.pm := rfl
@[simp] theorem State.log_pdOn (s : State) (code sub inst : Nat) (args : List Byte) : (State.log s code sub inst args).pdOn = s.pdOn := rfl
@[simp] theorem State.log_pdMoves (s : State) (code sub inst : Nat) (args : List Byte) : (State.log s code sub inst args).pdMoves = s.pdMoves := rfl
@[simp] theorem State.log_pairs (s : State) (code sub inst : Nat) (args : List Byte) : (State.log s code sub inst args).pairs = s.pairs := rfl
@[simp] theorem State.log_sph (s : State) (code sub inst : Nat) (args : List Byte) : (State.log s code sub inst args).sph = s.sph := rfl
@[simp] theorem State.log_mirrors (s : State) (code sub inst : Nat) (args : List Byte) : (State.log s code sub inst args).mirrors = s.mirrors := rfl
@[simp] theorem State.log_pending (s : State) (code sub inst : Nat) (args : List Byte) : (State.log s code sub inst args).pending = s.pending := rfl
@[simp] theorem State.log_out (s : State) (code sub inst : Nat) (args : List Byte) : (State.log s code sub inst args).out = s.out := rfl
@[simp] theorem State.log_fresh (s : State) (code sub inst : Nat) (args : List Byte) : (State.log s code sub inst args).fresh = s.fresh := rfl

/-! State.emit -/
@[simp] theorem State.emit_sys (s : State) (o : Out) : (State.emit s o).sys = s.sys := rfl
@[simp] theorem State.emit_counter (s : State) (o : Out) : (State.emit s o).counter = s.counter := rfl
@[simp] theorem State.emit_trb (s : State) (o : Out) : (State.emit s o).trb = s.trb := rfl
@[simp] theorem State.emit_ports (s : State) (o : Out) : (State.emit s o).ports = s.ports := rfl
@[simp] theorem State.emit_reqs (s : State) (o : Out) : (State.emit s o).reqs = s.reqs := rfl
@[simp] theorem State.emit_sems (s : State) (o : Out) : (State.emit s o).sems = s.sems := rfl
@[simp] theorem State.emit_errs (s : State) (o : Out) : (State.emit s o).errs = s.errs := rfl
@[simp] theorem State.emit_setNow (s : State) (o : Out) : (State.emit s o).setNow = s.setNow := rfl
@[simp] theorem State.emit_v1Raised (s : State) (o : Out) : (State.emit s o).v1Raised = s.v1Raised := rfl
@[simp] theorem State.emit_cnts (s : State) (o : Out) : (State.emit s o).cnts = s.cnts := rfl
@[simp] theorem State.emit_parts (s : State) (o : Out) : (State.emit s o).parts = s.parts := rfl
@[simp] theorem State.emit_cmds (s : State) (o : Out) : (State.emit s o).cmds = s.cmds := rfl
@[simp] theorem State.emit_admitNext (s : State) (o : Out) : (State.emit s o).admitNext = s.admitNext := rfl
@[simp] theorem State.emit_issuedNow (s : State) (o : Out) : (State.emit s o).issuedNow = s.issuedNow := rfl
@[simp] theorem State.emit_issueNext (s : State) (o : Out) : (State.emit s o).issueNext = s.issueNext := rfl
@[simp] theorem State.emit_keys (s : State) (o : Out) : (State.emit s o).keys = s.keys := rfl
@[simp] theorem State.emit_ops (s : State) (o : Out) : (State.emit s o).ops = s.ops := rfl
@[simp] theorem State.emit_opNext (s : State) (o : Out) : (State.emit s o).opNext = s.opNext := rfl
@[simp] theorem State.emit_scHalt (s : State) (o : Out) : (State.emit s o).scHalt = s.scHalt := rfl
@[simp] theorem State.emit_halted (s : State) (o : Out) : (State.emit s o).halted = s.halted := rfl
@[simp] theorem State.emit_mem (s : State) (o : Out) : (State.emit s o).mem = s.mem := rfl
@[simp] theorem State.emit_undef (s : State) (o : Out) : (State.emit s o).undef = s.undef := rfl
@[simp] theorem State.emit_poison (s : State) (o : Out) : (State.emit s o).poison = s.poison := rfl
@[simp] theorem State.emit_ecc (s : State) (o : Out) : (State.emit s o).ecc = s.ecc := rfl
@[simp] theorem State.emit_hw (s : State) (o : Out) : (State.emit s o).hw = s.hw := rfl
@[simp] theorem State.emit_pools (s : State) (o : Out) : (State.emit s o).pools = s.pools := rfl
@[simp] theorem State.emit_hostMem (s : State) (o : Out) : (State.emit s o).hostMem = s.hostMem := rfl
@[simp] theorem State.emit_hostErr (s : State) (o : Out) : (State.emit s o).hostErr = s.hostErr := rfl
@[simp] theorem State.emit_cisPoison (s : State) (o : Out) : (State.emit s o).cisPoison = s.cisPoison := rfl
@[simp] theorem State.emit_bar2Reads (s : State) (o : Out) : (State.emit s o).bar2Reads = s.bar2Reads := rfl
@[simp] theorem State.emit_ecs (s : State) (o : Out) : (State.emit s o).ecs = s.ecs := rfl
@[simp] theorem State.emit_fence (s : State) (o : Out) : (State.emit s o).fence = s.fence := rfl
@[simp] theorem State.emit_regions (s : State) (o : Out) : (State.emit s o).regions = s.regions := rfl
@[simp] theorem State.emit_windows (s : State) (o : Out) : (State.emit s o).windows = s.windows := rfl
@[simp] theorem State.emit_streams (s : State) (o : Out) : (State.emit s o).streams = s.streams := rfl
@[simp] theorem State.emit_groups (s : State) (o : Out) : (State.emit s o).groups = s.groups := rfl
@[simp] theorem State.emit_strPeek (s : State) (o : Out) : (State.emit s o).strPeek = s.strPeek := rfl
@[simp] theorem State.emit_heaps (s : State) (o : Out) : (State.emit s o).heaps = s.heaps := rfl
@[simp] theorem State.emit_seqs (s : State) (o : Out) : (State.emit s o).seqs = s.seqs := rfl
@[simp] theorem State.emit_spills (s : State) (o : Out) : (State.emit s o).spills = s.spills := rfl
@[simp] theorem State.emit_returns (s : State) (o : Out) : (State.emit s o).returns = s.returns := rfl
@[simp] theorem State.emit_det (s : State) (o : Out) : (State.emit s o).det = s.det := rfl
@[simp] theorem State.emit_cams (s : State) (o : Out) : (State.emit s o).cams = s.cams := rfl
@[simp] theorem State.emit_audTable (s : State) (o : Out) : (State.emit s o).audTable = s.audTable := rfl
@[simp] theorem State.emit_audFir (s : State) (o : Out) : (State.emit s o).audFir = s.audFir := rfl
@[simp] theorem State.emit_fir (s : State) (o : Out) : (State.emit s o).fir = s.fir := rfl
@[simp] theorem State.emit_bindings (s : State) (o : Out) : (State.emit s o).bindings = s.bindings := rfl
@[simp] theorem State.emit_audio (s : State) (o : Out) : (State.emit s o).audio = s.audio := rfl
@[simp] theorem State.emit_tdm (s : State) (o : Out) : (State.emit s o).tdm = s.tdm := rfl
@[simp] theorem State.emit_pipes (s : State) (o : Out) : (State.emit s o).pipes = s.pipes := rfl
@[simp] theorem State.emit_recTurn (s : State) (o : Out) : (State.emit s o).recTurn = s.recTurn := rfl
@[simp] theorem State.emit_axes (s : State) (o : Out) : (State.emit s o).axes = s.axes := rfl
@[simp] theorem State.emit_stations (s : State) (o : Out) : (State.emit s o).stations = s.stations := rfl
@[simp] theorem State.emit_lpeLatched (s : State) (o : Out) : (State.emit s o).lpeLatched = s.lpeLatched := rfl
@[simp] theorem State.emit_lpeBusy (s : State) (o : Out) : (State.emit s o).lpeBusy = s.lpeBusy := rfl
@[simp] theorem State.emit_tb (s : State) (o : Out) : (State.emit s o).tb = s.tb := rfl
@[simp] theorem State.emit_eth (s : State) (o : Out) : (State.emit s o).eth = s.eth := rfl
@[simp] theorem State.emit_pm (s : State) (o : Out) : (State.emit s o).pm = s.pm := rfl
@[simp] theorem State.emit_pdOn (s : State) (o : Out) : (State.emit s o).pdOn = s.pdOn := rfl
@[simp] theorem State.emit_pdMoves (s : State) (o : Out) : (State.emit s o).pdMoves = s.pdMoves := rfl
@[simp] theorem State.emit_pairs (s : State) (o : Out) : (State.emit s o).pairs = s.pairs := rfl
@[simp] theorem State.emit_sph (s : State) (o : Out) : (State.emit s o).sph = s.sph := rfl
@[simp] theorem State.emit_mirrors (s : State) (o : Out) : (State.emit s o).mirrors = s.mirrors := rfl
@[simp] theorem State.emit_pending (s : State) (o : Out) : (State.emit s o).pending = s.pending := rfl
@[simp] theorem State.emit_fresh (s : State) (o : Out) : (State.emit s o).fresh = s.fresh := rfl

/-! State.setWctl -/
@[simp] theorem State.setWctl_sys (s : State) (r : WellPart) (x : WellCtl) : (State.setWctl s r x).sys = s.sys := by cases r <;> rfl
@[simp] theorem State.setWctl_counter (s : State) (r : WellPart) (x : WellCtl) : (State.setWctl s r x).counter = s.counter := by cases r <;> rfl
@[simp] theorem State.setWctl_trb (s : State) (r : WellPart) (x : WellCtl) : (State.setWctl s r x).trb = s.trb := by cases r <;> rfl
@[simp] theorem State.setWctl_ports (s : State) (r : WellPart) (x : WellCtl) : (State.setWctl s r x).ports = s.ports := by cases r <;> rfl
@[simp] theorem State.setWctl_reqs (s : State) (r : WellPart) (x : WellCtl) : (State.setWctl s r x).reqs = s.reqs := by cases r <;> rfl
@[simp] theorem State.setWctl_sems (s : State) (r : WellPart) (x : WellCtl) : (State.setWctl s r x).sems = s.sems := by cases r <;> rfl
@[simp] theorem State.setWctl_errs (s : State) (r : WellPart) (x : WellCtl) : (State.setWctl s r x).errs = s.errs := by cases r <;> rfl
@[simp] theorem State.setWctl_setNow (s : State) (r : WellPart) (x : WellCtl) : (State.setWctl s r x).setNow = s.setNow := by cases r <;> rfl
@[simp] theorem State.setWctl_v1Raised (s : State) (r : WellPart) (x : WellCtl) : (State.setWctl s r x).v1Raised = s.v1Raised := by cases r <;> rfl
@[simp] theorem State.setWctl_cnts (s : State) (r : WellPart) (x : WellCtl) : (State.setWctl s r x).cnts = s.cnts := by cases r <;> rfl
@[simp] theorem State.setWctl_parts (s : State) (r : WellPart) (x : WellCtl) : (State.setWctl s r x).parts = s.parts := by cases r <;> rfl
@[simp] theorem State.setWctl_cmds (s : State) (r : WellPart) (x : WellCtl) : (State.setWctl s r x).cmds = s.cmds := by cases r <;> rfl
@[simp] theorem State.setWctl_admitNext (s : State) (r : WellPart) (x : WellCtl) : (State.setWctl s r x).admitNext = s.admitNext := by cases r <;> rfl
@[simp] theorem State.setWctl_issuedNow (s : State) (r : WellPart) (x : WellCtl) : (State.setWctl s r x).issuedNow = s.issuedNow := by cases r <;> rfl
@[simp] theorem State.setWctl_issueNext (s : State) (r : WellPart) (x : WellCtl) : (State.setWctl s r x).issueNext = s.issueNext := by cases r <;> rfl
@[simp] theorem State.setWctl_keys (s : State) (r : WellPart) (x : WellCtl) : (State.setWctl s r x).keys = s.keys := by cases r <;> rfl
@[simp] theorem State.setWctl_ops (s : State) (r : WellPart) (x : WellCtl) : (State.setWctl s r x).ops = s.ops := by cases r <;> rfl
@[simp] theorem State.setWctl_opNext (s : State) (r : WellPart) (x : WellCtl) : (State.setWctl s r x).opNext = s.opNext := by cases r <;> rfl
@[simp] theorem State.setWctl_scHalt (s : State) (r : WellPart) (x : WellCtl) : (State.setWctl s r x).scHalt = s.scHalt := by cases r <;> rfl
@[simp] theorem State.setWctl_halted (s : State) (r : WellPart) (x : WellCtl) : (State.setWctl s r x).halted = s.halted := by cases r <;> rfl
@[simp] theorem State.setWctl_mem (s : State) (r : WellPart) (x : WellCtl) : (State.setWctl s r x).mem = s.mem := by cases r <;> rfl
@[simp] theorem State.setWctl_undef (s : State) (r : WellPart) (x : WellCtl) : (State.setWctl s r x).undef = s.undef := by cases r <;> rfl
@[simp] theorem State.setWctl_poison (s : State) (r : WellPart) (x : WellCtl) : (State.setWctl s r x).poison = s.poison := by cases r <;> rfl
@[simp] theorem State.setWctl_ecc (s : State) (r : WellPart) (x : WellCtl) : (State.setWctl s r x).ecc = s.ecc := by cases r <;> rfl
@[simp] theorem State.setWctl_hostMem (s : State) (r : WellPart) (x : WellCtl) : (State.setWctl s r x).hostMem = s.hostMem := by cases r <;> rfl
@[simp] theorem State.setWctl_hostErr (s : State) (r : WellPart) (x : WellCtl) : (State.setWctl s r x).hostErr = s.hostErr := by cases r <;> rfl
@[simp] theorem State.setWctl_cisPoison (s : State) (r : WellPart) (x : WellCtl) : (State.setWctl s r x).cisPoison = s.cisPoison := by cases r <;> rfl
@[simp] theorem State.setWctl_bar2Reads (s : State) (r : WellPart) (x : WellCtl) : (State.setWctl s r x).bar2Reads = s.bar2Reads := by cases r <;> rfl
@[simp] theorem State.setWctl_ecs (s : State) (r : WellPart) (x : WellCtl) : (State.setWctl s r x).ecs = s.ecs := by cases r <;> rfl
@[simp] theorem State.setWctl_fence (s : State) (r : WellPart) (x : WellCtl) : (State.setWctl s r x).fence = s.fence := by cases r <;> rfl
@[simp] theorem State.setWctl_regions (s : State) (r : WellPart) (x : WellCtl) : (State.setWctl s r x).regions = s.regions := by cases r <;> rfl
@[simp] theorem State.setWctl_windows (s : State) (r : WellPart) (x : WellCtl) : (State.setWctl s r x).windows = s.windows := by cases r <;> rfl
@[simp] theorem State.setWctl_streams (s : State) (r : WellPart) (x : WellCtl) : (State.setWctl s r x).streams = s.streams := by cases r <;> rfl
@[simp] theorem State.setWctl_groups (s : State) (r : WellPart) (x : WellCtl) : (State.setWctl s r x).groups = s.groups := by cases r <;> rfl
@[simp] theorem State.setWctl_strPeek (s : State) (r : WellPart) (x : WellCtl) : (State.setWctl s r x).strPeek = s.strPeek := by cases r <;> rfl
@[simp] theorem State.setWctl_heaps (s : State) (r : WellPart) (x : WellCtl) : (State.setWctl s r x).heaps = s.heaps := by cases r <;> rfl
@[simp] theorem State.setWctl_seqs (s : State) (r : WellPart) (x : WellCtl) : (State.setWctl s r x).seqs = s.seqs := by cases r <;> rfl
@[simp] theorem State.setWctl_spills (s : State) (r : WellPart) (x : WellCtl) : (State.setWctl s r x).spills = s.spills := by cases r <;> rfl
@[simp] theorem State.setWctl_returns (s : State) (r : WellPart) (x : WellCtl) : (State.setWctl s r x).returns = s.returns := by cases r <;> rfl
@[simp] theorem State.setWctl_det (s : State) (r : WellPart) (x : WellCtl) : (State.setWctl s r x).det = s.det := by cases r <;> rfl
@[simp] theorem State.setWctl_cams (s : State) (r : WellPart) (x : WellCtl) : (State.setWctl s r x).cams = s.cams := by cases r <;> rfl
@[simp] theorem State.setWctl_audTable (s : State) (r : WellPart) (x : WellCtl) : (State.setWctl s r x).audTable = s.audTable := by cases r <;> rfl
@[simp] theorem State.setWctl_audFir (s : State) (r : WellPart) (x : WellCtl) : (State.setWctl s r x).audFir = s.audFir := by cases r <;> rfl
@[simp] theorem State.setWctl_fir (s : State) (r : WellPart) (x : WellCtl) : (State.setWctl s r x).fir = s.fir := by cases r <;> rfl
@[simp] theorem State.setWctl_bindings (s : State) (r : WellPart) (x : WellCtl) : (State.setWctl s r x).bindings = s.bindings := by cases r <;> rfl
@[simp] theorem State.setWctl_audio (s : State) (r : WellPart) (x : WellCtl) : (State.setWctl s r x).audio = s.audio := by cases r <;> rfl
@[simp] theorem State.setWctl_tdm (s : State) (r : WellPart) (x : WellCtl) : (State.setWctl s r x).tdm = s.tdm := by cases r <;> rfl
@[simp] theorem State.setWctl_pipes (s : State) (r : WellPart) (x : WellCtl) : (State.setWctl s r x).pipes = s.pipes := by cases r <;> rfl
@[simp] theorem State.setWctl_recTurn (s : State) (r : WellPart) (x : WellCtl) : (State.setWctl s r x).recTurn = s.recTurn := by cases r <;> rfl
@[simp] theorem State.setWctl_axes (s : State) (r : WellPart) (x : WellCtl) : (State.setWctl s r x).axes = s.axes := by cases r <;> rfl
@[simp] theorem State.setWctl_stations (s : State) (r : WellPart) (x : WellCtl) : (State.setWctl s r x).stations = s.stations := by cases r <;> rfl
@[simp] theorem State.setWctl_lpeLatched (s : State) (r : WellPart) (x : WellCtl) : (State.setWctl s r x).lpeLatched = s.lpeLatched := by cases r <;> rfl
@[simp] theorem State.setWctl_lpeBusy (s : State) (r : WellPart) (x : WellCtl) : (State.setWctl s r x).lpeBusy = s.lpeBusy := by cases r <;> rfl
@[simp] theorem State.setWctl_tb (s : State) (r : WellPart) (x : WellCtl) : (State.setWctl s r x).tb = s.tb := by cases r <;> rfl
@[simp] theorem State.setWctl_eth (s : State) (r : WellPart) (x : WellCtl) : (State.setWctl s r x).eth = s.eth := by cases r <;> rfl
@[simp] theorem State.setWctl_pm (s : State) (r : WellPart) (x : WellCtl) : (State.setWctl s r x).pm = s.pm := by cases r <;> rfl
@[simp] theorem State.setWctl_pdOn (s : State) (r : WellPart) (x : WellCtl) : (State.setWctl s r x).pdOn = s.pdOn := by cases r <;> rfl
@[simp] theorem State.setWctl_pdMoves (s : State) (r : WellPart) (x : WellCtl) : (State.setWctl s r x).pdMoves = s.pdMoves := by cases r <;> rfl
@[simp] theorem State.setWctl_pairs (s : State) (r : WellPart) (x : WellCtl) : (State.setWctl s r x).pairs = s.pairs := by cases r <;> rfl
@[simp] theorem State.setWctl_sph (s : State) (r : WellPart) (x : WellCtl) : (State.setWctl s r x).sph = s.sph := by cases r <;> rfl
@[simp] theorem State.setWctl_mirrors (s : State) (r : WellPart) (x : WellCtl) : (State.setWctl s r x).mirrors = s.mirrors := by cases r <;> rfl
@[simp] theorem State.setWctl_pending (s : State) (r : WellPart) (x : WellCtl) : (State.setWctl s r x).pending = s.pending := by cases r <;> rfl
@[simp] theorem State.setWctl_out (s : State) (r : WellPart) (x : WellCtl) : (State.setWctl s r x).out = s.out := by cases r <;> rfl
@[simp] theorem State.setWctl_fresh (s : State) (r : WellPart) (x : WellCtl) : (State.setWctl s r x).fresh = s.fresh := by cases r <;> rfl

/-! State.undefine -/
@[simp] theorem State.undefine_sys (s : State) (a len : Nat) : (State.undefine s a len).sys = s.sys := rfl
@[simp] theorem State.undefine_counter (s : State) (a len : Nat) : (State.undefine s a len).counter = s.counter := rfl
@[simp] theorem State.undefine_trb (s : State) (a len : Nat) : (State.undefine s a len).trb = s.trb := rfl
@[simp] theorem State.undefine_ports (s : State) (a len : Nat) : (State.undefine s a len).ports = s.ports := rfl
@[simp] theorem State.undefine_reqs (s : State) (a len : Nat) : (State.undefine s a len).reqs = s.reqs := rfl
@[simp] theorem State.undefine_sems (s : State) (a len : Nat) : (State.undefine s a len).sems = s.sems := rfl
@[simp] theorem State.undefine_errs (s : State) (a len : Nat) : (State.undefine s a len).errs = s.errs := rfl
@[simp] theorem State.undefine_setNow (s : State) (a len : Nat) : (State.undefine s a len).setNow = s.setNow := rfl
@[simp] theorem State.undefine_v1Raised (s : State) (a len : Nat) : (State.undefine s a len).v1Raised = s.v1Raised := rfl
@[simp] theorem State.undefine_cnts (s : State) (a len : Nat) : (State.undefine s a len).cnts = s.cnts := rfl
@[simp] theorem State.undefine_parts (s : State) (a len : Nat) : (State.undefine s a len).parts = s.parts := rfl
@[simp] theorem State.undefine_cmds (s : State) (a len : Nat) : (State.undefine s a len).cmds = s.cmds := rfl
@[simp] theorem State.undefine_admitNext (s : State) (a len : Nat) : (State.undefine s a len).admitNext = s.admitNext := rfl
@[simp] theorem State.undefine_issuedNow (s : State) (a len : Nat) : (State.undefine s a len).issuedNow = s.issuedNow := rfl
@[simp] theorem State.undefine_issueNext (s : State) (a len : Nat) : (State.undefine s a len).issueNext = s.issueNext := rfl
@[simp] theorem State.undefine_keys (s : State) (a len : Nat) : (State.undefine s a len).keys = s.keys := rfl
@[simp] theorem State.undefine_ops (s : State) (a len : Nat) : (State.undefine s a len).ops = s.ops := rfl
@[simp] theorem State.undefine_opNext (s : State) (a len : Nat) : (State.undefine s a len).opNext = s.opNext := rfl
@[simp] theorem State.undefine_scHalt (s : State) (a len : Nat) : (State.undefine s a len).scHalt = s.scHalt := rfl
@[simp] theorem State.undefine_halted (s : State) (a len : Nat) : (State.undefine s a len).halted = s.halted := rfl
@[simp] theorem State.undefine_mem (s : State) (a len : Nat) : (State.undefine s a len).mem = s.mem := rfl
@[simp] theorem State.undefine_ecc (s : State) (a len : Nat) : (State.undefine s a len).ecc = s.ecc := rfl
@[simp] theorem State.undefine_hw (s : State) (a len : Nat) : (State.undefine s a len).hw = s.hw := rfl
@[simp] theorem State.undefine_pools (s : State) (a len : Nat) : (State.undefine s a len).pools = s.pools := rfl
@[simp] theorem State.undefine_hostMem (s : State) (a len : Nat) : (State.undefine s a len).hostMem = s.hostMem := rfl
@[simp] theorem State.undefine_hostErr (s : State) (a len : Nat) : (State.undefine s a len).hostErr = s.hostErr := rfl
@[simp] theorem State.undefine_cisPoison (s : State) (a len : Nat) : (State.undefine s a len).cisPoison = s.cisPoison := rfl
@[simp] theorem State.undefine_bar2Reads (s : State) (a len : Nat) : (State.undefine s a len).bar2Reads = s.bar2Reads := rfl
@[simp] theorem State.undefine_ecs (s : State) (a len : Nat) : (State.undefine s a len).ecs = s.ecs := rfl
@[simp] theorem State.undefine_fence (s : State) (a len : Nat) : (State.undefine s a len).fence = s.fence := rfl
@[simp] theorem State.undefine_regions (s : State) (a len : Nat) : (State.undefine s a len).regions = s.regions := rfl
@[simp] theorem State.undefine_windows (s : State) (a len : Nat) : (State.undefine s a len).windows = s.windows := rfl
@[simp] theorem State.undefine_streams (s : State) (a len : Nat) : (State.undefine s a len).streams = s.streams := rfl
@[simp] theorem State.undefine_groups (s : State) (a len : Nat) : (State.undefine s a len).groups = s.groups := rfl
@[simp] theorem State.undefine_strPeek (s : State) (a len : Nat) : (State.undefine s a len).strPeek = s.strPeek := rfl
@[simp] theorem State.undefine_heaps (s : State) (a len : Nat) : (State.undefine s a len).heaps = s.heaps := rfl
@[simp] theorem State.undefine_seqs (s : State) (a len : Nat) : (State.undefine s a len).seqs = s.seqs := rfl
@[simp] theorem State.undefine_spills (s : State) (a len : Nat) : (State.undefine s a len).spills = s.spills := rfl
@[simp] theorem State.undefine_returns (s : State) (a len : Nat) : (State.undefine s a len).returns = s.returns := rfl
@[simp] theorem State.undefine_det (s : State) (a len : Nat) : (State.undefine s a len).det = s.det := rfl
@[simp] theorem State.undefine_cams (s : State) (a len : Nat) : (State.undefine s a len).cams = s.cams := rfl
@[simp] theorem State.undefine_audTable (s : State) (a len : Nat) : (State.undefine s a len).audTable = s.audTable := rfl
@[simp] theorem State.undefine_audFir (s : State) (a len : Nat) : (State.undefine s a len).audFir = s.audFir := rfl
@[simp] theorem State.undefine_fir (s : State) (a len : Nat) : (State.undefine s a len).fir = s.fir := rfl
@[simp] theorem State.undefine_bindings (s : State) (a len : Nat) : (State.undefine s a len).bindings = s.bindings := rfl
@[simp] theorem State.undefine_audio (s : State) (a len : Nat) : (State.undefine s a len).audio = s.audio := rfl
@[simp] theorem State.undefine_tdm (s : State) (a len : Nat) : (State.undefine s a len).tdm = s.tdm := rfl
@[simp] theorem State.undefine_pipes (s : State) (a len : Nat) : (State.undefine s a len).pipes = s.pipes := rfl
@[simp] theorem State.undefine_recTurn (s : State) (a len : Nat) : (State.undefine s a len).recTurn = s.recTurn := rfl
@[simp] theorem State.undefine_axes (s : State) (a len : Nat) : (State.undefine s a len).axes = s.axes := rfl
@[simp] theorem State.undefine_stations (s : State) (a len : Nat) : (State.undefine s a len).stations = s.stations := rfl
@[simp] theorem State.undefine_lpeLatched (s : State) (a len : Nat) : (State.undefine s a len).lpeLatched = s.lpeLatched := rfl
@[simp] theorem State.undefine_lpeBusy (s : State) (a len : Nat) : (State.undefine s a len).lpeBusy = s.lpeBusy := rfl
@[simp] theorem State.undefine_tb (s : State) (a len : Nat) : (State.undefine s a len).tb = s.tb := rfl
@[simp] theorem State.undefine_eth (s : State) (a len : Nat) : (State.undefine s a len).eth = s.eth := rfl
@[simp] theorem State.undefine_pm (s : State) (a len : Nat) : (State.undefine s a len).pm = s.pm := rfl
@[simp] theorem State.undefine_pdOn (s : State) (a len : Nat) : (State.undefine s a len).pdOn = s.pdOn := rfl
@[simp] theorem State.undefine_pdMoves (s : State) (a len : Nat) : (State.undefine s a len).pdMoves = s.pdMoves := rfl
@[simp] theorem State.undefine_pairs (s : State) (a len : Nat) : (State.undefine s a len).pairs = s.pairs := rfl
@[simp] theorem State.undefine_sph (s : State) (a len : Nat) : (State.undefine s a len).sph = s.sph := rfl
@[simp] theorem State.undefine_mirrors (s : State) (a len : Nat) : (State.undefine s a len).mirrors = s.mirrors := rfl
@[simp] theorem State.undefine_pending (s : State) (a len : Nat) : (State.undefine s a len).pending = s.pending := rfl
@[simp] theorem State.undefine_out (s : State) (a len : Nat) : (State.undefine s a len).out = s.out := rfl

/-! State.poisonRange -/
@[simp] theorem State.poisonRange_sys (s : State) (a len : Nat) : (State.poisonRange s a len).sys = s.sys := rfl
@[simp] theorem State.poisonRange_counter (s : State) (a len : Nat) : (State.poisonRange s a len).counter = s.counter := rfl
@[simp] theorem State.poisonRange_trb (s : State) (a len : Nat) : (State.poisonRange s a len).trb = s.trb := rfl
@[simp] theorem State.poisonRange_ports (s : State) (a len : Nat) : (State.poisonRange s a len).ports = s.ports := rfl
@[simp] theorem State.poisonRange_reqs (s : State) (a len : Nat) : (State.poisonRange s a len).reqs = s.reqs := rfl
@[simp] theorem State.poisonRange_sems (s : State) (a len : Nat) : (State.poisonRange s a len).sems = s.sems := rfl
@[simp] theorem State.poisonRange_errs (s : State) (a len : Nat) : (State.poisonRange s a len).errs = s.errs := rfl
@[simp] theorem State.poisonRange_setNow (s : State) (a len : Nat) : (State.poisonRange s a len).setNow = s.setNow := rfl
@[simp] theorem State.poisonRange_v1Raised (s : State) (a len : Nat) : (State.poisonRange s a len).v1Raised = s.v1Raised := rfl
@[simp] theorem State.poisonRange_cnts (s : State) (a len : Nat) : (State.poisonRange s a len).cnts = s.cnts := rfl
@[simp] theorem State.poisonRange_parts (s : State) (a len : Nat) : (State.poisonRange s a len).parts = s.parts := rfl
@[simp] theorem State.poisonRange_cmds (s : State) (a len : Nat) : (State.poisonRange s a len).cmds = s.cmds := rfl
@[simp] theorem State.poisonRange_admitNext (s : State) (a len : Nat) : (State.poisonRange s a len).admitNext = s.admitNext := rfl
@[simp] theorem State.poisonRange_issuedNow (s : State) (a len : Nat) : (State.poisonRange s a len).issuedNow = s.issuedNow := rfl
@[simp] theorem State.poisonRange_issueNext (s : State) (a len : Nat) : (State.poisonRange s a len).issueNext = s.issueNext := rfl
@[simp] theorem State.poisonRange_keys (s : State) (a len : Nat) : (State.poisonRange s a len).keys = s.keys := rfl
@[simp] theorem State.poisonRange_ops (s : State) (a len : Nat) : (State.poisonRange s a len).ops = s.ops := rfl
@[simp] theorem State.poisonRange_opNext (s : State) (a len : Nat) : (State.poisonRange s a len).opNext = s.opNext := rfl
@[simp] theorem State.poisonRange_scHalt (s : State) (a len : Nat) : (State.poisonRange s a len).scHalt = s.scHalt := rfl
@[simp] theorem State.poisonRange_halted (s : State) (a len : Nat) : (State.poisonRange s a len).halted = s.halted := rfl
@[simp] theorem State.poisonRange_mem (s : State) (a len : Nat) : (State.poisonRange s a len).mem = s.mem := rfl
@[simp] theorem State.poisonRange_undef (s : State) (a len : Nat) : (State.poisonRange s a len).undef = s.undef := rfl
@[simp] theorem State.poisonRange_ecc (s : State) (a len : Nat) : (State.poisonRange s a len).ecc = s.ecc := rfl
@[simp] theorem State.poisonRange_hw (s : State) (a len : Nat) : (State.poisonRange s a len).hw = s.hw := rfl
@[simp] theorem State.poisonRange_pools (s : State) (a len : Nat) : (State.poisonRange s a len).pools = s.pools := rfl
@[simp] theorem State.poisonRange_hostMem (s : State) (a len : Nat) : (State.poisonRange s a len).hostMem = s.hostMem := rfl
@[simp] theorem State.poisonRange_hostErr (s : State) (a len : Nat) : (State.poisonRange s a len).hostErr = s.hostErr := rfl
@[simp] theorem State.poisonRange_cisPoison (s : State) (a len : Nat) : (State.poisonRange s a len).cisPoison = s.cisPoison := rfl
@[simp] theorem State.poisonRange_bar2Reads (s : State) (a len : Nat) : (State.poisonRange s a len).bar2Reads = s.bar2Reads := rfl
@[simp] theorem State.poisonRange_ecs (s : State) (a len : Nat) : (State.poisonRange s a len).ecs = s.ecs := rfl
@[simp] theorem State.poisonRange_fence (s : State) (a len : Nat) : (State.poisonRange s a len).fence = s.fence := rfl
@[simp] theorem State.poisonRange_regions (s : State) (a len : Nat) : (State.poisonRange s a len).regions = s.regions := rfl
@[simp] theorem State.poisonRange_windows (s : State) (a len : Nat) : (State.poisonRange s a len).windows = s.windows := rfl
@[simp] theorem State.poisonRange_streams (s : State) (a len : Nat) : (State.poisonRange s a len).streams = s.streams := rfl
@[simp] theorem State.poisonRange_groups (s : State) (a len : Nat) : (State.poisonRange s a len).groups = s.groups := rfl
@[simp] theorem State.poisonRange_strPeek (s : State) (a len : Nat) : (State.poisonRange s a len).strPeek = s.strPeek := rfl
@[simp] theorem State.poisonRange_heaps (s : State) (a len : Nat) : (State.poisonRange s a len).heaps = s.heaps := rfl
@[simp] theorem State.poisonRange_seqs (s : State) (a len : Nat) : (State.poisonRange s a len).seqs = s.seqs := rfl
@[simp] theorem State.poisonRange_spills (s : State) (a len : Nat) : (State.poisonRange s a len).spills = s.spills := rfl
@[simp] theorem State.poisonRange_returns (s : State) (a len : Nat) : (State.poisonRange s a len).returns = s.returns := rfl
@[simp] theorem State.poisonRange_det (s : State) (a len : Nat) : (State.poisonRange s a len).det = s.det := rfl
@[simp] theorem State.poisonRange_cams (s : State) (a len : Nat) : (State.poisonRange s a len).cams = s.cams := rfl
@[simp] theorem State.poisonRange_audTable (s : State) (a len : Nat) : (State.poisonRange s a len).audTable = s.audTable := rfl
@[simp] theorem State.poisonRange_audFir (s : State) (a len : Nat) : (State.poisonRange s a len).audFir = s.audFir := rfl
@[simp] theorem State.poisonRange_fir (s : State) (a len : Nat) : (State.poisonRange s a len).fir = s.fir := rfl
@[simp] theorem State.poisonRange_bindings (s : State) (a len : Nat) : (State.poisonRange s a len).bindings = s.bindings := rfl
@[simp] theorem State.poisonRange_audio (s : State) (a len : Nat) : (State.poisonRange s a len).audio = s.audio := rfl
@[simp] theorem State.poisonRange_tdm (s : State) (a len : Nat) : (State.poisonRange s a len).tdm = s.tdm := rfl
@[simp] theorem State.poisonRange_pipes (s : State) (a len : Nat) : (State.poisonRange s a len).pipes = s.pipes := rfl
@[simp] theorem State.poisonRange_recTurn (s : State) (a len : Nat) : (State.poisonRange s a len).recTurn = s.recTurn := rfl
@[simp] theorem State.poisonRange_axes (s : State) (a len : Nat) : (State.poisonRange s a len).axes = s.axes := rfl
@[simp] theorem State.poisonRange_stations (s : State) (a len : Nat) : (State.poisonRange s a len).stations = s.stations := rfl
@[simp] theorem State.poisonRange_lpeLatched (s : State) (a len : Nat) : (State.poisonRange s a len).lpeLatched = s.lpeLatched := rfl
@[simp] theorem State.poisonRange_lpeBusy (s : State) (a len : Nat) : (State.poisonRange s a len).lpeBusy = s.lpeBusy := rfl
@[simp] theorem State.poisonRange_tb (s : State) (a len : Nat) : (State.poisonRange s a len).tb = s.tb := rfl
@[simp] theorem State.poisonRange_eth (s : State) (a len : Nat) : (State.poisonRange s a len).eth = s.eth := rfl
@[simp] theorem State.poisonRange_pm (s : State) (a len : Nat) : (State.poisonRange s a len).pm = s.pm := rfl
@[simp] theorem State.poisonRange_pdOn (s : State) (a len : Nat) : (State.poisonRange s a len).pdOn = s.pdOn := rfl
@[simp] theorem State.poisonRange_pdMoves (s : State) (a len : Nat) : (State.poisonRange s a len).pdMoves = s.pdMoves := rfl
@[simp] theorem State.poisonRange_pairs (s : State) (a len : Nat) : (State.poisonRange s a len).pairs = s.pairs := rfl
@[simp] theorem State.poisonRange_sph (s : State) (a len : Nat) : (State.poisonRange s a len).sph = s.sph := rfl
@[simp] theorem State.poisonRange_mirrors (s : State) (a len : Nat) : (State.poisonRange s a len).mirrors = s.mirrors := rfl
@[simp] theorem State.poisonRange_pending (s : State) (a len : Nat) : (State.poisonRange s a len).pending = s.pending := rfl
@[simp] theorem State.poisonRange_out (s : State) (a len : Nat) : (State.poisonRange s a len).out = s.out := rfl
@[simp] theorem State.poisonRange_fresh (s : State) (a len : Nat) : (State.poisonRange s a len).fresh = s.fresh := rfl

/-! State.hostStore -/
@[simp] theorem State.hostStore_sys (s : State) (p : Port) (a : Nat) (bs : List Byte) : (State.hostStore s p a bs).sys = s.sys := rfl
@[simp] theorem State.hostStore_counter (s : State) (p : Port) (a : Nat) (bs : List Byte) : (State.hostStore s p a bs).counter = s.counter := rfl
@[simp] theorem State.hostStore_trb (s : State) (p : Port) (a : Nat) (bs : List Byte) : (State.hostStore s p a bs).trb = s.trb := rfl
@[simp] theorem State.hostStore_ports (s : State) (p : Port) (a : Nat) (bs : List Byte) : (State.hostStore s p a bs).ports = s.ports := rfl
@[simp] theorem State.hostStore_reqs (s : State) (p : Port) (a : Nat) (bs : List Byte) : (State.hostStore s p a bs).reqs = s.reqs := rfl
@[simp] theorem State.hostStore_sems (s : State) (p : Port) (a : Nat) (bs : List Byte) : (State.hostStore s p a bs).sems = s.sems := rfl
@[simp] theorem State.hostStore_errs (s : State) (p : Port) (a : Nat) (bs : List Byte) : (State.hostStore s p a bs).errs = s.errs := rfl
@[simp] theorem State.hostStore_setNow (s : State) (p : Port) (a : Nat) (bs : List Byte) : (State.hostStore s p a bs).setNow = s.setNow := rfl
@[simp] theorem State.hostStore_v1Raised (s : State) (p : Port) (a : Nat) (bs : List Byte) : (State.hostStore s p a bs).v1Raised = s.v1Raised := rfl
@[simp] theorem State.hostStore_cnts (s : State) (p : Port) (a : Nat) (bs : List Byte) : (State.hostStore s p a bs).cnts = s.cnts := rfl
@[simp] theorem State.hostStore_parts (s : State) (p : Port) (a : Nat) (bs : List Byte) : (State.hostStore s p a bs).parts = s.parts := rfl
@[simp] theorem State.hostStore_cmds (s : State) (p : Port) (a : Nat) (bs : List Byte) : (State.hostStore s p a bs).cmds = s.cmds := rfl
@[simp] theorem State.hostStore_admitNext (s : State) (p : Port) (a : Nat) (bs : List Byte) : (State.hostStore s p a bs).admitNext = s.admitNext := rfl
@[simp] theorem State.hostStore_issuedNow (s : State) (p : Port) (a : Nat) (bs : List Byte) : (State.hostStore s p a bs).issuedNow = s.issuedNow := rfl
@[simp] theorem State.hostStore_issueNext (s : State) (p : Port) (a : Nat) (bs : List Byte) : (State.hostStore s p a bs).issueNext = s.issueNext := rfl
@[simp] theorem State.hostStore_keys (s : State) (p : Port) (a : Nat) (bs : List Byte) : (State.hostStore s p a bs).keys = s.keys := rfl
@[simp] theorem State.hostStore_ops (s : State) (p : Port) (a : Nat) (bs : List Byte) : (State.hostStore s p a bs).ops = s.ops := rfl
@[simp] theorem State.hostStore_opNext (s : State) (p : Port) (a : Nat) (bs : List Byte) : (State.hostStore s p a bs).opNext = s.opNext := rfl
@[simp] theorem State.hostStore_scHalt (s : State) (p : Port) (a : Nat) (bs : List Byte) : (State.hostStore s p a bs).scHalt = s.scHalt := rfl
@[simp] theorem State.hostStore_halted (s : State) (p : Port) (a : Nat) (bs : List Byte) : (State.hostStore s p a bs).halted = s.halted := rfl
@[simp] theorem State.hostStore_mem (s : State) (p : Port) (a : Nat) (bs : List Byte) : (State.hostStore s p a bs).mem = s.mem := rfl
@[simp] theorem State.hostStore_undef (s : State) (p : Port) (a : Nat) (bs : List Byte) : (State.hostStore s p a bs).undef = s.undef := rfl
@[simp] theorem State.hostStore_poison (s : State) (p : Port) (a : Nat) (bs : List Byte) : (State.hostStore s p a bs).poison = s.poison := rfl
@[simp] theorem State.hostStore_ecc (s : State) (p : Port) (a : Nat) (bs : List Byte) : (State.hostStore s p a bs).ecc = s.ecc := rfl
@[simp] theorem State.hostStore_hw (s : State) (p : Port) (a : Nat) (bs : List Byte) : (State.hostStore s p a bs).hw = s.hw := rfl
@[simp] theorem State.hostStore_pools (s : State) (p : Port) (a : Nat) (bs : List Byte) : (State.hostStore s p a bs).pools = s.pools := rfl
@[simp] theorem State.hostStore_hostErr (s : State) (p : Port) (a : Nat) (bs : List Byte) : (State.hostStore s p a bs).hostErr = s.hostErr := rfl
@[simp] theorem State.hostStore_cisPoison (s : State) (p : Port) (a : Nat) (bs : List Byte) : (State.hostStore s p a bs).cisPoison = s.cisPoison := rfl
@[simp] theorem State.hostStore_bar2Reads (s : State) (p : Port) (a : Nat) (bs : List Byte) : (State.hostStore s p a bs).bar2Reads = s.bar2Reads := rfl
@[simp] theorem State.hostStore_ecs (s : State) (p : Port) (a : Nat) (bs : List Byte) : (State.hostStore s p a bs).ecs = s.ecs := rfl
@[simp] theorem State.hostStore_fence (s : State) (p : Port) (a : Nat) (bs : List Byte) : (State.hostStore s p a bs).fence = s.fence := rfl
@[simp] theorem State.hostStore_regions (s : State) (p : Port) (a : Nat) (bs : List Byte) : (State.hostStore s p a bs).regions = s.regions := rfl
@[simp] theorem State.hostStore_windows (s : State) (p : Port) (a : Nat) (bs : List Byte) : (State.hostStore s p a bs).windows = s.windows := rfl
@[simp] theorem State.hostStore_streams (s : State) (p : Port) (a : Nat) (bs : List Byte) : (State.hostStore s p a bs).streams = s.streams := rfl
@[simp] theorem State.hostStore_groups (s : State) (p : Port) (a : Nat) (bs : List Byte) : (State.hostStore s p a bs).groups = s.groups := rfl
@[simp] theorem State.hostStore_strPeek (s : State) (p : Port) (a : Nat) (bs : List Byte) : (State.hostStore s p a bs).strPeek = s.strPeek := rfl
@[simp] theorem State.hostStore_heaps (s : State) (p : Port) (a : Nat) (bs : List Byte) : (State.hostStore s p a bs).heaps = s.heaps := rfl
@[simp] theorem State.hostStore_seqs (s : State) (p : Port) (a : Nat) (bs : List Byte) : (State.hostStore s p a bs).seqs = s.seqs := rfl
@[simp] theorem State.hostStore_spills (s : State) (p : Port) (a : Nat) (bs : List Byte) : (State.hostStore s p a bs).spills = s.spills := rfl
@[simp] theorem State.hostStore_returns (s : State) (p : Port) (a : Nat) (bs : List Byte) : (State.hostStore s p a bs).returns = s.returns := rfl
@[simp] theorem State.hostStore_det (s : State) (p : Port) (a : Nat) (bs : List Byte) : (State.hostStore s p a bs).det = s.det := rfl
@[simp] theorem State.hostStore_cams (s : State) (p : Port) (a : Nat) (bs : List Byte) : (State.hostStore s p a bs).cams = s.cams := rfl
@[simp] theorem State.hostStore_audTable (s : State) (p : Port) (a : Nat) (bs : List Byte) : (State.hostStore s p a bs).audTable = s.audTable := rfl
@[simp] theorem State.hostStore_audFir (s : State) (p : Port) (a : Nat) (bs : List Byte) : (State.hostStore s p a bs).audFir = s.audFir := rfl
@[simp] theorem State.hostStore_fir (s : State) (p : Port) (a : Nat) (bs : List Byte) : (State.hostStore s p a bs).fir = s.fir := rfl
@[simp] theorem State.hostStore_bindings (s : State) (p : Port) (a : Nat) (bs : List Byte) : (State.hostStore s p a bs).bindings = s.bindings := rfl
@[simp] theorem State.hostStore_audio (s : State) (p : Port) (a : Nat) (bs : List Byte) : (State.hostStore s p a bs).audio = s.audio := rfl
@[simp] theorem State.hostStore_tdm (s : State) (p : Port) (a : Nat) (bs : List Byte) : (State.hostStore s p a bs).tdm = s.tdm := rfl
@[simp] theorem State.hostStore_pipes (s : State) (p : Port) (a : Nat) (bs : List Byte) : (State.hostStore s p a bs).pipes = s.pipes := rfl
@[simp] theorem State.hostStore_recTurn (s : State) (p : Port) (a : Nat) (bs : List Byte) : (State.hostStore s p a bs).recTurn = s.recTurn := rfl
@[simp] theorem State.hostStore_axes (s : State) (p : Port) (a : Nat) (bs : List Byte) : (State.hostStore s p a bs).axes = s.axes := rfl
@[simp] theorem State.hostStore_stations (s : State) (p : Port) (a : Nat) (bs : List Byte) : (State.hostStore s p a bs).stations = s.stations := rfl
@[simp] theorem State.hostStore_lpeLatched (s : State) (p : Port) (a : Nat) (bs : List Byte) : (State.hostStore s p a bs).lpeLatched = s.lpeLatched := rfl
@[simp] theorem State.hostStore_lpeBusy (s : State) (p : Port) (a : Nat) (bs : List Byte) : (State.hostStore s p a bs).lpeBusy = s.lpeBusy := rfl
@[simp] theorem State.hostStore_tb (s : State) (p : Port) (a : Nat) (bs : List Byte) : (State.hostStore s p a bs).tb = s.tb := rfl
@[simp] theorem State.hostStore_eth (s : State) (p : Port) (a : Nat) (bs : List Byte) : (State.hostStore s p a bs).eth = s.eth := rfl
@[simp] theorem State.hostStore_pm (s : State) (p : Port) (a : Nat) (bs : List Byte) : (State.hostStore s p a bs).pm = s.pm := rfl
@[simp] theorem State.hostStore_pdOn (s : State) (p : Port) (a : Nat) (bs : List Byte) : (State.hostStore s p a bs).pdOn = s.pdOn := rfl
@[simp] theorem State.hostStore_pdMoves (s : State) (p : Port) (a : Nat) (bs : List Byte) : (State.hostStore s p a bs).pdMoves = s.pdMoves := rfl
@[simp] theorem State.hostStore_pairs (s : State) (p : Port) (a : Nat) (bs : List Byte) : (State.hostStore s p a bs).pairs = s.pairs := rfl
@[simp] theorem State.hostStore_sph (s : State) (p : Port) (a : Nat) (bs : List Byte) : (State.hostStore s p a bs).sph = s.sph := rfl
@[simp] theorem State.hostStore_mirrors (s : State) (p : Port) (a : Nat) (bs : List Byte) : (State.hostStore s p a bs).mirrors = s.mirrors := rfl
@[simp] theorem State.hostStore_pending (s : State) (p : Port) (a : Nat) (bs : List Byte) : (State.hostStore s p a bs).pending = s.pending := rfl
@[simp] theorem State.hostStore_fresh (s : State) (p : Port) (a : Nat) (bs : List Byte) : (State.hostStore s p a bs).fresh = s.fresh := rfl

/-! State.siphonSend -/
@[simp] theorem State.siphonSend_sys (s : State) (type flags addr window part counter arg : Nat) (bs : List Byte) : (State.siphonSend s type flags addr window part counter arg bs).sys = s.sys := by unfold State.siphonSend; split <;> rfl
@[simp] theorem State.siphonSend_counter (s : State) (type flags addr window part counter arg : Nat) (bs : List Byte) : (State.siphonSend s type flags addr window part counter arg bs).counter = s.counter := by unfold State.siphonSend; split <;> rfl
@[simp] theorem State.siphonSend_trb (s : State) (type flags addr window part counter arg : Nat) (bs : List Byte) : (State.siphonSend s type flags addr window part counter arg bs).trb = s.trb := by unfold State.siphonSend; split <;> rfl
@[simp] theorem State.siphonSend_ports (s : State) (type flags addr window part counter arg : Nat) (bs : List Byte) : (State.siphonSend s type flags addr window part counter arg bs).ports = s.ports := by unfold State.siphonSend; split <;> rfl
@[simp] theorem State.siphonSend_reqs (s : State) (type flags addr window part counter arg : Nat) (bs : List Byte) : (State.siphonSend s type flags addr window part counter arg bs).reqs = s.reqs := by unfold State.siphonSend; split <;> rfl
@[simp] theorem State.siphonSend_sems (s : State) (type flags addr window part counter arg : Nat) (bs : List Byte) : (State.siphonSend s type flags addr window part counter arg bs).sems = s.sems := by unfold State.siphonSend; split <;> rfl
@[simp] theorem State.siphonSend_errs (s : State) (type flags addr window part counter arg : Nat) (bs : List Byte) : (State.siphonSend s type flags addr window part counter arg bs).errs = s.errs := by unfold State.siphonSend; split <;> rfl
@[simp] theorem State.siphonSend_setNow (s : State) (type flags addr window part counter arg : Nat) (bs : List Byte) : (State.siphonSend s type flags addr window part counter arg bs).setNow = s.setNow := by unfold State.siphonSend; split <;> rfl
@[simp] theorem State.siphonSend_v1Raised (s : State) (type flags addr window part counter arg : Nat) (bs : List Byte) : (State.siphonSend s type flags addr window part counter arg bs).v1Raised = s.v1Raised := by unfold State.siphonSend; split <;> rfl
@[simp] theorem State.siphonSend_cnts (s : State) (type flags addr window part counter arg : Nat) (bs : List Byte) : (State.siphonSend s type flags addr window part counter arg bs).cnts = s.cnts := by unfold State.siphonSend; split <;> rfl
@[simp] theorem State.siphonSend_parts (s : State) (type flags addr window part counter arg : Nat) (bs : List Byte) : (State.siphonSend s type flags addr window part counter arg bs).parts = s.parts := by unfold State.siphonSend; split <;> rfl
@[simp] theorem State.siphonSend_cmds (s : State) (type flags addr window part counter arg : Nat) (bs : List Byte) : (State.siphonSend s type flags addr window part counter arg bs).cmds = s.cmds := by unfold State.siphonSend; split <;> rfl
@[simp] theorem State.siphonSend_admitNext (s : State) (type flags addr window part counter arg : Nat) (bs : List Byte) : (State.siphonSend s type flags addr window part counter arg bs).admitNext = s.admitNext := by unfold State.siphonSend; split <;> rfl
@[simp] theorem State.siphonSend_issuedNow (s : State) (type flags addr window part counter arg : Nat) (bs : List Byte) : (State.siphonSend s type flags addr window part counter arg bs).issuedNow = s.issuedNow := by unfold State.siphonSend; split <;> rfl
@[simp] theorem State.siphonSend_issueNext (s : State) (type flags addr window part counter arg : Nat) (bs : List Byte) : (State.siphonSend s type flags addr window part counter arg bs).issueNext = s.issueNext := by unfold State.siphonSend; split <;> rfl
@[simp] theorem State.siphonSend_keys (s : State) (type flags addr window part counter arg : Nat) (bs : List Byte) : (State.siphonSend s type flags addr window part counter arg bs).keys = s.keys := by unfold State.siphonSend; split <;> rfl
@[simp] theorem State.siphonSend_ops (s : State) (type flags addr window part counter arg : Nat) (bs : List Byte) : (State.siphonSend s type flags addr window part counter arg bs).ops = s.ops := by unfold State.siphonSend; split <;> rfl
@[simp] theorem State.siphonSend_opNext (s : State) (type flags addr window part counter arg : Nat) (bs : List Byte) : (State.siphonSend s type flags addr window part counter arg bs).opNext = s.opNext := by unfold State.siphonSend; split <;> rfl
@[simp] theorem State.siphonSend_scHalt (s : State) (type flags addr window part counter arg : Nat) (bs : List Byte) : (State.siphonSend s type flags addr window part counter arg bs).scHalt = s.scHalt := by unfold State.siphonSend; split <;> rfl
@[simp] theorem State.siphonSend_halted (s : State) (type flags addr window part counter arg : Nat) (bs : List Byte) : (State.siphonSend s type flags addr window part counter arg bs).halted = s.halted := by unfold State.siphonSend; split <;> rfl
@[simp] theorem State.siphonSend_mem (s : State) (type flags addr window part counter arg : Nat) (bs : List Byte) : (State.siphonSend s type flags addr window part counter arg bs).mem = s.mem := by unfold State.siphonSend; split <;> rfl
@[simp] theorem State.siphonSend_undef (s : State) (type flags addr window part counter arg : Nat) (bs : List Byte) : (State.siphonSend s type flags addr window part counter arg bs).undef = s.undef := by unfold State.siphonSend; split <;> rfl
@[simp] theorem State.siphonSend_poison (s : State) (type flags addr window part counter arg : Nat) (bs : List Byte) : (State.siphonSend s type flags addr window part counter arg bs).poison = s.poison := by unfold State.siphonSend; split <;> rfl
@[simp] theorem State.siphonSend_ecc (s : State) (type flags addr window part counter arg : Nat) (bs : List Byte) : (State.siphonSend s type flags addr window part counter arg bs).ecc = s.ecc := by unfold State.siphonSend; split <;> rfl
@[simp] theorem State.siphonSend_hw (s : State) (type flags addr window part counter arg : Nat) (bs : List Byte) : (State.siphonSend s type flags addr window part counter arg bs).hw = s.hw := by unfold State.siphonSend; split <;> rfl
@[simp] theorem State.siphonSend_pools (s : State) (type flags addr window part counter arg : Nat) (bs : List Byte) : (State.siphonSend s type flags addr window part counter arg bs).pools = s.pools := by unfold State.siphonSend; split <;> rfl
@[simp] theorem State.siphonSend_hostMem (s : State) (type flags addr window part counter arg : Nat) (bs : List Byte) : (State.siphonSend s type flags addr window part counter arg bs).hostMem = s.hostMem := by unfold State.siphonSend; split <;> rfl
@[simp] theorem State.siphonSend_hostErr (s : State) (type flags addr window part counter arg : Nat) (bs : List Byte) : (State.siphonSend s type flags addr window part counter arg bs).hostErr = s.hostErr := by unfold State.siphonSend; split <;> rfl
@[simp] theorem State.siphonSend_cisPoison (s : State) (type flags addr window part counter arg : Nat) (bs : List Byte) : (State.siphonSend s type flags addr window part counter arg bs).cisPoison = s.cisPoison := by unfold State.siphonSend; split <;> rfl
@[simp] theorem State.siphonSend_bar2Reads (s : State) (type flags addr window part counter arg : Nat) (bs : List Byte) : (State.siphonSend s type flags addr window part counter arg bs).bar2Reads = s.bar2Reads := by unfold State.siphonSend; split <;> rfl
@[simp] theorem State.siphonSend_ecs (s : State) (type flags addr window part counter arg : Nat) (bs : List Byte) : (State.siphonSend s type flags addr window part counter arg bs).ecs = s.ecs := by unfold State.siphonSend; split <;> rfl
@[simp] theorem State.siphonSend_fence (s : State) (type flags addr window part counter arg : Nat) (bs : List Byte) : (State.siphonSend s type flags addr window part counter arg bs).fence = s.fence := by unfold State.siphonSend; split <;> rfl
@[simp] theorem State.siphonSend_regions (s : State) (type flags addr window part counter arg : Nat) (bs : List Byte) : (State.siphonSend s type flags addr window part counter arg bs).regions = s.regions := by unfold State.siphonSend; split <;> rfl
@[simp] theorem State.siphonSend_windows (s : State) (type flags addr window part counter arg : Nat) (bs : List Byte) : (State.siphonSend s type flags addr window part counter arg bs).windows = s.windows := by unfold State.siphonSend; split <;> rfl
@[simp] theorem State.siphonSend_streams (s : State) (type flags addr window part counter arg : Nat) (bs : List Byte) : (State.siphonSend s type flags addr window part counter arg bs).streams = s.streams := by unfold State.siphonSend; split <;> rfl
@[simp] theorem State.siphonSend_groups (s : State) (type flags addr window part counter arg : Nat) (bs : List Byte) : (State.siphonSend s type flags addr window part counter arg bs).groups = s.groups := by unfold State.siphonSend; split <;> rfl
@[simp] theorem State.siphonSend_strPeek (s : State) (type flags addr window part counter arg : Nat) (bs : List Byte) : (State.siphonSend s type flags addr window part counter arg bs).strPeek = s.strPeek := by unfold State.siphonSend; split <;> rfl
@[simp] theorem State.siphonSend_heaps (s : State) (type flags addr window part counter arg : Nat) (bs : List Byte) : (State.siphonSend s type flags addr window part counter arg bs).heaps = s.heaps := by unfold State.siphonSend; split <;> rfl
@[simp] theorem State.siphonSend_seqs (s : State) (type flags addr window part counter arg : Nat) (bs : List Byte) : (State.siphonSend s type flags addr window part counter arg bs).seqs = s.seqs := by unfold State.siphonSend; split <;> rfl
@[simp] theorem State.siphonSend_spills (s : State) (type flags addr window part counter arg : Nat) (bs : List Byte) : (State.siphonSend s type flags addr window part counter arg bs).spills = s.spills := by unfold State.siphonSend; split <;> rfl
@[simp] theorem State.siphonSend_returns (s : State) (type flags addr window part counter arg : Nat) (bs : List Byte) : (State.siphonSend s type flags addr window part counter arg bs).returns = s.returns := by unfold State.siphonSend; split <;> rfl
@[simp] theorem State.siphonSend_det (s : State) (type flags addr window part counter arg : Nat) (bs : List Byte) : (State.siphonSend s type flags addr window part counter arg bs).det = s.det := by unfold State.siphonSend; split <;> rfl
@[simp] theorem State.siphonSend_cams (s : State) (type flags addr window part counter arg : Nat) (bs : List Byte) : (State.siphonSend s type flags addr window part counter arg bs).cams = s.cams := by unfold State.siphonSend; split <;> rfl
@[simp] theorem State.siphonSend_audTable (s : State) (type flags addr window part counter arg : Nat) (bs : List Byte) : (State.siphonSend s type flags addr window part counter arg bs).audTable = s.audTable := by unfold State.siphonSend; split <;> rfl
@[simp] theorem State.siphonSend_audFir (s : State) (type flags addr window part counter arg : Nat) (bs : List Byte) : (State.siphonSend s type flags addr window part counter arg bs).audFir = s.audFir := by unfold State.siphonSend; split <;> rfl
@[simp] theorem State.siphonSend_fir (s : State) (type flags addr window part counter arg : Nat) (bs : List Byte) : (State.siphonSend s type flags addr window part counter arg bs).fir = s.fir := by unfold State.siphonSend; split <;> rfl
@[simp] theorem State.siphonSend_bindings (s : State) (type flags addr window part counter arg : Nat) (bs : List Byte) : (State.siphonSend s type flags addr window part counter arg bs).bindings = s.bindings := by unfold State.siphonSend; split <;> rfl
@[simp] theorem State.siphonSend_audio (s : State) (type flags addr window part counter arg : Nat) (bs : List Byte) : (State.siphonSend s type flags addr window part counter arg bs).audio = s.audio := by unfold State.siphonSend; split <;> rfl
@[simp] theorem State.siphonSend_tdm (s : State) (type flags addr window part counter arg : Nat) (bs : List Byte) : (State.siphonSend s type flags addr window part counter arg bs).tdm = s.tdm := by unfold State.siphonSend; split <;> rfl
@[simp] theorem State.siphonSend_pipes (s : State) (type flags addr window part counter arg : Nat) (bs : List Byte) : (State.siphonSend s type flags addr window part counter arg bs).pipes = s.pipes := by unfold State.siphonSend; split <;> rfl
@[simp] theorem State.siphonSend_recTurn (s : State) (type flags addr window part counter arg : Nat) (bs : List Byte) : (State.siphonSend s type flags addr window part counter arg bs).recTurn = s.recTurn := by unfold State.siphonSend; split <;> rfl
@[simp] theorem State.siphonSend_axes (s : State) (type flags addr window part counter arg : Nat) (bs : List Byte) : (State.siphonSend s type flags addr window part counter arg bs).axes = s.axes := by unfold State.siphonSend; split <;> rfl
@[simp] theorem State.siphonSend_stations (s : State) (type flags addr window part counter arg : Nat) (bs : List Byte) : (State.siphonSend s type flags addr window part counter arg bs).stations = s.stations := by unfold State.siphonSend; split <;> rfl
@[simp] theorem State.siphonSend_lpeLatched (s : State) (type flags addr window part counter arg : Nat) (bs : List Byte) : (State.siphonSend s type flags addr window part counter arg bs).lpeLatched = s.lpeLatched := by unfold State.siphonSend; split <;> rfl
@[simp] theorem State.siphonSend_lpeBusy (s : State) (type flags addr window part counter arg : Nat) (bs : List Byte) : (State.siphonSend s type flags addr window part counter arg bs).lpeBusy = s.lpeBusy := by unfold State.siphonSend; split <;> rfl
@[simp] theorem State.siphonSend_tb (s : State) (type flags addr window part counter arg : Nat) (bs : List Byte) : (State.siphonSend s type flags addr window part counter arg bs).tb = s.tb := by unfold State.siphonSend; split <;> rfl
@[simp] theorem State.siphonSend_eth (s : State) (type flags addr window part counter arg : Nat) (bs : List Byte) : (State.siphonSend s type flags addr window part counter arg bs).eth = s.eth := by unfold State.siphonSend; split <;> rfl
@[simp] theorem State.siphonSend_pm (s : State) (type flags addr window part counter arg : Nat) (bs : List Byte) : (State.siphonSend s type flags addr window part counter arg bs).pm = s.pm := by unfold State.siphonSend; split <;> rfl
@[simp] theorem State.siphonSend_pdOn (s : State) (type flags addr window part counter arg : Nat) (bs : List Byte) : (State.siphonSend s type flags addr window part counter arg bs).pdOn = s.pdOn := by unfold State.siphonSend; split <;> rfl
@[simp] theorem State.siphonSend_pdMoves (s : State) (type flags addr window part counter arg : Nat) (bs : List Byte) : (State.siphonSend s type flags addr window part counter arg bs).pdMoves = s.pdMoves := by unfold State.siphonSend; split <;> rfl
@[simp] theorem State.siphonSend_pairs (s : State) (type flags addr window part counter arg : Nat) (bs : List Byte) : (State.siphonSend s type flags addr window part counter arg bs).pairs = s.pairs := by unfold State.siphonSend; split <;> rfl
@[simp] theorem State.siphonSend_mirrors (s : State) (type flags addr window part counter arg : Nat) (bs : List Byte) : (State.siphonSend s type flags addr window part counter arg bs).mirrors = s.mirrors := by unfold State.siphonSend; split <;> rfl
@[simp] theorem State.siphonSend_pending (s : State) (type flags addr window part counter arg : Nat) (bs : List Byte) : (State.siphonSend s type flags addr window part counter arg bs).pending = s.pending := by unfold State.siphonSend; split <;> rfl
@[simp] theorem State.siphonSend_fresh (s : State) (type flags addr window part counter arg : Nat) (bs : List Byte) : (State.siphonSend s type flags addr window part counter arg bs).fresh = s.fresh := by unfold State.siphonSend; split <;> rfl

@[simp] theorem State.log_trb_configOk (s : State) (code sub inst : Nat) (args : List Byte) : (State.log s code sub inst args).trb.configOk = s.trb.configOk := rfl
@[simp] theorem State.log_trb_identityOk (s : State) (code sub inst : Nat) (args : List Byte) : (State.log s code sub inst args).trb.identityOk = s.trb.identityOk := rfl
@[simp] theorem State.log_trb_recoveryBoot (s : State) (code sub inst : Nat) (args : List Byte) : (State.log s code sub inst args).trb.recoveryBoot = s.trb.recoveryBoot := rfl
@[simp] theorem State.log_trb_flash (s : State) (code sub inst : Nat) (args : List Byte) : (State.log s code sub inst args).trb.flash = s.trb.flash := rfl
@[simp] theorem State.log_trb_running (s : State) (code sub inst : Nat) (args : List Byte) : (State.log s code sub inst args).trb.running = s.trb.running := rfl
@[simp] theorem State.log_trb_recovery (s : State) (code sub inst : Nat) (args : List Byte) : (State.log s code sub inst args).trb.recovery = s.trb.recovery := rfl
@[simp] theorem State.log_trb_staged (s : State) (code sub inst : Nat) (args : List Byte) : (State.log s code sub inst args).trb.staged = s.trb.staged := rfl
@[simp] theorem State.log_trb_stagedPort (s : State) (code sub inst : Nat) (args : List Byte) : (State.log s code sub inst args).trb.stagedPort = s.trb.stagedPort := rfl
@[simp] theorem State.log_trb_verified (s : State) (code sub inst : Nat) (args : List Byte) : (State.log s code sub inst args).trb.verified = s.trb.verified := rfl
@[simp] theorem State.log_trb_commit (s : State) (code sub inst : Nat) (args : List Byte) : (State.log s code sub inst args).trb.commit = s.trb.commit := rfl
@[simp] theorem State.log_trb_alertMask (s : State) (code sub inst : Nat) (args : List Byte) : (State.log s code sub inst args).trb.alertMask = s.trb.alertMask := rfl
@[simp] theorem State.log_trb_fenced (s : State) (code sub inst : Nat) (args : List Byte) : (State.log s code sub inst args).trb.fenced = s.trb.fenced := rfl
@[simp] theorem State.log_trb_testFailed (s : State) (code sub inst : Nat) (args : List Byte) : (State.log s code sub inst args).trb.testFailed = s.trb.testFailed := rfl
/-! Reading back -/
@[simp] theorem State.setPort_port (s : State) (p : Port) (x : HostPort) : (s.setPort p x).port p = x := by
  simp [State.setPort, State.port]
theorem State.setPort_port_of_ne (s : State) (p q : Port) (x : HostPort) (h : q ≠ p) : (s.setPort p x).port q = s.port q := by
  cases p <;> cases q <;> simp_all [State.setPort, State.port, Port.idx]
theorem State.setPart_get (s : State) (p : PartId) (x : Part) (q : PartId) :
    (s.setPart p x).parts[q] = if p = q then x else s.parts[q] := by
  simp [State.setPart, Vector.getElem_set, Fin.ext_iff]
@[simp] theorem State.setPart_self (s : State) (p : PartId) (x : Part) : (s.setPart p x).parts[p] = x := by
  simp [State.setPart]
@[simp] theorem State.setSlot_slot (s : State) (p : Port) (i : SlotId) (x : Slot) : ((s.setSlot p i x).port p).slots[i] = x := by
  simp [State.setSlot]

end Sys2Proof.Machine
end

