-- ==== Sys2Proof/Laws/Memory.lean ====
section
/-! SUPPORT. Memory: its canonical form and what keeps it; a byte read after a write; and what each operation on memory changes. -/
namespace Sys2Proof.Machine

open Sys2Proof.Safety

/-! ## The canonical form -/

theorem cellsWf_iff (m : List Host.Cell) : cellsWf m = true ↔ m.Pairwise (fun x y => x.1 < y.1) ∧ ∀ c ∈ m, c.2 ≠ 0 := by
  simp [cellsWf]

theorem cellsWf_nil : cellsWf [] = true := rfl

/-- Leaving entries out keeps the form. -/
theorem cellsWf_filter {m : List Host.Cell} (p : Host.Cell → Bool) (h : cellsWf m = true) : cellsWf (m.filter p) = true := by
  rw [cellsWf_iff] at h ⊢
  exact ⟨h.1.filter p, fun c hc => h.2 c (List.mem_filter.mp hc).1⟩

/-- Cells laid from an address up lie in the stretch of the bytes. -/
theorem mem_mkCells {a : Nat} {bs : List Byte} {c : Host.Cell} (h : c ∈ mkCells a bs) :
    a ≤ c.1 ∧ c.1 < a + bs.length ∧ c.2 ≠ 0 ∧ bs[c.1 - a]? = some c.2 := by
  induction bs generalizing a with
  | nil => simp [mkCells] at h
  | cons b bs ih =>
    by_cases hb : b = 0
    · simp only [mkCells, if_pos hb] at h
      have := ih h
      refine ⟨by omega, by simp; omega, this.2.2.1, ?_⟩
      rw [show c.1 - a = (c.1 - (a + 1)) + 1 by omega]
      simpa using this.2.2.2
    · simp only [mkCells, if_neg hb, List.mem_cons] at h
      rcases h with rfl | h
      · exact ⟨Nat.le_refl _, by simp, hb, by simp⟩
      · have := ih h
        refine ⟨by omega, by simp; omega, this.2.2.1, ?_⟩
        rw [show c.1 - a = (c.1 - (a + 1)) + 1 by omega]
        simpa using this.2.2.2

theorem cellsWf_mkCells (a : Nat) (bs : List Byte) : cellsWf (mkCells a bs) = true := by
  rw [cellsWf_iff]
  refine ⟨?_, fun c hc => (mem_mkCells hc).2.2.1⟩
  induction bs generalizing a with
  | nil => simp [mkCells]
  | cons b bs ih =>
    by_cases hb : b = 0
    · simpa [mkCells, hb] using ih (a + 1)
    · simp only [mkCells, if_neg hb, List.pairwise_cons]
      exact ⟨fun c hc => (mem_mkCells hc).1, ih (a + 1)⟩

/-- Two memories in canonical form, the first below the second, make one. -/
theorem cellsWf_append {m n : List Host.Cell} (hm : cellsWf m = true) (hn : cellsWf n = true) (h : ∀ x ∈ m, ∀ y ∈ n, x.1 < y.1) :
    cellsWf (m ++ n) = true := by
  rw [cellsWf_iff] at *
  refine ⟨List.pairwise_append.mpr ⟨hm.1, hn.1, h⟩, fun c hc => ?_⟩
  rcases List.mem_append.mp hc with hc | hc
  · exact hm.2 c hc
  · exact hn.2 c hc

/-- A write keeps the canonical form. -/
theorem cellsWf_cellsWrite {m : List Host.Cell} (a : Nat) (bs : List Byte) (h : cellsWf m = true) : cellsWf (cellsWrite m a bs) = true := by
  unfold cellsWrite
  refine cellsWf_append (cellsWf_append (cellsWf_filter _ h) (cellsWf_mkCells a bs) ?_) (cellsWf_filter _ h) ?_
  · intro x hx y hy
    have h1 := (List.mem_filter.mp hx).2
    have h2 := (mem_mkCells hy).1
    simp at h1
    omega
  · intro x hx y hy
    have h1 := (List.mem_filter.mp hy).2
    simp at h1
    rcases List.mem_append.mp hx with hx | hx
    · have h2 := (List.mem_filter.mp hx).2
      simp at h2
      omega
    · have h2 := (mem_mkCells hx).2.1
      omega

/-- So does a copy of a stretch to another place. -/
theorem cellsWf_clone {m : List Host.Cell} (src dst len : Nat) (h : cellsWf m = true) :
    cellsWf ((m.filter fun c => c.1 < dst) ++ ((m.filter fun c => src ≤ c.1 && c.1 < src + len).map fun c => (c.1 - src + dst, c.2)) ++
      (m.filter fun c => dst + len ≤ c.1)) = true := by
  have hmid : cellsWf ((m.filter fun c => src ≤ c.1 && c.1 < src + len).map fun c => (c.1 - src + dst, c.2)) = true := by
    have hf := cellsWf_filter (fun c => decide (src ≤ c.1) && decide (c.1 < src + len)) h
    rw [cellsWf_iff] at hf ⊢
    refine ⟨?_, ?_⟩
    · rw [List.pairwise_map]
      refine List.Pairwise.imp_of_mem ?_ hf.1
      intro x y hx hy hxy
      have h1 := (List.mem_filter.mp hx).2
      simp at h1
      show x.1 - src + dst < y.1 - src + dst
      omega
    · intro c hc
      obtain ⟨d, hd, rfl⟩ := List.mem_map.mp hc
      exact hf.2 d hd
  refine cellsWf_append (cellsWf_append (cellsWf_filter _ h) hmid ?_) (cellsWf_filter _ h) ?_
  · intro x hx y hy
    have h1 := (List.mem_filter.mp hx).2
    obtain ⟨d, _, rfl⟩ := List.mem_map.mp hy
    simp at h1
    show x.1 < d.1 - src + dst
    omega
  · intro x hx y hy
    have h1 := (List.mem_filter.mp hy).2
    simp at h1
    rcases List.mem_append.mp hx with hx | hx
    · have h2 := (List.mem_filter.mp hx).2
      simp at h2
      omega
    · obtain ⟨d, hd, rfl⟩ := List.mem_map.mp hx
      have h2 := (List.mem_filter.mp hd).2
      simp at h2
      show d.1 - src + dst < y.1
      omega

/-! ## Reading back -/

/-- Looking a key up among the entries whose keys pass a test. -/
theorem find?_filter_key (m : List Host.Cell) (p : Nat → Bool) (x : Nat) :
    (m.filter fun c => p c.1).find? (fun c => c.1 == x) = if p x then m.find? (fun c => c.1 == x) else none := by
  induction m with
  | nil => simp
  | cons c m ih =>
    rw [List.filter_cons, List.find?_cons]
    by_cases hx : c.1 = x
    · subst hx
      by_cases hp : p c.1 = true
      · simp [hp]
      · rw [if_neg hp, ih, if_neg hp, if_neg hp]
    · rw [beq_eq_false_iff_ne.mpr hx]
      by_cases hp : p c.1 = true
      · rw [if_pos hp, List.find?_cons, beq_eq_false_iff_ne.mpr hx]
        exact ih
      · rw [if_neg hp]
        exact ih

/-- Looking an address up among laid cells. -/
theorem find?_mkCells (a x : Nat) (bs : List Byte) :
    (mkCells a bs).find? (fun c => c.1 == x) =
      if a ≤ x ∧ x < a + bs.length ∧ bs.getD (x - a) 0 ≠ 0 then some (x, bs.getD (x - a) 0) else none := by
  induction bs generalizing a with
  | nil => rw [mkCells, List.find?_nil, if_neg (by simp)]
  | cons b bs ih =>
    rw [mkCells]
    by_cases hx : x = a
    · subst hx
      by_cases hb : b = 0
      · rw [if_pos hb, ih, if_neg (by omega), if_neg (by simp [hb])]
      · rw [if_neg hb, List.find?_cons, beq_self_eq_true]
        rw [if_pos ⟨Nat.le_refl _, by simp, by simpa using hb⟩]
        simp
    · have e : ((if b = 0 then mkCells (a + 1) bs else (a, b) :: mkCells (a + 1) bs) : List Host.Cell).find? (fun c => c.1 == x) =
          (mkCells (a + 1) bs).find? (fun c => c.1 == x) := by
        by_cases hb : b = 0
        · rw [if_pos hb]
        · rw [if_neg hb, List.find?_cons, beq_eq_false_iff_ne.mpr (fun h => hx h.symm)]
      rw [e, ih]
      by_cases hax : a < x
      · have e2 : x - a = (x - (a + 1)) + 1 := by omega
        have e3 : (b :: bs).getD (x - a) 0 = bs.getD (x - (a + 1)) 0 := by rw [e2, List.getD_cons_succ]
        rw [e3]
        by_cases hc : a + 1 ≤ x ∧ x < a + 1 + bs.length ∧ bs.getD (x - (a + 1)) 0 ≠ 0
        · rw [if_pos hc, if_pos ⟨by omega, by rw [List.length_cons]; omega, hc.2.2⟩]
        · rw [if_neg hc, if_neg (fun h => hc ⟨by omega, by have := h.2.1; rw [List.length_cons] at this; omega, h.2.2⟩)]
      · rw [if_neg (by omega), if_neg (by omega)]

/-- A byte of memory after a write: the written one inside the stretch, and the old one outside. -/
theorem cellsGet_cellsWrite (m : List Host.Cell) (a : Nat) (bs : List Byte) (x : Nat) :
    cellsGet (cellsWrite m a bs) x = if a ≤ x ∧ x < a + bs.length then bs.getD (x - a) 0 else cellsGet m x := by
  have lo := find?_filter_key m (fun k => decide (k < a)) x
  have hi := find?_filter_key m (fun k => decide (a + bs.length ≤ k)) x
  simp only [decide_eq_true_eq] at lo hi
  simp only [cellsGet, cellsWrite, List.find?_append]
  rw [lo, hi, find?_mkCells]
  by_cases h1 : x < a
  · rw [if_pos h1, if_neg (by omega), if_neg (by omega), if_neg (by omega)]
    cases m.find? fun c => c.1 == x <;> rfl
  · by_cases h2 : a + bs.length ≤ x
    · rw [if_neg h1, if_neg (by omega), if_pos h2, if_neg (by omega)]
      rfl
    · rw [if_neg h1, if_neg h2, if_pos (show a ≤ x ∧ x < a + bs.length by omega)]
      by_cases h3 : bs.getD (x - a) 0 = 0
      · rw [if_neg (fun h => h.2.2 h3), h3]; rfl
      · rw [if_pos ⟨by omega, by omega, h3⟩]; rfl

/-- A write of the bytes that are there changes no byte. -/
theorem cellsGet_cellsWrite_of_outside {m : List Host.Cell} {a x : Nat} {bs : List Byte} (h : ¬ (a ≤ x ∧ x < a + bs.length)) :
    cellsGet (cellsWrite m a bs) x = cellsGet m x := by
  rw [cellsGet_cellsWrite, if_neg h]

end Sys2Proof.Machine
end

