-- ==== Sys2Proof/Laws/Keeps.lean ====
section
/-! SUPPORT. Every operation of the machine keeps memory in its canonical form and leaves the queue as it was. -/
namespace Sys2Proof.Machine

open Sys2Proof.Safety

/-- From one state to another memory keeps its canonical form and the queue stays. -/
def Keeps (s t : State) : Prop := t.pending = s.pending ∧ (MemInv s → MemInv t)

theorem Keeps.refl (s : State) : Keeps s s := ⟨rfl, id⟩

theorem Keeps.trans {s t u : State} (h : Keeps s t) (k : Keeps t u) : Keeps s u := ⟨k.1.trans h.1, fun m => k.2 (h.2 m)⟩

/-- A state with the memories and the queue of another one. -/
theorem Keeps.of_eq {s0 t u : State} (h : Keeps s0 t) (hp : u.pending = t.pending) (hm : u.mem = t.mem) (hh : u.hostMem = t.hostMem) : Keeps s0 u := by
  refine ⟨hp.trans h.1, fun m => ?_⟩
  have := h.2 m
  unfold MemInv Memory.wf at this ⊢
  rw [hm, hh]
  exact this

/-- The same of a state's queue and memories. -/
def KeepsT (s : State) (p : List Instr) (m : List Host.Cell) (h : Vector (List Host.Cell) 2) : Prop :=
  p = s.pending ∧ (MemInv s → cellsWf m = true ∧ ∀ q : Port, cellsWf h[q.idx] = true)

theorem keepsT_self (s0 t : State) : KeepsT s0 t.pending t.mem t.hostMem ↔ Keeps s0 t := Iff.rfl

/-- A record update keeps what its queue and memories keep. -/
theorem keeps_mk {s0 : State} {sys : Sys} {counter : W64} {trb : Trb} {ports : Vector HostPort 2} {reqs : List (Port × SlotId)} {sems : Vector Sem 64}
    {errs : Vector W32 59} {setNow : Vector W32 59} {v1Raised : Bool} {cnts : Cnts} {parts : Vector Part 16} {cmds : List Cmd} {admitNext : Nat}
    {issuedNow : List PartId} {issueNext : Nat} {keys : List Key} {ops : List PumpOp} {opNext : Nat} {scHalt : Vector Bool 32}
    {halted : Vector Bool 8} {mem : List Host.Cell} {undef : List Undef} {poison : List Nat} {ecc : Ecc} {hw : Vector WellCtl 64}
    {pools : Vector WellCtl 8} {hostMem : Vector (List Host.Cell) 2} {hostErr : Vector HostErr 2} {cisPoison : List Nat} {bar2Reads : List Bar2Read}
    {ecs : Vector W16 16} {fence : Option PkgFence} {regions : List Region} {windows : List Window} {streams : List Stream} {groups : List Group}
    {strPeek : BitVec 18} {heaps : List Heap} {seqs : List Seq} {spills : List Spill} {returns : List PageReturn} {det : Det}
    {cams : Vector Camera 24} {audTable : BitVec 40} {audFir : BitVec 40} {fir : List W32} {bindings : List Binding} {audio : List AudioRun}
    {tdm : Vector TdmPort 4} {pipes : Vector Pipe 16} {recTurn : Vector Nat 2} {axes : Vector Axis 128} {stations : Vector Station 32}
    {lpeLatched : Bool} {lpeBusy : Vector Nat 2} {tb : Tb} {eth : Vector EthPort 6} {pm : Pm} {pdOn : BitVec 128} {pdMoves : List PdMove}
    {pairs : Vector Pair 4} {sph : Sph} {mirrors : Vector Mirror 16} {pending : List Instr} {out : List Out} {fresh : Nat} :
    Keeps s0 (State.mk sys counter trb ports reqs sems errs setNow v1Raised cnts parts cmds admitNext issuedNow issueNext keys ops opNext scHalt
      halted mem undef poison ecc hw pools hostMem hostErr cisPoison bar2Reads ecs fence regions windows streams groups strPeek heaps seqs spills
      returns det cams audTable audFir fir bindings audio tdm pipes recTurn axes stations lpeLatched lpeBusy tb eth pm pdOn pdMoves pairs sph mirrors
      pending out fresh) ↔ KeepsT s0 pending mem hostMem := Iff.rfl

theorem keeps_foldl {α : Type} {f : State → α → State} {l : List α} {s0 t : State} (hf : ∀ (u : State) (x : α), Keeps s0 u → Keeps s0 (f u x))
    (h : Keeps s0 t) : Keeps s0 (l.foldl f t) := by
  induction l generalizing t with
  | nil => exact h
  | cons x xs ih => exact ih (hf t x h)

theorem keeps_foldl1 {α β : Type} {f : State × β → α → State × β} {l : List α} {s0 : State} {t : State × β}
    (hf : ∀ (u : State × β) (x : α), Keeps s0 u.1 → Keeps s0 (f u x).1) (h : Keeps s0 t.1) : Keeps s0 (l.foldl f t).1 := by
  induction l generalizing t with
  | nil => exact h
  | cons x xs ih => exact ih (hf t x h)

theorem keeps_foldl2 {α β : Type} {f : β × State → α → β × State} {l : List α} {s0 : State} {t : β × State}
    (hf : ∀ (u : β × State) (x : α), Keeps s0 u.2 → Keeps s0 (f u x).2) (h : Keeps s0 t.2) : Keeps s0 (l.foldl f t).2 := by
  induction l generalizing t with
  | nil => exact h
  | cons x xs ih => exact ih (hf t x h)

theorem keeps_foldl22 {α β γ : Type} {f : β × γ × State → α → β × γ × State} {l : List α} {s0 : State} {t : β × γ × State}
    (hf : ∀ (u : β × γ × State) (x : α), Keeps s0 u.2.2 → Keeps s0 (f u x).2.2) (h : Keeps s0 t.2.2) : Keeps s0 (l.foldl f t).2.2 := by
  induction l generalizing t with
  | nil => exact h
  | cons x xs ih => exact ih (hf t x h)


theorem keeps_ite {c : Prop} [Decidable c] {s0 a b : State} (ha : c → Keeps s0 a) (hb : ¬c → Keeps s0 b) : Keeps s0 (if c then a else b) := by
  split
  · exact ha ‹_›
  · exact hb ‹_›

theorem State.setPort_keeps {s0 s : State} (h : Keeps s0 s) (p : Port) (h1 : HostPort) : Keeps s0 (State.setPort s p h1) := by
  unfold State.setPort
  repeat' (first | with_reducible assumption | split | with_reducible apply keeps_foldl | with_reducible apply keeps_foldl1 | with_reducible apply keeps_foldl2 | with_reducible apply keeps_foldl22 | intro _ | dsimp only | simp only [keeps_mk, keepsT_self])

theorem State.setPart_keeps {s0 s : State} (h : Keeps s0 s) (p : PartId) (x : Part) : Keeps s0 (State.setPart s p x) := by
  unfold State.setPart
  repeat' (first | with_reducible assumption | split | with_reducible apply keeps_foldl | with_reducible apply keeps_foldl1 | with_reducible apply keeps_foldl2 | with_reducible apply keeps_foldl22 | intro _ | dsimp only | simp only [keeps_mk, keepsT_self])

theorem State.flag_keeps {s0 s : State} (h : Keeps s0 s) (k : Sticky) (bit : Nat) : Keeps s0 (State.flag s k bit) := by
  unfold State.flag
  repeat' (first | with_reducible assumption | split | with_reducible apply keeps_foldl | with_reducible apply keeps_foldl1 | with_reducible apply keeps_foldl2 | with_reducible apply keeps_foldl22 | intro _ | dsimp only | simp only [keeps_mk, keepsT_self])

theorem State.flagIf_keeps {s0 s : State} (h : Keeps s0 s) (c : Bool) (k : Sticky) (bit : Nat) : Keeps s0 (State.flagIf s c k bit) := by
  unfold State.flagIf
  repeat' (first | with_reducible assumption | with_reducible apply State.flag_keeps | split | with_reducible apply keeps_foldl | with_reducible apply keeps_foldl1 | with_reducible apply keeps_foldl2 | with_reducible apply keeps_foldl22 | intro _ | dsimp only | simp only [keeps_mk, keepsT_self])

theorem State.log_keeps {s0 s : State} (h : Keeps s0 s) (code : Nat) (sub : Nat) (inst : Nat) (args : List Byte) : Keeps s0 (State.log s code sub inst args) := by
  unfold State.log
  repeat' (first | with_reducible assumption | split | with_reducible apply keeps_foldl | with_reducible apply keeps_foldl1 | with_reducible apply keeps_foldl2 | with_reducible apply keeps_foldl22 | intro _ | dsimp only | simp only [keeps_mk, keepsT_self])

theorem State.emit_keeps {s0 s : State} (h : Keeps s0 s) (o : Out) : Keeps s0 (State.emit s o) := by
  unfold State.emit
  repeat' (first | with_reducible assumption | split | with_reducible apply keeps_foldl | with_reducible apply keeps_foldl1 | with_reducible apply keeps_foldl2 | with_reducible apply keeps_foldl22 | intro _ | dsimp only | simp only [keeps_mk, keepsT_self])

theorem State.hostRow_keeps {s0 s : State} (h : Keeps s0 s) (p : Port) {body : State} (hb : Keeps s0 body) : Keeps s0 (s.hostRow p body) := by
  unfold State.hostRow
  split
  · exact hb
  · exact h


theorem State.aerError_keeps {s0 s : State} (h : Keeps s0 s) (p : Port) (e : AerError) : Keeps s0 (State.aerError s p e) := by
  unfold State.aerError
  repeat' (first | with_reducible assumption | with_reducible apply State.emit_keeps | with_reducible apply State.setPort_keeps | split | with_reducible apply keeps_foldl | with_reducible apply keeps_foldl1 | with_reducible apply keeps_foldl2 | with_reducible apply keeps_foldl22 | intro _ | dsimp only | simp only [keeps_mk, keepsT_self])

theorem State.raise_keeps {s0 s : State} (h : Keeps s0 s) (p : Port) (v : Nat) : Keeps s0 (State.raise s p v) := by
  unfold State.raise
  repeat' (first | with_reducible assumption | with_reducible apply State.setPort_keeps | with_reducible apply State.emit_keeps | split | with_reducible apply keeps_foldl | with_reducible apply keeps_foldl1 | with_reducible apply keeps_foldl2 | with_reducible apply keeps_foldl22 | intro _ | dsimp only | simp only [keeps_mk, keepsT_self])

theorem State.undrained_keeps {s0 s : State} (h : Keeps s0 s)  : Keeps s0 (State.undrained s) := by
  unfold State.undrained
  repeat' (first | with_reducible assumption | split | with_reducible apply keeps_foldl | with_reducible apply keeps_foldl1 | with_reducible apply keeps_foldl2 | with_reducible apply keeps_foldl22 | intro _ | dsimp only | simp only [keeps_mk, keepsT_self])

theorem State.reachMap_keeps {s0 s : State} (h : Keeps s0 s)  : Keeps s0 (State.reachMap s) := by
  unfold State.reachMap
  repeat' (first | with_reducible assumption | with_reducible apply State.undrained_keeps | split | with_reducible apply keeps_foldl | with_reducible apply keeps_foldl1 | with_reducible apply keeps_foldl2 | with_reducible apply keeps_foldl22 | intro _ | dsimp only | simp only [keeps_mk, keepsT_self])

theorem State.setWctl_keeps {s0 s : State} (h : Keeps s0 s) (r : WellPart) (x : WellCtl) : Keeps s0 (State.setWctl s r x) := by
  unfold State.setWctl
  repeat' (first | with_reducible assumption | split | with_reducible apply keeps_foldl | with_reducible apply keeps_foldl1 | with_reducible apply keeps_foldl2 | with_reducible apply keeps_foldl22 | intro _ | dsimp only | simp only [keeps_mk, keepsT_self])

theorem State.undefine_keeps {s0 s : State} (h : Keeps s0 s) (a : Nat) (len : Nat) : Keeps s0 (State.undefine s a len) := by
  unfold State.undefine
  repeat' (first | with_reducible assumption | split | with_reducible apply keeps_foldl | with_reducible apply keeps_foldl1 | with_reducible apply keeps_foldl2 | with_reducible apply keeps_foldl22 | intro _ | dsimp only | simp only [keeps_mk, keepsT_self])

theorem State.poisonRange_keeps {s0 s : State} (h : Keeps s0 s) (a : Nat) (len : Nat) : Keeps s0 (State.poisonRange s a len) := by
  unfold State.poisonRange
  repeat' (first | with_reducible assumption | split | with_reducible apply keeps_foldl | with_reducible apply keeps_foldl1 | with_reducible apply keeps_foldl2 | with_reducible apply keeps_foldl22 | intro _ | dsimp only | simp only [keeps_mk, keepsT_self])

theorem State.linkMoves_keeps {s0 s : State} (h : Keeps s0 s) (a : Nat) (len : Nat) (read : Bool) : Keeps s0 (State.linkMoves s a len read) := by
  unfold State.linkMoves
  repeat' (first | with_reducible assumption | with_reducible apply State.flag_keeps | split | with_reducible apply keeps_foldl | with_reducible apply keeps_foldl1 | with_reducible apply keeps_foldl2 | with_reducible apply keeps_foldl22 | intro _ | dsimp only | simp only [keeps_mk, keepsT_self])

theorem State.readEcc_keeps {s0 s : State} (h : Keeps s0 s) (a : Nat) (len : Nat) : Keeps s0 (State.readEcc s a len) := by
  unfold State.readEcc
  repeat' (first | with_reducible assumption | with_reducible apply State.linkMoves_keeps | with_reducible apply State.flag_keeps | with_reducible apply State.flagIf_keeps | split | with_reducible apply keeps_foldl | with_reducible apply keeps_foldl1 | with_reducible apply keeps_foldl2 | with_reducible apply keeps_foldl22 | intro _ | dsimp only | simp only [keeps_mk, keepsT_self])

theorem State.load_keeps {s0 s : State} (h : Keeps s0 s) (a : Nat) (len : Nat) : Keeps s0 (State.load s a len).2 := by
  unfold State.load
  repeat' (first | with_reducible assumption | with_reducible apply State.readEcc_keeps | split | with_reducible apply keeps_foldl | with_reducible apply keeps_foldl1 | with_reducible apply keeps_foldl2 | with_reducible apply keeps_foldl22 | intro _ | dsimp only | simp only [keeps_mk, keepsT_self])
theorem State.load_keeps_of {s0 s u : State} {a : Nat} {len : Nat} {x_} (e : (State.load s a len) = (x_, u)) (h : Keeps s0 s) : Keeps s0 u := by
  have h2 := State.load_keeps h a len
  rw [e] at h2; exact h2

theorem State.writeMain_keeps {s0 s : State} (h : Keeps s0 s) (a : Nat) (bs : List PByte) : Keeps s0 (State.writeMain s a bs) := by
  unfold State.writeMain
  repeat' (first | with_reducible assumption | with_reducible apply State.linkMoves_keeps | with_reducible apply State.readEcc_keeps | with_reducible apply State.flag_keeps | split | with_reducible apply keeps_foldl | with_reducible apply keeps_foldl1 | with_reducible apply keeps_foldl2 | with_reducible apply keeps_foldl22 | intro _ | dsimp only | simp only [keeps_mk, keepsT_self])

theorem State.writeWell_keeps {s0 s : State} (h : Keeps s0 s) (a : Nat) (bs : List PByte) (fill : Bool) : Keeps s0 (State.writeWell s a bs fill) := by
  unfold State.writeWell
  repeat' (first | with_reducible assumption | with_reducible apply State.flagIf_keeps | split | with_reducible apply keeps_foldl | with_reducible apply keeps_foldl1 | with_reducible apply keeps_foldl2 | with_reducible apply keeps_foldl22 | intro _ | dsimp only | simp only [keeps_mk, keepsT_self])

theorem State.siphonSend_keeps {s0 s : State} (h : Keeps s0 s) (type : Nat) (flags : Nat) (addr : Nat) (window : Nat) (part : Nat) (counter : Nat) (arg : Nat) (payload : List Byte) : Keeps s0 (State.siphonSend s type flags addr window part counter arg payload) := by
  unfold State.siphonSend
  repeat' (first | with_reducible assumption | split | with_reducible apply keeps_foldl | with_reducible apply keeps_foldl1 | with_reducible apply keeps_foldl2 | with_reducible apply keeps_foldl22 | intro _ | dsimp only | simp only [keeps_mk, keepsT_self])

theorem State.mirrorWrite_keeps {s0 s : State} (h : Keeps s0 s) (a : Nat) (bs : List PByte) : Keeps s0 (State.mirrorWrite s a bs) := by
  unfold State.mirrorWrite
  repeat' (first | with_reducible assumption | with_reducible apply State.siphonSend_keeps | split | with_reducible apply keeps_foldl | with_reducible apply keeps_foldl1 | with_reducible apply keeps_foldl2 | with_reducible apply keeps_foldl22 | intro _ | dsimp only | simp only [keeps_mk, keepsT_self])

theorem State.hostStore_keeps {s0 s : State} (h : Keeps s0 s) (p : Port) (a : Nat) (bs : List Byte) : Keeps s0 (s.hostStore p a bs) := by
  refine ⟨h.1, fun m => ⟨(h.2 m).1, fun q => ?_⟩⟩
  have := (h.2 m).2
  unfold State.hostStore
  simp only [Fin.getElem_fin, Vector.getElem_set]
  split
  · exact cellsWf_cellsWrite a bs (this p)
  · exact this q


theorem State.cisternStore_keeps {s0 s : State} (h : Keeps s0 s) (r : Region) (a : Nat) (bs : List PByte) : Keeps s0 (State.cisternStore s r a bs) := by
  unfold State.cisternStore
  repeat' (first | with_reducible assumption | with_reducible apply State.hostStore_keeps | split | with_reducible apply keeps_foldl | with_reducible apply keeps_foldl1 | with_reducible apply keeps_foldl2 | with_reducible apply keeps_foldl22 | intro _ | dsimp only | simp only [keeps_mk, keepsT_self])

theorem State.cisternLoad_keeps {s0 s : State} (h : Keeps s0 s) (r : Region) (a : Nat) (len : Nat) (ext : Bool) : Keeps s0 (State.cisternLoad s r a len ext).2 := by
  unfold State.cisternLoad
  repeat' (first | with_reducible assumption | with_reducible apply State.flagIf_keeps | split | with_reducible apply keeps_foldl | with_reducible apply keeps_foldl1 | with_reducible apply keeps_foldl2 | with_reducible apply keeps_foldl22 | intro _ | dsimp only | simp only [keeps_mk, keepsT_self])
theorem State.cisternLoad_keeps_of {s0 s u : State} {r : Region} {a : Nat} {len : Nat} {ext : Bool} {x_} (e : (State.cisternLoad s r a len ext) = (x_, u)) (h : Keeps s0 s) : Keeps s0 u := by
  have h2 := State.cisternLoad_keeps h r a len ext
  rw [e] at h2; exact h2

theorem keeps_written {s0 s : State} (h : Keeps s0 s) (a : Nat) (bs : List Byte) (u : List Undef) :
    Keeps s0 { s with mem := cellsWrite s.mem a bs, undef := u } :=
  ⟨h.1, fun m => ⟨cellsWf_cellsWrite a bs (h.2 m).1, (h.2 m).2⟩⟩

theorem State.storeIn_keeps {s0 s : State} (h : Keeps s0 s) (a : Nat) (bs : List PByte) (fill : Bool) : Keeps s0 (s.storeIn a bs fill) := by
  have h1 : Keeps s0 (if a < wellBase then s.writeMain a bs else s.writeWell a bs fill) := by
    split
    · exact State.writeMain_keeps h a bs
    · exact State.writeWell_keeps h a bs fill
  unfold State.storeIn
  dsimp only
  generalize (if a < wellBase then s.writeMain a bs else s.writeWell a bs fill) = t at h1
  split
  · exact State.mirrorWrite_keeps (keeps_written h1 a _ _) a bs
  · exact keeps_written h1 a _ _


theorem State.store_keeps {s0 s : State} (h : Keeps s0 s) (a : Nat) (bs : List PByte) : Keeps s0 (State.store s a bs) := by
  unfold State.store
  repeat' (first | with_reducible assumption | with_reducible apply State.storeIn_keeps | split | with_reducible apply keeps_foldl | with_reducible apply keeps_foldl1 | with_reducible apply keeps_foldl2 | with_reducible apply keeps_foldl22 | intro _ | dsimp only | simp only [keeps_mk, keepsT_self])

theorem State.storeB_keeps {s0 s : State} (h : Keeps s0 s) (a : Nat) (bs : List Byte) : Keeps s0 (State.storeB s a bs) := by
  unfold State.storeB
  repeat' (first | with_reducible assumption | with_reducible apply State.store_keeps | split | with_reducible apply keeps_foldl | with_reducible apply keeps_foldl1 | with_reducible apply keeps_foldl2 | with_reducible apply keeps_foldl22 | intro _ | dsimp only | simp only [keeps_mk, keepsT_self])

theorem logSticky_keeps {s0 s : State} (h : Keeps s0 s) (before : State) : Keeps s0 (logSticky before s) := by
  unfold logSticky
  repeat' (first | with_reducible assumption | with_reducible apply State.log_keeps | split | with_reducible apply keeps_foldl | with_reducible apply keeps_foldl1 | with_reducible apply keeps_foldl2 | with_reducible apply keeps_foldl22 | intro _ | dsimp only | simp only [keeps_mk, keepsT_self])


theorem alertVector_keeps {s0 s : State} (h : Keeps s0 s) (before : State) : Keeps s0 (alertVector before s) := by
  unfold alertVector
  repeat' (first | with_reducible assumption | with_reducible apply State.raise_keeps | split | with_reducible apply keeps_foldl | with_reducible apply keeps_foldl1 | with_reducible apply keeps_foldl2 | with_reducible apply keeps_foldl22 | intro _ | dsimp only | simp only [keeps_mk, keepsT_self])


theorem settle_keeps {s0 s : State} (h : Keeps s0 s) (before : State) : Keeps s0 (settle before s) :=
  alertVector_keeps (logSticky_keeps h before) before


theorem State.powerOff_keeps {s0 s : State} (h : Keeps s0 s) (lockout : Bool) : Keeps s0 (s.powerOff lockout) :=
  ⟨h.1, fun m => ⟨rfl, (h.2 m).2⟩⟩


theorem State.coldReset_keeps {s0 s : State} (h : Keeps s0 s) : Keeps s0 s.coldReset :=
  ⟨h.1, fun m => ⟨rfl, (h.2 m).2⟩⟩


theorem State.lastGasp_keeps {s0 s : State} (h : Keeps s0 s)  : Keeps s0 (State.lastGasp s) := by
  unfold State.lastGasp
  repeat' (first | with_reducible assumption | with_reducible apply State.siphonSend_keeps | split | with_reducible apply keeps_foldl | with_reducible apply keeps_foldl1 | with_reducible apply keeps_foldl2 | with_reducible apply keeps_foldl22 | intro _ | dsimp only | simp only [keeps_mk, keepsT_self])

theorem State.applySkip_keeps {s0 s : State} (h : Keeps s0 s)  : Keeps s0 (State.applySkip s) := by
  unfold State.applySkip
  repeat' (first | with_reducible assumption | split | with_reducible apply keeps_foldl | with_reducible apply keeps_foldl1 | with_reducible apply keeps_foldl2 | with_reducible apply keeps_foldl22 | intro _ | dsimp only | simp only [keeps_mk, keepsT_self])

theorem State.frameStart_keeps {s0 s : State} (h : Keeps s0 s)  : Keeps s0 (State.frameStart s) := by
  unfold State.frameStart
  repeat' (first | with_reducible assumption | split | with_reducible apply keeps_foldl | with_reducible apply keeps_foldl1 | with_reducible apply keeps_foldl2 | with_reducible apply keeps_foldl22 | intro _ | dsimp only | simp only [keeps_mk, keepsT_self])

theorem State.aclkTick_keeps {s0 s : State} (h : Keeps s0 s)  : Keeps s0 (State.aclkTick s) := by
  unfold State.aclkTick
  repeat' (first | with_reducible assumption | with_reducible apply State.frameStart_keeps | split | with_reducible apply keeps_foldl | with_reducible apply keeps_foldl1 | with_reducible apply keeps_foldl2 | with_reducible apply keeps_foldl22 | intro _ | dsimp only | simp only [keeps_mk, keepsT_self])

theorem State.diverge_keeps {s0 s : State} (h : Keeps s0 s) (m : Nat) (e : Nat) : Keeps s0 (State.diverge s m e) := by
  unfold State.diverge
  repeat' (first | with_reducible assumption | with_reducible apply State.log_keeps | with_reducible apply State.flag_keeps | split | with_reducible apply keeps_foldl | with_reducible apply keeps_foldl1 | with_reducible apply keeps_foldl2 | with_reducible apply keeps_foldl22 | intro _ | dsimp only | simp only [keeps_mk, keepsT_self])

theorem State.sense_keeps {s0 s : State} (h : Keeps s0 s) (measured : Option Nat) (volts : Nat) (est : Nat) : Keeps s0 (State.sense s measured volts est) := by
  unfold State.sense
  repeat' (first | with_reducible assumption | with_reducible apply State.diverge_keeps | with_reducible apply State.flag_keeps | split | with_reducible apply keeps_foldl | with_reducible apply keeps_foldl1 | with_reducible apply keeps_foldl2 | with_reducible apply keeps_foldl22 | intro _ | dsimp only | simp only [keeps_mk, keepsT_self])

theorem State.capStep_keeps {s0 s : State} (h : Keeps s0 s)  : Keeps s0 (State.capStep s) := by
  unfold State.capStep
  repeat' (first | with_reducible assumption | with_reducible apply State.log_keeps | with_reducible apply State.flag_keeps | split | with_reducible apply keeps_foldl | with_reducible apply keeps_foldl1 | with_reducible apply keeps_foldl2 | with_reducible apply keeps_foldl22 | intro _ | dsimp only | simp only [keeps_mk, keepsT_self])

theorem State.takeTemps_keeps {s0 s : State} (h : Keeps s0 s) (temps : List (Option Int)) : Keeps s0 (State.takeTemps s temps) := by
  unfold State.takeTemps
  repeat' (first | with_reducible assumption | with_reducible apply State.flag_keeps | split | with_reducible apply keeps_foldl | with_reducible apply keeps_foldl1 | with_reducible apply keeps_foldl2 | with_reducible apply keeps_foldl22 | intro _ | dsimp only | simp only [keeps_mk, keepsT_self])

theorem State.throttleDie_keeps {s0 s : State} (h : Keeps s0 s) (d : Die) : Keeps s0 (State.throttleDie s d) := by
  unfold State.throttleDie
  repeat' (first | with_reducible assumption | with_reducible apply State.log_keeps | with_reducible apply State.flagIf_keeps | split | with_reducible apply keeps_foldl | with_reducible apply keeps_foldl1 | with_reducible apply keeps_foldl2 | with_reducible apply keeps_foldl22 | intro _ | dsimp only | simp only [keeps_mk, keepsT_self])

theorem State.holdHint_keeps {s0 s : State} (h : Keeps s0 s) (h1 : Hint) : Keeps s0 (State.holdHint s h1) := by
  unfold State.holdHint
  repeat' (first | with_reducible assumption | with_reducible apply State.applySkip_keeps | with_reducible apply State.flag_keeps | split | with_reducible apply keeps_foldl | with_reducible apply keeps_foldl1 | with_reducible apply keeps_foldl2 | with_reducible apply keeps_foldl22 | intro _ | dsimp only | simp only [keeps_mk, keepsT_self])

theorem State.flagClosed_keeps {s0 s : State} (h : Keeps s0 s) (a : Nat) (len : Nat) : Keeps s0 (State.flagClosed s a len) := by
  unfold State.flagClosed
  repeat' (first | with_reducible assumption | with_reducible apply State.flagIf_keeps | split | with_reducible apply keeps_foldl | with_reducible apply keeps_foldl1 | with_reducible apply keeps_foldl2 | with_reducible apply keeps_foldl22 | intro _ | dsimp only | simp only [keeps_mk, keepsT_self])

theorem State.readStretch_keeps {s0 s : State} (h : Keeps s0 s) (x : Loc × Nat × Nat) (ext : Bool) : Keeps s0 (State.readStretch s x ext).2 := by
  unfold State.readStretch
  repeat' (first | with_reducible assumption | with_reducible apply State.load_keeps | with_reducible apply State.cisternLoad_keeps | with_reducible refine State.load_keeps_of (by assumption) ?_ | with_reducible refine State.cisternLoad_keeps_of (by assumption) ?_ | split | with_reducible apply keeps_foldl | with_reducible apply keeps_foldl1 | with_reducible apply keeps_foldl2 | with_reducible apply keeps_foldl22 | intro _ | dsimp only | simp only [keeps_mk, keepsT_self])
theorem State.readStretch_keeps_of {s0 s u : State} {x0 : Loc × Nat × Nat} {ext : Bool} {x_} (e : (State.readStretch s x0 ext) = (x_, u)) (h : Keeps s0 s) : Keeps s0 u := by
  have h2 := State.readStretch_keeps h x0 ext
  rw [e] at h2; exact h2

theorem State.readStretches_keeps {s0 s : State} (h : Keeps s0 s) (xs : List (Loc × Nat × Nat)) (ext : Bool) : Keeps s0 (s.readStretches xs ext).2 := by
  induction xs generalizing s with
  | nil => exact h
  | cons x xs ih => exact ih (State.readStretch_keeps h x ext)

theorem State.readStretches_keeps_of {s0 s u : State} {z1 : List (Loc × Nat × Nat)} {z2 : Bool} {x_} (e : (State.readStretches s z1 z2) = (x_, u)) (h : Keeps s0 s) : Keeps s0 u := by
  have h2 := State.readStretches_keeps h z1 z2
  rw [e] at h2; exact h2

theorem State.readAt_keeps {s0 s : State} (h : Keeps s0 s) (a : Nat) (len : Nat) : Keeps s0 (State.readAt s a len).2 := by
  unfold State.readAt
  repeat' (first | with_reducible assumption | with_reducible apply State.readStretches_keeps | with_reducible apply State.reachMap_keeps | with_reducible refine State.readStretches_keeps_of (by assumption) ?_ | split | with_reducible apply keeps_foldl | with_reducible apply keeps_foldl1 | with_reducible apply keeps_foldl2 | with_reducible apply keeps_foldl22 | intro _ | dsimp only | simp only [keeps_mk, keepsT_self])
theorem State.readAt_keeps_of {s0 s u : State} {a : Nat} {len : Nat} {x_} (e : (State.readAt s a len) = (x_, u)) (h : Keeps s0 s) : Keeps s0 u := by
  have h2 := State.readAt_keeps h a len
  rw [e] at h2; exact h2

theorem State.devLoad_keeps {s0 s : State} (h : Keeps s0 s) (a : Nat) (len : Nat) : Keeps s0 (State.devLoad s a len).2 := by
  unfold State.devLoad
  repeat' (first | with_reducible assumption | with_reducible apply State.readStretches_keeps | with_reducible refine State.readStretches_keeps_of (by assumption) ?_ | split | with_reducible apply keeps_foldl | with_reducible apply keeps_foldl1 | with_reducible apply keeps_foldl2 | with_reducible apply keeps_foldl22 | intro _ | dsimp only | simp only [keeps_mk, keepsT_self])
theorem State.devLoad_keeps_of {s0 s u : State} {a : Nat} {len : Nat} {x_} (e : (State.devLoad s a len) = (x_, u)) (h : Keeps s0 s) : Keeps s0 u := by
  have h2 := State.devLoad_keeps h a len
  rw [e] at h2; exact h2

theorem State.writeStretch_keeps {s0 s : State} (h : Keeps s0 s) (x : Loc × Nat × Nat) (bs : List PByte) : Keeps s0 (State.writeStretch s x bs) := by
  unfold State.writeStretch
  repeat' (first | with_reducible assumption | with_reducible apply State.store_keeps | with_reducible apply State.cisternStore_keeps | split | with_reducible apply keeps_foldl | with_reducible apply keeps_foldl1 | with_reducible apply keeps_foldl2 | with_reducible apply keeps_foldl22 | intro _ | dsimp only | simp only [keeps_mk, keepsT_self])

theorem State.writeStretches_keeps {s0 s : State} (h : Keeps s0 s) (xs : List (Loc × Nat × Nat)) (bs : List PByte) :
    Keeps s0 (s.writeStretches xs bs) := by
  induction xs generalizing s bs with
  | nil => exact h
  | cons x xs ih => exact ih (State.writeStretch_keeps h x _) _


theorem State.writeAt_keeps {s0 s : State} (h : Keeps s0 s) (a : Nat) (bs : List PByte) : Keeps s0 (State.writeAt s a bs) := by
  unfold State.writeAt
  repeat' (first | with_reducible assumption | with_reducible apply State.writeStretches_keeps | with_reducible apply State.reachMap_keeps | split | with_reducible apply keeps_foldl | with_reducible apply keeps_foldl1 | with_reducible apply keeps_foldl2 | with_reducible apply keeps_foldl22 | intro _ | dsimp only | simp only [keeps_mk, keepsT_self])

theorem State.devStore_keeps {s0 s : State} (h : Keeps s0 s) (a : Nat) (bs : List PByte) : Keeps s0 (State.devStore s a bs) := by
  unfold State.devStore
  repeat' (first | with_reducible assumption | with_reducible apply State.writeStretches_keeps | with_reducible apply State.flagClosed_keeps | split | with_reducible apply keeps_foldl | with_reducible apply keeps_foldl1 | with_reducible apply keeps_foldl2 | with_reducible apply keeps_foldl22 | intro _ | dsimp only | simp only [keeps_mk, keepsT_self])

theorem State.putCmd_keeps {s0 s : State} (h : Keeps s0 s) (c : Cmd) : Keeps s0 (State.putCmd s c) := by
  unfold State.putCmd
  repeat' (first | with_reducible assumption | split | with_reducible apply keeps_foldl | with_reducible apply keeps_foldl1 | with_reducible apply keeps_foldl2 | with_reducible apply keeps_foldl22 | intro _ | dsimp only | simp only [keeps_mk, keepsT_self])

theorem State.dropCmd_keeps {s0 s : State} (h : Keeps s0 s) (c : Cmd) : Keeps s0 (State.dropCmd s c) := by
  unfold State.dropCmd
  repeat' (first | with_reducible assumption | split | with_reducible apply keeps_foldl | with_reducible apply keeps_foldl1 | with_reducible apply keeps_foldl2 | with_reducible apply keeps_foldl22 | intro _ | dsimp only | simp only [keeps_mk, keepsT_self])

theorem State.setQueue_keeps {s0 s : State} (h : Keeps s0 s) (p : PartId) (q : QueId) (x : Queue) : Keeps s0 (State.setQueue s p q x) := by
  unfold State.setQueue
  repeat' (first | with_reducible assumption | with_reducible apply State.setPart_keeps | split | with_reducible apply keeps_foldl | with_reducible apply keeps_foldl1 | with_reducible apply keeps_foldl2 | with_reducible apply keeps_foldl22 | intro _ | dsimp only | simp only [keeps_mk, keepsT_self])

theorem State.ringRead_keeps {s0 s : State} (h : Keeps s0 s) (p : PartId) (r : Ring) (off : Nat) (len : Nat) : Keeps s0 (State.ringRead s p r off len).2 := by
  unfold State.ringRead
  repeat' (first | with_reducible assumption | with_reducible apply State.load_keeps | with_reducible refine State.load_keeps_of (by assumption) ?_ | split | with_reducible apply keeps_foldl | with_reducible apply keeps_foldl1 | with_reducible apply keeps_foldl2 | with_reducible apply keeps_foldl22 | intro _ | dsimp only | simp only [keeps_mk, keepsT_self])
theorem State.ringRead_keeps_of {s0 s u : State} {p : PartId} {r : Ring} {off : Nat} {len : Nat} {x_} (e : (State.ringRead s p r off len) = (x_, u)) (h : Keeps s0 s) : Keeps s0 u := by
  have h2 := State.ringRead_keeps h p r off len
  rw [e] at h2; exact h2

theorem State.ringWrite_keeps {s0 s : State} (h : Keeps s0 s) (p : PartId) (r : Ring) (off : Nat) (bs : List Byte) : Keeps s0 (State.ringWrite s p r off bs) := by
  unfold State.ringWrite
  repeat' (first | with_reducible assumption | with_reducible apply State.hostStore_keeps | with_reducible apply State.storeB_keeps | split | with_reducible apply keeps_foldl | with_reducible apply keeps_foldl1 | with_reducible apply keeps_foldl2 | with_reducible apply keeps_foldl22 | intro _ | dsimp only | simp only [keeps_mk, keepsT_self])

theorem State.poisonWrites_keeps {s0 s : State} (h : Keeps s0 s) (rs : List Rng) : Keeps s0 (State.poisonWrites s rs) := by
  unfold State.poisonWrites
  repeat' (first | with_reducible assumption | with_reducible apply State.poisonRange_keeps | split | with_reducible apply keeps_foldl | with_reducible apply keeps_foldl1 | with_reducible apply keeps_foldl2 | with_reducible apply keeps_foldl22 | intro _ | dsimp only | simp only [keeps_mk, keepsT_self])

theorem State.addSig_keeps {s0 s : State} (h : Keeps s0 s) (p : PartId) (k : Nat) (v : W32) : Keeps s0 (State.addSig s p k v) := by
  unfold State.addSig
  repeat' (first | with_reducible assumption | with_reducible apply State.setPart_keeps | split | with_reducible apply keeps_foldl | with_reducible apply keeps_foldl1 | with_reducible apply keeps_foldl2 | with_reducible apply keeps_foldl22 | intro _ | dsimp only | simp only [keeps_mk, keepsT_self])

theorem State.countNdc_keeps {s0 s : State} (h : Keeps s0 s) (p : PartId) : Keeps s0 (State.countNdc s p) := by
  unfold State.countNdc
  repeat' (first | with_reducible assumption | with_reducible apply State.setPart_keeps | split | with_reducible apply keeps_foldl | with_reducible apply keeps_foldl1 | with_reducible apply keeps_foldl2 | with_reducible apply keeps_foldl22 | intro _ | dsimp only | simp only [keeps_mk, keepsT_self])

theorem State.raiseHigh_keeps {s0 s : State} (h : Keeps s0 s) (n : CoreId) : Keeps s0 (State.raiseHigh s n) := by
  unfold State.raiseHigh
  repeat' (first | with_reducible assumption | split | with_reducible apply keeps_foldl | with_reducible apply keeps_foldl1 | with_reducible apply keeps_foldl2 | with_reducible apply keeps_foldl22 | intro _ | dsimp only | simp only [keeps_mk, keepsT_self])

theorem State.takeKey_keeps {s0 s : State} (h : Keeps s0 s) (p : PartId) (key : W16) (n : CoreId) : Keeps s0 (State.takeKey s p key n) := by
  unfold State.takeKey
  repeat' (first | with_reducible assumption | split | with_reducible apply keeps_foldl | with_reducible apply keeps_foldl1 | with_reducible apply keeps_foldl2 | with_reducible apply keeps_foldl22 | intro _ | dsimp only | simp only [keeps_mk, keepsT_self])

theorem State.queueRecord_keeps {s0 s : State} (h : Keeps s0 s) (p : PartId) (q : QueId) (r : Record) : Keeps s0 (State.queueRecord s p q r) := by
  unfold State.queueRecord
  repeat' (first | with_reducible assumption | with_reducible apply State.flagIf_keeps | with_reducible apply State.setQueue_keeps | split | with_reducible apply keeps_foldl | with_reducible apply keeps_foldl1 | with_reducible apply keeps_foldl2 | with_reducible apply keeps_foldl22 | intro _ | dsimp only | simp only [keeps_mk, keepsT_self])

theorem State.promote_keeps {s0 s : State} (h : Keeps s0 s) (p : PartId) (q : QueId) : Keeps s0 (State.promote s p q) := by
  unfold State.promote
  repeat' (first | with_reducible assumption | with_reducible apply State.queueRecord_keeps | with_reducible apply State.dropCmd_keeps | with_reducible apply State.putCmd_keeps | split | with_reducible apply keeps_foldl | with_reducible apply keeps_foldl1 | with_reducible apply keeps_foldl2 | with_reducible apply keeps_foldl22 | intro _ | dsimp only | simp only [keeps_mk, keepsT_self])

theorem State.countStatus_keeps {s0 s : State} (h : Keeps s0 s) (p : PartId) (st : St) : Keeps s0 (State.countStatus s p st) := by
  unfold State.countStatus
  repeat' (first | with_reducible assumption | with_reducible apply State.setPart_keeps | with_reducible apply State.flag_keeps | split | with_reducible apply keeps_foldl | with_reducible apply keeps_foldl1 | with_reducible apply keeps_foldl2 | with_reducible apply keeps_foldl22 | intro _ | dsimp only | simp only [keeps_mk, keepsT_self])

theorem State.countDone_keeps {s0 s : State} (h : Keeps s0 s) (c : Cmd) : Keeps s0 (State.countDone s c) := by
  unfold State.countDone
  repeat' (first | with_reducible assumption | split | with_reducible apply keeps_foldl | with_reducible apply keeps_foldl1 | with_reducible apply keeps_foldl2 | with_reducible apply keeps_foldl22 | intro _ | dsimp only | simp only [keeps_mk, keepsT_self])

theorem State.complete_keeps {s0 s : State} (h : Keeps s0 s) (c : Cmd) (conds : List St) (rows : List St) : Keeps s0 (State.complete s c conds rows) := by
  unfold State.complete
  repeat' (first | with_reducible assumption | with_reducible apply State.countDone_keeps | with_reducible apply State.countStatus_keeps | with_reducible apply State.dropCmd_keeps | with_reducible apply State.queueRecord_keeps | with_reducible apply State.putCmd_keeps | split | with_reducible apply keeps_foldl | with_reducible apply keeps_foldl1 | with_reducible apply keeps_foldl2 | with_reducible apply keeps_foldl22 | intro _ | dsimp only | simp only [keeps_mk, keepsT_self])

theorem State.endOp_keeps {s0 s : State} (h : Keeps s0 s) (o : PumpOp) : Keeps s0 (State.endOp s o) := by
  unfold State.endOp
  repeat' (first | with_reducible assumption | with_reducible apply State.siphonSend_keeps | split | with_reducible apply keeps_foldl | with_reducible apply keeps_foldl1 | with_reducible apply keeps_foldl2 | with_reducible apply keeps_foldl22 | intro _ | dsimp only | simp only [keeps_mk, keepsT_self])

theorem State.abandon_keeps {s0 s : State} (h : Keeps s0 s) (c : Cmd) (st : St) : Keeps s0 (State.abandon s c st) := by
  unfold State.abandon
  repeat' (first | with_reducible assumption | with_reducible apply State.endOp_keeps | with_reducible apply State.poisonWrites_keeps | with_reducible apply State.complete_keeps | split | with_reducible apply keeps_foldl | with_reducible apply keeps_foldl1 | with_reducible apply keeps_foldl2 | with_reducible apply keeps_foldl22 | intro _ | dsimp only | simp only [keeps_mk, keepsT_self])

theorem State.startCmd_keeps {s0 s : State} (h : Keeps s0 s) (c : Cmd) : Keeps s0 (State.startCmd s c).1 := by
  unfold State.startCmd
  repeat' (first | with_reducible assumption | with_reducible apply State.countNdc_keeps | with_reducible apply State.takeKey_keeps | with_reducible apply State.putCmd_keeps | split | with_reducible apply keeps_foldl | with_reducible apply keeps_foldl1 | with_reducible apply keeps_foldl2 | with_reducible apply keeps_foldl22 | intro _ | dsimp only | simp only [keeps_mk, keepsT_self])
theorem State.startCmd_keeps_of {s0 s u : State} {c : Cmd} {x_} (e : (State.startCmd s c) = (u, x_)) (h : Keeps s0 s) : Keeps s0 u := by
  have h2 := State.startCmd_keeps h c
  rw [e] at h2; exact h2

theorem State.ranCmd_keeps {s0 s : State} (h : Keeps s0 s) (c : Cmd) (conds : List St) : Keeps s0 (State.ranCmd s c conds) := by
  unfold State.ranCmd
  repeat' (first | with_reducible assumption | with_reducible apply State.putCmd_keeps | split | with_reducible apply keeps_foldl | with_reducible apply keeps_foldl1 | with_reducible apply keeps_foldl2 | with_reducible apply keeps_foldl22 | intro _ | dsimp only | simp only [keeps_mk, keepsT_self])

theorem State.runCmd_keeps {s0 s : State} (h : Keeps s0 s) (p : PartId) (q : QueId) (n : Nat) (k : CmdKind) (body : Cmd → State → State × List St)
    (hb : ∀ c t, Keeps s0 t → Keeps s0 (body c t).1) : Keeps s0 (s.runCmd p q n k body) := by
  unfold State.runCmd
  repeat' (first | with_reducible assumption | with_reducible apply hb | with_reducible apply State.startCmd_keeps | with_reducible apply State.ranCmd_keeps | with_reducible refine State.startCmd_keeps_of (by assumption) ?_ | split | with_reducible apply keeps_foldl | with_reducible apply keeps_foldl1 | with_reducible apply keeps_foldl2 | with_reducible apply keeps_foldl22 | intro _ | dsimp only | simp only [keeps_mk, keepsT_self])


theorem State.fillOn_keeps {s0 s : State} (h : Keeps s0 s) (a : Nat) (len : Nat) : Keeps s0 (State.fillOn s a len) := by
  unfold State.fillOn
  repeat' (first | with_reducible assumption | with_reducible apply State.setWctl_keeps | split | with_reducible apply keeps_foldl | with_reducible apply keeps_foldl1 | with_reducible apply keeps_foldl2 | with_reducible apply keeps_foldl22 | intro _ | dsimp only | simp only [keeps_mk, keepsT_self])

theorem State.fillBody_keeps {s0 s : State} (h : Keeps s0 s) (c : Cmd) : Keeps s0 (State.fillBody c s).1 := by
  unfold State.fillBody
  repeat' (first | with_reducible assumption | with_reducible apply State.storeIn_keeps | with_reducible apply State.fillOn_keeps | with_reducible apply State.flagClosed_keeps | split | with_reducible apply keeps_foldl | with_reducible apply keeps_foldl1 | with_reducible apply keeps_foldl2 | with_reducible apply keeps_foldl22 | intro _ | dsimp only | simp only [keeps_mk, keepsT_self])
theorem State.fillBody_keeps_of {s0 s u : State} {c : Cmd} {x_} (e : (State.fillBody c s) = (u, x_)) (h : Keeps s0 s) : Keeps s0 u := by
  have h2 := State.fillBody_keeps h c
  rw [e] at h2; exact h2

theorem State.copyBody_keeps {s0 s : State} (h : Keeps s0 s) (c : Cmd) : Keeps s0 (State.copyBody c s).1 := by
  unfold State.copyBody
  repeat' (first | with_reducible assumption | with_reducible apply State.load_keeps | with_reducible apply State.store_keeps | with_reducible apply State.flagClosed_keeps | with_reducible refine State.load_keeps_of (by assumption) ?_ | split | with_reducible apply keeps_foldl | with_reducible apply keeps_foldl1 | with_reducible apply keeps_foldl2 | with_reducible apply keeps_foldl22 | intro _ | dsimp only | simp only [keeps_mk, keepsT_self])
theorem State.copyBody_keeps_of {s0 s u : State} {c : Cmd} {x_} (e : (State.copyBody c s) = (u, x_)) (h : Keeps s0 s) : Keeps s0 u := by
  have h2 := State.copyBody_keeps h c
  rw [e] at h2; exact h2

theorem State.sendWrite_keeps {s0 s : State} (h : Keeps s0 s) (x : Window × Nat × List PByte) : Keeps s0 (State.sendWrite s x) := by
  unfold State.sendWrite
  repeat' (first | with_reducible assumption | with_reducible apply State.siphonSend_keeps | split | with_reducible apply keeps_foldl | with_reducible apply keeps_foldl1 | with_reducible apply keeps_foldl2 | with_reducible apply keeps_foldl22 | intro _ | dsimp only | simp only [keeps_mk, keepsT_self])

theorem State.sendEach_keeps {α : Type} {s0 s : State} (h : Keeps s0 s) (f : State → α → State) (xs : List α)
    (hf : ∀ t x, Keeps s0 t → Keeps s0 (f t x)) : Keeps s0 (s.sendEach f xs).1 := by
  induction xs generalizing s with
  | nil => exact h
  | cons x xs ih => exact ih (hf s x h)
theorem State.sendEach_keeps_of {α : Type} {s0 s t : State} {f : State → α → State} {xs : List α} {ms : List W32} (e : s.sendEach f xs = (t, ms))
    (h : Keeps s0 s) (hf : ∀ t x, Keeps s0 t → Keeps s0 (f t x)) : Keeps s0 t := by
  have h2 := State.sendEach_keeps h f xs hf
  rw [e] at h2
  exact h2


theorem State.newOp_keeps {s0 s : State} (h : Keeps s0 s) (part : PartId) (owner : OpOwner) (core : CoreId) (kind : OpKind) (src : Nat) (dst : Nat) (len : Nat) (tint : Bool) (data : Option (List PByte)) : Keeps s0 (State.newOp s part owner core kind src dst len tint data) := by
  unfold State.newOp
  repeat' (first | with_reducible assumption | with_reducible apply State.sendEach_keeps | with_reducible apply State.siphonSend_keeps | with_reducible apply State.raiseHigh_keeps | with_reducible refine State.sendEach_keeps_of (by assumption) ?_ | with_reducible refine State.sendEach_keeps_of (by assumption) ?_ ?_ | split | with_reducible apply keeps_foldl | with_reducible apply keeps_foldl1 | with_reducible apply keeps_foldl2 | with_reducible apply keeps_foldl22 | intro _ | dsimp only | simp only [keeps_mk, keepsT_self])

theorem State.setOp_keeps {s0 s : State} (h : Keeps s0 s) (o : PumpOp) : Keeps s0 (State.setOp s o) := by
  unfold State.setOp
  repeat' (first | with_reducible assumption | split | with_reducible apply keeps_foldl | with_reducible apply keeps_foldl1 | with_reducible apply keeps_foldl2 | with_reducible apply keeps_foldl22 | intro _ | dsimp only | simp only [keeps_mk, keepsT_self])

theorem State.badIndex_keeps {s0 s : State} (h : Keeps s0 s) (c : Cmd) : Keeps s0 (State.badIndex s c).1 := by
  unfold State.badIndex
  repeat' (first | with_reducible assumption | with_reducible apply State.flag_keeps | with_reducible apply State.poisonWrites_keeps | split | with_reducible apply keeps_foldl | with_reducible apply keeps_foldl1 | with_reducible apply keeps_foldl2 | with_reducible apply keeps_foldl22 | intro _ | dsimp only | simp only [keeps_mk, keepsT_self])
theorem State.badIndex_keeps_of {s0 s u : State} {c : Cmd} {x_} (e : (State.badIndex s c) = (u, x_)) (h : Keeps s0 s) : Keeps s0 u := by
  have h2 := State.badIndex_keeps h c
  rw [e] at h2; exact h2

theorem State.dropUnmade_keeps {s0 s : State} (h : Keeps s0 s) (c : Cmd) : Keeps s0 (State.dropUnmade s c).1 := by
  unfold State.dropUnmade
  repeat' (first | with_reducible assumption | with_reducible apply State.poisonWrites_keeps | split | with_reducible apply keeps_foldl | with_reducible apply keeps_foldl1 | with_reducible apply keeps_foldl2 | with_reducible apply keeps_foldl22 | intro _ | dsimp only | simp only [keeps_mk, keepsT_self])
theorem State.dropUnmade_keeps_of {s0 s u : State} {c : Cmd} {x_} (e : (State.dropUnmade s c) = (u, x_)) (h : Keeps s0 s) : Keeps s0 u := by
  have h2 := State.dropUnmade_keeps h c
  rw [e] at h2; exact h2

theorem State.markRemote_keeps {s0 s : State} (h : Keeps s0 s) (c : Cmd) (k : Nat) : Keeps s0 (State.markRemote s c k) := by
  unfold State.markRemote
  repeat' (first | with_reducible assumption | with_reducible apply State.newOp_keeps | split | with_reducible apply keeps_foldl | with_reducible apply keeps_foldl1 | with_reducible apply keeps_foldl2 | with_reducible apply keeps_foldl22 | intro _ | dsimp only | simp only [keeps_mk, keepsT_self])

theorem State.issueOps_keeps {s0 s : State} (h : Keeps s0 s) (c : Cmd) (fuel : Nat) : Keeps s0 (s.issueOps c fuel).1 := by
  induction fuel generalizing s c with
  | zero => exact h
  | succ k ih =>
    have h2 : Keeps s0 (if (decide (c.pMode ≠ 0) && decide (c.nextOp = c.pIdxOps)) = true then s.badIndex c else (s, c)).1 := by
      split
      · exact State.badIndex_keeps h c
      · exact h
    unfold State.issueOps
    split
    · exact h
    · split
      · exact h
      · generalize (if (decide (c.pMode ≠ 0) && decide (c.nextOp = c.pIdxOps)) = true then s.badIndex c else (s, c)) = q at h2 ⊢
        obtain ⟨s1, c0⟩ := q
        dsimp only at h2 ⊢
        split
        · split
          · exact ih (State.dropUnmade_keeps h2 _) _
          · exact ih (State.newOp_keeps h2 _ _ _ _ _ _ _ _ _) _
        · exact ih (State.markRemote_keeps h2 _ _) _

theorem State.issueOps_keeps_of {s0 s u : State} {c : Cmd} {fuel : Nat} {x_} (e : (State.issueOps s c fuel) = (u, x_)) (h : Keeps s0 s) : Keeps s0 u := by
  have h2 := State.issueOps_keeps h c fuel
  rw [e] at h2; exact h2

theorem State.makeOps_keeps {s0 s : State} (h : Keeps s0 s) (c : Cmd) (core : CoreId) (at_ : Nat → Nat × Nat) (f : Nat → State → State) (n : Nat)
    (hf : ∀ k t, Keeps s0 t → Keeps s0 (f k t)) : Keeps s0 (s.makeOps c core at_ f n).1 := by
  induction n generalizing s c with
  | zero => exact h
  | succ n ih =>
    unfold State.makeOps
    split
    · exact h
    · split
      · exact State.dropUnmade_keeps h c
      · exact ih (hf _ _ h) _
theorem State.makeOps_keeps_of {s0 s t : State} {c d : Cmd} {core : CoreId} {at_ : Nat → Nat × Nat} {f : Nat → State → State} {n : Nat}
    (e : s.makeOps c core at_ f n = (t, d)) (h : Keeps s0 s) (hf : ∀ k t, Keeps s0 t → Keeps s0 (f k t)) : Keeps s0 t := by
  have h2 := State.makeOps_keeps h c core at_ f n hf
  rw [e] at h2
  exact h2


theorem State.farArrives_keeps {s0 s : State} (h : Keeps s0 s) (o : PumpOp) : Keeps s0 (State.farArrives s o) := by
  unfold State.farArrives
  repeat' (first | with_reducible assumption | split | with_reducible apply keeps_foldl | with_reducible apply keeps_foldl1 | with_reducible apply keeps_foldl2 | with_reducible apply keeps_foldl22 | intro _ | dsimp only | simp only [keeps_mk, keepsT_self])

theorem State.setJobs_keeps {s0 s : State} (h : Keeps s0 s) (u : IoUnit) (js : List IoJob) : Keeps s0 (State.setJobs s u js) := by
  unfold State.setJobs
  repeat' (first | with_reducible assumption | split | with_reducible apply keeps_foldl | with_reducible apply keeps_foldl1 | with_reducible apply keeps_foldl2 | with_reducible apply keeps_foldl22 | intro _ | dsimp only | simp only [keeps_mk, keepsT_self])

theorem State.ioPut_keeps {s0 s : State} (h : Keeps s0 s) (u : IoUnit) (rest : List IoJob) (q : PartId) (a : Nat) (bs : List PByte) : Keeps s0 (State.ioPut s u rest q a bs) := by
  unfold State.ioPut
  repeat' (first | with_reducible assumption | with_reducible apply State.newOp_keeps | with_reducible apply State.setJobs_keeps | split | with_reducible apply keeps_foldl | with_reducible apply keeps_foldl1 | with_reducible apply keeps_foldl2 | with_reducible apply keeps_foldl22 | intro _ | dsimp only | simp only [keeps_mk, keepsT_self])

theorem State.ioGo_keeps {s0 s : State} (h : Keeps s0 s) (u : IoUnit) (fuel : Nat) : Keeps s0 (State.ioGo s u fuel) := by
  induction fuel generalizing s u with
  | zero =>
    unfold State.ioGo
    repeat' (first | with_reducible assumption | with_reducible apply State.ioPut_keeps | with_reducible apply State.addSig_keeps | with_reducible apply State.setJobs_keeps | split | with_reducible apply keeps_foldl | with_reducible apply keeps_foldl1 | with_reducible apply keeps_foldl2 | with_reducible apply keeps_foldl22 | intro _ | dsimp only | simp only [keeps_mk, keepsT_self])
  | succ k ih =>
    unfold State.ioGo
    repeat' (first | with_reducible assumption | with_reducible apply ih | with_reducible apply State.ioPut_keeps | with_reducible apply State.addSig_keeps | with_reducible apply State.setJobs_keeps | split | with_reducible apply keeps_foldl | with_reducible apply keeps_foldl1 | with_reducible apply keeps_foldl2 | with_reducible apply keeps_foldl22 | intro _ | dsimp only | simp only [keeps_mk, keepsT_self])

theorem State.ioAll_keeps {s0 s : State} (h : Keeps s0 s) (u : IoUnit) : Keeps s0 (State.ioAll s u) := by
  unfold State.ioAll
  repeat' (first | with_reducible assumption | with_reducible apply State.ioGo_keeps | split | with_reducible apply keeps_foldl | with_reducible apply keeps_foldl1 | with_reducible apply keeps_foldl2 | with_reducible apply keeps_foldl22 | intro _ | dsimp only | simp only [keeps_mk, keepsT_self])

theorem State.ioAdd_keeps {s0 s : State} (h : Keeps s0 s) (u : IoUnit) (js : List IoJob) : Keeps s0 (State.ioAdd s u js) := by
  unfold State.ioAdd
  repeat' (first | with_reducible assumption | with_reducible apply State.ioAll_keeps | with_reducible apply State.setJobs_keeps | split | with_reducible apply keeps_foldl | with_reducible apply keeps_foldl1 | with_reducible apply keeps_foldl2 | with_reducible apply keeps_foldl22 | intro _ | dsimp only | simp only [keeps_mk, keepsT_self])

theorem State.camRecord_keeps {s0 s : State} (h : Keeps s0 s) (v : CamId) : Keeps s0 (State.camRecord s v) := by
  unfold State.camRecord
  repeat' (first | with_reducible assumption | with_reducible apply State.ioPut_keeps | split | with_reducible apply keeps_foldl | with_reducible apply keeps_foldl1 | with_reducible apply keeps_foldl2 | with_reducible apply keeps_foldl22 | intro _ | dsimp only | simp only [keeps_mk, keepsT_self])

theorem State.creditOp_keeps {s0 s : State} (h : Keeps s0 s) (o : PumpOp) (conds : List St) : Keeps s0 (State.creditOp s o conds) := by
  unfold State.creditOp
  repeat' (first | with_reducible assumption | with_reducible apply State.ioAll_keeps | with_reducible apply State.putCmd_keeps | split | with_reducible apply keeps_foldl | with_reducible apply keeps_foldl1 | with_reducible apply keeps_foldl2 | with_reducible apply keeps_foldl22 | intro _ | dsimp only | simp only [keeps_mk, keepsT_self])

theorem State.ruin_keeps {s0 s : State} (h : Keeps s0 s) (o : PumpOp) : Keeps s0 (State.ruin s o) := by
  unfold State.ruin
  repeat' (first | with_reducible assumption | with_reducible apply State.putCmd_keeps | with_reducible apply State.poisonWrites_keeps | split | with_reducible apply keeps_foldl | with_reducible apply keeps_foldl1 | with_reducible apply keeps_foldl2 | with_reducible apply keeps_foldl22 | intro _ | dsimp only | simp only [keeps_mk, keepsT_self])

theorem State.sourceStretch_keeps {s0 s : State} (h : Keeps s0 s) (k : ClusId) (ext : Bool) (x : Loc × Nat × Nat) : Keeps s0 (State.sourceStretch s k ext x).2 := by
  unfold State.sourceStretch
  repeat' (first | with_reducible assumption | with_reducible apply State.readStretch_keeps | with_reducible apply State.flagIf_keeps | with_reducible refine State.readStretch_keeps_of (by assumption) ?_ | split | with_reducible apply keeps_foldl | with_reducible apply keeps_foldl1 | with_reducible apply keeps_foldl2 | with_reducible apply keeps_foldl22 | intro _ | dsimp only | simp only [keeps_mk, keepsT_self])
theorem State.sourceStretch_keeps_of {s0 s u : State} {k : ClusId} {ext : Bool} {x0 : Loc × Nat × Nat} {x_} (e : (State.sourceStretch s k ext x0) = (x_, u)) (h : Keeps s0 s) : Keeps s0 u := by
  have h2 := State.sourceStretch_keeps h k ext x0
  rw [e] at h2; exact h2

theorem State.opSource_keeps {s0 s : State} (h : Keeps s0 s) (o : PumpOp) (ext : Bool) : Keeps s0 (s.opSource o ext).2 := by
  unfold State.opSource
  cases o.data with
  | some bs => exact h
  | none => exact keeps_foldl2 (t := (([], s) : List PByte × State)) (fun u x hu => State.sourceStretch_keeps hu _ _ _) h

theorem State.opSource_keeps_of {s0 s u : State} {o : PumpOp} {ext : Bool} {x_} (e : (State.opSource s o ext) = (x_, u)) (h : Keeps s0 s) : Keeps s0 u := by
  have h2 := State.opSource_keeps h o ext
  rw [e] at h2; exact h2

theorem State.landList_keeps {s0 s : State} (h : Keeps s0 s) (o : PumpOp) (bs : List PByte) : Keeps s0 (State.landList s o bs) := by
  unfold State.landList
  repeat' (first | with_reducible assumption | with_reducible apply State.endOp_keeps | with_reducible apply State.putCmd_keeps | split | with_reducible apply keeps_foldl | with_reducible apply keeps_foldl1 | with_reducible apply keeps_foldl2 | with_reducible apply keeps_foldl22 | intro _ | dsimp only | simp only [keeps_mk, keepsT_self])

theorem State.landOp_keeps {s0 s : State} (h : Keeps s0 s) (o : PumpOp) (bs0 : List PByte) : Keeps s0 (State.landOp s o bs0) := by
  unfold State.landOp
  repeat' (first | with_reducible assumption | with_reducible apply State.creditOp_keeps | with_reducible apply State.endOp_keeps | with_reducible apply State.flagClosed_keeps | with_reducible apply State.writeAt_keeps | split | with_reducible apply keeps_foldl | with_reducible apply keeps_foldl1 | with_reducible apply keeps_foldl2 | with_reducible apply keeps_foldl22 | intro _ | dsimp only | simp only [keeps_mk, keepsT_self])

theorem State.askOp_keeps {s0 s : State} (h : Keeps s0 s) (o : PumpOp) : Keeps s0 (State.askOp s o) := by
  unfold State.askOp
  repeat' (first | with_reducible assumption | with_reducible apply State.sendEach_keeps | with_reducible apply State.siphonSend_keeps | with_reducible apply State.setOp_keeps | with_reducible refine State.sendEach_keeps_of (by assumption) ?_ | with_reducible refine State.sendEach_keeps_of (by assumption) ?_ ?_ | split | with_reducible apply keeps_foldl | with_reducible apply keeps_foldl1 | with_reducible apply keeps_foldl2 | with_reducible apply keeps_foldl22 | intro _ | dsimp only | simp only [keeps_mk, keepsT_self])

theorem State.pushOp_keeps {s0 s : State} (h : Keeps s0 s) (o : PumpOp) (bs0 : List PByte) : Keeps s0 (State.pushOp s o bs0) := by
  unfold State.pushOp
  repeat' (first | with_reducible assumption | with_reducible apply State.sendEach_keeps | with_reducible apply State.sendWrite_keeps | with_reducible apply State.setOp_keeps | with_reducible refine State.sendEach_keeps_of (by assumption) ?_ | with_reducible refine State.sendEach_keeps_of (by assumption) ?_ ?_ | split | with_reducible apply keeps_foldl | with_reducible apply keeps_foldl1 | with_reducible apply keeps_foldl2 | with_reducible apply keeps_foldl22 | intro _ | dsimp only | simp only [keeps_mk, keepsT_self])

theorem State.opTimeout_keeps {s0 s : State} (h : Keeps s0 s) (id : Nat) : Keeps s0 (State.opTimeout s id) := by
  unfold State.opTimeout
  repeat' (first | with_reducible assumption | with_reducible apply State.flag_keeps | with_reducible apply State.setOp_keeps | with_reducible apply State.creditOp_keeps | with_reducible apply State.endOp_keeps | with_reducible apply State.poisonWrites_keeps | split | with_reducible apply keeps_foldl | with_reducible apply keeps_foldl1 | with_reducible apply keeps_foldl2 | with_reducible apply keeps_foldl22 | intro _ | dsimp only | simp only [keeps_mk, keepsT_self])

theorem State.readFrame_keeps {s0 s : State} (h : Keeps s0 s) (h1 : Hdr) (f0 : Nat) (f : Nat) (blocks : List RBlock) (iraw : List Byte) : Keeps s0 (State.readFrame s h1 f0 f blocks iraw).2.2.2 := by
  unfold State.readFrame
  repeat' (first | with_reducible assumption | with_reducible apply State.load_keeps | with_reducible refine State.load_keeps_of (by assumption) ?_ | split | with_reducible apply keeps_foldl | with_reducible apply keeps_foldl1 | with_reducible apply keeps_foldl2 | with_reducible apply keeps_foldl22 | intro _ | dsimp only | simp only [keeps_mk, keepsT_self])
theorem State.readFrame_keeps_of {s0 s u : State} {h1 : Hdr} {f0 : Nat} {f : Nat} {blocks : List RBlock} {iraw : List Byte} {x_ y_ z_} (e : (State.readFrame s h1 f0 f blocks iraw) = (x_, y_, z_, u)) (h : Keeps s0 s) : Keeps s0 u := by
  have h2 := State.readFrame_keeps h h1 f0 f blocks iraw
  rw [e] at h2; exact h2

theorem State.readFrames_keeps {s0 s : State} (h : Keeps s0 s) (h1 : Hdr) (f0 : Nat) (iraw : List Byte) (f : Nat) (z5 : List (List RBlock)) : Keeps s0 (State.readFrames s h1 f0 iraw f z5).2.2.2 := by
  induction z5 generalizing s h1 f0 iraw f with
  | nil =>
    unfold State.readFrames
    repeat' (first | with_reducible assumption | with_reducible apply State.readFrame_keeps | with_reducible refine State.readFrame_keeps_of (by assumption) ?_ | split | with_reducible apply keeps_foldl | with_reducible apply keeps_foldl1 | with_reducible apply keeps_foldl2 | with_reducible apply keeps_foldl22 | intro _ | dsimp only | simp only [keeps_mk, keepsT_self])
  | cons x xs ih =>
    unfold State.readFrames
    repeat' (first | with_reducible assumption | with_reducible apply ih | with_reducible apply State.readFrame_keeps | with_reducible refine State.readFrame_keeps_of (by assumption) ?_ | split | with_reducible apply keeps_foldl | with_reducible apply keeps_foldl1 | with_reducible apply keeps_foldl2 | with_reducible apply keeps_foldl22 | intro _ | dsimp only | simp only [keeps_mk, keepsT_self])
theorem State.readFrames_keeps_of {s0 s u : State} {h1 : Hdr} {f0 : Nat} {iraw : List Byte} {f : Nat} {z5 : List (List RBlock)} {x_ y_ z_} (e : (State.readFrames s h1 f0 iraw f z5) = (x_, y_, z_, u)) (h : Keeps s0 s) : Keeps s0 u := by
  have h2 := State.readFrames_keeps h h1 f0 iraw f z5
  rw [e] at h2; exact h2

theorem State.readTbf_keeps {s0 s : State} (h : Keeps s0 s) (h0 : Hdr) (b0 : Nat) (rows : Nat) (k : Nat) (f0 : Nat) (total : Nat) : Keeps s0 (State.readTbf s h0 b0 rows k f0 total).2 := by
  unfold State.readTbf
  repeat' (first | with_reducible assumption | with_reducible apply State.load_keeps | with_reducible apply State.readFrames_keeps | with_reducible refine State.load_keeps_of (by assumption) ?_ | with_reducible refine State.readFrames_keeps_of (by assumption) ?_ | split | with_reducible apply keeps_foldl | with_reducible apply keeps_foldl1 | with_reducible apply keeps_foldl2 | with_reducible apply keeps_foldl22 | intro _ | dsimp only | simp only [keeps_mk, keepsT_self])
theorem State.readTbf_keeps_of {s0 s u : State} {h0 : Hdr} {b0 : Nat} {rows : Nat} {k : Nat} {f0 : Nat} {total : Nat} {x_} (e : (State.readTbf s h0 b0 rows k f0 total) = (x_, u)) (h : Keeps s0 s) : Keeps s0 u := by
  have h2 := State.readTbf_keeps h h0 b0 rows k f0 total
  rw [e] at h2; exact h2

theorem State.readPlain_keeps {s0 s : State} (h : Keeps s0 s) (base : Nat) (fmt : Nat) (rows : Nat) (k : Nat) (ld : Nat) : Keeps s0 (State.readPlain s base fmt rows k ld).2.2 := by
  unfold State.readPlain
  repeat' (first | with_reducible assumption | with_reducible apply State.load_keeps | with_reducible refine State.load_keeps_of (by assumption) ?_ | split | with_reducible apply keeps_foldl | with_reducible apply keeps_foldl1 | with_reducible apply keeps_foldl2 | with_reducible apply keeps_foldl22 | intro _ | dsimp only | simp only [keeps_mk, keepsT_self])
theorem State.readPlain_keeps_of {s0 s u : State} {base : Nat} {fmt : Nat} {rows : Nat} {k : Nat} {ld : Nat} {x_ y_} (e : (State.readPlain s base fmt rows k ld) = (x_, y_, u)) (h : Keeps s0 s) : Keeps s0 u := by
  have h2 := State.readPlain_keeps h base fmt rows k ld
  rw [e] at h2; exact h2

theorem State.readOperand_keeps {s0 s : State} (h : Keeps s0 s) (h1 : Hdr) (rows : Nat) (k : Nat) (f0 : Nat) : Keeps s0 (State.readOperand s h1 rows k f0).2 := by
  unfold State.readOperand
  repeat' (first | with_reducible assumption | with_reducible apply State.readTbf_keeps | with_reducible apply State.readPlain_keeps | with_reducible refine State.readTbf_keeps_of (by assumption) ?_ | with_reducible refine State.readPlain_keeps_of (by assumption) ?_ | split | with_reducible apply keeps_foldl | with_reducible apply keeps_foldl1 | with_reducible apply keeps_foldl2 | with_reducible apply keeps_foldl22 | intro _ | dsimp only | simp only [keeps_mk, keepsT_self])
theorem State.readOperand_keeps_of {s0 s u : State} {h1 : Hdr} {rows : Nat} {k : Nat} {f0 : Nat} {x_} (e : (State.readOperand s h1 rows k f0) = (x_, u)) (h : Keeps s0 s) : Keeps s0 u := by
  have h2 := State.readOperand_keeps h h1 rows k f0
  rw [e] at h2; exact h2

theorem State.writePlain_keeps {s0 s : State} (h : Keeps s0 s) (base : Nat) (fmt : Nat) (ld : Nat) (rows : List (List W32)) : Keeps s0 (State.writePlain s base fmt ld rows).2 := by
  unfold State.writePlain
  repeat' (first | with_reducible assumption | with_reducible apply State.storeB_keeps | split | with_reducible apply keeps_foldl | with_reducible apply keeps_foldl1 | with_reducible apply keeps_foldl2 | with_reducible apply keeps_foldl22 | intro _ | dsimp only | simp only [keeps_mk, keepsT_self])
theorem State.writePlain_keeps_of {s0 s u : State} {base : Nat} {fmt : Nat} {ld : Nat} {rows : List (List W32)} {x_} (e : (State.writePlain s base fmt ld rows) = (x_, u)) (h : Keeps s0 s) : Keeps s0 u := by
  have h2 := State.writePlain_keeps h base fmt ld rows
  rw [e] at h2; exact h2

theorem State.writeTbf_keeps {s0 s : State} (h : Keeps s0 s) (h1 : Hdr) (rows : List (List W32)) : Keeps s0 (State.writeTbf s h1 rows).2 := by
  unfold State.writeTbf
  repeat' (first | with_reducible assumption | with_reducible apply State.storeB_keeps | split | with_reducible apply keeps_foldl | with_reducible apply keeps_foldl1 | with_reducible apply keeps_foldl2 | with_reducible apply keeps_foldl22 | intro _ | dsimp only | simp only [keeps_mk, keepsT_self])
theorem State.writeTbf_keeps_of {s0 s u : State} {h1 : Hdr} {rows : List (List W32)} {x_} (e : (State.writeTbf s h1 rows) = (x_, u)) (h : Keeps s0 s) : Keeps s0 u := by
  have h2 := State.writeTbf_keeps h h1 rows
  rw [e] at h2; exact h2

theorem State.semFree_keeps {s0 s : State} (h : Keeps s0 s) (p : Port) (i : SemId) (t : W16) : Keeps s0 (State.semFree s p i t) := by
  unfold State.semFree
  repeat' (first | with_reducible assumption | with_reducible apply State.flag_keeps | split | with_reducible apply keeps_foldl | with_reducible apply keeps_foldl1 | with_reducible apply keeps_foldl2 | with_reducible apply keeps_foldl22 | intro _ | dsimp only | simp only [keeps_mk, keepsT_self])

theorem State.doorbell_keeps {s0 s : State} (h : Keeps s0 s) (p : Port) (r : PartId) (q : QueId) (v : W32) : Keeps s0 (State.doorbell s p r q v) := by
  unfold State.doorbell
  repeat' (first | with_reducible assumption | with_reducible apply State.flag_keeps | with_reducible apply State.setQueue_keeps | with_reducible apply State.setPart_keeps | split | with_reducible apply keeps_foldl | with_reducible apply keeps_foldl1 | with_reducible apply keeps_foldl2 | with_reducible apply keeps_foldl22 | intro _ | dsimp only | simp only [keeps_mk, keepsT_self])

theorem State.consume_keeps {s0 s : State} (h : Keeps s0 s) (p : Port) (r : PartId) (q : QueId) (v : W32) : Keeps s0 (State.consume s p r q v) := by
  unfold State.consume
  repeat' (first | with_reducible assumption | with_reducible apply State.flag_keeps | with_reducible apply State.setQueue_keeps | split | with_reducible apply keeps_foldl | with_reducible apply keeps_foldl1 | with_reducible apply keeps_foldl2 | with_reducible apply keeps_foldl22 | intro _ | dsimp only | simp only [keeps_mk, keepsT_self])

theorem State.writeRecord_keeps {s0 s : State} (h : Keeps s0 s) (p : PartId) (q : QueId) (ring : Ring) (r : Record) (rest : List Record) : Keeps s0 (State.writeRecord s p q ring r rest) := by
  unfold State.writeRecord
  repeat' (first | with_reducible assumption | with_reducible apply State.ringWrite_keeps | with_reducible apply State.promote_keeps | with_reducible apply State.setQueue_keeps | with_reducible apply State.raise_keeps | split | with_reducible apply keeps_foldl | with_reducible apply keeps_foldl1 | with_reducible apply keeps_foldl2 | with_reducible apply keeps_foldl22 | intro _ | dsimp only | simp only [keeps_mk, keepsT_self])

theorem State.earlyReads_keeps {s0 s : State} (h : Keeps s0 s) (a : Nat) (len : Nat) : Keeps s0 (State.earlyReads s a len) := by
  unfold State.earlyReads
  repeat' (first | with_reducible assumption | with_reducible apply State.flag_keeps | split | with_reducible apply keeps_foldl | with_reducible apply keeps_foldl1 | with_reducible apply keeps_foldl2 | with_reducible apply keeps_foldl22 | intro _ | dsimp only | simp only [keeps_mk, keepsT_self])

theorem State.bar2Part_keeps {s0 s : State} (h : Keeps s0 s) (r : WellPart) (a : Nat) (len : Nat) : Keeps s0 (State.bar2Part s r a len).2 := by
  unfold State.bar2Part
  repeat' (first | with_reducible assumption | with_reducible apply State.flag_keeps | with_reducible apply State.readEcc_keeps | split | with_reducible apply keeps_foldl | with_reducible apply keeps_foldl1 | with_reducible apply keeps_foldl2 | with_reducible apply keeps_foldl22 | intro _ | dsimp only | simp only [keeps_mk, keepsT_self])
theorem State.bar2Part_keeps_of {s0 s u : State} {r : WellPart} {a : Nat} {len : Nat} {x_} (e : (State.bar2Part s r a len) = (x_, u)) (h : Keeps s0 s) : Keeps s0 u := by
  have h2 := State.bar2Part_keeps h r a len
  rw [e] at h2; exact h2

theorem State.bar2Missed_keeps {s0 s : State} (h : Keeps s0 s) (p : Port) : Keeps s0 (State.bar2Missed s p) := by
  unfold State.bar2Missed
  repeat' (first | with_reducible assumption | with_reducible apply State.flag_keeps | split | with_reducible apply keeps_foldl | with_reducible apply keeps_foldl1 | with_reducible apply keeps_foldl2 | with_reducible apply keeps_foldl22 | intro _ | dsimp only | simp only [keeps_mk, keepsT_self])

theorem State.bar2Fetch_keeps {s0 s : State} (h : Keeps s0 s) (p : Port) (a : Nat) (len : Nat) : Keeps s0 (State.bar2Fetch s p a len).2 := by
  unfold State.bar2Fetch
  repeat' (first | with_reducible assumption | with_reducible apply State.readEcc_keeps | with_reducible apply State.flag_keeps | with_reducible apply State.bar2Part_keeps | with_reducible apply State.cisternLoad_keeps | with_reducible apply State.bar2Missed_keeps | with_reducible refine State.bar2Part_keeps_of (by assumption) ?_ | with_reducible refine State.cisternLoad_keeps_of (by assumption) ?_ | split | with_reducible apply keeps_foldl | with_reducible apply keeps_foldl1 | with_reducible apply keeps_foldl2 | with_reducible apply keeps_foldl22 | intro _ | dsimp only | simp only [keeps_mk, keepsT_self])
theorem State.bar2Fetch_keeps_of {s0 s u : State} {p : Port} {a : Nat} {len : Nat} {x_} (e : (State.bar2Fetch s p a len) = (x_, u)) (h : Keeps s0 s) : Keeps s0 u := by
  have h2 := State.bar2Fetch_keeps h p a len
  rw [e] at h2; exact h2

theorem State.bar2Word_keeps {s0 s : State} (h : Keeps s0 s) (p : Port) (a : Nat) (len : Nat) : Keeps s0 (State.bar2Word s p a len).2 := by
  unfold State.bar2Word
  repeat' (first | with_reducible assumption | with_reducible apply State.earlyReads_keeps | with_reducible apply State.bar2Fetch_keeps | with_reducible refine State.bar2Fetch_keeps_of (by assumption) ?_ | split | with_reducible apply keeps_foldl | with_reducible apply keeps_foldl1 | with_reducible apply keeps_foldl2 | with_reducible apply keeps_foldl22 | intro _ | dsimp only | simp only [keeps_mk, keepsT_self])
theorem State.bar2Word_keeps_of {s0 s u : State} {p : Port} {a : Nat} {len : Nat} {x_} (e : (State.bar2Word s p a len) = (x_, u)) (h : Keeps s0 s) : Keeps s0 u := by
  have h2 := State.bar2Word_keeps h p a len
  rw [e] at h2; exact h2

theorem State.bar2Read_keeps {s0 s : State} (h : Keeps s0 s) (p : Port) (fuel : Nat) (z3 : Nat) (z4 : Nat) : Keeps s0 (State.bar2Read s p fuel z3 z4).2 := by
  induction fuel generalizing s p z3 z4 with
  | zero =>
    unfold State.bar2Read
    repeat' (first | with_reducible assumption | with_reducible apply State.bar2Word_keeps | with_reducible refine State.bar2Word_keeps_of (by assumption) ?_ | split | with_reducible apply keeps_foldl | with_reducible apply keeps_foldl1 | with_reducible apply keeps_foldl2 | with_reducible apply keeps_foldl22 | intro _ | dsimp only | simp only [keeps_mk, keepsT_self])
  | succ k ih =>
    unfold State.bar2Read
    repeat' (first | with_reducible assumption | with_reducible apply ih | with_reducible apply State.bar2Word_keeps | with_reducible refine State.bar2Word_keeps_of (by assumption) ?_ | split | with_reducible apply keeps_foldl | with_reducible apply keeps_foldl1 | with_reducible apply keeps_foldl2 | with_reducible apply keeps_foldl22 | intro _ | dsimp only | simp only [keeps_mk, keepsT_self])
theorem State.bar2Read_keeps_of {s0 s u : State} {p : Port} {fuel : Nat} {z3 : Nat} {z4 : Nat} {x_} (e : (State.bar2Read s p fuel z3 z4) = (x_, u)) (h : Keeps s0 s) : Keeps s0 u := by
  have h2 := State.bar2Read_keeps h p fuel z3 z4
  rw [e] at h2; exact h2

theorem State.bar2Ask_keeps {s0 s : State} (h : Keeps s0 s) (p : Port) (a : Nat) (own : List Bool) (bs : List Byte) (ps : List (Window × Nat × Nat)) : Keeps s0 (State.bar2Ask s p a own bs ps) := by
  unfold State.bar2Ask
  repeat' (first | with_reducible assumption | with_reducible apply State.sendEach_keeps | with_reducible apply State.siphonSend_keeps | with_reducible refine State.sendEach_keeps_of (by assumption) ?_ | with_reducible refine State.sendEach_keeps_of (by assumption) ?_ ?_ | split | with_reducible apply keeps_foldl | with_reducible apply keeps_foldl1 | with_reducible apply keeps_foldl2 | with_reducible apply keeps_foldl22 | intro _ | dsimp only | simp only [keeps_mk, keepsT_self])

theorem State.bar2Body_keeps {s0 s : State} (h : Keeps s0 s) (p : Port) (a : Nat) (len : Nat) : Keeps s0 (State.bar2Body s p a len) := by
  unfold State.bar2Body
  repeat' (first | with_reducible assumption | with_reducible apply State.bar2Read_keeps | with_reducible apply State.emit_keeps | with_reducible apply State.bar2Ask_keeps | with_reducible refine State.bar2Read_keeps_of (by assumption) ?_ | split | with_reducible apply keeps_foldl | with_reducible apply keeps_foldl1 | with_reducible apply keeps_foldl2 | with_reducible apply keeps_foldl22 | intro _ | dsimp only | simp only [keeps_mk, keepsT_self])

theorem State.bar2WritePage_keeps {s0 s : State} (h : Keeps s0 s) (p : Port) (whole : Bool) (a : Nat) (bs : List Byte) : Keeps s0 (State.bar2WritePage s p whole a bs) := by
  unfold State.bar2WritePage
  repeat' (first | with_reducible assumption | with_reducible apply State.flag_keeps | with_reducible apply State.storeB_keeps | with_reducible apply State.cisternStore_keeps | with_reducible apply State.bar2Missed_keeps | with_reducible apply State.siphonSend_keeps | split | with_reducible apply keeps_foldl | with_reducible apply keeps_foldl1 | with_reducible apply keeps_foldl2 | with_reducible apply keeps_foldl22 | intro _ | dsimp only | simp only [keeps_mk, keepsT_self])

theorem State.bar2Write_keeps {s0 s : State} (h : Keeps s0 s) (p : Port) (whole : Bool) (fuel : Nat) (z4 : Nat) (z5 : List Byte) : Keeps s0 (State.bar2Write s p whole fuel z4 z5) := by
  induction fuel generalizing s p whole z4 z5 with
  | zero =>
    unfold State.bar2Write
    repeat' (first | with_reducible assumption | with_reducible apply State.bar2WritePage_keeps | split | with_reducible apply keeps_foldl | with_reducible apply keeps_foldl1 | with_reducible apply keeps_foldl2 | with_reducible apply keeps_foldl22 | intro _ | dsimp only | simp only [keeps_mk, keepsT_self])
  | succ k ih =>
    unfold State.bar2Write
    repeat' (first | with_reducible assumption | with_reducible apply ih | with_reducible apply State.bar2WritePage_keeps | split | with_reducible apply keeps_foldl | with_reducible apply keeps_foldl1 | with_reducible apply keeps_foldl2 | with_reducible apply keeps_foldl22 | intro _ | dsimp only | simp only [keeps_mk, keepsT_self])

theorem State.setSlot_keeps {s0 s : State} (h : Keeps s0 s) (p : Port) (i : SlotId) (x : Slot) : Keeps s0 (State.setSlot s p i x) := by
  unfold State.setSlot
  repeat' (first | with_reducible assumption | with_reducible apply State.setPort_keeps | split | with_reducible apply keeps_foldl | with_reducible apply keeps_foldl1 | with_reducible apply keeps_foldl2 | with_reducible apply keeps_foldl22 | intro _ | dsimp only | simp only [keeps_mk, keepsT_self])

theorem State.slotWrite_keeps {s0 s : State} (h : Keeps s0 s) (p : Port) (i : SlotId) (off : Nat) (data : List Byte) : Keeps s0 (State.slotWrite s p i off data) := by
  unfold State.slotWrite
  repeat' (first | with_reducible assumption | with_reducible apply State.flag_keeps | with_reducible apply State.setSlot_keeps | split | with_reducible apply keeps_foldl | with_reducible apply keeps_foldl1 | with_reducible apply keeps_foldl2 | with_reducible apply keeps_foldl22 | intro _ | dsimp only | simp only [keeps_mk, keepsT_self])

theorem State.clearDone_keeps {s0 s : State} (h : Keeps s0 s) (p : Port) (mask : W32) : Keeps s0 (State.clearDone s p mask) := by
  unfold State.clearDone
  repeat' (first | with_reducible assumption | with_reducible apply State.setSlot_keeps | split | with_reducible apply keeps_foldl | with_reducible apply keeps_foldl1 | with_reducible apply keeps_foldl2 | with_reducible apply keeps_foldl22 | intro _ | dsimp only | simp only [keeps_mk, keepsT_self])

theorem State.zeroMain_keeps {s0 s : State} (h : Keeps s0 s) : Keeps s0 s.zeroMain :=
  ⟨h.1, fun m => ⟨cellsWf_filter _ (h.2 m).1, (h.2 m).2⟩⟩


theorem State.movedTo_keeps {s0 s : State} (h : Keeps s0 s) (k : Nat) : Keeps s0 (State.movedTo s k) := by
  unfold State.movedTo
  repeat' (first | with_reducible assumption | split | with_reducible apply keeps_foldl | with_reducible apply keeps_foldl1 | with_reducible apply keeps_foldl2 | with_reducible apply keeps_foldl22 | intro _ | dsimp only | simp only [keeps_mk, keepsT_self])

theorem State.carryUnit_keeps {s0 s : State} (h : Keeps s0 s) (t : State) (a : Nat) : Keeps s0 (State.carryUnit s t a).1 := by
  unfold State.carryUnit
  repeat' (first | with_reducible assumption | with_reducible apply State.readEcc_keeps | with_reducible apply State.flagIf_keeps | with_reducible apply State.poisonRange_keeps | split | with_reducible apply keeps_foldl | with_reducible apply keeps_foldl1 | with_reducible apply keeps_foldl2 | with_reducible apply keeps_foldl22 | intro _ | dsimp only | simp only [keeps_mk, keepsT_self])
theorem State.carryUnit_keeps_of {s0 s u : State} {t : State} {a : Nat} {x_} (e : (State.carryUnit s t a) = (u, x_)) (h : Keeps s0 s) : Keeps s0 u := by
  have h2 := State.carryUnit_keeps h t a
  rw [e] at h2; exact h2

theorem State.copyUnit_keeps {s0 s : State} (h : Keeps s0 s) (p : Fin 16) (k : Nat) : Keeps s0 (State.copyUnit s p k) := by
  unfold State.copyUnit
  repeat' (first | with_reducible assumption | with_reducible apply State.carryUnit_keeps | with_reducible apply State.movedTo_keeps | with_reducible apply State.flagIf_keeps | with_reducible refine State.carryUnit_keeps_of (by assumption) ?_ | split | with_reducible apply keeps_foldl | with_reducible apply keeps_foldl1 | with_reducible apply keeps_foldl2 | with_reducible apply keeps_foldl22 | intro _ | dsimp only | simp only [keeps_mk, keepsT_self])

theorem State.backUnit_keeps {s0 s : State} (h : Keeps s0 s) (p : Fin 16) (k : Nat) : Keeps s0 (State.backUnit s p k) := by
  unfold State.backUnit
  repeat' (first | with_reducible assumption | with_reducible apply State.movedTo_keeps | with_reducible apply State.carryUnit_keeps | with_reducible refine State.carryUnit_keeps_of (by assumption) ?_ | split | with_reducible apply keeps_foldl | with_reducible apply keeps_foldl1 | with_reducible apply keeps_foldl2 | with_reducible apply keeps_foldl22 | intro _ | dsimp only | simp only [keeps_mk, keepsT_self])

theorem State.backUnits_keeps {s0 s : State} (h : Keeps s0 s) (p : Fin 16) (k : Nat) (n : Nat) : Keeps s0 (State.backUnits s p k n) := by
  induction n generalizing s p k with
  | zero =>
    unfold State.backUnits
    repeat' (first | with_reducible assumption | with_reducible apply State.backUnit_keeps | split | with_reducible apply keeps_foldl | with_reducible apply keeps_foldl1 | with_reducible apply keeps_foldl2 | with_reducible apply keeps_foldl22 | intro _ | dsimp only | simp only [keeps_mk, keepsT_self])
  | succ k ih =>
    unfold State.backUnits
    repeat' (first | with_reducible assumption | with_reducible apply ih | with_reducible apply State.backUnit_keeps | split | with_reducible apply keeps_foldl | with_reducible apply keeps_foldl1 | with_reducible apply keeps_foldl2 | with_reducible apply keeps_foldl22 | intro _ | dsimp only | simp only [keeps_mk, keepsT_self])

theorem State.logUnit_keeps {s0 s : State} (h : Keeps s0 s) (kind : Nat) (index : Nat) (action : Nat) (st : St) : Keeps s0 (State.logUnit s kind index action st) := by
  unfold State.logUnit
  repeat' (first | with_reducible assumption | with_reducible apply State.log_keeps | split | with_reducible apply keeps_foldl | with_reducible apply keeps_foldl1 | with_reducible apply keeps_foldl2 | with_reducible apply keeps_foldl22 | intro _ | dsimp only | simp only [keeps_mk, keepsT_self])

theorem State.evacuate_keeps {s0 s : State} (h : Keeps s0 s) (f : PkgFence) : Keeps s0 (State.evacuate s f) := by
  unfold State.evacuate
  repeat' (first | with_reducible assumption | with_reducible apply State.copyUnit_keeps | with_reducible apply State.logUnit_keeps | split | with_reducible apply keeps_foldl | with_reducible apply keeps_foldl1 | with_reducible apply keeps_foldl2 | with_reducible apply keeps_foldl22 | intro _ | dsimp only | simp only [keeps_mk, keepsT_self])

theorem State.tbResult_keeps {s0 s : State} (h : Keeps s0 s) (p : Port) (st : St) (w : Nat) : Keeps s0 (State.tbResult s p st w) := by
  unfold State.tbResult
  repeat' (first | with_reducible assumption | with_reducible apply State.setPort_keeps | split | with_reducible apply keeps_foldl | with_reducible apply keeps_foldl1 | with_reducible apply keeps_foldl2 | with_reducible apply keeps_foldl22 | intro _ | dsimp only | simp only [keeps_mk, keepsT_self])

theorem State.sendTimebase_keeps {s0 s : State} (h : Keeps s0 s) (w : Nat) : Keeps s0 (State.sendTimebase s w) := by
  unfold State.sendTimebase
  repeat' (first | with_reducible assumption | with_reducible apply State.siphonSend_keeps | split | with_reducible apply keeps_foldl | with_reducible apply keeps_foldl1 | with_reducible apply keeps_foldl2 | with_reducible apply keeps_foldl22 | intro _ | dsimp only | simp only [keeps_mk, keepsT_self])

theorem State.tbWrite_keeps {s0 s : State} (h : Keeps s0 s) (p : Port) (o : TbOp) : Keeps s0 (State.tbWrite s p o) := by
  unfold State.tbWrite
  repeat' (first | with_reducible assumption | with_reducible apply State.hostRow_keeps | with_reducible apply State.flag_keeps | split | with_reducible apply keeps_foldl | with_reducible apply keeps_foldl1 | with_reducible apply keeps_foldl2 | with_reducible apply keeps_foldl22 | intro _ | dsimp only | simp only [keeps_mk, keepsT_self])

theorem State.ppsRestart_keeps {s0 s : State} (h : Keeps s0 s)  : Keeps s0 (State.ppsRestart s) := by
  unfold State.ppsRestart
  repeat' (first | with_reducible assumption | split | with_reducible apply keeps_foldl | with_reducible apply keeps_foldl1 | with_reducible apply keeps_foldl2 | with_reducible apply keeps_foldl22 | intro _ | dsimp only | simp only [keeps_mk, keepsT_self])

theorem State.tbRate_keeps {s0 s : State} (h : Keeps s0 s) (p : Port) (r : BitVec 40) (w : Nat) : Keeps s0 (State.tbRate s p r w) := by
  unfold State.tbRate
  repeat' (first | with_reducible assumption | with_reducible apply State.tbResult_keeps | with_reducible apply State.sendTimebase_keeps | split | with_reducible apply keeps_foldl | with_reducible apply keeps_foldl1 | with_reducible apply keeps_foldl2 | with_reducible apply keeps_foldl22 | intro _ | dsimp only | simp only [keeps_mk, keepsT_self])

theorem State.tbStep_keeps {s0 s : State} (h : Keeps s0 s) (p : Port) (a : BitVec 80) (force : Bool) (w : Nat) : Keeps s0 (State.tbStep s p a force w) := by
  unfold State.tbStep
  repeat' (first | with_reducible assumption | with_reducible apply State.flag_keeps | with_reducible apply State.tbResult_keeps | with_reducible apply State.sendTimebase_keeps | with_reducible apply State.ppsRestart_keeps | split | with_reducible apply keeps_foldl | with_reducible apply keeps_foldl1 | with_reducible apply keeps_foldl2 | with_reducible apply keeps_foldl22 | intro _ | dsimp only | simp only [keeps_mk, keepsT_self])

theorem State.tbOpGo_keeps {s0 s : State} (h : Keeps s0 s)  : Keeps s0 (State.tbOpGo s) := by
  unfold State.tbOpGo
  repeat' (first | with_reducible assumption | with_reducible apply State.tbRate_keeps | with_reducible apply State.tbStep_keeps | split | with_reducible apply keeps_foldl | with_reducible apply keeps_foldl1 | with_reducible apply keeps_foldl2 | with_reducible apply keeps_foldl22 | intro _ | dsimp only | simp only [keeps_mk, keepsT_self])

theorem State.readBlock_keeps {s0 s : State} (h : Keeps s0 s) (a : Nat) (len : Nat) : Keeps s0 (State.readBlock s a len).2 := by
  unfold State.readBlock
  repeat' (first | with_reducible assumption | with_reducible apply State.load_keeps | with_reducible refine State.load_keeps_of (by assumption) ?_ | split | with_reducible apply keeps_foldl | with_reducible apply keeps_foldl1 | with_reducible apply keeps_foldl2 | with_reducible apply keeps_foldl22 | intro _ | dsimp only | simp only [keeps_mk, keepsT_self])
theorem State.readBlock_keeps_of {s0 s u : State} {a : Nat} {len : Nat} {x_} (e : (State.readBlock s a len) = (x_, u)) (h : Keeps s0 s) : Keeps s0 u := by
  have h2 := State.readBlock_keeps h a len
  rw [e] at h2; exact h2

theorem State.setAxis_keeps {s0 s : State} (h : Keeps s0 s) (a : AxisId) (x : Axis) : Keeps s0 (State.setAxis s a x) := by
  unfold State.setAxis
  repeat' (first | with_reducible assumption | split | with_reducible apply keeps_foldl | with_reducible apply keeps_foldl1 | with_reducible apply keeps_foldl2 | with_reducible apply keeps_foldl22 | intro _ | dsimp only | simp only [keeps_mk, keepsT_self])

theorem State.setStation_keeps {s0 s : State} (h : Keeps s0 s) (st : StationId) (x : Station) : Keeps s0 (State.setStation s st x) := by
  unfold State.setStation
  repeat' (first | with_reducible assumption | split | with_reducible apply keeps_foldl | with_reducible apply keeps_foldl1 | with_reducible apply keeps_foldl2 | with_reducible apply keeps_foldl22 | intro _ | dsimp only | simp only [keeps_mk, keepsT_self])

theorem State.loopRow_keeps {s0 s : State} (h : Keeps s0 s) (p : Port) (d : Die) (may : Bool) {body : State} (hb : Keeps s0 body) :
    Keeps s0 (s.loopRow p d may body) := by
  unfold State.loopRow
  repeat' (first | with_reducible assumption | with_reducible apply State.hostRow_keeps | with_reducible apply State.flag_keeps | split | with_reducible apply keeps_foldl | with_reducible apply keeps_foldl1 | with_reducible apply keeps_foldl2 | with_reducible apply keeps_foldl22 | intro _ | dsimp only | simp only [keeps_mk, keepsT_self])


theorem State.axesOff_keeps {s0 s : State} (h : Keeps s0 s) (st : StationId) : Keeps s0 (State.axesOff s st) := by
  unfold State.axesOff
  repeat' (first | with_reducible assumption | split | with_reducible apply keeps_foldl | with_reducible apply keeps_foldl1 | with_reducible apply keeps_foldl2 | with_reducible apply keeps_foldl22 | intro _ | dsimp only | simp only [keeps_mk, keepsT_self])

theorem State.axisFault_keeps {s0 s : State} (h : Keeps s0 s) (a : AxisId) (causes : List Nat) : Keeps s0 (State.axisFault s a causes) := by
  unfold State.axisFault
  repeat' (first | with_reducible assumption | with_reducible apply State.setAxis_keeps | with_reducible apply State.flag_keeps | split | with_reducible apply keeps_foldl | with_reducible apply keeps_foldl1 | with_reducible apply keeps_foldl2 | with_reducible apply keeps_foldl22 | intro _ | dsimp only | simp only [keeps_mk, keepsT_self])

theorem State.tripAxes_keeps {s0 s : State} (h : Keeps s0 s) (f : Axis → Bool) : Keeps s0 (State.tripAxes s f) := by
  unfold State.tripAxes
  repeat' (first | with_reducible assumption | with_reducible apply State.axisFault_keeps | split | with_reducible apply keeps_foldl | with_reducible apply keeps_foldl1 | with_reducible apply keeps_foldl2 | with_reducible apply keeps_foldl22 | intro _ | dsimp only | simp only [keeps_mk, keepsT_self])

theorem State.queueEcc_keeps {s0 s : State} (h : Keeps s0 s) (x : Axis) (c : W32) : Keeps s0 (State.queueEcc s x c) := by
  unfold State.queueEcc
  repeat' (first | with_reducible assumption | with_reducible apply State.readEcc_keeps | split | with_reducible apply keeps_foldl | with_reducible apply keeps_foldl1 | with_reducible apply keeps_foldl2 | with_reducible apply keeps_foldl22 | intro _ | dsimp only | simp only [keeps_mk, keepsT_self])

theorem State.sampleAxis_keeps {s0 s : State} (h : Keeps s0 s) (a : AxisId) (k tk : Nat) (payload : Option (List Byte)) (late orphan : Bool) :
    Keeps s0 (s.sampleAxis a k tk payload late orphan) := by
  unfold State.sampleAxis
  extract_lets x rec_ drive
  generalize (match x.state with
    | .run => s.runAxis x k tk rec_ late orphan
    | .armed =>
      match s.producer x with
      | none => (x, [3])
      | some w => ({ x with prod := w, goRun := w != x.cons }, [])
    | _ => (x, [])) = q
  obtain ⟨y, causes⟩ := q
  dsimp only
  repeat' (first | with_reducible assumption | with_reducible refine keeps_ite (fun _ => ?_) (fun _ => ?_) | with_reducible apply State.queueEcc_keeps | with_reducible apply State.readEcc_keeps | with_reducible apply State.setAxis_keeps | with_reducible apply State.flagIf_keeps | with_reducible apply State.axisFault_keeps | with_reducible apply State.siphonSend_keeps | split | with_reducible apply keeps_foldl | with_reducible apply keeps_foldl1 | with_reducible apply keeps_foldl2 | with_reducible apply keeps_foldl22 | intro _ | dsimp only | simp only [keeps_mk, keepsT_self])


theorem State.sampleInstants_keeps {s0 s : State} (h : Keeps s0 s)  : Keeps s0 (State.sampleInstants s) := by
  unfold State.sampleInstants
  repeat' (first | with_reducible assumption | with_reducible apply State.setAxis_keeps | split | with_reducible apply keeps_foldl | with_reducible apply keeps_foldl1 | with_reducible apply keeps_foldl2 | with_reducible apply keeps_foldl22 | intro _ | dsimp only | simp only [keeps_mk, keepsT_self])

theorem State.handDrive_keeps {s0 s : State} (h : Keeps s0 s) (e : EthId) (f : DriveFrame) : Keeps s0 (State.handDrive s e f) := by
  unfold State.handDrive
  repeat' (first | with_reducible assumption | split | with_reducible apply keeps_foldl | with_reducible apply keeps_foldl1 | with_reducible apply keeps_foldl2 | with_reducible apply keeps_foldl22 | intro _ | dsimp only | simp only [keeps_mk, keepsT_self])

theorem State.frameMismatch_keeps {s0 s : State} (h : Keeps s0 s) (r : PairId) : Keeps s0 (State.frameMismatch s r) := by
  unfold State.frameMismatch
  repeat' (first | with_reducible assumption | with_reducible apply State.flag_keeps | split | with_reducible apply keeps_foldl | with_reducible apply keeps_foldl1 | with_reducible apply keeps_foldl2 | with_reducible apply keeps_foldl22 | intro _ | dsimp only | simp only [keeps_mk, keepsT_self])

theorem State.engineRun_keeps {s0 s : State} (h : Keeps s0 s) (flt : UnitFault) (body : Cmd → State → State × List St) (c : Cmd)
    (hb : ∀ c t, Keeps s0 t → Keeps s0 (body c t).1) : Keeps s0 (State.engineRun flt body c s).1 := by
  have h2 := hb c s h
  unfold State.engineRun
  cases e : body c s with
  | mk t conds =>
  rw [e] at h2
  have h3 : Keeps s0 t := h2
  dsimp only
  repeat' (first | with_reducible assumption | with_reducible apply State.flagClosed_keeps | with_reducible apply State.poisonWrites_keeps | with_reducible apply State.flag_keeps | split | with_reducible apply keeps_foldl | with_reducible apply keeps_foldl1 | with_reducible apply keeps_foldl2 | with_reducible apply keeps_foldl22 | intro _ | dsimp only | simp only [keeps_mk, keepsT_self])


theorem State.countFail_keeps {s0 s : State} (h : Keeps s0 s) (k : ClusId) (st : St) : Keeps s0 (State.countFail s k st) := by
  unfold State.countFail
  repeat' (first | with_reducible assumption | with_reducible apply State.flag_keeps | split | with_reducible apply keeps_foldl | with_reducible apply keeps_foldl1 | with_reducible apply keeps_foldl2 | with_reducible apply keeps_foldl22 | intro _ | dsimp only | simp only [keeps_mk, keepsT_self])

theorem State.pickFails_keeps {s0 s : State} (h : Keeps s0 s) (fails : List (List St)) : Keeps s0 (State.pickFails s fails).1 := by
  unfold State.pickFails
  repeat' (first | with_reducible assumption | split | with_reducible apply keeps_foldl | with_reducible apply keeps_foldl1 | with_reducible apply keeps_foldl2 | with_reducible apply keeps_foldl22 | intro _ | dsimp only | simp only [keeps_mk, keepsT_self])
theorem State.pickFails_keeps_of {s0 s u : State} {fails : List (List St)} {x_} (e : (State.pickFails s fails) = (u, x_)) (h : Keeps s0 s) : Keeps s0 u := by
  have h2 := State.pickFails_keeps h fails
  rw [e] at h2; exact h2

theorem State.meetFails_keeps {s0 s : State} (h : Keeps s0 s) (k : ClusId) (fails : List (List St)) : Keeps s0 (State.meetFails s k fails).1 := by
  unfold State.meetFails
  repeat' (first | with_reducible assumption | with_reducible apply State.pickFails_keeps | with_reducible apply State.countFail_keeps | with_reducible refine State.pickFails_keeps_of (by assumption) ?_ | split | with_reducible apply keeps_foldl | with_reducible apply keeps_foldl1 | with_reducible apply keeps_foldl2 | with_reducible apply keeps_foldl22 | intro _ | dsimp only | simp only [keeps_mk, keepsT_self])
theorem State.meetFails_keeps_of {s0 s u : State} {k : ClusId} {fails : List (List St)} {x_} (e : (State.meetFails s k fails) = (u, x_)) (h : Keeps s0 s) : Keeps s0 u := by
  have h2 := State.meetFails_keeps h k fails
  rw [e] at h2; exact h2

theorem State.mxBusy_keeps {s0 s : State} (h : Keeps s0 s) (n : CoreId) (cycles : Nat) : Keeps s0 (State.mxBusy s n cycles) := by
  unfold State.mxBusy
  repeat' (first | with_reducible assumption | split | with_reducible apply keeps_foldl | with_reducible apply keeps_foldl1 | with_reducible apply keeps_foldl2 | with_reducible apply keeps_foldl22 | intro _ | dsimp only | simp only [keeps_mk, keepsT_self])

theorem State.vxBusy_keeps {s0 s : State} (h : Keeps s0 s) (n : CoreId) (cycles : Nat) : Keeps s0 (State.vxBusy s n cycles) := by
  unfold State.vxBusy
  repeat' (first | with_reducible assumption | split | with_reducible apply keeps_foldl | with_reducible apply keeps_foldl1 | with_reducible apply keeps_foldl2 | with_reducible apply keeps_foldl22 | intro _ | dsimp only | simp only [keeps_mk, keepsT_self])

theorem State.progRow_keeps {s0 s : State} (h : Keeps s0 s) (used : Bool) (a : Nat) (n : Nat) : Keeps s0 (State.progRow s used a n).2.2 := by
  unfold State.progRow
  repeat' (first | with_reducible assumption | with_reducible apply State.readPlain_keeps | with_reducible refine State.readPlain_keeps_of (by assumption) ?_ | split | with_reducible apply keeps_foldl | with_reducible apply keeps_foldl1 | with_reducible apply keeps_foldl2 | with_reducible apply keeps_foldl22 | intro _ | dsimp only | simp only [keeps_mk, keepsT_self])
theorem State.progRow_keeps_of {s0 s u : State} {used : Bool} {a : Nat} {n : Nat} {x_ y_} (e : (State.progRow s used a n) = (x_, y_, u)) (h : Keeps s0 s) : Keeps s0 u := by
  have h2 := State.progRow_keeps h used a n
  rw [e] at h2; exact h2

theorem State.infuseRows_keeps {s0 s : State} (h : Keeps s0 s) (k : ClusId) (b : List Byte) (at_ : Nat → Nat) (rows : List (List W32)) (n : Nat) (ld : Nat) : Keeps s0 (State.infuseRows s k b at_ rows n ld).2.2 := by
  unfold State.infuseRows
  repeat' (first | with_reducible assumption | with_reducible apply State.progRow_keeps | with_reducible apply State.readPlain_keeps | with_reducible apply State.writePlain_keeps | with_reducible apply State.flagIf_keeps | with_reducible refine State.progRow_keeps_of (by assumption) ?_ | with_reducible refine State.readPlain_keeps_of (by assumption) ?_ | with_reducible refine State.writePlain_keeps_of (by assumption) ?_ | split | with_reducible apply keeps_foldl | with_reducible apply keeps_foldl1 | with_reducible apply keeps_foldl2 | with_reducible apply keeps_foldl22 | intro _ | dsimp only | simp only [keeps_mk, keepsT_self])
theorem State.infuseRows_keeps_of {s0 s u : State} {k : ClusId} {b : List Byte} {at_ : Nat → Nat} {rows : List (List W32)} {n : Nat} {ld : Nat} {x_ y_} (e : (State.infuseRows s k b at_ rows n ld) = (x_, y_, u)) (h : Keeps s0 s) : Keeps s0 u := by
  have h2 := State.infuseRows_keeps h k b at_ rows n ld
  rw [e] at h2; exact h2

theorem State.putOutputs_keeps {s0 s : State} (h : Keeps s0 s) (k : ClusId) (h1 : Hdr) (ld : Nat) (rows : List (List W32)) : Keeps s0 (State.putOutputs s k h1 ld rows) := by
  unfold State.putOutputs
  repeat' (first | with_reducible assumption | with_reducible apply State.writeTbf_keeps | with_reducible apply State.flagIf_keeps | with_reducible apply State.writePlain_keeps | with_reducible refine State.writeTbf_keeps_of (by assumption) ?_ | with_reducible refine State.writePlain_keeps_of (by assumption) ?_ | split | with_reducible apply keeps_foldl | with_reducible apply keeps_foldl1 | with_reducible apply keeps_foldl2 | with_reducible apply keeps_foldl22 | intro _ | dsimp only | simp only [keeps_mk, keepsT_self])

theorem State.gemmBody_keeps {s0 s : State} (h : Keeps s0 s) (c : Cmd) : Keeps s0 (State.gemmBody c s).1 := by
  unfold State.gemmBody
  repeat' (first | with_reducible assumption | with_reducible apply State.readOperand_keeps | with_reducible apply State.mxBusy_keeps | with_reducible apply State.meetFails_keeps | with_reducible apply State.readPlain_keeps | with_reducible apply State.flagIf_keeps | with_reducible apply State.infuseRows_keeps | with_reducible apply State.putOutputs_keeps | with_reducible refine State.readOperand_keeps_of (by assumption) ?_ | with_reducible refine State.meetFails_keeps_of (by assumption) ?_ | with_reducible refine State.readPlain_keeps_of (by assumption) ?_ | with_reducible refine State.infuseRows_keeps_of (by assumption) ?_ | split | with_reducible apply keeps_foldl | with_reducible apply keeps_foldl1 | with_reducible apply keeps_foldl2 | with_reducible apply keeps_foldl22 | intro _ | dsimp only | simp only [keeps_mk, keepsT_self])
theorem State.gemmBody_keeps_of {s0 s u : State} {c : Cmd} {x_} (e : (State.gemmBody c s) = (u, x_)) (h : Keeps s0 s) : Keeps s0 u := by
  have h2 := State.gemmBody_keeps h c
  rw [e] at h2; exact h2

theorem State.vLoad_keeps {s0 s : State} (h : Keeps s0 s) (base : Nat) (fmt : Nat) (rows : Nat) (cols : Nat) (pitch : Nat) : Keeps s0 (State.vLoad s base fmt rows cols pitch).2.2 := by
  unfold State.vLoad
  repeat' (first | with_reducible assumption | with_reducible apply State.load_keeps | with_reducible refine State.load_keeps_of (by assumption) ?_ | split | with_reducible apply keeps_foldl | with_reducible apply keeps_foldl1 | with_reducible apply keeps_foldl2 | with_reducible apply keeps_foldl22 | intro _ | dsimp only | simp only [keeps_mk, keepsT_self])
theorem State.vLoad_keeps_of {s0 s u : State} {base : Nat} {fmt : Nat} {rows : Nat} {cols : Nat} {pitch : Nat} {x_ y_} (e : (State.vLoad s base fmt rows cols pitch) = (x_, y_, u)) (h : Keeps s0 s) : Keeps s0 u := by
  have h2 := State.vLoad_keeps h base fmt rows cols pitch
  rw [e] at h2; exact h2

theorem State.vOperand_keeps {s0 s : State} (h : Keeps s0 s) (c : Cmd) (used : Bool) (imm : Bool) (v : W32) (a : Nat) : Keeps s0 (State.vOperand s c used imm v a).2.2 := by
  unfold State.vOperand
  repeat' (first | with_reducible assumption | with_reducible apply State.vLoad_keeps | with_reducible refine State.vLoad_keeps_of (by assumption) ?_ | split | with_reducible apply keeps_foldl | with_reducible apply keeps_foldl1 | with_reducible apply keeps_foldl2 | with_reducible apply keeps_foldl22 | intro _ | dsimp only | simp only [keeps_mk, keepsT_self])
theorem State.vOperand_keeps_of {s0 s u : State} {c : Cmd} {used : Bool} {imm : Bool} {v : W32} {a : Nat} {x_ y_} (e : (State.vOperand s c used imm v a) = (x_, y_, u)) (h : Keeps s0 s) : Keeps s0 u := by
  have h2 := State.vOperand_keeps h c used imm v a
  rw [e] at h2; exact h2

theorem State.vopBody_keeps {s0 s : State} (h : Keeps s0 s) (c : Cmd) : Keeps s0 (State.vopBody c s).1 := by
  unfold State.vopBody
  repeat' (first | with_reducible assumption | with_reducible apply State.vLoad_keeps | with_reducible apply State.vOperand_keeps | with_reducible apply State.storeB_keeps | with_reducible apply State.vxBusy_keeps | with_reducible apply State.flagIf_keeps | with_reducible refine State.vLoad_keeps_of (by assumption) ?_ | with_reducible refine State.vOperand_keeps_of (by assumption) ?_ | split | with_reducible apply keeps_foldl | with_reducible apply keeps_foldl1 | with_reducible apply keeps_foldl2 | with_reducible apply keeps_foldl22 | intro _ | dsimp only | simp only [keeps_mk, keepsT_self])
theorem State.vopBody_keeps_of {s0 s u : State} {c : Cmd} {x_} (e : (State.vopBody c s) = (u, x_)) (h : Keeps s0 s) : Keeps s0 u := by
  have h2 := State.vopBody_keeps h c
  rw [e] at h2; exact h2

theorem State.setEth_keeps {s0 s : State} (h : Keeps s0 s) (e : EthId) (x : EthPort) : Keeps s0 (State.setEth s e x) := by
  unfold State.setEth
  repeat' (first | with_reducible assumption | split | with_reducible apply keeps_foldl | with_reducible apply keeps_foldl1 | with_reducible apply keeps_foldl2 | with_reducible apply keeps_foldl22 | intro _ | dsimp only | simp only [keeps_mk, keepsT_self])

theorem State.ethWrite_keeps {s0 s : State} (h : Keeps s0 s) (x : EthPort) (host : Bool) (a : Nat) (bs : List Byte) : Keeps s0 (State.ethWrite s x host a bs) := by
  unfold State.ethWrite
  repeat' (first | with_reducible assumption | with_reducible apply State.hostStore_keeps | with_reducible apply State.storeB_keeps | split | with_reducible apply keeps_foldl | with_reducible apply keeps_foldl1 | with_reducible apply keeps_foldl2 | with_reducible apply keeps_foldl22 | intro _ | dsimp only | simp only [keeps_mk, keepsT_self])

theorem State.ethEcc_keeps {s0 s : State} (h : Keeps s0 s) (host : Bool) (a : Nat) (len : Nat) : Keeps s0 (State.ethEcc s host a len) := by
  unfold State.ethEcc
  repeat' (first | with_reducible assumption | with_reducible apply State.readEcc_keeps | split | with_reducible apply keeps_foldl | with_reducible apply keeps_foldl1 | with_reducible apply keeps_foldl2 | with_reducible apply keeps_foldl22 | intro _ | dsimp only | simp only [keeps_mk, keepsT_self])

theorem State.ethIrq_keeps {s0 s : State} (h : Keeps s0 s) (e : EthId) : Keeps s0 (State.ethIrq s e) := by
  unfold State.ethIrq
  repeat' (first | with_reducible assumption | with_reducible apply State.raise_keeps | split | with_reducible apply keeps_foldl | with_reducible apply keeps_foldl1 | with_reducible apply keeps_foldl2 | with_reducible apply keeps_foldl22 | intro _ | dsimp only | simp only [keeps_mk, keepsT_self])

theorem State.txDone_keeps {s0 s : State} (h : Keeps s0 s) (e : EthId) (timed : Bool) (st : St) (stamp : Nat) : Keeps s0 (State.txDone s e timed st stamp) := by
  unfold State.txDone
  repeat' (first | with_reducible assumption | with_reducible apply State.ethWrite_keeps | with_reducible apply State.ethEcc_keeps | with_reducible apply State.ethIrq_keeps | split | with_reducible apply keeps_foldl | with_reducible apply keeps_foldl1 | with_reducible apply keeps_foldl2 | with_reducible apply keeps_foldl22 | intro _ | dsimp only | simp only [keeps_mk, keepsT_self])

theorem State.flushRing_keeps {s0 s : State} (h : Keeps s0 s) (e : EthId) (timed : Bool) (fuel : Nat) : Keeps s0 (State.flushRing s e timed fuel) := by
  induction fuel generalizing s e timed with
  | zero =>
    unfold State.flushRing
    repeat' (first | with_reducible assumption | with_reducible apply State.txDone_keeps | split | with_reducible apply keeps_foldl | with_reducible apply keeps_foldl1 | with_reducible apply keeps_foldl2 | with_reducible apply keeps_foldl22 | intro _ | dsimp only | simp only [keeps_mk, keepsT_self])
  | succ k ih =>
    unfold State.flushRing
    repeat' (first | with_reducible assumption | with_reducible apply ih | with_reducible apply State.txDone_keeps | split | with_reducible apply keeps_foldl | with_reducible apply keeps_foldl1 | with_reducible apply keeps_foldl2 | with_reducible apply keeps_foldl22 | intro _ | dsimp only | simp only [keeps_mk, keepsT_self])

theorem State.flushEth_keeps {s0 s : State} (h : Keeps s0 s) (e : EthId) : Keeps s0 (State.flushEth s e) := by
  unfold State.flushEth
  repeat' (first | with_reducible assumption | with_reducible apply State.flushRing_keeps | split | with_reducible apply keeps_foldl | with_reducible apply keeps_foldl1 | with_reducible apply keeps_foldl2 | with_reducible apply keeps_foldl22 | intro _ | dsimp only | simp only [keeps_mk, keepsT_self])

theorem State.leaveUp_keeps {s0 s : State} (h : Keeps s0 s) (e : EthId) (st : EthState) : Keeps s0 (State.leaveUp s e st) := by
  unfold State.leaveUp
  repeat' (first | with_reducible assumption | with_reducible apply State.flushEth_keeps | with_reducible apply State.setEth_keeps | split | with_reducible apply keeps_foldl | with_reducible apply keeps_foldl1 | with_reducible apply keeps_foldl2 | with_reducible apply keeps_foldl22 | intro _ | dsimp only | simp only [keeps_mk, keepsT_self])

theorem State.tripPort_keeps {s0 s : State} (h : Keeps s0 s) (e : EthId) : Keeps s0 (State.tripPort s e) := by
  unfold State.tripPort
  repeat' (first | with_reducible assumption | with_reducible apply State.tripAxes_keeps | split | with_reducible apply keeps_foldl | with_reducible apply keeps_foldl1 | with_reducible apply keeps_foldl2 | with_reducible apply keeps_foldl22 | intro _ | dsimp only | simp only [keeps_mk, keepsT_self])

theorem State.ethIdle_keeps {s0 s : State} (h : Keeps s0 s) (e : EthId) : Keeps s0 (State.ethIdle s e) := by
  unfold State.ethIdle
  repeat' (first | with_reducible assumption | with_reducible apply State.setEth_keeps)

theorem State.ethStop_keeps {s0 s : State} (h : Keeps s0 s) (e : EthId) (st : EthState) : Keeps s0 (State.ethStop s e st) := by
  unfold State.ethStop
  repeat' (first | with_reducible assumption | with_reducible apply State.ethIdle_keeps | with_reducible apply State.leaveUp_keeps | with_reducible apply State.setEth_keeps | split | with_reducible apply keeps_foldl | with_reducible apply keeps_foldl1 | with_reducible apply keeps_foldl2 | with_reducible apply keeps_foldl22 | intro _ | dsimp only | simp only [keeps_mk, keepsT_self])

theorem State.ethOff_keeps {s0 s : State} (h : Keeps s0 s) (e : EthId) (st : EthState) : Keeps s0 (State.ethOff s e st) := by
  unfold State.ethOff
  repeat' (first | with_reducible assumption | with_reducible apply State.ethStop_keeps | with_reducible apply State.tripPort_keeps | split | with_reducible apply keeps_foldl | with_reducible apply keeps_foldl1 | with_reducible apply keeps_foldl2 | with_reducible apply keeps_foldl22 | intro _ | dsimp only | simp only [keeps_mk, keepsT_self])

theorem State.ethRow_keeps {s0 s : State} (h : Keeps s0 s) (p : Port) (e : EthId) {body : State} (hb : Keeps s0 body) :
    Keeps s0 (s.ethRow p e body) := by
  unfold State.ethRow
  repeat' (first | with_reducible assumption | with_reducible apply State.hostRow_keeps | with_reducible apply State.flag_keeps | split | with_reducible apply keeps_foldl | with_reducible apply keeps_foldl1 | with_reducible apply keeps_foldl2 | with_reducible apply keeps_foldl22 | intro _ | dsimp only | simp only [keeps_mk, keepsT_self])


theorem State.ethDetach_keeps {s0 s : State} (h : Keeps s0 s) (p : Port) : Keeps s0 (State.ethDetach s p) := by
  unfold State.ethDetach
  repeat' (first | with_reducible assumption | split | with_reducible apply keeps_foldl | with_reducible apply keeps_foldl1 | with_reducible apply keeps_foldl2 | with_reducible apply keeps_foldl22 | intro _ | dsimp only | simp only [keeps_mk, keepsT_self])

theorem State.rxHost_keeps {s0 s : State} (h : Keeps s0 s) (e : EthId) (base : Nat) (host : Bool) (k : Nat) (stamp : Nat) (f : List Byte) : Keeps s0 (State.rxHost s e base host k stamp f) := by
  unfold State.rxHost
  repeat' (first | with_reducible assumption | with_reducible apply State.devStore_keeps | with_reducible apply State.ethEcc_keeps | with_reducible apply State.ethWrite_keeps | with_reducible apply State.ethIrq_keeps | split | with_reducible apply keeps_foldl | with_reducible apply keeps_foldl1 | with_reducible apply keeps_foldl2 | with_reducible apply keeps_foldl22 | intro _ | dsimp only | simp only [keeps_mk, keepsT_self])

theorem State.txRead_keeps {s0 s : State} (h : Keeps s0 s) (d : List Byte) : Keeps s0 (State.txRead s d).2 := by
  unfold State.txRead
  repeat' (first | with_reducible assumption | with_reducible apply State.devLoad_keeps | with_reducible refine State.devLoad_keeps_of (by assumption) ?_ | split | with_reducible apply keeps_foldl | with_reducible apply keeps_foldl1 | with_reducible apply keeps_foldl2 | with_reducible apply keeps_foldl22 | intro _ | dsimp only | simp only [keeps_mk, keepsT_self])
theorem State.txRead_keeps_of {s0 s u : State} {d : List Byte} {x_} (e : (State.txRead s d) = (x_, u)) (h : Keeps s0 s) : Keeps s0 u := by
  have h2 := State.txRead_keeps h d
  rw [e] at h2; exact h2

theorem State.sendEth_keeps {s0 s : State} (h : Keeps s0 s) (e : EthId) (f : List Byte) : Keeps s0 (State.sendEth s e f) := by
  unfold State.sendEth
  repeat' (first | with_reducible assumption | with_reducible apply State.emit_keeps | split | with_reducible apply keeps_foldl | with_reducible apply keeps_foldl1 | with_reducible apply keeps_foldl2 | with_reducible apply keeps_foldl22 | intro _ | dsimp only | simp only [keeps_mk, keepsT_self])

theorem State.sendHead_keeps {s0 s : State} (h : Keeps s0 s) (e : EthId) (timed : Bool) (d : List Byte) (st : St) : Keeps s0 (State.sendHead s e timed d st) := by
  unfold State.sendHead
  repeat' (first | with_reducible assumption | with_reducible apply State.txRead_keeps | with_reducible apply State.txDone_keeps | with_reducible apply State.sendEth_keeps | with_reducible refine State.txRead_keeps_of (by assumption) ?_ | split | with_reducible apply keeps_foldl | with_reducible apply keeps_foldl1 | with_reducible apply keeps_foldl2 | with_reducible apply keeps_foldl22 | intro _ | dsimp only | simp only [keeps_mk, keepsT_self])

theorem State.badDesc_keeps {s0 s : State} (h : Keeps s0 s) (e : EthId) (timed : Bool) : Keeps s0 (State.badDesc s e timed) := by
  unfold State.badDesc
  repeat' (first | with_reducible assumption | with_reducible apply State.flag_keeps | with_reducible apply State.txDone_keeps | split | with_reducible apply keeps_foldl | with_reducible apply keeps_foldl1 | with_reducible apply keeps_foldl2 | with_reducible apply keeps_foldl22 | intro _ | dsimp only | simp only [keeps_mk, keepsT_self])

theorem State.sendSpare_keeps {s0 s : State} (h : Keeps s0 s) (e : EthId) (head : Option (List Byte)) : Keeps s0 (State.sendSpare s e head) := by
  unfold State.sendSpare
  repeat' (first | with_reducible assumption | with_reducible apply State.sendHead_keeps | split | with_reducible apply keeps_foldl | with_reducible apply keeps_foldl1 | with_reducible apply keeps_foldl2 | with_reducible apply keeps_foldl22 | intro _ | dsimp only | simp only [keeps_mk, keepsT_self])

theorem State.lateDrive_keeps {s0 s : State} (h : Keeps s0 s) (e : EthId) (f : DriveFrame) : Keeps s0 (State.lateDrive s e f) := by
  unfold State.lateDrive
  repeat' (first | with_reducible assumption | with_reducible apply State.flag_keeps | with_reducible apply State.setEth_keeps | split | with_reducible apply keeps_foldl | with_reducible apply keeps_foldl1 | with_reducible apply keeps_foldl2 | with_reducible apply keeps_foldl22 | intro _ | dsimp only | simp only [keeps_mk, keepsT_self])

theorem State.ethReset_keeps {s0 s : State} (h : Keeps s0 s)  : Keeps s0 (State.ethReset s) := by
  unfold State.ethReset
  repeat' (first | with_reducible assumption | split | with_reducible apply keeps_foldl | with_reducible apply keeps_foldl1 | with_reducible apply keeps_foldl2 | with_reducible apply keeps_foldl22 | intro _ | dsimp only | simp only [keeps_mk, keepsT_self])

theorem State.setStream_keeps {s0 s : State} (h : Keeps s0 s) (x : Stream) : Keeps s0 (State.setStream s x) := by
  unfold State.setStream
  repeat' (first | with_reducible assumption | split | with_reducible apply keeps_foldl | with_reducible apply keeps_foldl1 | with_reducible apply keeps_foldl2 | with_reducible apply keeps_foldl22 | intro _ | dsimp only | simp only [keeps_mk, keepsT_self])

theorem State.setCam_keeps {s0 s : State} (h : Keeps s0 s) (v : CamId) (x : Camera) : Keeps s0 (State.setCam s v x) := by
  unfold State.setCam
  repeat' (first | with_reducible assumption | split | with_reducible apply keeps_foldl | with_reducible apply keeps_foldl1 | with_reducible apply keeps_foldl2 | with_reducible apply keeps_foldl22 | intro _ | dsimp only | simp only [keeps_mk, keepsT_self])

theorem State.endFrame_keeps {s0 s : State} (h : Keeps s0 s) (v : CamId) (fenced : Bool) (early : Bool) (eof : Nat) (record : Bool) : Keeps s0 (State.endFrame s v fenced early eof record) := by
  unfold State.endFrame
  repeat' (first | with_reducible assumption | with_reducible apply State.ioAll_keeps | with_reducible apply State.setCam_keeps | split | with_reducible apply keeps_foldl | with_reducible apply keeps_foldl1 | with_reducible apply keeps_foldl2 | with_reducible apply keeps_foldl22 | intro _ | dsimp only | simp only [keeps_mk, keepsT_self])

theorem State.gpioLow_keeps {s0 s : State} (h : Keeps s0 s) (v : CamId) : Keeps s0 (State.gpioLow s v) := by
  unfold State.gpioLow
  repeat' (first | with_reducible assumption | with_reducible apply State.emit_keeps | with_reducible apply State.setCam_keeps | split | with_reducible apply keeps_foldl | with_reducible apply keeps_foldl1 | with_reducible apply keeps_foldl2 | with_reducible apply keeps_foldl22 | intro _ | dsimp only | simp only [keeps_mk, keepsT_self])

theorem State.camStop_keeps {s0 s : State} (h : Keeps s0 s) (v : CamId) (record : Bool) : Keeps s0 (State.camStop s v record) := by
  unfold State.camStop
  repeat' (first | with_reducible assumption | with_reducible apply State.gpioLow_keeps | with_reducible apply State.endFrame_keeps | split | with_reducible apply keeps_foldl | with_reducible apply keeps_foldl1 | with_reducible apply keeps_foldl2 | with_reducible apply keeps_foldl22 | intro _ | dsimp only | simp only [keeps_mk, keepsT_self])

theorem State.camLoad_keeps {s0 s : State} (h : Keeps s0 s) (p : Port) (v : CamId) : Keeps s0 (State.camLoad s p v) := by
  unfold State.camLoad
  repeat' (first | with_reducible assumption | with_reducible apply State.flag_keeps | with_reducible apply State.setCam_keeps | with_reducible apply State.camStop_keeps | with_reducible apply State.readBlock_keeps | with_reducible refine State.readBlock_keeps_of (by assumption) ?_ | split | with_reducible apply keeps_foldl | with_reducible apply keeps_foldl1 | with_reducible apply keeps_foldl2 | with_reducible apply keeps_foldl22 | intro _ | dsimp only | simp only [keeps_mk, keepsT_self])

theorem State.camOff_keeps {s0 s : State} (h : Keeps s0 s) (p : Port) (v : CamId) : Keeps s0 (State.camOff s p v) := by
  unfold State.camOff
  repeat' (first | with_reducible assumption | with_reducible apply State.flag_keeps | with_reducible apply State.camStop_keeps | with_reducible apply State.setCam_keeps | split | with_reducible apply keeps_foldl | with_reducible apply keeps_foldl1 | with_reducible apply keeps_foldl2 | with_reducible apply keeps_foldl22 | intro _ | dsimp only | simp only [keeps_mk, keepsT_self])

theorem State.camFence_keeps {s0 s : State} (h : Keeps s0 s) (v : CamId) : Keeps s0 (State.camFence s v) := by
  unfold State.camFence
  repeat' (first | with_reducible assumption | with_reducible apply State.gpioLow_keeps | with_reducible apply State.endFrame_keeps | with_reducible apply State.setCam_keeps | split | with_reducible apply keeps_foldl | with_reducible apply keeps_foldl1 | with_reducible apply keeps_foldl2 | with_reducible apply keeps_foldl22 | intro _ | dsimp only | simp only [keeps_mk, keepsT_self])

theorem State.camClose_keeps {s0 s : State} (h : Keeps s0 s) (v : CamId) : Keeps s0 (State.camClose s v) := by
  unfold State.camClose
  repeat' (first | with_reducible assumption | with_reducible apply State.camStop_keeps | with_reducible apply State.setCam_keeps | split | with_reducible apply keeps_foldl | with_reducible apply keeps_foldl1 | with_reducible apply keeps_foldl2 | with_reducible apply keeps_foldl22 | intro _ | dsimp only | simp only [keeps_mk, keepsT_self])

theorem State.camDark_keeps {s0 s : State} (h : Keeps s0 s) (v : CamId) : Keeps s0 (State.camDark s v) := by
  unfold State.camDark
  repeat' (first | with_reducible assumption | with_reducible apply State.camStop_keeps | with_reducible apply State.setCam_keeps | split | with_reducible apply keeps_foldl | with_reducible apply keeps_foldl1 | with_reducible apply keeps_foldl2 | with_reducible apply keeps_foldl22 | intro _ | dsimp only | simp only [keeps_mk, keepsT_self])

theorem State.camLight_keeps {s0 s : State} (h : Keeps s0 s) (v : CamId) : Keeps s0 (State.camLight s v) := by
  unfold State.camLight
  repeat' (first | with_reducible assumption | with_reducible apply State.setCam_keeps | split | with_reducible apply keeps_foldl | with_reducible apply keeps_foldl1 | with_reducible apply keeps_foldl2 | with_reducible apply keeps_foldl22 | intro _ | dsimp only | simp only [keeps_mk, keepsT_self])

theorem State.audioStart_keeps {s0 s : State} (h : Keeps s0 s) (n : Nat) (imported : Bool) : Keeps s0 (State.audioStart s n imported) := by
  unfold State.audioStart
  repeat' (first | with_reducible assumption | split | with_reducible apply keeps_foldl | with_reducible apply keeps_foldl1 | with_reducible apply keeps_foldl2 | with_reducible apply keeps_foldl22 | intro _ | dsimp only | simp only [keeps_mk, keepsT_self])

theorem State.audioStop_keeps {s0 s : State} (h : Keeps s0 s) (n : Nat) : Keeps s0 (State.audioStop s n) := by
  unfold State.audioStop
  repeat' (first | with_reducible assumption | split | with_reducible apply keeps_foldl | with_reducible apply keeps_foldl1 | with_reducible apply keeps_foldl2 | with_reducible apply keeps_foldl22 | intro _ | dsimp only | simp only [keeps_mk, keepsT_self])

theorem State.bindLoad_keeps {s0 s : State} (h : Keeps s0 s) (p : Port) (index : Nat) : Keeps s0 (State.bindLoad s p index) := by
  unfold State.bindLoad
  repeat' (first | with_reducible assumption | with_reducible apply State.readBlock_keeps | with_reducible apply State.audioStart_keeps | with_reducible apply State.flag_keeps | with_reducible refine State.readBlock_keeps_of (by assumption) ?_ | split | with_reducible apply keeps_foldl | with_reducible apply keeps_foldl1 | with_reducible apply keeps_foldl2 | with_reducible apply keeps_foldl22 | intro _ | dsimp only | simp only [keeps_mk, keepsT_self])

theorem State.bindClear_keeps {s0 s : State} (h : Keeps s0 s) (index : Nat) : Keeps s0 (State.bindClear s index) := by
  unfold State.bindClear
  repeat' (first | with_reducible assumption | with_reducible apply State.audioStop_keeps | split | with_reducible apply keeps_foldl | with_reducible apply keeps_foldl1 | with_reducible apply keeps_foldl2 | with_reducible apply keeps_foldl22 | intro _ | dsimp only | simp only [keeps_mk, keepsT_self])

theorem State.takePacket_keeps {s0 s : State} (h : Keeps s0 s) (b : Binding) (ts : Nat) (payload : List Byte) :
    Keeps s0 (s.takePacket b ts payload).1 := by
  unfold State.takePacket
  cases s.audio.find? (fun r => r.stream == b.stream) with
  | none => exact h
  | some r =>
    cases b.samplesIn payload with
    | none => exact h
    | some n =>
      dsimp only
      split
      · exact h
      · exact h

theorem State.takePacket_keeps_of {s0 s u : State} {b : Binding} {ts : Nat} {payload : List Byte} {x_} (e : (State.takePacket s b ts payload) = (u, x_)) (h : Keeps s0 s) : Keeps s0 u := by
  have h2 := State.takePacket_keeps h b ts payload
  rw [e] at h2; exact h2

theorem State.completeChunk_keeps {s0 s : State} (h : Keeps s0 s) (b : Binding) (x : Stream) (r : AudioRun) (due : Nat) (zeros : Bool) : Keeps s0 (State.completeChunk s b x r due zeros) := by
  unfold State.completeChunk
  repeat' (first | with_reducible assumption | with_reducible apply State.devStore_keeps | with_reducible apply State.setStream_keeps | with_reducible apply State.flag_keeps | split | with_reducible apply keeps_foldl | with_reducible apply keeps_foldl1 | with_reducible apply keeps_foldl2 | with_reducible apply keeps_foldl22 | intro _ | dsimp only | simp only [keeps_mk, keepsT_self])

theorem State.camsClose_keeps {s0 s : State} (h : Keeps s0 s) (p : PartId) : Keeps s0 (State.camsClose s p) := by
  unfold State.camsClose
  repeat' (first | with_reducible assumption | with_reducible apply State.camClose_keeps | split | with_reducible apply keeps_foldl | with_reducible apply keeps_foldl1 | with_reducible apply keeps_foldl2 | with_reducible apply keeps_foldl22 | intro _ | dsimp only | simp only [keeps_mk, keepsT_self])

theorem State.bindingsClose_keeps {s0 s : State} (h : Keeps s0 s) (p : PartId) : Keeps s0 (State.bindingsClose s p) := by
  unfold State.bindingsClose
  repeat' (first | with_reducible assumption | with_reducible apply State.audioStop_keeps | split | with_reducible apply keeps_foldl | with_reducible apply keeps_foldl1 | with_reducible apply keeps_foldl2 | with_reducible apply keeps_foldl22 | intro _ | dsimp only | simp only [keeps_mk, keepsT_self])

theorem State.intakeReset_keeps {s0 s : State} (h : Keeps s0 s)  : Keeps s0 (State.intakeReset s) := by
  unfold State.intakeReset
  repeat' (first | with_reducible assumption | split | with_reducible apply keeps_foldl | with_reducible apply keeps_foldl1 | with_reducible apply keeps_foldl2 | with_reducible apply keeps_foldl22 | intro _ | dsimp only | simp only [keeps_mk, keepsT_self])

theorem State.strLoad_keeps {s0 s : State} (h : Keeps s0 s) (a : Nat) (len : Nat) : Keeps s0 (State.strLoad s a len).2 := by
  unfold State.strLoad
  repeat' (first | with_reducible assumption | with_reducible apply State.devLoad_keeps | with_reducible refine State.devLoad_keeps_of (by assumption) ?_ | split | with_reducible apply keeps_foldl | with_reducible apply keeps_foldl1 | with_reducible apply keeps_foldl2 | with_reducible apply keeps_foldl22 | intro _ | dsimp only | simp only [keeps_mk, keepsT_self])
theorem State.strLoad_keeps_of {s0 s u : State} {a : Nat} {len : Nat} {x_} (e : (State.strLoad s a len) = (x_, u)) (h : Keeps s0 s) : Keeps s0 u := by
  have h2 := State.strLoad_keeps h a len
  rw [e] at h2; exact h2

theorem State.install_keeps {s0 s : State} (h : Keeps s0 s) (g : Group) (x : Stream) : Keeps s0 (State.install s g x).1 := by
  unfold State.install
  repeat' (first | with_reducible assumption | with_reducible apply State.strLoad_keeps | with_reducible apply State.devStore_keeps | with_reducible refine State.strLoad_keeps_of (by assumption) ?_ | split | with_reducible apply keeps_foldl | with_reducible apply keeps_foldl1 | with_reducible apply keeps_foldl2 | with_reducible apply keeps_foldl22 | intro _ | dsimp only | simp only [keeps_mk, keepsT_self])
theorem State.install_keeps_of {s0 s u : State} {g : Group} {x0 : Stream} {x_} (e : (State.install s g x0) = (u, x_)) (h : Keeps s0 s) : Keeps s0 u := by
  have h2 := State.install_keeps h g x0
  rw [e] at h2; exact h2

theorem State.swapOut_keeps {s0 s : State} (h : Keeps s0 s) (g : Group) (x : Stream) : Keeps s0 (State.swapOut s g x) := by
  unfold State.swapOut
  repeat' (first | with_reducible assumption | with_reducible apply State.load_keeps | with_reducible apply State.setStream_keeps | with_reducible apply State.devStore_keeps | with_reducible refine State.load_keeps_of (by assumption) ?_ | split | with_reducible apply keeps_foldl | with_reducible apply keeps_foldl1 | with_reducible apply keeps_foldl2 | with_reducible apply keeps_foldl22 | intro _ | dsimp only | simp only [keeps_mk, keepsT_self])

theorem State.swapIn_keeps {s0 s : State} (h : Keeps s0 s) (g : Group) (n : Nat) (named : List Nat) : Keeps s0 (State.swapIn s g n named).1 := by
  unfold State.swapIn
  repeat' (first | with_reducible assumption | with_reducible apply State.swapOut_keeps | with_reducible apply State.strLoad_keeps | with_reducible apply State.setStream_keeps | with_reducible apply State.devStore_keeps | with_reducible refine State.strLoad_keeps_of (by assumption) ?_ | split | with_reducible apply keeps_foldl | with_reducible apply keeps_foldl1 | with_reducible apply keeps_foldl2 | with_reducible apply keeps_foldl22 | intro _ | dsimp only | simp only [keeps_mk, keepsT_self])
theorem State.swapIn_keeps_of {s0 s u : State} {g : Group} {n : Nat} {named : List Nat} {x_} (e : (State.swapIn s g n named) = (u, x_)) (h : Keeps s0 s) : Keeps s0 u := by
  have h2 := State.swapIn_keeps h g n named
  rw [e] at h2; exact h2

theorem State.countMark_keeps {s0 s : State} (h : Keeps s0 s) (n : Nat) : Keeps s0 (State.countMark s n) := by
  unfold State.countMark
  repeat' (first | with_reducible assumption | split | with_reducible apply keeps_foldl | with_reducible apply keeps_foldl1 | with_reducible apply keeps_foldl2 | with_reducible apply keeps_foldl22 | intro _ | dsimp only | simp only [keeps_mk, keepsT_self])

theorem State.rowFlags_keeps {s0 s : State} (h : Keeps s0 s) (p : PartId) (n : Nat) (st : St) : Keeps s0 (State.rowFlags s p n st) := by
  unfold State.rowFlags
  repeat' (first | with_reducible assumption | with_reducible apply State.flag_keeps | with_reducible apply State.setPart_keeps | split | with_reducible apply keeps_foldl | with_reducible apply keeps_foldl1 | with_reducible apply keeps_foldl2 | with_reducible apply keeps_foldl22 | intro _ | dsimp only | simp only [keeps_mk, keepsT_self])

theorem State.checkRows_keeps {s0 s : State} (h : Keeps s0 s) (c : Cmd) : Keeps s0 (State.checkRows s c).1 := by
  unfold State.checkRows
  repeat' (first | with_reducible assumption | with_reducible apply State.rowFlags_keeps | split | with_reducible apply keeps_foldl | with_reducible apply keeps_foldl1 | with_reducible apply keeps_foldl2 | with_reducible apply keeps_foldl22 | intro _ | dsimp only | simp only [keeps_mk, keepsT_self])
theorem State.checkRows_keeps_of {s0 s u : State} {c : Cmd} {x_} (e : (State.checkRows s c) = (u, x_)) (h : Keeps s0 s) : Keeps s0 u := by
  have h2 := State.checkRows_keeps h c
  rw [e] at h2; exact h2

theorem State.strStore_keeps {s0 s : State} (h : Keeps s0 s) (a : Nat) (bs : List PByte) : Keeps s0 (State.strStore s a bs) := by
  unfold State.strStore
  repeat' (first | with_reducible assumption | with_reducible apply State.sendWrite_keeps | with_reducible apply State.devStore_keeps | split | with_reducible apply keeps_foldl | with_reducible apply keeps_foldl1 | with_reducible apply keeps_foldl2 | with_reducible apply keeps_foldl22 | intro _ | dsimp only | simp only [keeps_mk, keepsT_self])

theorem State.strReports_keeps {s0 s : State} (h : Keeps s0 s) (c : Cmd) (late : Bool) : Keeps s0 (State.strReports s c late) := by
  unfold State.strReports
  repeat' (first | with_reducible assumption | with_reducible apply State.strStore_keeps | split | with_reducible apply keeps_foldl | with_reducible apply keeps_foldl1 | with_reducible apply keeps_foldl2 | with_reducible apply keeps_foldl22 | intro _ | dsimp only | simp only [keeps_mk, keepsT_self])

theorem State.streamRow_keeps {s0 s : State} (h : Keeps s0 s) (p : PartId) (q : QueId) (n : Nat) (k : CmdKind) (body : Cmd → State → State × Cmd)
    (hb : ∀ c t, Keeps s0 t → Keeps s0 (body c t).1) : Keeps s0 (s.streamRow p q n k body) := by
  unfold State.streamRow
  repeat' (first | with_reducible assumption | with_reducible apply hb | with_reducible apply State.startCmd_keeps | with_reducible apply State.putCmd_keeps | with_reducible refine State.startCmd_keeps_of (by assumption) ?_ | split | with_reducible apply keeps_foldl | with_reducible apply keeps_foldl1 | with_reducible apply keeps_foldl2 | with_reducible apply keeps_foldl22 | intro _ | dsimp only | simp only [keeps_mk, keepsT_self])


theorem State.groupBody_keeps {s0 s : State} (h : Keeps s0 s) (c : Cmd) : Keeps s0 (State.groupBody c s).1 := by
  unfold State.groupBody
  repeat' (first | with_reducible assumption | split | with_reducible apply keeps_foldl | with_reducible apply keeps_foldl1 | with_reducible apply keeps_foldl2 | with_reducible apply keeps_foldl22 | intro _ | dsimp only | simp only [keeps_mk, keepsT_self])
theorem State.groupBody_keeps_of {s0 s u : State} {c : Cmd} {x_} (e : (State.groupBody c s) = (u, x_)) (h : Keeps s0 s) : Keeps s0 u := by
  have h2 := State.groupBody_keeps h c
  rw [e] at h2; exact h2

theorem State.ctlBody_keeps {s0 s : State} (h : Keeps s0 s) (act : Group → Nat → Stream → State → State × St) (c : Cmd)
    (ha : ∀ g i x t, Keeps s0 t → Keeps s0 (act g i x t).1) : Keeps s0 (State.ctlBody act c s).1 := by
  unfold State.ctlBody
  repeat' (first | with_reducible assumption | with_reducible apply ha | split | with_reducible apply keeps_foldl | with_reducible apply keeps_foldl1 | with_reducible apply keeps_foldl2 | with_reducible apply keeps_foldl22 | intro _ | dsimp only | simp only [keeps_mk, keepsT_self])


theorem State.poisonRow_keeps {s0 s : State} (h : Keeps s0 s) (n : Nat) (bad : Bool) : Keeps s0 (State.poisonRow s n bad).1 := by
  unfold State.poisonRow
  repeat' (first | with_reducible assumption | with_reducible apply State.flag_keeps | split | with_reducible apply keeps_foldl | with_reducible apply keeps_foldl1 | with_reducible apply keeps_foldl2 | with_reducible apply keeps_foldl22 | intro _ | dsimp only | simp only [keeps_mk, keepsT_self])
theorem State.poisonRow_keeps_of {s0 s u : State} {n : Nat} {bad : Bool} {x_} (e : (State.poisonRow s n bad) = (u, x_)) (h : Keeps s0 s) : Keeps s0 u := by
  have h2 := State.poisonRow_keeps h n bad
  rw [e] at h2; exact h2

theorem State.openRow_keeps {s0 s : State} (h : Keeps s0 s) (c : Cmd) (g : Group) (i : Nat) (x0 : Stream) : Keeps s0 (State.openRow c g i x0 s).1 := by
  unfold State.openRow
  repeat' (first | with_reducible assumption | with_reducible apply State.install_keeps | with_reducible apply State.setStream_keeps | with_reducible apply State.poisonRow_keeps | with_reducible apply State.audioStart_keeps | with_reducible refine State.install_keeps_of (by assumption) ?_ | with_reducible refine State.poisonRow_keeps_of (by assumption) ?_ | split | with_reducible apply keeps_foldl | with_reducible apply keeps_foldl1 | with_reducible apply keeps_foldl2 | with_reducible apply keeps_foldl22 | intro _ | dsimp only | simp only [keeps_mk, keepsT_self])
theorem State.openRow_keeps_of {s0 s u : State} {c : Cmd} {g : Group} {i : Nat} {x0 : Stream} {x_} (e : (State.openRow c g i x0 s) = (u, x_)) (h : Keeps s0 s) : Keeps s0 u := by
  have h2 := State.openRow_keeps h c g i x0
  rw [e] at h2; exact h2

theorem State.parkRow_keeps {s0 s : State} (h : Keeps s0 s) (g : Group) (x : Stream) : Keeps s0 (State.parkRow g x s).1 := by
  unfold State.parkRow
  repeat' (first | with_reducible assumption | with_reducible apply State.setStream_keeps | with_reducible apply State.swapOut_keeps | split | with_reducible apply keeps_foldl | with_reducible apply keeps_foldl1 | with_reducible apply keeps_foldl2 | with_reducible apply keeps_foldl22 | intro _ | dsimp only | simp only [keeps_mk, keepsT_self])
theorem State.parkRow_keeps_of {s0 s u : State} {g : Group} {x0 : Stream} {x_} (e : (State.parkRow g x0 s) = (u, x_)) (h : Keeps s0 s) : Keeps s0 u := by
  have h2 := State.parkRow_keeps h g x0
  rw [e] at h2; exact h2

theorem State.resetRow_keeps {s0 s : State} (h : Keeps s0 s) (g : Group) (x : Stream) : Keeps s0 (State.resetRow g x s).1 := by
  unfold State.resetRow
  repeat' (first | with_reducible assumption | with_reducible apply State.install_keeps | with_reducible apply State.poisonRow_keeps | with_reducible apply State.countMark_keeps | with_reducible apply State.setStream_keeps | with_reducible refine State.install_keeps_of (by assumption) ?_ | with_reducible refine State.poisonRow_keeps_of (by assumption) ?_ | split | with_reducible apply keeps_foldl | with_reducible apply keeps_foldl1 | with_reducible apply keeps_foldl2 | with_reducible apply keeps_foldl22 | intro _ | dsimp only | simp only [keeps_mk, keepsT_self])
theorem State.resetRow_keeps_of {s0 s u : State} {g : Group} {x0 : Stream} {x_} (e : (State.resetRow g x0 s) = (u, x_)) (h : Keeps s0 s) : Keeps s0 u := by
  have h2 := State.resetRow_keeps h g x0
  rw [e] at h2; exact h2

theorem State.closeStream_keeps {s0 s : State} (h : Keeps s0 s) (x : Stream) : Keeps s0 (State.closeStream s x) := by
  unfold State.closeStream
  repeat' (first | with_reducible assumption | with_reducible apply State.audioStop_keeps | with_reducible apply State.setStream_keeps | split | with_reducible apply keeps_foldl | with_reducible apply keeps_foldl1 | with_reducible apply keeps_foldl2 | with_reducible apply keeps_foldl22 | intro _ | dsimp only | simp only [keeps_mk, keepsT_self])

theorem State.loseRows_keeps {s0 s : State} (h : Keeps s0 s) (n : Nat) : Keeps s0 (State.loseRows s n) := by
  unfold State.loseRows
  repeat' (first | with_reducible assumption | with_reducible apply State.setPart_keeps | split | with_reducible apply keeps_foldl | with_reducible apply keeps_foldl1 | with_reducible apply keeps_foldl2 | with_reducible apply keeps_foldl22 | intro _ | dsimp only | simp only [keeps_mk, keepsT_self])

theorem State.blobOut_keeps {s0 s : State} (h : Keeps s0 s) (c : Cmd) (g : Group) (x : Stream) : Keeps s0 (State.blobOut s c g x).2 := by
  unfold State.blobOut
  repeat' (first | with_reducible assumption | with_reducible apply State.strLoad_keeps | with_reducible refine State.strLoad_keeps_of (by assumption) ?_ | split | with_reducible apply keeps_foldl | with_reducible apply keeps_foldl1 | with_reducible apply keeps_foldl2 | with_reducible apply keeps_foldl22 | intro _ | dsimp only | simp only [keeps_mk, keepsT_self])
theorem State.blobOut_keeps_of {s0 s u : State} {c : Cmd} {g : Group} {x0 : Stream} {x_} (e : (State.blobOut s c g x0) = (x_, u)) (h : Keeps s0 s) : Keeps s0 u := by
  have h2 := State.blobOut_keeps h c g x0
  rw [e] at h2; exact h2

theorem State.exportRow_keeps {s0 s : State} (h : Keeps s0 s) (c : Cmd) (g : Group) (i : Nat) (x : Stream) : Keeps s0 (State.exportRow c g i x s).1 := by
  unfold State.exportRow
  repeat' (first | with_reducible assumption | with_reducible apply State.blobOut_keeps | with_reducible apply State.devStore_keeps | with_reducible apply State.flag_keeps | with_reducible apply State.loseRows_keeps | with_reducible apply State.audioStop_keeps | with_reducible apply State.setStream_keeps | with_reducible apply State.flagIf_keeps | with_reducible refine State.blobOut_keeps_of (by assumption) ?_ | split | with_reducible apply keeps_foldl | with_reducible apply keeps_foldl1 | with_reducible apply keeps_foldl2 | with_reducible apply keeps_foldl22 | intro _ | dsimp only | simp only [keeps_mk, keepsT_self])
theorem State.exportRow_keeps_of {s0 s u : State} {c : Cmd} {g : Group} {i : Nat} {x0 : Stream} {x_} (e : (State.exportRow c g i x0 s) = (u, x_)) (h : Keeps s0 s) : Keeps s0 u := by
  have h2 := State.exportRow_keeps h c g i x0
  rw [e] at h2; exact h2

theorem State.sendBlobs_keeps {s0 s : State} (h : Keeps s0 s) (c : Cmd) (g : Group) : Keeps s0 (State.sendBlobs s c g).1 := by
  unfold State.sendBlobs
  repeat' (first | with_reducible assumption | with_reducible apply State.makeOps_keeps | with_reducible apply State.newOp_keeps | with_reducible refine State.makeOps_keeps_of (by assumption) ?_ | with_reducible refine State.makeOps_keeps_of (by assumption) ?_ ?_ | split | with_reducible apply keeps_foldl | with_reducible apply keeps_foldl1 | with_reducible apply keeps_foldl2 | with_reducible apply keeps_foldl22 | intro _ | dsimp only | simp only [keeps_mk, keepsT_self])
theorem State.sendBlobs_keeps_of {s0 s u : State} {c : Cmd} {g : Group} {x_} (e : (State.sendBlobs s c g) = (u, x_)) (h : Keeps s0 s) : Keeps s0 u := by
  have h2 := State.sendBlobs_keeps h c g
  rw [e] at h2; exact h2

theorem State.importRow_keeps {s0 s : State} (h : Keeps s0 s) (c : Cmd) (g : Group) (i : Nat) (x0 : Stream) (blob : List PByte) : Keeps s0 (State.importRow c g i x0 blob s).1 := by
  unfold State.importRow
  repeat' (first | with_reducible assumption | with_reducible apply State.setStream_keeps | with_reducible apply State.flag_keeps | with_reducible apply State.audioStart_keeps | with_reducible apply State.devStore_keeps | split | with_reducible apply keeps_foldl | with_reducible apply keeps_foldl1 | with_reducible apply keeps_foldl2 | with_reducible apply keeps_foldl22 | intro _ | dsimp only | simp only [keeps_mk, keepsT_self])
theorem State.importRow_keeps_of {s0 s u : State} {c : Cmd} {g : Group} {i : Nat} {x0 : Stream} {blob : List PByte} {x_} (e : (State.importRow c g i x0 blob s) = (u, x_)) (h : Keeps s0 s) : Keeps s0 u := by
  have h2 := State.importRow_keeps h c g i x0 blob
  rw [e] at h2; exact h2

theorem State.blobIn_keeps {s0 s : State} (h : Keeps s0 s) (c : Cmd) (g : Group) (i : Nat) : Keeps s0 (State.blobIn s c g i).2 := by
  unfold State.blobIn
  repeat' (first | with_reducible assumption | with_reducible apply State.strLoad_keeps | with_reducible refine State.strLoad_keeps_of (by assumption) ?_ | split | with_reducible apply keeps_foldl | with_reducible apply keeps_foldl1 | with_reducible apply keeps_foldl2 | with_reducible apply keeps_foldl22 | intro _ | dsimp only | simp only [keeps_mk, keepsT_self])
theorem State.blobIn_keeps_of {s0 s u : State} {c : Cmd} {g : Group} {i : Nat} {x_} (e : (State.blobIn s c g i) = (x_, u)) (h : Keeps s0 s) : Keeps s0 u := by
  have h2 := State.blobIn_keeps h c g i
  rw [e] at h2; exact h2

theorem State.importing_keeps {s0 s : State} (h : Keeps s0 s) (c : Cmd) : Keeps s0 (State.importing s c) := by
  unfold State.importing
  repeat' (first | with_reducible assumption | with_reducible apply State.setStream_keeps | split | with_reducible apply keeps_foldl | with_reducible apply keeps_foldl1 | with_reducible apply keeps_foldl2 | with_reducible apply keeps_foldl22 | intro _ | dsimp only | simp only [keeps_mk, keepsT_self])

theorem State.importAll_keeps {s0 s : State} (h : Keeps s0 s) (c : Cmd) : Keeps s0 (State.importAll s c).1 := by
  unfold State.importAll
  repeat' (first | with_reducible assumption | with_reducible apply State.ctlBody_keeps | with_reducible apply State.blobIn_keeps | with_reducible apply State.importRow_keeps | with_reducible refine State.ctlBody_keeps_of (by assumption) ?_ | with_reducible refine State.blobIn_keeps_of (by assumption) ?_ | with_reducible refine State.importRow_keeps_of (by assumption) ?_ | split | with_reducible apply keeps_foldl | with_reducible apply keeps_foldl1 | with_reducible apply keeps_foldl2 | with_reducible apply keeps_foldl22 | intro _ | dsimp only | simp only [keeps_mk, keepsT_self])
theorem State.importAll_keeps_of {s0 s u : State} {c : Cmd} {x_} (e : (State.importAll s c) = (u, x_)) (h : Keeps s0 s) : Keeps s0 u := by
  have h2 := State.importAll_keeps h c
  rw [e] at h2; exact h2

theorem State.partsBad_keeps {s0 s : State} (h : Keeps s0 s) (a : Nat) (xs : List (Nat × Nat)) : Keeps s0 (s.partsBad a xs).2 := by
  induction xs generalizing s with
  | nil => exact h
  | cons x xs ih => exact ih (State.load_keeps h _ _)

theorem State.partsBad_keeps_of {s0 s u : State} {a : Nat} {z2 : List (Nat × Nat)} {x_} (e : (State.partsBad s a z2) = (x_, u)) (h : Keeps s0 s) : Keeps s0 u := by
  have h2 := State.partsBad_keeps h a z2
  rw [e] at h2; exact h2

theorem State.takeRow_keeps {s0 s : State} (h : Keeps s0 s) (g : Group) (parts : List (Nat × Nat)) (named : List Nat) (n : Nat) : Keeps s0 (State.takeRow s g parts named n).1 := by
  unfold State.takeRow
  repeat' (first | with_reducible assumption | with_reducible apply State.swapIn_keeps | with_reducible apply State.setStream_keeps | with_reducible apply State.load_keeps | with_reducible apply State.partsBad_keeps | with_reducible apply State.flag_keeps | with_reducible refine State.swapIn_keeps_of (by assumption) ?_ | with_reducible refine State.load_keeps_of (by assumption) ?_ | with_reducible refine State.partsBad_keeps_of (by assumption) ?_ | split | with_reducible apply keeps_foldl | with_reducible apply keeps_foldl1 | with_reducible apply keeps_foldl2 | with_reducible apply keeps_foldl22 | intro _ | dsimp only | simp only [keeps_mk, keepsT_self])
theorem State.takeRow_keeps_of {s0 s u : State} {g : Group} {parts : List (Nat × Nat)} {named : List Nat} {n : Nat} {x_} (e : (State.takeRow s g parts named n) = (u, x_)) (h : Keeps s0 s) : Keeps s0 u := by
  have h2 := State.takeRow_keeps h g parts named n
  rw [e] at h2; exact h2

theorem State.overrunRow_keeps {s0 s : State} (h : Keeps s0 s) (g : Group) (chunk : Nat) (n : Nat) : Keeps s0 (State.overrunRow s g chunk n).1 := by
  unfold State.overrunRow
  repeat' (first | with_reducible assumption | with_reducible apply State.install_keeps | with_reducible apply State.setStream_keeps | with_reducible apply State.flag_keeps | with_reducible apply State.flagIf_keeps | with_reducible refine State.install_keeps_of (by assumption) ?_ | split | with_reducible apply keeps_foldl | with_reducible apply keeps_foldl1 | with_reducible apply keeps_foldl2 | with_reducible apply keeps_foldl22 | intro _ | dsimp only | simp only [keeps_mk, keepsT_self])
theorem State.overrunRow_keeps_of {s0 s u : State} {g : Group} {chunk : Nat} {n : Nat} {x_} (e : (State.overrunRow s g chunk n) = (u, x_)) (h : Keeps s0 s) : Keeps s0 u := by
  have h2 := State.overrunRow_keeps h g chunk n
  rw [e] at h2; exact h2

theorem State.prepareRows_keeps {s0 s : State} (h : Keeps s0 s) (c : Cmd) (g : Group) (parts : List (Nat × Nat)) : Keeps s0 (State.prepareRows s c g parts).1 := by
  unfold State.prepareRows
  repeat' (first | with_reducible assumption | with_reducible apply State.takeRow_keeps | with_reducible apply State.overrunRow_keeps | with_reducible refine State.takeRow_keeps_of (by assumption) ?_ | with_reducible refine State.overrunRow_keeps_of (by assumption) ?_ | split | with_reducible apply keeps_foldl | with_reducible apply keeps_foldl1 | with_reducible apply keeps_foldl2 | with_reducible apply keeps_foldl22 | intro _ | dsimp only | simp only [keeps_mk, keepsT_self])
theorem State.prepareRows_keeps_of {s0 s u : State} {c : Cmd} {g : Group} {parts : List (Nat × Nat)} {x_} (e : (State.prepareRows s c g parts) = (u, x_)) (h : Keeps s0 s) : Keeps s0 u := by
  have h2 := State.prepareRows_keeps h c g parts
  rw [e] at h2; exact h2

theorem State.poisonOut_keeps {s0 s : State} (h : Keeps s0 s) (g : Group) (outs : List Rng) (n : Nat) : Keeps s0 (State.poisonOut s g outs n) := by
  unfold State.poisonOut
  repeat' (first | with_reducible assumption | with_reducible apply State.poisonWrites_keeps | with_reducible apply State.poisonRange_keeps | split | with_reducible apply keeps_foldl | with_reducible apply keeps_foldl1 | with_reducible apply keeps_foldl2 | with_reducible apply keeps_foldl22 | intro _ | dsimp only | simp only [keeps_mk, keepsT_self])

theorem State.scatterRow_keeps {s0 s : State} (h : Keeps s0 s) (c : Cmd) (g : Group) (r : SRow) (o : StepOut) : Keeps s0 (State.scatterRow s c g r o) := by
  unfold State.scatterRow
  repeat' (first | with_reducible assumption | with_reducible apply State.storeB_keeps | with_reducible apply State.flag_keeps | with_reducible apply State.countMark_keeps | with_reducible apply State.flagIf_keeps | with_reducible apply State.setStream_keeps | split | with_reducible apply keeps_foldl | with_reducible apply keeps_foldl1 | with_reducible apply keeps_foldl2 | with_reducible apply keeps_foldl22 | intro _ | dsimp only | simp only [keeps_mk, keepsT_self])

theorem State.advanceRow_keeps {s0 s : State} (h : Keeps s0 s) (c : Cmd) (n : Nat) : Keeps s0 (State.advanceRow s c n) := by
  unfold State.advanceRow
  repeat' (first | with_reducible assumption | with_reducible apply State.setStream_keeps | split | with_reducible apply keeps_foldl | with_reducible apply keeps_foldl1 | with_reducible apply keeps_foldl2 | with_reducible apply keeps_foldl22 | intro _ | dsimp only | simp only [keeps_mk, keepsT_self])

theorem State.endRow_keeps {s0 s : State} (h : Keeps s0 s) (c : Cmd) (g : Group) (outs : List Rng) (initBad : Bool) (r : SRow) (o : StepOut) : Keeps s0 (State.endRow s c g outs initBad r o).1 := by
  unfold State.endRow
  repeat' (first | with_reducible assumption | with_reducible apply State.advanceRow_keeps | with_reducible apply State.poisonOut_keeps | with_reducible apply State.flag_keeps | with_reducible apply State.meetFails_keeps | with_reducible apply State.scatterRow_keeps | with_reducible refine State.meetFails_keeps_of (by assumption) ?_ | split | with_reducible apply keeps_foldl | with_reducible apply keeps_foldl1 | with_reducible apply keeps_foldl2 | with_reducible apply keeps_foldl22 | intro _ | dsimp only | simp only [keeps_mk, keepsT_self])
theorem State.endRow_keeps_of {s0 s u : State} {c : Cmd} {g : Group} {outs : List Rng} {initBad : Bool} {r : SRow} {o : StepOut} {x_} (e : (State.endRow s c g outs initBad r o) = (u, x_)) (h : Keeps s0 s) : Keeps s0 u := by
  have h2 := State.endRow_keeps h c g outs initBad r o
  rw [e] at h2; exact h2

theorem State.stepBody_keeps {s0 s : State} (h : Keeps s0 s) (k : StepKind) (c : Cmd)
    (hm : ∀ g l c t, Keeps s0 t → Keeps s0 (k.env g l c t).2) : Keeps s0 (State.stepBody k c s).1 := by
  have hm2 : ∀ {g l c t u} {x : StepEnv}, k.env g l c t = (x, u) → Keeps s0 t → Keeps s0 u := by
    intro g l c t u x e ht
    have := hm g l c t ht
    rw [e] at this
    exact this
  unfold State.stepBody
  repeat' (first | with_reducible assumption | with_reducible apply hm | with_reducible refine hm2 (by assumption) ?_ | with_reducible apply State.prepareRows_keeps | with_reducible apply State.advanceRow_keeps | with_reducible apply State.poisonOut_keeps | with_reducible apply State.strLoad_keeps | with_reducible apply State.meetFails_keeps | with_reducible apply State.vxBusy_keeps | with_reducible apply State.mxBusy_keeps | with_reducible apply State.endRow_keeps | with_reducible refine State.prepareRows_keeps_of (by assumption) ?_ | with_reducible refine State.strLoad_keeps_of (by assumption) ?_ | with_reducible refine State.meetFails_keeps_of (by assumption) ?_ | with_reducible refine State.endRow_keeps_of (by assumption) ?_ | split | with_reducible apply keeps_foldl | with_reducible apply keeps_foldl1 | with_reducible apply keeps_foldl2 | with_reducible apply keeps_foldl22 | intro _ | dsimp only | simp only [keeps_mk, keepsT_self])


theorem State.stepRun_keeps {s0 s : State} (h : Keeps s0 s) (flt : UnitFault) (k : StepKind) (c : Cmd)
    (hm : ∀ g l c t, Keeps s0 t → Keeps s0 (k.env g l c t).2) : Keeps s0 (State.stepRun flt k c s).1 := by
  have h2 := State.stepBody_keeps h k c hm
  unfold State.stepRun
  cases e : State.stepBody k c s with
  | mk t c1 =>
  rw [e] at h2
  have h3 : Keeps s0 t := h2
  dsimp only
  repeat' (first | with_reducible assumption | with_reducible apply State.flagClosed_keeps | with_reducible apply State.poisonWrites_keeps | with_reducible apply State.flag_keeps | with_reducible apply State.stepBody_keeps | with_reducible refine State.stepBody_keeps_of (by assumption) ?_ | split | with_reducible apply keeps_foldl | with_reducible apply keeps_foldl1 | with_reducible apply keeps_foldl2 | with_reducible apply keeps_foldl22 | intro _ | dsimp only | simp only [keeps_mk, keepsT_self])


theorem State.rEnv_keeps {s0 s : State} (h : Keeps s0 s) (g : Group) (_runs : List Nat) (c : Cmd) : Keeps s0 (State.rEnv g _runs c s).2 := by
  unfold State.rEnv
  repeat' (first | with_reducible assumption | with_reducible apply State.load_keeps | with_reducible apply State.readOperand_keeps | with_reducible apply State.progRow_keeps | with_reducible refine State.load_keeps_of (by assumption) ?_ | with_reducible refine State.readOperand_keeps_of (by assumption) ?_ | with_reducible refine State.progRow_keeps_of (by assumption) ?_ | split | with_reducible apply keeps_foldl | with_reducible apply keeps_foldl1 | with_reducible apply keeps_foldl2 | with_reducible apply keeps_foldl22 | intro _ | dsimp only | simp only [keeps_mk, keepsT_self])
theorem State.rEnv_keeps_of {s0 s u : State} {g : Group} {_runs : List Nat} {c : Cmd} {x_} (e : (State.rEnv g _runs c s) = (x_, u)) (h : Keeps s0 s) : Keeps s0 u := by
  have h2 := State.rEnv_keeps h g _runs c
  rw [e] at h2; exact h2

theorem State.lEnv_keeps {s0 s : State} (h : Keeps s0 s) (g : Group) (_runs : List Nat) (c : Cmd) : Keeps s0 (State.lEnv g _runs c s).2 := by
  unfold State.lEnv
  repeat' (first | with_reducible assumption | with_reducible apply State.load_keeps | with_reducible refine State.load_keeps_of (by assumption) ?_ | split | with_reducible apply keeps_foldl | with_reducible apply keeps_foldl1 | with_reducible apply keeps_foldl2 | with_reducible apply keeps_foldl22 | intro _ | dsimp only | simp only [keeps_mk, keepsT_self])
theorem State.lEnv_keeps_of {s0 s u : State} {g : Group} {_runs : List Nat} {c : Cmd} {x_} (e : (State.lEnv g _runs c s) = (x_, u)) (h : Keeps s0 s) : Keeps s0 u := by
  have h2 := State.lEnv_keeps h g _runs c
  rw [e] at h2; exact h2

theorem State.chunkOf_keeps {s0 s : State} (h : Keeps s0 s) (n : Nat) (chunk : Nat) : Keeps s0 (State.chunkOf s n chunk).2 := by
  unfold State.chunkOf
  repeat' (first | with_reducible assumption | with_reducible apply State.devLoad_keeps | with_reducible refine State.devLoad_keeps_of (by assumption) ?_ | split | with_reducible apply keeps_foldl | with_reducible apply keeps_foldl1 | with_reducible apply keeps_foldl2 | with_reducible apply keeps_foldl22 | intro _ | dsimp only | simp only [keeps_mk, keepsT_self])
theorem State.chunkOf_keeps_of {s0 s u : State} {n : Nat} {chunk : Nat} {x_} (e : (State.chunkOf s n chunk) = (x_, u)) (h : Keeps s0 s) : Keeps s0 u := by
  have h2 := State.chunkOf_keeps h n chunk
  rw [e] at h2; exact h2

theorem State.chunksOfRows_keeps {s0 s : State} (h : Keeps s0 s) (rows : List SRow) (chunk : Nat) (xs : List Nat) :
    Keeps s0 (s.chunksOfRows rows chunk xs).2 := by
  induction xs generalizing s with
  | nil => exact h
  | cons x xs ih => exact ih (State.chunkOf_keeps h _ _)

theorem State.chunksOfRows_keeps_of {s0 s u : State} {rows : List SRow} {chunk : Nat} {z3 : List Nat} {x_} (e : (State.chunksOfRows s rows chunk z3) = (x_, u)) (h : Keeps s0 s) : Keeps s0 u := by
  have h2 := State.chunksOfRows_keeps h rows chunk z3
  rw [e] at h2; exact h2

theorem State.eEnv_keeps {s0 s : State} (h : Keeps s0 s) (g : Group) (runs : List Nat) (c : Cmd) : Keeps s0 (State.eEnv g runs c s).2 := by
  unfold State.eEnv
  repeat' (first | with_reducible assumption | with_reducible apply State.progRow_keeps | with_reducible apply State.readOperand_keeps | with_reducible apply State.chunksOfRows_keeps | with_reducible refine State.progRow_keeps_of (by assumption) ?_ | with_reducible refine State.readOperand_keeps_of (by assumption) ?_ | with_reducible refine State.chunksOfRows_keeps_of (by assumption) ?_ | split | with_reducible apply keeps_foldl | with_reducible apply keeps_foldl1 | with_reducible apply keeps_foldl2 | with_reducible apply keeps_foldl22 | intro _ | dsimp only | simp only [keeps_mk, keepsT_self])
theorem State.eEnv_keeps_of {s0 s u : State} {g : Group} {runs : List Nat} {c : Cmd} {x_} (e : (State.eEnv g runs c s) = (x_, u)) (h : Keeps s0 s) : Keeps s0 u := by
  have h2 := State.eEnv_keeps h g runs c
  rw [e] at h2; exact h2

theorem State.strClose_keeps {s0 s : State} (h : Keeps s0 s) (p : PartId) : Keeps s0 (State.strClose s p) := by
  unfold State.strClose
  repeat' (first | with_reducible assumption | with_reducible apply State.closeStream_keeps | split | with_reducible apply keeps_foldl | with_reducible apply keeps_foldl1 | with_reducible apply keeps_foldl2 | with_reducible apply keeps_foldl22 | intro _ | dsimp only | simp only [keeps_mk, keepsT_self])

theorem State.strReset_keeps {s0 s : State} (h : Keeps s0 s)  : Keeps s0 (State.strReset s) := by
  unfold State.strReset
  repeat' (first | with_reducible assumption | split | with_reducible apply keeps_foldl | with_reducible apply keeps_foldl1 | with_reducible apply keeps_foldl2 | with_reducible apply keeps_foldl22 | intro _ | dsimp only | simp only [keeps_mk, keepsT_self])

theorem State.putSeq_keeps {s0 s : State} (h : Keeps s0 s) (q : Seq) : Keeps s0 (State.putSeq s q) := by
  unfold State.putSeq
  repeat' (first | with_reducible assumption | split | with_reducible apply keeps_foldl | with_reducible apply keeps_foldl1 | with_reducible apply keeps_foldl2 | with_reducible apply keeps_foldl22 | intro _ | dsimp only | simp only [keeps_mk, keepsT_self])

theorem State.putDesc_keeps {s0 s : State} (h : Keeps s0 s) (a : Nat) (x : Desc) : Keeps s0 (State.putDesc s a x) := by
  unfold State.putDesc
  repeat' (first | with_reducible assumption | with_reducible apply State.storeB_keeps | split | with_reducible apply keeps_foldl | with_reducible apply keeps_foldl1 | with_reducible apply keeps_foldl2 | with_reducible apply keeps_foldl22 | intro _ | dsimp only | simp only [keeps_mk, keepsT_self])

theorem State.beginSpill_keeps {s0 s : State} (h : Keeps s0 s) (x : Spill) : Keeps s0 (State.beginSpill s x) := by
  unfold State.beginSpill
  repeat' (first | with_reducible assumption | with_reducible apply State.load_keeps | with_reducible apply State.putDesc_keeps | with_reducible apply State.cisternStore_keeps | with_reducible refine State.load_keeps_of (by assumption) ?_ | split | with_reducible apply keeps_foldl | with_reducible apply keeps_foldl1 | with_reducible apply keeps_foldl2 | with_reducible apply keeps_foldl22 | intro _ | dsimp only | simp only [keeps_mk, keepsT_self])

theorem State.attnSweep_keeps {s0 s : State} (h : Keeps s0 s)  : Keeps s0 (State.attnSweep s) := by
  unfold State.attnSweep
  repeat' (first | with_reducible assumption | with_reducible apply State.beginSpill_keeps | split | with_reducible apply keeps_foldl | with_reducible apply keeps_foldl1 | with_reducible apply keeps_foldl2 | with_reducible apply keeps_foldl22 | intro _ | dsimp only | simp only [keeps_mk, keepsT_self])

theorem State.takeVictim_keeps {s0 s : State} (h : Keeps s0 s) (x : PageAt) (taker : Option Nat) (span : Nat) : Keeps s0 (State.takeVictim s x taker span) := by
  unfold State.takeVictim
  repeat' (first | with_reducible assumption | with_reducible apply State.putDesc_keeps | with_reducible apply State.beginSpill_keeps | split | with_reducible apply keeps_foldl | with_reducible apply keeps_foldl1 | with_reducible apply keeps_foldl2 | with_reducible apply keeps_foldl22 | intro _ | dsimp only | simp only [keeps_mk, keepsT_self])

theorem State.refill_keeps {s0 s : State} (h : Keeps s0 s) (h1 : Heap) (relaxed : Bool) (excl : List Nat) (fuel : Nat) : Keeps s0 (State.refill s h1 relaxed excl fuel) := by
  induction fuel generalizing s h1 relaxed excl with
  | zero =>
    unfold State.refill
    repeat' (first | with_reducible assumption | with_reducible apply State.takeVictim_keeps | split | with_reducible apply keeps_foldl | with_reducible apply keeps_foldl1 | with_reducible apply keeps_foldl2 | with_reducible apply keeps_foldl22 | intro _ | dsimp only | simp only [keeps_mk, keepsT_self])
  | succ k ih =>
    unfold State.refill
    repeat' (first | with_reducible assumption | with_reducible apply ih | with_reducible apply State.takeVictim_keeps | split | with_reducible apply keeps_foldl | with_reducible apply keeps_foldl1 | with_reducible apply keeps_foldl2 | with_reducible apply keeps_foldl22 | intro _ | dsimp only | simp only [keeps_mk, keepsT_self])

theorem State.searched_keeps {s0 s : State} (h : Keeps s0 s) (h1 : Heap) : Keeps s0 (State.searched s h1) := by
  unfold State.searched
  repeat' (first | with_reducible assumption | with_reducible apply State.flagIf_keeps | split | with_reducible apply keeps_foldl | with_reducible apply keeps_foldl1 | with_reducible apply keeps_foldl2 | with_reducible apply keeps_foldl22 | intro _ | dsimp only | simp only [keeps_mk, keepsT_self])

theorem State.water_keeps {s0 s : State} (h : Keeps s0 s) (h1 : Heap) (relaxed : Bool) (excl : List Nat) : Keeps s0 (State.water s h1 relaxed excl) := by
  unfold State.water
  repeat' (first | with_reducible assumption | with_reducible apply State.refill_keeps | with_reducible apply State.searched_keeps | split | with_reducible apply keeps_foldl | with_reducible apply keeps_foldl1 | with_reducible apply keeps_foldl2 | with_reducible apply keeps_foldl22 | intro _ | dsimp only | simp only [keeps_mk, keepsT_self])

theorem State.allocate_keeps {s0 s : State} (h : Keeps s0 s) (h1 : Heap) (taker : Nat) (relaxed : Bool) (excl : List Nat) : Keeps s0 (State.allocate s h1 taker relaxed excl).2 := by
  unfold State.allocate
  repeat' (first | with_reducible assumption | with_reducible apply State.takeVictim_keeps | with_reducible apply State.searched_keeps | split | with_reducible apply keeps_foldl | with_reducible apply keeps_foldl1 | with_reducible apply keeps_foldl2 | with_reducible apply keeps_foldl22 | intro _ | dsimp only | simp only [keeps_mk, keepsT_self])
theorem State.allocate_keeps_of {s0 s u : State} {h1 : Heap} {taker : Nat} {relaxed : Bool} {excl : List Nat} {x_} (e : (State.allocate s h1 taker relaxed excl) = (x_, u)) (h : Keeps s0 s) : Keeps s0 u := by
  have h2 := State.allocate_keeps h h1 taker relaxed excl
  rw [e] at h2; exact h2

theorem State.giveSlot_keeps {s0 s : State} (h : Keeps s0 s) (a : Nat) (k : Nat) : Keeps s0 (State.giveSlot s a k) := by
  unfold State.giveSlot
  repeat' (first | with_reducible assumption | with_reducible apply State.putDesc_keeps | split | with_reducible apply keeps_foldl | with_reducible apply keeps_foldl1 | with_reducible apply keeps_foldl2 | with_reducible apply keeps_foldl22 | intro _ | dsimp only | simp only [keeps_mk, keepsT_self])

theorem State.needSlot_keeps_of {s0 s t : State} {x : PageAt} {relaxed : Bool} {excl : List Nat} {k : Nat}
    (e : s.needSlot x relaxed excl = some (t, k)) (h : Keeps s0 s) : Keeps s0 t := by
  unfold State.needSlot at e
  dsimp only at e
  split at e
  · split at e
    · split at e
      · rename_i e2
        cases e
        exact State.water_keeps (State.giveSlot_keeps (State.allocate_keeps_of e2 h) _ _) _ _ _
      · rename_i e2
        cases e
        refine State.water_keeps ?_ _ _ _
        have := State.allocate_keeps_of e2 h
        repeat' (first | with_reducible assumption | with_reducible apply State.allocate_keeps | with_reducible apply State.water_keeps | with_reducible apply State.giveSlot_keeps | with_reducible refine State.allocate_keeps_of (by assumption) ?_ | split | with_reducible apply keeps_foldl | with_reducible apply keeps_foldl1 | with_reducible apply keeps_foldl2 | with_reducible apply keeps_foldl22 | intro _ | dsimp only | simp only [keeps_mk, keepsT_self])
      · cases e
    · cases e
  · cases e
    exact h


theorem State.needAll_keeps_of {s0 s t : State} {relaxed : Bool} {excl : List Nat} {xs : List PageAt} {k : Nat}
    (e : s.needAll relaxed excl xs = some (t, k)) (h : Keeps s0 s) : Keeps s0 t := by
  induction xs generalizing s t k with
  | nil =>
    cases e
    exact h
  | cons x xs ih =>
    unfold State.needAll at e
    split at e
    · rename_i u j e2
      cases e3 : u.needAll relaxed excl xs with
      | none => rw [e3] at e; cases e
      | some y =>
        rw [e3] at e
        cases e
        exact ih e3 (State.needSlot_keeps_of e2 h)
    · cases e


theorem State.allocFails_keeps {s0 s : State} (h : Keeps s0 s) (a : Nat) : Keeps s0 (State.allocFails s a) := by
  unfold State.allocFails
  repeat' (first | with_reducible assumption | with_reducible apply State.flag_keeps | split | with_reducible apply keeps_foldl | with_reducible apply keeps_foldl1 | with_reducible apply keeps_foldl2 | with_reducible apply keeps_foldl22 | intro _ | dsimp only | simp only [keeps_mk, keepsT_self])

theorem State.chooseAgain_keeps {s0 s : State} (h : Keeps s0 s) (h1 : Heap) (taker : Nat) (excl : List Nat) : Keeps s0 (State.chooseAgain s h1 taker excl) := by
  unfold State.chooseAgain
  repeat' (first | with_reducible assumption | with_reducible apply State.allocate_keeps | with_reducible apply State.giveSlot_keeps | with_reducible apply State.allocFails_keeps | with_reducible refine State.allocate_keeps_of (by assumption) ?_ | split | with_reducible apply keeps_foldl | with_reducible apply keeps_foldl1 | with_reducible apply keeps_foldl2 | with_reducible apply keeps_foldl22 | intro _ | dsimp only | simp only [keeps_mk, keepsT_self])

theorem State.rescue_keeps {s0 s : State} (h : Keeps s0 s) (c : Cmd) (excl : List Nat) (a : Nat) : Keeps s0 (State.rescue s c excl a) := by
  unfold State.rescue
  repeat' (first | with_reducible assumption | with_reducible apply State.putDesc_keeps | with_reducible apply State.refill_keeps | with_reducible apply State.chooseAgain_keeps | split | with_reducible apply keeps_foldl | with_reducible apply keeps_foldl1 | with_reducible apply keeps_foldl2 | with_reducible apply keeps_foldl22 | intro _ | dsimp only | simp only [keeps_mk, keepsT_self])

theorem State.syncSeq_keeps {s0 s : State} (h : Keeps s0 s) (c : Cmd) (a : Nat) : Keeps s0 (State.syncSeq s c a) := by
  unfold State.syncSeq
  repeat' (first | with_reducible assumption | with_reducible apply State.putSeq_keeps | split | with_reducible apply keeps_foldl | with_reducible apply keeps_foldl1 | with_reducible apply keeps_foldl2 | with_reducible apply keeps_foldl22 | intro _ | dsimp only | simp only [keeps_mk, keepsT_self])

theorem State.attnAdmit_keeps {s0 s : State} (h : Keeps s0 s) (c : Cmd) : Keeps s0 (s.attnAdmit c) := by
  unfold State.attnAdmit
  repeat' (first | with_reducible assumption | with_reducible refine State.needAll_keeps_of (by assumption) ?_ | with_reducible apply State.syncSeq_keeps | with_reducible apply State.rescue_keeps | with_reducible apply State.putSeq_keeps | with_reducible apply State.countNdc_keeps | with_reducible apply State.putCmd_keeps | split | with_reducible apply keeps_foldl | with_reducible apply keeps_foldl1 | with_reducible apply keeps_foldl2 | with_reducible apply keeps_foldl22 | intro _ | dsimp only | simp only [keeps_mk, keepsT_self])


theorem State.losePage_keeps {s0 s : State} (h : Keeps s0 s) (a : Nat) : Keeps s0 (State.losePage s a) := by
  unfold State.losePage
  repeat' (first | with_reducible assumption | with_reducible apply State.putDesc_keeps | with_reducible apply State.flag_keeps | split | with_reducible apply keeps_foldl | with_reducible apply keeps_foldl1 | with_reducible apply keeps_foldl2 | with_reducible apply keeps_foldl22 | intro _ | dsimp only | simp only [keeps_mk, keepsT_self])

theorem State.passSlot_keeps {s0 s : State} (h : Keeps s0 s) (x : Spill) : Keeps s0 (State.passSlot s x) := by
  unfold State.passSlot
  repeat' (first | with_reducible assumption | with_reducible apply State.giveSlot_keeps | split | with_reducible apply keeps_foldl | with_reducible apply keeps_foldl1 | with_reducible apply keeps_foldl2 | with_reducible apply keeps_foldl22 | intro _ | dsimp only | simp only [keeps_mk, keepsT_self])

theorem State.landPage_keeps {s0 s : State} (h : Keeps s0 s) (x : PageReturn) (h1 : Heap) (poisoned : Bool) : Keeps s0 (State.landPage s x h1 poisoned) := by
  unfold State.landPage
  repeat' (first | with_reducible assumption | with_reducible apply State.cisternLoad_keeps | with_reducible apply State.losePage_keeps | with_reducible apply State.putDesc_keeps | with_reducible apply State.store_keeps | with_reducible refine State.cisternLoad_keeps_of (by assumption) ?_ | split | with_reducible apply keeps_foldl | with_reducible apply keeps_foldl1 | with_reducible apply keeps_foldl2 | with_reducible apply keeps_foldl22 | intro _ | dsimp only | simp only [keeps_mk, keepsT_self])

theorem State.pageTimeout_keeps {s0 s : State} (h : Keeps s0 s) (a : Nat) : Keeps s0 (State.pageTimeout s a) := by
  unfold State.pageTimeout
  repeat' (first | with_reducible assumption | with_reducible apply State.losePage_keeps | with_reducible apply State.flag_keeps | split | with_reducible apply keeps_foldl | with_reducible apply keeps_foldl1 | with_reducible apply keeps_foldl2 | with_reducible apply keeps_foldl22 | intro _ | dsimp only | simp only [keeps_mk, keepsT_self])

theorem State.attnRegionLost_keeps {s0 s : State} (h : Keeps s0 s) (r : Region) : Keeps s0 (State.attnRegionLost s r) := by
  unfold State.attnRegionLost
  repeat' (first | with_reducible assumption | with_reducible apply State.passSlot_keeps | with_reducible apply State.losePage_keeps | split | with_reducible apply keeps_foldl | with_reducible apply keeps_foldl1 | with_reducible apply keeps_foldl2 | with_reducible apply keeps_foldl22 | intro _ | dsimp only | simp only [keeps_mk, keepsT_self])

theorem State.attnCtl_keeps {s0 s : State} (h : Keeps s0 s) (p : PartId) (q : QueId) (n : Nat) (k : CmdKind) (body : Cmd → State → State × List St)
    (hb : ∀ c t, Keeps s0 t → Keeps s0 (body c t).1) : Keeps s0 (s.attnCtl p q n k body) := by
  unfold State.attnCtl
  repeat' (first | with_reducible assumption | with_reducible apply hb | with_reducible apply State.startCmd_keeps | with_reducible apply State.ranCmd_keeps | with_reducible refine State.startCmd_keeps_of (by assumption) ?_ | split | with_reducible apply keeps_foldl | with_reducible apply keeps_foldl1 | with_reducible apply keeps_foldl2 | with_reducible apply keeps_foldl22 | intro _ | dsimp only | simp only [keeps_mk, keepsT_self])


theorem State.heapBody_keeps {s0 s : State} (h : Keeps s0 s) (c : Cmd) : Keeps s0 (State.heapBody c s).1 := by
  unfold State.heapBody
  repeat' (first | with_reducible assumption | split | with_reducible apply keeps_foldl | with_reducible apply keeps_foldl1 | with_reducible apply keeps_foldl2 | with_reducible apply keeps_foldl22 | intro _ | dsimp only | simp only [keeps_mk, keepsT_self])
theorem State.heapBody_keeps_of {s0 s u : State} {c : Cmd} {x_} (e : (State.heapBody c s) = (u, x_)) (h : Keeps s0 s) : Keeps s0 u := by
  have h2 := State.heapBody_keeps h c
  rw [e] at h2; exact h2

theorem State.seqOpenBody_keeps {s0 s : State} (h : Keeps s0 s) (c : Cmd) : Keeps s0 (State.seqOpenBody c s).1 := by
  unfold State.seqOpenBody
  repeat' (first | with_reducible assumption | with_reducible apply State.load_keeps | with_reducible apply State.flagIf_keeps | with_reducible refine State.load_keeps_of (by assumption) ?_ | split | with_reducible apply keeps_foldl | with_reducible apply keeps_foldl1 | with_reducible apply keeps_foldl2 | with_reducible apply keeps_foldl22 | intro _ | dsimp only | simp only [keeps_mk, keepsT_self])
theorem State.seqOpenBody_keeps_of {s0 s u : State} {c : Cmd} {x_} (e : (State.seqOpenBody c s) = (u, x_)) (h : Keeps s0 s) : Keeps s0 u := by
  have h2 := State.seqOpenBody_keeps h c
  rw [e] at h2; exact h2

theorem State.freePage_keeps {s0 s : State} (h : Keeps s0 s) (x : PageAt) : Keeps s0 (State.freePage s x) := by
  unfold State.freePage
  repeat' (first | with_reducible assumption | with_reducible apply State.putDesc_keeps | with_reducible apply State.passSlot_keeps | split | with_reducible apply keeps_foldl | with_reducible apply keeps_foldl1 | with_reducible apply keeps_foldl2 | with_reducible apply keeps_foldl22 | intro _ | dsimp only | simp only [keeps_mk, keepsT_self])

theorem State.freeing_keeps {s0 s : State} (h : Keeps s0 s) (p : PartId) (q : QueId) (n : Nat) (k : CmdKind) (pick : Cmd → Seq → List PageAt)
    (after : Seq → State → State) (ha : ∀ q t, Keeps s0 t → Keeps s0 (after q t)) : Keeps s0 (s.freeing p q n k pick after) := by
  unfold State.freeing
  repeat' (first | with_reducible assumption | with_reducible apply ha | with_reducible apply State.startCmd_keeps | with_reducible apply State.ranCmd_keeps | with_reducible apply State.flagIf_keeps | with_reducible apply State.freePage_keeps | with_reducible refine State.startCmd_keeps_of (by assumption) ?_ | split | with_reducible apply keeps_foldl | with_reducible apply keeps_foldl1 | with_reducible apply keeps_foldl2 | with_reducible apply keeps_foldl22 | intro _ | dsimp only | simp only [keeps_mk, keepsT_self])


theorem State.pinBody_keeps {s0 s : State} (h : Keeps s0 s) (on : Bool) (c : Cmd) : Keeps s0 (State.pinBody on c s).1 := by
  unfold State.pinBody
  repeat' (first | with_reducible assumption | with_reducible apply State.flagIf_keeps | with_reducible apply State.putDesc_keeps | split | with_reducible apply keeps_foldl | with_reducible apply keeps_foldl1 | with_reducible apply keeps_foldl2 | with_reducible apply keeps_foldl22 | intro _ | dsimp only | simp only [keeps_mk, keepsT_self])
theorem State.pinBody_keeps_of {s0 s u : State} {on : Bool} {c : Cmd} {x_} (e : (State.pinBody on c s) = (u, x_)) (h : Keeps s0 s) : Keeps s0 u := by
  have h2 := State.pinBody_keeps h on c
  rw [e] at h2; exact h2

theorem State.entryFlags_keeps {s0 s : State} (h : Keeps s0 s) (p : PartId) (st : St) : Keeps s0 (State.entryFlags s p st) := by
  unfold State.entryFlags
  repeat' (first | with_reducible assumption | with_reducible apply State.flag_keeps | with_reducible apply State.setPart_keeps | split | with_reducible apply keeps_foldl | with_reducible apply keeps_foldl1 | with_reducible apply keeps_foldl2 | with_reducible apply keeps_foldl22 | intro _ | dsimp only | simp only [keeps_mk, keepsT_self])

theorem State.checkEntries_keeps {s0 s : State} (h : Keeps s0 s) (c : Cmd) : Keeps s0 (State.checkEntries s c).1 := by
  unfold State.checkEntries
  repeat' (first | with_reducible assumption | with_reducible apply State.entryFlags_keeps | split | with_reducible apply keeps_foldl | with_reducible apply keeps_foldl1 | with_reducible apply keeps_foldl2 | with_reducible apply keeps_foldl22 | intro _ | dsimp only | simp only [keeps_mk, keepsT_self])
theorem State.checkEntries_keeps_of {s0 s u : State} {c : Cmd} {x_} (e : (State.checkEntries s c) = (u, x_)) (h : Keeps s0 s) : Keeps s0 u := by
  have h2 := State.checkEntries_keeps h c
  rw [e] at h2; exact h2

theorem State.attnReports_keeps {s0 s : State} (h : Keeps s0 s) (c : Cmd) (late : Bool) : Keeps s0 (State.attnReports s c late) := by
  unfold State.attnReports
  repeat' (first | with_reducible assumption | with_reducible apply State.strStore_keeps | split | with_reducible apply keeps_foldl | with_reducible apply keeps_foldl1 | with_reducible apply keeps_foldl2 | with_reducible apply keeps_foldl22 | intro _ | dsimp only | simp only [keeps_mk, keepsT_self])

theorem State.readRows_keeps {s0 s : State} (h : Keeps s0 s) (h1 : Hdr) (first : Nat) (n : Nat) (d : Nat) (total : Nat) : Keeps s0 (State.readRows s h1 first n d total).2 := by
  unfold State.readRows
  repeat' (first | with_reducible assumption | with_reducible apply State.readTbf_keeps | with_reducible refine State.readTbf_keeps_of (by assumption) ?_ | split | with_reducible apply keeps_foldl | with_reducible apply keeps_foldl1 | with_reducible apply keeps_foldl2 | with_reducible apply keeps_foldl22 | intro _ | dsimp only | simp only [keeps_mk, keepsT_self])
theorem State.readRows_keeps_of {s0 s u : State} {h1 : Hdr} {first : Nat} {n : Nat} {d : Nat} {total : Nat} {x_} (e : (State.readRows s h1 first n d total) = (x_, u)) (h : Keeps s0 s) : Keeps s0 u := by
  have h2 := State.readRows_keeps h h1 first n d total
  rw [e] at h2; exact h2

theorem State.appendRows_keeps {s0 s : State} (h : Keeps s0 s) (c : Cmd) (q : Seq) (k : Nat) (d : Nat) (hdr : Nat) (dataOff : Nat) (scaleOff : Nat) : Keeps s0 (State.appendRows s c q k d hdr dataOff scaleOff) := by
  unfold State.appendRows
  repeat' (first | with_reducible assumption | with_reducible apply State.readRows_keeps | with_reducible apply State.load_keeps | with_reducible apply State.store_keeps | with_reducible refine State.readRows_keeps_of (by assumption) ?_ | with_reducible refine State.load_keeps_of (by assumption) ?_ | split | with_reducible apply keeps_foldl | with_reducible apply keeps_foldl1 | with_reducible apply keeps_foldl2 | with_reducible apply keeps_foldl22 | intro _ | dsimp only | simp only [keeps_mk, keepsT_self])

theorem State.appendEntry_keeps {s0 s : State} (h : Keeps s0 s) (c : Cmd) (q : Seq) (k : Nat) (d : Nat) : Keeps s0 (State.appendEntry s c q k d) := by
  unfold State.appendEntry
  repeat' (first | with_reducible assumption | with_reducible apply State.appendRows_keeps | with_reducible apply State.putDesc_keeps | with_reducible apply State.storeB_keeps | with_reducible apply State.putSeq_keeps | split | with_reducible apply keeps_foldl | with_reducible apply keeps_foldl1 | with_reducible apply keeps_foldl2 | with_reducible apply keeps_foldl22 | intro _ | dsimp only | simp only [keeps_mk, keepsT_self])

theorem State.loadPage_keeps {s0 s : State} (h : Keeps s0 s) (x : PageAt) (h1 : Heap) (m : Met) : Keeps s0 (State.loadPage s x h1 m).2.2 := by
  unfold State.loadPage
  repeat' (first | with_reducible assumption | with_reducible apply State.readTbf_keeps | with_reducible refine State.readTbf_keeps_of (by assumption) ?_ | split | with_reducible apply keeps_foldl | with_reducible apply keeps_foldl1 | with_reducible apply keeps_foldl2 | with_reducible apply keeps_foldl22 | intro _ | dsimp only | simp only [keeps_mk, keepsT_self])
theorem State.loadPage_keeps_of {s0 s u : State} {x0 : PageAt} {h1 : Heap} {m : Met} {x_ y_} (e : (State.loadPage s x0 h1 m) = (x_, y_, u)) (h : Keeps s0 s) : Keeps s0 u := by
  have h2 := State.loadPage_keeps h x0 h1 m
  rw [e] at h2; exact h2

theorem State.loadPages_keeps {s0 s : State} (h : Keeps s0 s) (c : Cmd) (q : Seq) (h1 : Heap) (e : AEntry) (m : Met) : Keeps s0 (State.loadPages s c q h1 e m).2.2 := by
  unfold State.loadPages
  repeat' (first | with_reducible assumption | with_reducible apply State.loadPage_keeps | with_reducible refine State.loadPage_keeps_of (by assumption) ?_ | split | with_reducible apply keeps_foldl | with_reducible apply keeps_foldl1 | with_reducible apply keeps_foldl2 | with_reducible apply keeps_foldl22 | intro _ | dsimp only | simp only [keeps_mk, keepsT_self])
theorem State.loadPages_keeps_of {s0 s u : State} {c : Cmd} {q : Seq} {h1 : Heap} {e0 : AEntry} {m : Met} {x_ y_} (e : (State.loadPages s c q h1 e0 m) = (x_, y_, u)) (h : Keeps s0 s) : Keeps s0 u := by
  have h2 := State.loadPages_keeps h c q h1 e0 m
  rw [e] at h2; exact h2

theorem State.putY_keeps {s0 s : State} (h : Keeps s0 s) (c : Cmd) (d : Nat) (n : Nat) (root : Option Node) : Keeps s0 (State.putY s c d n root) := by
  unfold State.putY
  repeat' (first | with_reducible assumption | with_reducible apply State.storeB_keeps | with_reducible apply State.flag_keeps | with_reducible apply State.flagIf_keeps | split | with_reducible apply keeps_foldl | with_reducible apply keeps_foldl1 | with_reducible apply keeps_foldl2 | with_reducible apply keeps_foldl22 | intro _ | dsimp only | simp only [keeps_mk, keepsT_self])

theorem State.putNodes_keeps {s0 s : State} (h : Keeps s0 s) (c : Cmd) (d : Nat) (n : Nat) (q : Seq) (e : AEntry) (nodes : List (Option Node)) : Keeps s0 (State.putNodes s c d n q e nodes) := by
  unfold State.putNodes
  repeat' (first | with_reducible assumption | with_reducible apply State.storeB_keeps | split | with_reducible apply keeps_foldl | with_reducible apply keeps_foldl1 | with_reducible apply keeps_foldl2 | with_reducible apply keeps_foldl22 | intro _ | dsimp only | simp only [keeps_mk, keepsT_self])

theorem State.poisonEntry_keeps {s0 s : State} (h : Keeps s0 s) (c : Cmd) (d : Nat) (k : Nat) : Keeps s0 (State.poisonEntry s c d k) := by
  unfold State.poisonEntry
  repeat' (first | with_reducible assumption | with_reducible apply State.storeB_keeps | with_reducible apply State.poisonWrites_keeps | split | with_reducible apply keeps_foldl | with_reducible apply keeps_foldl1 | with_reducible apply keeps_foldl2 | with_reducible apply keeps_foldl22 | intro _ | dsimp only | simp only [keeps_mk, keepsT_self])

theorem State.newRows_keeps {s0 s : State} (h : Keeps s0 s) (c : Cmd) (e : AEntry) (hdr r d : Nat) : Keeps s0 (s.newRows c e hdr r d).2 := by
  unfold State.newRows
  split
  · exact State.readRows_keeps h _ _ _ _ _
  · exact h

theorem State.newRows_keeps_of {s0 s u : State} {c : Cmd} {e0 : AEntry} {hdr : Nat} {r : Nat} {d : Nat} {x_} (e : (State.newRows s c e0 hdr r d) = (x_, u)) (h : Keeps s0 s) : Keeps s0 u := by
  have h2 := State.newRows_keeps h c e0 hdr r d
  rw [e] at h2; exact h2

theorem State.appended_keeps {s0 s : State} (h : Keeps s0 s) (c : Cmd) (e : AEntry) (q : Seq) (k : Nat) (d : Nat) : Keeps s0 (State.appended s c e q k d) := by
  unfold State.appended
  repeat' (first | with_reducible assumption | with_reducible apply State.appendEntry_keeps | split | with_reducible apply keeps_foldl | with_reducible apply keeps_foldl1 | with_reducible apply keeps_foldl2 | with_reducible apply keeps_foldl22 | intro _ | dsimp only | simp only [keeps_mk, keepsT_self])

theorem State.attend_keeps {s0 s : State} (h : Keeps s0 s) (c : Cmd) (k : Nat) (d : Nat) (base : Nat) (q : Seq) (e : AEntry) (qo : Operand) (pages : List ((Nat × Nat) × PageVal)) (m : Met) : Keeps s0 (State.attend s c k d base q e qo pages m).1 := by
  unfold State.attend
  repeat' (first | with_reducible assumption | with_reducible apply State.poisonEntry_keeps | with_reducible apply State.flag_keeps | with_reducible apply State.putNodes_keeps | with_reducible apply State.putY_keeps | split | with_reducible apply keeps_foldl | with_reducible apply keeps_foldl1 | with_reducible apply keeps_foldl2 | with_reducible apply keeps_foldl22 | intro _ | dsimp only | simp only [keeps_mk, keepsT_self])
theorem State.attend_keeps_of {s0 s u : State} {c : Cmd} {k : Nat} {d : Nat} {base : Nat} {q : Seq} {e0 : AEntry} {qo : Operand} {pages : List ((Nat × Nat) × PageVal)} {m : Met} {x_} (e : (State.attend s c k d base q e0 qo pages m) = (u, x_)) (h : Keeps s0 s) : Keeps s0 u := by
  have h2 := State.attend_keeps h c k d base q e0 qo pages m
  rw [e] at h2; exact h2

theorem State.attnBusy_keeps {s0 s : State} (h : Keeps s0 s) (c : Cmd) (d : Nat) (h1 : Heap) (np : Nat) (rr : Nat) : Keeps s0 (State.attnBusy s c d h1 np rr) := by
  unfold State.attnBusy
  repeat' (first | with_reducible assumption | with_reducible apply State.vxBusy_keeps | with_reducible apply State.mxBusy_keeps | split | with_reducible apply keeps_foldl | with_reducible apply keeps_foldl1 | with_reducible apply keeps_foldl2 | with_reducible apply keeps_foldl22 | intro _ | dsimp only | simp only [keeps_mk, keepsT_self])

theorem State.runEntry_keeps {s0 s : State} (h : Keeps s0 s) (c : Cmd) (k : Nat) (d : Nat) : Keeps s0 (State.runEntry s c k d).1 := by
  unfold State.runEntry
  repeat' (first | with_reducible assumption | with_reducible apply State.newRows_keeps | with_reducible apply State.appended_keeps | with_reducible apply State.readRows_keeps | with_reducible apply State.loadPages_keeps | with_reducible apply State.meetFails_keeps | with_reducible apply State.attend_keeps | with_reducible apply State.attnBusy_keeps | with_reducible refine State.newRows_keeps_of (by assumption) ?_ | with_reducible refine State.readRows_keeps_of (by assumption) ?_ | with_reducible refine State.loadPages_keeps_of (by assumption) ?_ | with_reducible refine State.meetFails_keeps_of (by assumption) ?_ | with_reducible refine State.attend_keeps_of (by assumption) ?_ | split | with_reducible apply keeps_foldl | with_reducible apply keeps_foldl1 | with_reducible apply keeps_foldl2 | with_reducible apply keeps_foldl22 | intro _ | dsimp only | simp only [keeps_mk, keepsT_self])
theorem State.runEntry_keeps_of {s0 s u : State} {c : Cmd} {k : Nat} {d : Nat} {x_} (e : (State.runEntry s c k d) = (u, x_)) (h : Keeps s0 s) : Keeps s0 u := by
  have h2 := State.runEntry_keeps h c k d
  rw [e] at h2; exact h2

theorem State.combineEntry_keeps {s0 s : State} (h : Keeps s0 s) (c : Cmd) (k : Nat) (d : Nat) : Keeps s0 (State.combineEntry s c k d).1 := by
  unfold State.combineEntry
  repeat' (first | with_reducible assumption | with_reducible apply State.load_keeps | with_reducible apply State.vxBusy_keeps | with_reducible apply State.flag_keeps | with_reducible apply State.poisonEntry_keeps | with_reducible apply State.putY_keeps | with_reducible refine State.load_keeps_of (by assumption) ?_ | split | with_reducible apply keeps_foldl | with_reducible apply keeps_foldl1 | with_reducible apply keeps_foldl2 | with_reducible apply keeps_foldl22 | intro _ | dsimp only | simp only [keeps_mk, keepsT_self])
theorem State.combineEntry_keeps_of {s0 s u : State} {c : Cmd} {k : Nat} {d : Nat} {x_} (e : (State.combineEntry s c k d) = (u, x_)) (h : Keeps s0 s) : Keeps s0 u := by
  have h2 := State.combineEntry_keeps h c k d
  rw [e] at h2; exact h2

theorem State.lateAllocs_keeps {s0 s : State} (h : Keeps s0 s) (c : Cmd) : Keeps s0 (s.lateAllocs c).1 := by
  unfold State.lateAllocs
  repeat' (first | with_reducible assumption | with_reducible refine State.needAll_keeps_of (by assumption) ?_ | with_reducible apply State.flag_keeps | with_reducible apply State.countNdc_keeps | split | with_reducible apply keeps_foldl | with_reducible apply keeps_foldl1 | with_reducible apply keeps_foldl2 | with_reducible apply keeps_foldl22 | intro _ | dsimp only | simp only [keeps_mk, keepsT_self])

theorem State.lateAllocs_keeps_of {s0 s u : State} {c : Cmd} {x_} (e : (State.lateAllocs s c) = (u, x_)) (h : Keeps s0 s) : Keeps s0 u := by
  have h2 := State.lateAllocs_keeps h c
  rw [e] at h2; exact h2

theorem State.countWaits_keeps {s0 s : State} (h : Keeps s0 s) (c : Cmd) (xs : List PageAt) : Keeps s0 (State.countWaits s c xs) := by
  unfold State.countWaits
  repeat' (first | with_reducible assumption | with_reducible apply State.putCmd_keeps | split | with_reducible apply keeps_foldl | with_reducible apply keeps_foldl1 | with_reducible apply keeps_foldl2 | with_reducible apply keeps_foldl22 | intro _ | dsimp only | simp only [keeps_mk, keepsT_self])

theorem State.attnStep_keeps {s0 s : State} (h : Keeps s0 s) (p : PartId) (q : QueId) (n : Nat) (k : CmdKind) (flt : UnitFault) : Keeps s0 (State.attnStep s p q n k flt) := by
  unfold State.attnStep
  repeat' (first | with_reducible assumption | with_reducible apply State.startCmd_keeps | with_reducible apply State.ranCmd_keeps | with_reducible apply State.flagClosed_keeps | with_reducible apply State.poisonWrites_keeps | with_reducible apply State.flag_keeps | with_reducible apply State.lateAllocs_keeps | with_reducible apply State.countWaits_keeps | with_reducible apply State.combineEntry_keeps | with_reducible apply State.runEntry_keeps | with_reducible apply State.putCmd_keeps | with_reducible refine State.startCmd_keeps_of (by assumption) ?_ | with_reducible refine State.lateAllocs_keeps_of (by assumption) ?_ | with_reducible refine State.combineEntry_keeps_of (by assumption) ?_ | with_reducible refine State.runEntry_keeps_of (by assumption) ?_ | split | with_reducible apply keeps_foldl | with_reducible apply keeps_foldl1 | with_reducible apply keeps_foldl2 | with_reducible apply keeps_foldl22 | intro _ | dsimp only | simp only [keeps_mk, keepsT_self])

theorem State.attnClose_keeps {s0 s : State} (h : Keeps s0 s) (p : PartId) : Keeps s0 (State.attnClose s p) := by
  unfold State.attnClose
  repeat' (first | with_reducible assumption | split | with_reducible apply keeps_foldl | with_reducible apply keeps_foldl1 | with_reducible apply keeps_foldl2 | with_reducible apply keeps_foldl22 | intro _ | dsimp only | simp only [keeps_mk, keepsT_self])

theorem State.attnReset_keeps {s0 s : State} (h : Keeps s0 s)  : Keeps s0 (State.attnReset s) := by
  unfold State.attnReset
  repeat' (first | with_reducible assumption | split | with_reducible apply keeps_foldl | with_reducible apply keeps_foldl1 | with_reducible apply keeps_foldl2 | with_reducible apply keeps_foldl22 | intro _ | dsimp only | simp only [keeps_mk, keepsT_self])

theorem State.countDegenerate_keeps {s0 s : State} (h : Keeps s0 s) (c : Cmd) (g : List Byte) : Keeps s0 (State.countDegenerate s c g) := by
  unfold State.countDegenerate
  repeat' (first | with_reducible assumption | split | with_reducible apply keeps_foldl | with_reducible apply keeps_foldl1 | with_reducible apply keeps_foldl2 | with_reducible apply keeps_foldl22 | intro _ | dsimp only | simp only [keeps_mk, keepsT_self])

theorem State.putPlanes_keeps {s0 s : State} (h : Keeps s0 s) (k : ClusId) (h1 : Hdr) (b0 : Nat) (w : Nat) (rows : List (List W32)) : Keeps s0 (State.putPlanes s k h1 b0 w rows) := by
  unfold State.putPlanes
  repeat' (first | with_reducible assumption | with_reducible apply State.storeB_keeps | with_reducible apply State.flagIf_keeps | split | with_reducible apply keeps_foldl | with_reducible apply keeps_foldl1 | with_reducible apply keeps_foldl2 | with_reducible apply keeps_foldl22 | intro _ | dsimp only | simp only [keeps_mk, keepsT_self])

theorem State.convBody_keeps {s0 s : State} (h : Keeps s0 s) (c : Cmd) : Keeps s0 (State.convBody c s).1 := by
  unfold State.convBody
  repeat' (first | with_reducible assumption | with_reducible apply State.readOperand_keeps | with_reducible apply State.countDegenerate_keeps | with_reducible apply State.mxBusy_keeps | with_reducible apply State.meetFails_keeps | with_reducible apply State.readPlain_keeps | with_reducible apply State.flagIf_keeps | with_reducible apply State.progRow_keeps | with_reducible apply State.putPlanes_keeps | with_reducible refine State.readOperand_keeps_of (by assumption) ?_ | with_reducible refine State.meetFails_keeps_of (by assumption) ?_ | with_reducible refine State.readPlain_keeps_of (by assumption) ?_ | with_reducible refine State.progRow_keeps_of (by assumption) ?_ | split | with_reducible apply keeps_foldl | with_reducible apply keeps_foldl1 | with_reducible apply keeps_foldl2 | with_reducible apply keeps_foldl22 | intro _ | dsimp only | simp only [keeps_mk, keepsT_self])
theorem State.convBody_keeps_of {s0 s u : State} {c : Cmd} {x_} (e : (State.convBody c s) = (u, x_)) (h : Keeps s0 s) : Keeps s0 u := by
  have h2 := State.convBody_keeps h c
  rw [e] at h2; exact h2

theorem State.putPlain_keeps {s0 s : State} (h : Keeps s0 s) (k : ClusId) (h1 : Hdr) (w : Nat) (rows : List (List W32)) : Keeps s0 (State.putPlain s k h1 w rows) := by
  unfold State.putPlain
  repeat' (first | with_reducible assumption | with_reducible apply State.flagIf_keeps | with_reducible apply State.storeB_keeps | split | with_reducible apply keeps_foldl | with_reducible apply keeps_foldl1 | with_reducible apply keeps_foldl2 | with_reducible apply keeps_foldl22 | intro _ | dsimp only | simp only [keeps_mk, keepsT_self])

theorem State.poolBody_keeps {s0 s : State} (h : Keeps s0 s) (c : Cmd) : Keeps s0 (State.poolBody c s).1 := by
  unfold State.poolBody
  repeat' (first | with_reducible assumption | with_reducible apply State.readPlain_keeps | with_reducible apply State.vxBusy_keeps | with_reducible apply State.countDegenerate_keeps | with_reducible apply State.putPlain_keeps | with_reducible refine State.readPlain_keeps_of (by assumption) ?_ | split | with_reducible apply keeps_foldl | with_reducible apply keeps_foldl1 | with_reducible apply keeps_foldl2 | with_reducible apply keeps_foldl22 | intro _ | dsimp only | simp only [keeps_mk, keepsT_self])
theorem State.poolBody_keeps_of {s0 s u : State} {c : Cmd} {x_} (e : (State.poolBody c s) = (u, x_)) (h : Keeps s0 s) : Keeps s0 u := by
  have h2 := State.poolBody_keeps h c
  rw [e] at h2; exact h2

theorem State.cropBody_keeps {s0 s : State} (h : Keeps s0 s) (c : Cmd) : Keeps s0 (State.cropBody c s).1 := by
  unfold State.cropBody
  repeat' (first | with_reducible assumption | with_reducible apply State.readPlain_keeps | with_reducible apply State.load_keeps | with_reducible apply State.vxBusy_keeps | with_reducible apply State.putPlain_keeps | with_reducible refine State.readPlain_keeps_of (by assumption) ?_ | with_reducible refine State.load_keeps_of (by assumption) ?_ | split | with_reducible apply keeps_foldl | with_reducible apply keeps_foldl1 | with_reducible apply keeps_foldl2 | with_reducible apply keeps_foldl22 | intro _ | dsimp only | simp only [keeps_mk, keepsT_self])
theorem State.cropBody_keeps_of {s0 s u : State} {c : Cmd} {x_} (e : (State.cropBody c s) = (u, x_)) (h : Keeps s0 s) : Keeps s0 u := by
  have h2 := State.cropBody_keeps h c
  rw [e] at h2; exact h2

theorem State.readBits_keeps {s0 s : State} (h : Keeps s0 s) (base : Nat) (sz : Nat) (rows : Nat) (k : Nat) : Keeps s0 (State.readBits s base sz rows k).2.2 := by
  unfold State.readBits
  repeat' (first | with_reducible assumption | with_reducible apply State.load_keeps | with_reducible refine State.load_keeps_of (by assumption) ?_ | split | with_reducible apply keeps_foldl | with_reducible apply keeps_foldl1 | with_reducible apply keeps_foldl2 | with_reducible apply keeps_foldl22 | intro _ | dsimp only | simp only [keeps_mk, keepsT_self])
theorem State.readBits_keeps_of {s0 s u : State} {base : Nat} {sz : Nat} {rows : Nat} {k : Nat} {x_ y_} (e : (State.readBits s base sz rows k) = (x_, y_, u)) (h : Keeps s0 s) : Keeps s0 u := by
  have h2 := State.readBits_keeps h base sz rows k
  rw [e] at h2; exact h2

theorem State.sdMake_keeps {s0 s : State} (h : Keeps s0 s) (c : Cmd) : Keeps s0 (State.sdMake s c).2 := by
  unfold State.sdMake
  repeat' (first | with_reducible assumption | with_reducible apply State.readTbf_keeps | with_reducible apply State.readBits_keeps | with_reducible refine State.readTbf_keeps_of (by assumption) ?_ | with_reducible refine State.readBits_keeps_of (by assumption) ?_ | split | with_reducible apply keeps_foldl | with_reducible apply keeps_foldl1 | with_reducible apply keeps_foldl2 | with_reducible apply keeps_foldl22 | intro _ | dsimp only | simp only [keeps_mk, keepsT_self])
theorem State.sdMake_keeps_of {s0 s u : State} {c : Cmd} {x_} (e : (State.sdMake s c) = (x_, u)) (h : Keeps s0 s) : Keeps s0 u := by
  have h2 := State.sdMake_keeps h c
  rw [e] at h2; exact h2

theorem State.sdCore_keeps {s0 s : State} (h : Keeps s0 s) (c : Cmd) : Keeps s0 (State.sdCore c s).1 := by
  unfold State.sdCore
  repeat' (first | with_reducible assumption | with_reducible apply State.sdMake_keeps | with_reducible apply State.meetFails_keeps | with_reducible apply State.vxBusy_keeps | with_reducible apply State.storeB_keeps | with_reducible apply State.flagIf_keeps | with_reducible refine State.sdMake_keeps_of (by assumption) ?_ | with_reducible refine State.meetFails_keeps_of (by assumption) ?_ | split | with_reducible apply keeps_foldl | with_reducible apply keeps_foldl1 | with_reducible apply keeps_foldl2 | with_reducible apply keeps_foldl22 | intro _ | dsimp only | simp only [keeps_mk, keepsT_self])
theorem State.sdCore_keeps_of {s0 s u : State} {c : Cmd} {x_} (e : (State.sdCore c s) = (u, x_)) (h : Keeps s0 s) : Keeps s0 u := by
  have h2 := State.sdCore_keeps h c
  rw [e] at h2; exact h2

theorem State.cutOps_keeps {s0 s : State} (h : Keeps s0 s) (c : Cmd) : Keeps s0 (State.cutOps s c) := by
  unfold State.cutOps
  repeat' (first | with_reducible assumption | with_reducible apply State.endOp_keeps | split | with_reducible apply keeps_foldl | with_reducible apply keeps_foldl1 | with_reducible apply keeps_foldl2 | with_reducible apply keeps_foldl22 | intro _ | dsimp only | simp only [keeps_mk, keepsT_self])

theorem State.sdEnd_keeps {s0 s : State} (h : Keeps s0 s) (c : Cmd) (conds : List St) : Keeps s0 (State.sdEnd s c conds).1 := by
  unfold State.sdEnd
  repeat' (first | with_reducible assumption | with_reducible apply State.poisonWrites_keeps | split | with_reducible apply keeps_foldl | with_reducible apply keeps_foldl1 | with_reducible apply keeps_foldl2 | with_reducible apply keeps_foldl22 | intro _ | dsimp only | simp only [keeps_mk, keepsT_self])
theorem State.sdEnd_keeps_of {s0 s u : State} {c : Cmd} {conds : List St} {x_} (e : (State.sdEnd s c conds) = (u, x_)) (h : Keeps s0 s) : Keeps s0 u := by
  have h2 := State.sdEnd_keeps h c conds
  rw [e] at h2; exact h2

theorem State.sdPut_keeps {s0 s : State} (h : Keeps s0 s) (d : Die) (c : Cmd) : Keeps s0 (State.sdPut s d c).1 := by
  unfold State.sdPut
  repeat' (first | with_reducible assumption | with_reducible apply State.sdMake_keeps | with_reducible apply State.flagIf_keeps | with_reducible apply State.pickFails_keeps | with_reducible apply State.sdEnd_keeps | with_reducible apply State.makeOps_keeps | with_reducible apply State.newOp_keeps | with_reducible refine State.sdMake_keeps_of (by assumption) ?_ | with_reducible refine State.pickFails_keeps_of (by assumption) ?_ | with_reducible refine State.sdEnd_keeps_of (by assumption) ?_ | with_reducible refine State.makeOps_keeps_of (by assumption) ?_ | with_reducible refine State.makeOps_keeps_of (by assumption) ?_ ?_ | split | with_reducible apply keeps_foldl | with_reducible apply keeps_foldl1 | with_reducible apply keeps_foldl2 | with_reducible apply keeps_foldl22 | intro _ | dsimp only | simp only [keeps_mk, keepsT_self])
theorem State.sdPut_keeps_of {s0 s u : State} {d : Die} {c : Cmd} {x_} (e : (State.sdPut s d c) = (u, x_)) (h : Keeps s0 s) : Keeps s0 u := by
  have h2 := State.sdPut_keeps h d c
  rw [e] at h2; exact h2

theorem State.sdWork_keeps {s0 s : State} (h : Keeps s0 s) (d : Die) (flt : UnitFault) (c : Cmd) : Keeps s0 (State.sdWork s d flt c).1 := by
  unfold State.sdWork
  repeat' (first | with_reducible assumption | with_reducible apply State.sdEnd_keeps | with_reducible apply State.cutOps_keeps | with_reducible apply State.flag_keeps | with_reducible apply State.makeOps_keeps | with_reducible apply State.newOp_keeps | with_reducible apply State.sdPut_keeps | with_reducible refine State.sdEnd_keeps_of (by assumption) ?_ | with_reducible refine State.makeOps_keeps_of (by assumption) ?_ | with_reducible refine State.sdPut_keeps_of (by assumption) ?_ | with_reducible refine State.makeOps_keeps_of (by assumption) ?_ ?_ | split | with_reducible apply keeps_foldl | with_reducible apply keeps_foldl1 | with_reducible apply keeps_foldl2 | with_reducible apply keeps_foldl22 | intro _ | dsimp only | simp only [keeps_mk, keepsT_self])
theorem State.sdWork_keeps_of {s0 s u : State} {d : Die} {flt : UnitFault} {c : Cmd} {x_} (e : (State.sdWork s d flt c) = (u, x_)) (h : Keeps s0 s) : Keeps s0 u := by
  have h2 := State.sdWork_keeps h d flt c
  rw [e] at h2; exact h2

theorem State.sdRow_keeps {s0 s : State} (h : Keeps s0 s) (p : PartId) (q : QueId) (n : Nat) (k : CmdKind) (flt : UnitFault) : Keeps s0 (State.sdRow s p q n k flt) := by
  unfold State.sdRow
  repeat' (first | with_reducible assumption | with_reducible apply State.startCmd_keeps | with_reducible apply State.sdWork_keeps | with_reducible apply State.putCmd_keeps | with_reducible apply State.runCmd_keeps | with_reducible apply State.engineRun_keeps | with_reducible apply State.sdCore_keeps | with_reducible refine State.startCmd_keeps_of (by assumption) ?_ | with_reducible refine State.sdWork_keeps_of (by assumption) ?_ | with_reducible refine State.engineRun_keeps_of (by assumption) ?_ | with_reducible refine State.sdCore_keeps_of (by assumption) ?_ | split | with_reducible apply keeps_foldl | with_reducible apply keeps_foldl1 | with_reducible apply keeps_foldl2 | with_reducible apply keeps_foldl22 | intro _ | dsimp only | simp only [keeps_mk, keepsT_self])

theorem State.frcEncodeBody_keeps {s0 s : State} (h : Keeps s0 s) (c : Cmd) : Keeps s0 (State.frcEncodeBody c s).1 := by
  unfold State.frcEncodeBody
  repeat' (first | with_reducible assumption | with_reducible apply State.readTbf_keeps | with_reducible apply State.meetFails_keeps | with_reducible apply State.storeB_keeps | with_reducible refine State.readTbf_keeps_of (by assumption) ?_ | with_reducible refine State.meetFails_keeps_of (by assumption) ?_ | split | with_reducible apply keeps_foldl | with_reducible apply keeps_foldl1 | with_reducible apply keeps_foldl2 | with_reducible apply keeps_foldl22 | intro _ | dsimp only | simp only [keeps_mk, keepsT_self])
theorem State.frcEncodeBody_keeps_of {s0 s u : State} {c : Cmd} {x_} (e : (State.frcEncodeBody c s) = (u, x_)) (h : Keeps s0 s) : Keeps s0 u := by
  have h2 := State.frcEncodeBody_keeps h c
  rw [e] at h2; exact h2

theorem State.frcDecodeBody_keeps {s0 s : State} (h : Keeps s0 s) (c : Cmd) : Keeps s0 (State.frcDecodeBody c s).1 := by
  unfold State.frcDecodeBody
  repeat' (first | with_reducible assumption | with_reducible apply State.load_keeps | with_reducible apply State.countFail_keeps | with_reducible apply State.storeB_keeps | with_reducible refine State.load_keeps_of (by assumption) ?_ | split | with_reducible apply keeps_foldl | with_reducible apply keeps_foldl1 | with_reducible apply keeps_foldl2 | with_reducible apply keeps_foldl22 | intro _ | dsimp only | simp only [keeps_mk, keepsT_self])
theorem State.frcDecodeBody_keeps_of {s0 s u : State} {c : Cmd} {x_} (e : (State.frcDecodeBody c s) = (u, x_)) (h : Keeps s0 s) : Keeps s0 u := by
  have h2 := State.frcDecodeBody_keeps h c
  rw [e] at h2; exact h2

theorem State.frcBody_keeps {s0 s : State} (h : Keeps s0 s) (c : Cmd) : Keeps s0 (State.frcBody c s).1 := by
  unfold State.frcBody
  repeat' (first | with_reducible assumption | with_reducible apply State.frcDecodeBody_keeps | with_reducible apply State.frcEncodeBody_keeps | with_reducible apply State.vxBusy_keeps | with_reducible refine State.frcDecodeBody_keeps_of (by assumption) ?_ | with_reducible refine State.frcEncodeBody_keeps_of (by assumption) ?_ | split | with_reducible apply keeps_foldl | with_reducible apply keeps_foldl1 | with_reducible apply keeps_foldl2 | with_reducible apply keeps_foldl22 | intro _ | dsimp only | simp only [keeps_mk, keepsT_self])
theorem State.frcBody_keeps_of {s0 s u : State} {c : Cmd} {x_} (e : (State.frcBody c s) = (u, x_)) (h : Keeps s0 s) : Keeps s0 u := by
  have h2 := State.frcBody_keeps h c
  rw [e] at h2; exact h2

theorem State.pumpStore_keeps {s0 s : State} (h : Keeps s0 s) (a : Nat) (bs : List Byte) : Keeps s0 (State.pumpStore s a bs) := by
  unfold State.pumpStore
  repeat' (first | with_reducible assumption | with_reducible apply State.writeAt_keeps | split | with_reducible apply keeps_foldl | with_reducible apply keeps_foldl1 | with_reducible apply keeps_foldl2 | with_reducible apply keeps_foldl22 | intro _ | dsimp only | simp only [keeps_mk, keepsT_self])

theorem State.quantRun_keeps {s0 s : State} (h : Keeps s0 s) (body : Cmd → State → State × List St) (c : Cmd)
    (hb : ∀ c t, Keeps s0 t → Keeps s0 (body c t).1) : Keeps s0 (State.quantRun body c s).1 := by
  unfold State.quantRun
  repeat' (first | with_reducible assumption | with_reducible apply State.engineRun_keeps | with_reducible refine State.engineRun_keeps_of (by assumption) ?_ | split | with_reducible apply keeps_foldl | with_reducible apply keeps_foldl1 | with_reducible apply keeps_foldl2 | with_reducible apply keeps_foldl22 | intro _ | dsimp only | simp only [keeps_mk, keepsT_self])


theorem State.srcAll_keeps {s0 s : State} (h : Keeps s0 s) (base : Nat) (k : Nat) (fmt : Nat) (b : Nat) (n : Nat) : Keeps s0 (State.srcAll s base k fmt b n).2.2 := by
  unfold State.srcAll
  repeat' (first | with_reducible assumption | with_reducible apply State.readAt_keeps | with_reducible refine State.readAt_keeps_of (by assumption) ?_ | split | with_reducible apply keeps_foldl | with_reducible apply keeps_foldl1 | with_reducible apply keeps_foldl2 | with_reducible apply keeps_foldl22 | intro _ | dsimp only | simp only [keeps_mk, keepsT_self])
theorem State.srcAll_keeps_of {s0 s u : State} {base : Nat} {k : Nat} {fmt : Nat} {b : Nat} {n : Nat} {x_ y_} (e : (State.srcAll s base k fmt b n) = (x_, y_, u)) (h : Keeps s0 s) : Keeps s0 u := by
  have h2 := State.srcAll_keeps h base k fmt b n
  rw [e] at h2; exact h2

theorem State.qscanBody_keeps {s0 s : State} (h : Keeps s0 s) (c : Cmd) : Keeps s0 (State.qscanBody c s).1 := by
  unfold State.qscanBody
  repeat' (first | with_reducible assumption | with_reducible apply State.srcAll_keeps | with_reducible apply State.flagIf_keeps | with_reducible apply State.pumpStore_keeps | with_reducible refine State.srcAll_keeps_of (by assumption) ?_ | split | with_reducible apply keeps_foldl | with_reducible apply keeps_foldl1 | with_reducible apply keeps_foldl2 | with_reducible apply keeps_foldl22 | intro _ | dsimp only | simp only [keeps_mk, keepsT_self])
theorem State.qscanBody_keeps_of {s0 s u : State} {c : Cmd} {x_} (e : (State.qscanBody c s) = (u, x_)) (h : Keeps s0 s) : Keeps s0 u := by
  have h2 := State.qscanBody_keeps h c
  rw [e] at h2; exact h2

theorem State.writeFrames_keeps {s0 s : State} (h : Keeps s0 s) (h1 : Hdr) (f : Nat) (pos : Nat) (z4 : List (List ConvBlock)) : Keeps s0 (State.writeFrames s h1 f pos z4) := by
  induction z4 generalizing s h1 f pos with
  | nil =>
    unfold State.writeFrames
    repeat' (first | with_reducible assumption | with_reducible apply State.pumpStore_keeps | split | with_reducible apply keeps_foldl | with_reducible apply keeps_foldl1 | with_reducible apply keeps_foldl2 | with_reducible apply keeps_foldl22 | intro _ | dsimp only | simp only [keeps_mk, keepsT_self])
  | cons x xs ih =>
    unfold State.writeFrames
    repeat' (first | with_reducible assumption | with_reducible apply ih | with_reducible apply State.pumpStore_keeps | split | with_reducible apply keeps_foldl | with_reducible apply keeps_foldl1 | with_reducible apply keeps_foldl2 | with_reducible apply keeps_foldl22 | intro _ | dsimp only | simp only [keeps_mk, keepsT_self])

theorem State.qconvBody_keeps {s0 s : State} (h : Keeps s0 s) (c : Cmd) : Keeps s0 (State.qconvBody c s).1 := by
  unfold State.qconvBody
  repeat' (first | with_reducible assumption | with_reducible apply State.readAt_keeps | with_reducible apply State.srcAll_keeps | with_reducible apply State.writeFrames_keeps | with_reducible apply State.flagIf_keeps | with_reducible refine State.readAt_keeps_of (by assumption) ?_ | with_reducible refine State.srcAll_keeps_of (by assumption) ?_ | split | with_reducible apply keeps_foldl | with_reducible apply keeps_foldl1 | with_reducible apply keeps_foldl2 | with_reducible apply keeps_foldl22 | intro _ | dsimp only | simp only [keeps_mk, keepsT_self])
theorem State.qconvBody_keeps_of {s0 s u : State} {c : Cmd} {x_} (e : (State.qconvBody c s) = (u, x_)) (h : Keeps s0 s) : Keeps s0 u := by
  have h2 := State.qconvBody_keeps h c
  rw [e] at h2; exact h2

theorem State.adaptBlock_keeps {s0 s : State} (h : Keeps s0 s) (c : Cmd) (b : List Byte) (h1 : Nat → Hdr) (w : Nat) (fwd : Option Hdr) (i : Nat) (jb : Nat) (g : List W32) (m0 : List W32) (z9 : List W32) (w0 : List W32) : Keeps s0 (State.adaptBlock c b h1 w fwd i jb g m0 z9 w0 s) := by
  unfold State.adaptBlock
  repeat' (first | with_reducible assumption | with_reducible apply State.flag_keeps | with_reducible apply State.storeB_keeps | with_reducible apply State.flagIf_keeps | split | with_reducible apply keeps_foldl | with_reducible apply keeps_foldl1 | with_reducible apply keeps_foldl2 | with_reducible apply keeps_foldl22 | intro _ | dsimp only | simp only [keeps_mk, keepsT_self])

theorem State.adaptBody_keeps {s0 s : State} (h : Keeps s0 s) (c : Cmd) : Keeps s0 (State.adaptBody c s).1 := by
  unfold State.adaptBody
  repeat' (first | with_reducible assumption | with_reducible apply State.readTbf_keeps | with_reducible apply State.readPlain_keeps | with_reducible apply State.flagIf_keeps | with_reducible apply State.vxBusy_keeps | with_reducible apply State.mxBusy_keeps | with_reducible apply State.meetFails_keeps | with_reducible apply State.adaptBlock_keeps | with_reducible refine State.readTbf_keeps_of (by assumption) ?_ | with_reducible refine State.readPlain_keeps_of (by assumption) ?_ | with_reducible refine State.meetFails_keeps_of (by assumption) ?_ | split | with_reducible apply keeps_foldl | with_reducible apply keeps_foldl1 | with_reducible apply keeps_foldl2 | with_reducible apply keeps_foldl22 | intro _ | dsimp only | simp only [keeps_mk, keepsT_self])
theorem State.adaptBody_keeps_of {s0 s u : State} {c : Cmd} {x_} (e : (State.adaptBody c s) = (u, x_)) (h : Keeps s0 s) : Keeps s0 u := by
  have h2 := State.adaptBody_keeps h c
  rw [e] at h2; exact h2

theorem State.setPipe_keeps {s0 s : State} (h : Keeps s0 s) (i : PipeId) (x : Pipe) : Keeps s0 (State.setPipe s i x) := by
  unfold State.setPipe
  repeat' (first | with_reducible assumption | split | with_reducible apply keeps_foldl | with_reducible apply keeps_foldl1 | with_reducible apply keeps_foldl2 | with_reducible apply keeps_foldl22 | intro _ | dsimp only | simp only [keeps_mk, keepsT_self])

theorem State.stopPipe_keeps {s0 s : State} (h : Keeps s0 s) (i : PipeId) : Keeps s0 (State.stopPipe s i) := by
  unfold State.stopPipe
  repeat' (first | with_reducible assumption | with_reducible apply State.setPipe_keeps | split | with_reducible apply keeps_foldl | with_reducible apply keeps_foldl1 | with_reducible apply keeps_foldl2 | with_reducible apply keeps_foldl22 | intro _ | dsimp only | simp only [keeps_mk, keepsT_self])

theorem State.pipeLoad_keeps {s0 s : State} (h : Keeps s0 s) (p : Port) (i : PipeId) : Keeps s0 (State.pipeLoad s p i) := by
  unfold State.pipeLoad
  repeat' (first | with_reducible assumption | with_reducible apply State.flag_keeps | with_reducible apply State.stopPipe_keeps | with_reducible apply State.readBlock_keeps | with_reducible apply State.setPipe_keeps | with_reducible refine State.readBlock_keeps_of (by assumption) ?_ | split | with_reducible apply keeps_foldl | with_reducible apply keeps_foldl1 | with_reducible apply keeps_foldl2 | with_reducible apply keeps_foldl22 | intro _ | dsimp only | simp only [keeps_mk, keepsT_self])

theorem State.pipeOff_keeps {s0 s : State} (h : Keeps s0 s) (p : Port) (i : PipeId) : Keeps s0 (State.pipeOff s p i) := by
  unfold State.pipeOff
  repeat' (first | with_reducible assumption | with_reducible apply State.flag_keeps | with_reducible apply State.stopPipe_keeps | split | with_reducible apply keeps_foldl | with_reducible apply keeps_foldl1 | with_reducible apply keeps_foldl2 | with_reducible apply keeps_foldl22 | intro _ | dsimp only | simp only [keeps_mk, keepsT_self])

theorem State.judge_keeps {s0 s : State} (h : Keeps s0 s) (x : Pipe) (j : Job) (run : SampleRun) (budget : Option Nat) : Keeps s0 (State.judge s x j run budget).2 := by
  unfold State.judge
  repeat' (first | with_reducible assumption | with_reducible apply State.devLoad_keeps | with_reducible refine State.devLoad_keeps_of (by assumption) ?_ | split | with_reducible apply keeps_foldl | with_reducible apply keeps_foldl1 | with_reducible apply keeps_foldl2 | with_reducible apply keeps_foldl22 | intro _ | dsimp only | simp only [keeps_mk, keepsT_self])
theorem State.judge_keeps_of {s0 s u : State} {x0 : Pipe} {j : Job} {run : SampleRun} {budget : Option Nat} {x_} (e : (State.judge s x0 j run budget) = (x_, u)) (h : Keeps s0 s) : Keeps s0 u := by
  have h2 := State.judge_keeps h x0 j run budget
  rw [e] at h2; exact h2

theorem State.putSlot_keeps {s0 s : State} (h : Keeps s0 s) (i : PipeId) (pos : Nat) (bs : List PByte) : Keeps s0 (State.putSlot s i pos bs) := by
  unfold State.putSlot
  repeat' (first | with_reducible assumption | with_reducible apply State.ioAdd_keeps | split | with_reducible apply keeps_foldl | with_reducible apply keeps_foldl1 | with_reducible apply keeps_foldl2 | with_reducible apply keeps_foldl22 | intro _ | dsimp only | simp only [keeps_mk, keepsT_self])

theorem State.countSample_keeps {s0 s : State} (h : Keeps s0 s) (d : Die) (st : St) : Keeps s0 (State.countSample s d st) := by
  unfold State.countSample
  repeat' (first | with_reducible assumption | split | with_reducible apply keeps_foldl | with_reducible apply keeps_foldl1 | with_reducible apply keeps_foldl2 | with_reducible apply keeps_foldl22 | intro _ | dsimp only | simp only [keeps_mk, keepsT_self])

theorem State.decide__keeps {s0 s : State} (h : Keeps s0 s) (i : PipeId) (j : Job) (run : SampleRun) : Keeps s0 (State.decide_ s i j run) := by
  unfold State.decide_
  repeat' (first | with_reducible assumption | with_reducible apply State.judge_keeps | with_reducible apply State.putSlot_keeps | with_reducible apply State.poisonRange_keeps | with_reducible apply State.setPipe_keeps | with_reducible apply State.flag_keeps | with_reducible apply State.countSample_keeps | with_reducible refine State.judge_keeps_of (by assumption) ?_ | split | with_reducible apply keeps_foldl | with_reducible apply keeps_foldl1 | with_reducible apply keeps_foldl2 | with_reducible apply keeps_foldl22 | intro _ | dsimp only | simp only [keeps_mk, keepsT_self])

theorem State.decideAll_keeps {s0 s : State} (h : Keeps s0 s) (i : PipeId) (fuel : Nat) : Keeps s0 (State.decideAll s i fuel) := by
  induction fuel generalizing s i with
  | zero =>
    unfold State.decideAll
    repeat' (first | with_reducible assumption | with_reducible apply State.decide__keeps | split | with_reducible apply keeps_foldl | with_reducible apply keeps_foldl1 | with_reducible apply keeps_foldl2 | with_reducible apply keeps_foldl22 | intro _ | dsimp only | simp only [keeps_mk, keepsT_self])
  | succ k ih =>
    unfold State.decideAll
    repeat' (first | with_reducible assumption | with_reducible apply ih | with_reducible apply State.decide__keeps | split | with_reducible apply keeps_foldl | with_reducible apply keeps_foldl1 | with_reducible apply keeps_foldl2 | with_reducible apply keeps_foldl22 | intro _ | dsimp only | simp only [keeps_mk, keepsT_self])

theorem State.throughWith_keeps {s0 s : State} (h : Keeps s0 s) (i : PipeId) (pos : Nat) (cycles : Nat) (overrun : Bool) : Keeps s0 (State.throughWith s i pos cycles overrun) := by
  unfold State.throughWith
  repeat' (first | with_reducible assumption | with_reducible apply State.judge_keeps | with_reducible apply State.setPipe_keeps | with_reducible apply State.decideAll_keeps | with_reducible apply State.countNdc_keeps | with_reducible refine State.judge_keeps_of (by assumption) ?_ | split | with_reducible apply keeps_foldl | with_reducible apply keeps_foldl1 | with_reducible apply keeps_foldl2 | with_reducible apply keeps_foldl22 | intro _ | dsimp only | simp only [keeps_mk, keepsT_self])

theorem State.releaseReport_keeps {s0 s : State} (h : Keeps s0 s) (i : PipeId) (pos : Nat) (rep : List Byte) : Keeps s0 (State.releaseReport s i pos rep) := by
  unfold State.releaseReport
  repeat' (first | with_reducible assumption | with_reducible apply State.ioAdd_keeps | split | with_reducible apply keeps_foldl | with_reducible apply keeps_foldl1 | with_reducible apply keeps_foldl2 | with_reducible apply keeps_foldl22 | intro _ | dsimp only | simp only [keeps_mk, keepsT_self])

theorem State.endSample_keeps {s0 s : State} (h : Keeps s0 s) (i : PipeId) (j : Job) (st : St) (r : SampleRun) : Keeps s0 (State.endSample s i j st r) := by
  unfold State.endSample
  repeat' (first | with_reducible assumption | with_reducible apply State.releaseReport_keeps | with_reducible apply State.setPipe_keeps | with_reducible apply State.devLoad_keeps | with_reducible refine State.devLoad_keeps_of (by assumption) ?_ | split | with_reducible apply keeps_foldl | with_reducible apply keeps_foldl1 | with_reducible apply keeps_foldl2 | with_reducible apply keeps_foldl22 | intro _ | dsimp only | simp only [keeps_mk, keepsT_self])

theorem State.endPipe_keeps {s0 s : State} (h : Keeps s0 s) (i : PipeId) (st : St) (after : PipeState) : Keeps s0 (State.endPipe s i st after) := by
  unfold State.endPipe
  repeat' (first | with_reducible assumption | with_reducible apply State.endSample_keeps | with_reducible apply State.setPipe_keeps | split | with_reducible apply keeps_foldl | with_reducible apply keeps_foldl1 | with_reducible apply keeps_foldl2 | with_reducible apply keeps_foldl22 | intro _ | dsimp only | simp only [keeps_mk, keepsT_self])

theorem State.recFence_keeps {s0 s : State} (h : Keeps s0 s) (d : Die) : Keeps s0 (State.recFence s d) := by
  unfold State.recFence
  repeat' (first | with_reducible assumption | with_reducible apply State.endPipe_keeps | split | with_reducible apply keeps_foldl | with_reducible apply keeps_foldl1 | with_reducible apply keeps_foldl2 | with_reducible apply keeps_foldl22 | intro _ | dsimp only | simp only [keeps_mk, keepsT_self])

theorem State.recReturn_keeps {s0 s : State} (h : Keeps s0 s) (d : Die) : Keeps s0 (State.recReturn s d) := by
  unfold State.recReturn
  repeat' (first | with_reducible assumption | with_reducible apply State.stopPipe_keeps | split | with_reducible apply keeps_foldl | with_reducible apply keeps_foldl1 | with_reducible apply keeps_foldl2 | with_reducible apply keeps_foldl22 | intro _ | dsimp only | simp only [keeps_mk, keepsT_self])

theorem State.recEngineReset_keeps {s0 s : State} (h : Keeps s0 s) (d : Die) : Keeps s0 (State.recEngineReset s d) := by
  unfold State.recEngineReset
  repeat' (first | with_reducible assumption | with_reducible apply State.endPipe_keeps | split | with_reducible apply keeps_foldl | with_reducible apply keeps_foldl1 | with_reducible apply keeps_foldl2 | with_reducible apply keeps_foldl22 | intro _ | dsimp only | simp only [keeps_mk, keepsT_self])

theorem State.recDark_keeps {s0 s : State} (h : Keeps s0 s) (d : Die) : Keeps s0 (State.recDark s d) := by
  unfold State.recDark
  repeat' (first | with_reducible assumption | with_reducible apply State.setPipe_keeps | split | with_reducible apply keeps_foldl | with_reducible apply keeps_foldl1 | with_reducible apply keeps_foldl2 | with_reducible apply keeps_foldl22 | intro _ | dsimp only | simp only [keeps_mk, keepsT_self])

theorem State.recClose_keeps {s0 s : State} (h : Keeps s0 s) (p : PartId) : Keeps s0 (State.recClose s p) := by
  unfold State.recClose
  repeat' (first | with_reducible assumption | with_reducible apply State.stopPipe_keeps | split | with_reducible apply keeps_foldl | with_reducible apply keeps_foldl1 | with_reducible apply keeps_foldl2 | with_reducible apply keeps_foldl22 | intro _ | dsimp only | simp only [keeps_mk, keepsT_self])

theorem State.recReset_keeps {s0 s : State} (h : Keeps s0 s)  : Keeps s0 (State.recReset s) := by
  unfold State.recReset
  repeat' (first | with_reducible assumption | split | with_reducible apply keeps_foldl | with_reducible apply keeps_foldl1 | with_reducible apply keeps_foldl2 | with_reducible apply keeps_foldl22 | intro _ | dsimp only | simp only [keeps_mk, keepsT_self])

theorem State.setDet_keeps {s0 s : State} (h : Keeps s0 s) (d : Det) : Keeps s0 (State.setDet s d) := by
  unfold State.setDet
  repeat' (first | with_reducible assumption | split | with_reducible apply keeps_foldl | with_reducible apply keeps_foldl1 | with_reducible apply keeps_foldl2 | with_reducible apply keeps_foldl22 | intro _ | dsimp only | simp only [keeps_mk, keepsT_self])

theorem State.sendTime_keeps {s0 s : State} (h : Keeps s0 s)  : Keeps s0 (State.sendTime s) := by
  unfold State.sendTime
  repeat' (first | with_reducible assumption | with_reducible apply State.siphonSend_keeps | split | with_reducible apply keeps_foldl | with_reducible apply keeps_foldl1 | with_reducible apply keeps_foldl2 | with_reducible apply keeps_foldl22 | intro _ | dsimp only | simp only [keeps_mk, keepsT_self])

theorem State.shiftTimers_keeps {s0 s : State} (h : Keeps s0 s) (o : Int) : Keeps s0 (State.shiftTimers s o) := by
  unfold State.shiftTimers
  repeat' (first | with_reducible assumption | split | with_reducible apply keeps_foldl | with_reducible apply keeps_foldl1 | with_reducible apply keeps_foldl2 | with_reducible apply keeps_foldl22 | intro _ | dsimp only | simp only [keeps_mk, keepsT_self])

theorem State.exchange_keeps {s0 s : State} (h : Keeps s0 s)  : Keeps s0 (State.exchange s) := by
  unfold State.exchange
  repeat' (first | with_reducible assumption | with_reducible apply State.sendTime_keeps | with_reducible apply State.setDet_keeps | split | with_reducible apply keeps_foldl | with_reducible apply keeps_foldl1 | with_reducible apply keeps_foldl2 | with_reducible apply keeps_foldl22 | intro _ | dsimp only | simp only [keeps_mk, keepsT_self])

theorem State.measure_keeps {s0 s : State} (h : Keeps s0 s) (st : Align) : Keeps s0 (State.measure s st) := by
  unfold State.measure
  repeat' (first | with_reducible assumption | with_reducible apply State.exchange_keeps | with_reducible apply State.setDet_keeps | split | with_reducible apply keeps_foldl | with_reducible apply keeps_foldl1 | with_reducible apply keeps_foldl2 | with_reducible apply keeps_foldl22 | intro _ | dsimp only | simp only [keeps_mk, keepsT_self])

theorem State.nextExchange_keeps {s0 s : State} (h : Keeps s0 s)  : Keeps s0 (State.nextExchange s) := by
  unfold State.nextExchange
  repeat' (first | with_reducible assumption | with_reducible apply State.exchange_keeps | split | with_reducible apply keeps_foldl | with_reducible apply keeps_foldl1 | with_reducible apply keeps_foldl2 | with_reducible apply keeps_foldl22 | intro _ | dsimp only | simp only [keeps_mk, keepsT_self])

theorem State.alignBegin_keeps {s0 s : State} (h : Keeps s0 s) (count : Nat) (serial : Nat) : Keeps s0 (State.alignBegin s count serial) := by
  unfold State.alignBegin
  repeat' (first | with_reducible assumption | with_reducible apply State.setDet_keeps | with_reducible apply State.exchange_keeps | split | with_reducible apply keeps_foldl | with_reducible apply keeps_foldl1 | with_reducible apply keeps_foldl2 | with_reducible apply keeps_foldl22 | intro _ | dsimp only | simp only [keeps_mk, keepsT_self])

theorem State.waitQuiet_keeps {s0 s : State} (h : Keeps s0 s)  : Keeps s0 (State.waitQuiet s) := by
  unfold State.waitQuiet
  repeat' (first | with_reducible assumption | with_reducible apply State.setDet_keeps | split | with_reducible apply keeps_foldl | with_reducible apply keeps_foldl1 | with_reducible apply keeps_foldl2 | with_reducible apply keeps_foldl22 | intro _ | dsimp only | simp only [keeps_mk, keepsT_self])

theorem State.planLoad_keeps {s0 s : State} (h : Keeps s0 s) (o : Int) : Keeps s0 (State.planLoad s o) := by
  unfold State.planLoad
  repeat' (first | with_reducible assumption | with_reducible apply State.flagIf_keeps | with_reducible apply State.setDet_keeps | with_reducible apply State.waitQuiet_keeps | split | with_reducible apply keeps_foldl | with_reducible apply keeps_foldl1 | with_reducible apply keeps_foldl2 | with_reducible apply keeps_foldl22 | intro _ | dsimp only | simp only [keeps_mk, keepsT_self])

theorem State.verified_keeps {s0 s : State} (h : Keeps s0 s) (os : List Int) : Keeps s0 (State.verified s os) := by
  unfold State.verified
  repeat' (first | with_reducible assumption | with_reducible apply State.flag_keeps | with_reducible apply State.measure_keeps | split | with_reducible apply keeps_foldl | with_reducible apply keeps_foldl1 | with_reducible apply keeps_foldl2 | with_reducible apply keeps_foldl22 | intro _ | dsimp only | simp only [keeps_mk, keepsT_self])

theorem State.timeArrives_keeps {s0 s : State} (h : Keeps s0 s) (t3 : Nat) (stamp : Nat) (path : Int) : Keeps s0 (State.timeArrives s t3 stamp path) := by
  unfold State.timeArrives
  repeat' (first | with_reducible assumption | with_reducible apply State.setDet_keeps | with_reducible apply State.verified_keeps | with_reducible apply State.planLoad_keeps | with_reducible apply State.sendTime_keeps | split | with_reducible apply keeps_foldl | with_reducible apply keeps_foldl1 | with_reducible apply keeps_foldl2 | with_reducible apply keeps_foldl22 | intro _ | dsimp only | simp only [keeps_mk, keepsT_self])

theorem State.loadCounter_keeps {s0 s : State} (h : Keeps s0 s)  : Keeps s0 (State.loadCounter s) := by
  unfold State.loadCounter
  repeat' (first | with_reducible assumption | with_reducible apply State.shiftTimers_keeps | with_reducible apply State.measure_keeps | with_reducible apply State.sendTimebase_keeps | split | with_reducible apply keeps_foldl | with_reducible apply keeps_foldl1 | with_reducible apply keeps_foldl2 | with_reducible apply keeps_foldl22 | intro _ | dsimp only | simp only [keeps_mk, keepsT_self])

theorem State.setSph_keeps {s0 s : State} (h : Keeps s0 s) (x : Sph) : Keeps s0 (State.setSph s x) := by
  unfold State.setSph
  repeat' (first | with_reducible assumption | split | with_reducible apply keeps_foldl | with_reducible apply keeps_foldl1 | with_reducible apply keeps_foldl2 | with_reducible apply keeps_foldl22 | intro _ | dsimp only | simp only [keeps_mk, keepsT_self])

theorem State.sendAck_keeps {s0 s : State} (h : Keeps s0 s) (seq : W32) (st : St) : Keeps s0 (State.sendAck s seq st) := by
  unfold State.sendAck
  repeat' (first | with_reducible assumption | with_reducible apply State.siphonSend_keeps | split | with_reducible apply keeps_foldl | with_reducible apply keeps_foldl1 | with_reducible apply keeps_foldl2 | with_reducible apply keeps_foldl22 | intro _ | dsimp only | simp only [keeps_mk, keepsT_self])

theorem State.dropOp_keeps {s0 s : State} (h : Keeps s0 s) (o : PumpOp) (conds : List St) : Keeps s0 (State.dropOp s o conds) := by
  unfold State.dropOp
  repeat' (first | with_reducible assumption | with_reducible apply State.creditOp_keeps | with_reducible apply State.endOp_keeps | with_reducible apply State.ruin_keeps | split | with_reducible apply keeps_foldl | with_reducible apply keeps_foldl1 | with_reducible apply keeps_foldl2 | with_reducible apply keeps_foldl22 | intro _ | dsimp only | simp only [keeps_mk, keepsT_self])

theorem State.dropComing_keeps {s0 s : State} (h : Keeps s0 s) (hit : Rng → Bool) (f : Cmd → State → State)
    (hf : ∀ c t, Keeps s0 t → Keeps s0 (f c t)) : Keeps s0 (s.dropComing hit f) := by
  unfold State.dropComing
  repeat' (first | with_reducible assumption | with_reducible apply hf | with_reducible apply State.putCmd_keeps | with_reducible apply State.poisonWrites_keeps | split | with_reducible apply keeps_foldl | with_reducible apply keeps_foldl1 | with_reducible apply keeps_foldl2 | with_reducible apply keeps_foldl22 | intro _ | dsimp only | simp only [keeps_mk, keepsT_self])


theorem State.abortWindow_keeps {s0 s : State} (h : Keeps s0 s) (id : Nat) : Keeps s0 (State.abortWindow s id) := by
  unfold State.abortWindow
  repeat' (first | with_reducible assumption | with_reducible apply State.dropOp_keeps | with_reducible apply State.flag_keeps | with_reducible apply State.dropComing_keeps | split | with_reducible apply keeps_foldl | with_reducible apply keeps_foldl1 | with_reducible apply keeps_foldl2 | with_reducible apply keeps_foldl22 | intro _ | dsimp only | simp only [keeps_mk, keepsT_self])

theorem State.loseOp_keeps {s0 s : State} (h : Keeps s0 s) (o : PumpOp) : Keeps s0 (State.loseOp s o) := by
  unfold State.loseOp
  repeat' (first | with_reducible assumption | with_reducible apply State.flag_keeps | with_reducible apply State.creditOp_keeps | with_reducible apply State.endOp_keeps | with_reducible apply State.poisonWrites_keeps | with_reducible apply State.dropOp_keeps | split | with_reducible apply keeps_foldl | with_reducible apply keeps_foldl1 | with_reducible apply keeps_foldl2 | with_reducible apply keeps_foldl22 | intro _ | dsimp only | simp only [keeps_mk, keepsT_self])

theorem State.answerBar2_keeps {s0 s : State} (h : Keeps s0 s)  : Keeps s0 (State.answerBar2 s) := by
  unfold State.answerBar2
  repeat' (first | with_reducible assumption | with_reducible apply State.emit_keeps | split | with_reducible apply keeps_foldl | with_reducible apply keeps_foldl1 | with_reducible apply keeps_foldl2 | with_reducible apply keeps_foldl22 | intro _ | dsimp only | simp only [keeps_mk, keepsT_self])

theorem State.loseWindows_keeps {s0 s : State} (h : Keeps s0 s)  : Keeps s0 (State.loseWindows s) := by
  unfold State.loseWindows
  repeat' (first | with_reducible assumption | with_reducible apply State.dropOp_keeps | with_reducible apply State.loseOp_keeps | with_reducible apply State.dropComing_keeps | with_reducible apply State.answerBar2_keeps | split | with_reducible apply keeps_foldl | with_reducible apply keeps_foldl1 | with_reducible apply keeps_foldl2 | with_reducible apply keeps_foldl22 | intro _ | dsimp only | simp only [keeps_mk, keepsT_self])

theorem State.loseSignals_keeps {s0 s : State} (h : Keeps s0 s)  : Keeps s0 (State.loseSignals s) := by
  unfold State.loseSignals
  repeat' (first | with_reducible assumption | split | with_reducible apply keeps_foldl | with_reducible apply keeps_foldl1 | with_reducible apply keeps_foldl2 | with_reducible apply keeps_foldl22 | intro _ | dsimp only | simp only [keeps_mk, keepsT_self])

theorem State.linkDown_keeps {s0 s : State} (h : Keeps s0 s) (lk : BitVec 2) : Keeps s0 (State.linkDown s lk) := by
  unfold State.linkDown
  repeat' (first | with_reducible assumption | with_reducible apply State.loseSignals_keeps | with_reducible apply State.loseWindows_keeps | with_reducible apply State.setDet_keeps | with_reducible apply State.log_keeps | with_reducible apply State.flag_keeps | split | with_reducible apply keeps_foldl | with_reducible apply keeps_foldl1 | with_reducible apply keeps_foldl2 | with_reducible apply keeps_foldl22 | intro _ | dsimp only | simp only [keeps_mk, keepsT_self])

theorem State.takeOver_keeps {s0 s : State} (h : Keeps s0 s)  : Keeps s0 (State.takeOver s) := by
  unfold State.takeOver
  repeat' (first | with_reducible assumption | with_reducible apply State.linkDown_keeps | with_reducible apply State.log_keeps | with_reducible apply State.flag_keeps | split | with_reducible apply keeps_foldl | with_reducible apply keeps_foldl1 | with_reducible apply keeps_foldl2 | with_reducible apply keeps_foldl22 | intro _ | dsimp only | simp only [keeps_mk, keepsT_self])

theorem State.linkFalls_keeps {s0 s : State} (h : Keeps s0 s)  : Keeps s0 (State.linkFalls s) := by
  unfold State.linkFalls
  repeat' (first | with_reducible assumption | with_reducible apply State.linkDown_keeps | with_reducible apply State.takeOver_keeps | split | with_reducible apply keeps_foldl | with_reducible apply keeps_foldl1 | with_reducible apply keeps_foldl2 | with_reducible apply keeps_foldl22 | intro _ | dsimp only | simp only [keeps_mk, keepsT_self])

theorem State.checkRoles_keeps {s0 s : State} (h : Keeps s0 s)  : Keeps s0 (State.checkRoles s) := by
  unfold State.checkRoles
  repeat' (first | with_reducible assumption | with_reducible apply State.flagIf_keeps | with_reducible apply State.setSph_keeps | split | with_reducible apply keeps_foldl | with_reducible apply keeps_foldl1 | with_reducible apply keeps_foldl2 | with_reducible apply keeps_foldl22 | intro _ | dsimp only | simp only [keeps_mk, keepsT_self])

theorem State.sendRole_keeps {s0 s : State} (h : Keeps s0 s) (bits : Nat) : Keeps s0 (State.sendRole s bits) := by
  unfold State.sendRole
  repeat' (first | with_reducible assumption | with_reducible apply State.siphonSend_keeps | split | with_reducible apply keeps_foldl | with_reducible apply keeps_foldl1 | with_reducible apply keeps_foldl2 | with_reducible apply keeps_foldl22 | intro _ | dsimp only | simp only [keeps_mk, keepsT_self])

theorem State.trimReplay_keeps {s0 s : State} (h : Keeps s0 s) (ack : W32) : Keeps s0 (State.trimReplay s ack) := by
  unfold State.trimReplay
  repeat' (first | with_reducible assumption | with_reducible apply State.emit_keeps | with_reducible apply State.setSph_keeps | split | with_reducible apply keeps_foldl | with_reducible apply keeps_foldl1 | with_reducible apply keeps_foldl2 | with_reducible apply keeps_foldl22 | intro _ | dsimp only | simp only [keeps_mk, keepsT_self])

theorem State.hear_keeps {s0 s : State} (h : Keeps s0 s) (type : Nat) (m : Msg) (act : State → State)
    (ha : ∀ t, Keeps s0 t → Keeps s0 (act t)) : Keeps s0 (s.hear type m act) := by
  unfold State.hear
  repeat' (first | with_reducible assumption | with_reducible apply ha | with_reducible apply State.flag_keeps | with_reducible apply State.trimReplay_keeps | with_reducible apply State.setSph_keeps | with_reducible apply State.sendAck_keeps | split | with_reducible apply keeps_foldl | with_reducible apply keeps_foldl1 | with_reducible apply keeps_foldl2 | with_reducible apply keeps_foldl22 | intro _ | dsimp only | simp only [keeps_mk, keepsT_self])


theorem State.landWrite_keeps {s0 s : State} (h : Keeps s0 s) (m : Msg) : Keeps s0 (State.landWrite s m) := by
  unfold State.landWrite
  repeat' (first | with_reducible assumption | with_reducible apply State.sendAck_keeps | with_reducible apply State.writeStretches_keeps | with_reducible apply State.flagClosed_keeps | split | with_reducible apply keeps_foldl | with_reducible apply keeps_foldl1 | with_reducible apply keeps_foldl2 | with_reducible apply keeps_foldl22 | intro _ | dsimp only | simp only [keeps_mk, keepsT_self])

theorem State.remoteRead_keeps {s0 s : State} (h : Keeps s0 s) (a : Nat) (len : Nat) : Keeps s0 (State.remoteRead s a len).2 := by
  unfold State.remoteRead
  repeat' (first | with_reducible assumption | with_reducible apply State.readStretches_keeps | with_reducible refine State.readStretches_keeps_of (by assumption) ?_ | split | with_reducible apply keeps_foldl | with_reducible apply keeps_foldl1 | with_reducible apply keeps_foldl2 | with_reducible apply keeps_foldl22 | intro _ | dsimp only | simp only [keeps_mk, keepsT_self])
theorem State.remoteRead_keeps_of {s0 s u : State} {a : Nat} {len : Nat} {x_} (e : (State.remoteRead s a len) = (x_, u)) (h : Keeps s0 s) : Keeps s0 u := by
  have h2 := State.remoteRead_keeps h a len
  rw [e] at h2; exact h2

theorem State.bar2Data_keeps {s0 s : State} (h : Keeps s0 s) (seq : Nat) (bs : List Byte) : Keeps s0 (State.bar2Data s seq bs) := by
  unfold State.bar2Data
  repeat' (first | with_reducible assumption | with_reducible apply State.emit_keeps | split | with_reducible apply keeps_foldl | with_reducible apply keeps_foldl1 | with_reducible apply keeps_foldl2 | with_reducible apply keeps_foldl22 | intro _ | dsimp only | simp only [keeps_mk, keepsT_self])

theorem State.takeData_keeps {s0 s : State} (h : Keeps s0 s) (seq : Nat) (bs : List PByte) : Keeps s0 (State.takeData s seq bs) := by
  unfold State.takeData
  repeat' (first | with_reducible assumption | with_reducible apply State.setOp_keeps | with_reducible apply State.bar2Data_keeps | split | with_reducible apply keeps_foldl | with_reducible apply keeps_foldl1 | with_reducible apply keeps_foldl2 | with_reducible apply keeps_foldl22 | intro _ | dsimp only | simp only [keeps_mk, keepsT_self])

theorem State.regSweep_keeps {s0 s : State} (h : Keeps s0 s)  : Keeps s0 (State.regSweep s) := by
  unfold State.regSweep
  repeat' (first | with_reducible assumption | with_reducible apply State.siphonSend_keeps | with_reducible apply State.setSph_keeps | split | with_reducible apply keeps_foldl | with_reducible apply keeps_foldl1 | with_reducible apply keeps_foldl2 | with_reducible apply keeps_foldl22 | intro _ | dsimp only | simp only [keeps_mk, keepsT_self])

theorem State.ackWrite_keeps {s0 s : State} (h : Keeps s0 s) (o : PumpOp) (seq : W32) (st : St) : Keeps s0 (State.ackWrite s o seq st) := by
  unfold State.ackWrite
  repeat' (first | with_reducible assumption | with_reducible apply State.setOp_keeps | with_reducible apply State.creditOp_keeps | with_reducible apply State.ruin_keeps | split | with_reducible apply keeps_foldl | with_reducible apply keeps_foldl1 | with_reducible apply keeps_foldl2 | with_reducible apply keeps_foldl22 | intro _ | dsimp only | simp only [keeps_mk, keepsT_self])

theorem State.ackSignal_keeps {s0 s : State} (h : Keeps s0 s) (q : PartId) (seq : W32) (st : St) : Keeps s0 (State.ackSignal s q seq st) := by
  unfold State.ackSignal
  repeat' (first | with_reducible assumption | with_reducible apply State.setSph_keeps | with_reducible apply State.flag_keeps | with_reducible apply State.setPart_keeps | split | with_reducible apply keeps_foldl | with_reducible apply keeps_foldl1 | with_reducible apply keeps_foldl2 | with_reducible apply keeps_foldl22 | intro _ | dsimp only | simp only [keeps_mk, keepsT_self])

theorem State.takeAck_keeps {s0 s : State} (h : Keeps s0 s) (seq : W32) (st : St) : Keeps s0 (State.takeAck s seq st) := by
  unfold State.takeAck
  repeat' (first | with_reducible assumption | with_reducible apply State.ackSignal_keeps | with_reducible apply State.ackWrite_keeps | split | with_reducible apply keeps_foldl | with_reducible apply keeps_foldl1 | with_reducible apply keeps_foldl2 | with_reducible apply keeps_foldl22 | intro _ | dsimp only | simp only [keeps_mk, keepsT_self])

theorem State.loseSaved_keeps {s0 s : State} (h : Keeps s0 s) (r : Region) : Keeps s0 (State.loseSaved s r) := by
  unfold State.loseSaved
  repeat' (first | with_reducible assumption | split | with_reducible apply keeps_foldl | with_reducible apply keeps_foldl1 | with_reducible apply keeps_foldl2 | with_reducible apply keeps_foldl22 | intro _ | dsimp only | simp only [keeps_mk, keepsT_self])

theorem State.dropRegion_keeps {s0 s : State} (h : Keeps s0 s) (r : Region) : Keeps s0 (State.dropRegion s r) := by
  unfold State.dropRegion
  repeat' (first | with_reducible assumption | with_reducible apply State.loseSaved_keeps | with_reducible apply State.attnRegionLost_keeps | split | with_reducible apply keeps_foldl | with_reducible apply keeps_foldl1 | with_reducible apply keeps_foldl2 | with_reducible apply keeps_foldl22 | intro _ | dsimp only | simp only [keeps_mk, keepsT_self])

theorem State.abortRegion_keeps {s0 s : State} (h : Keeps s0 s) (g : Region) : Keeps s0 (State.abortRegion s g) := by
  unfold State.abortRegion
  repeat' (first | with_reducible assumption | with_reducible apply State.dropOp_keeps | with_reducible apply State.flag_keeps | with_reducible apply State.dropComing_keeps | with_reducible apply State.attnSweep_keeps | with_reducible apply State.abandon_keeps | with_reducible apply State.dropRegion_keeps | split | with_reducible apply keeps_foldl | with_reducible apply keeps_foldl1 | with_reducible apply keeps_foldl2 | with_reducible apply keeps_foldl22 | intro _ | dsimp only | simp only [keeps_mk, keepsT_self])

theorem State.abortPort_keeps {s0 s : State} (h : Keeps s0 s) (p : Port) : Keeps s0 (State.abortPort s p) := by
  unfold State.abortPort
  repeat' (first | with_reducible assumption | with_reducible apply State.abortRegion_keeps | split | with_reducible apply keeps_foldl | with_reducible apply keeps_foldl1 | with_reducible apply keeps_foldl2 | with_reducible apply keeps_foldl22 | intro _ | dsimp only | simp only [keeps_mk, keepsT_self])

theorem State.drained_keeps {s0 s : State} (h : Keeps s0 s)  : Keeps s0 (State.drained s) := by
  unfold State.drained
  repeat' (first | with_reducible assumption | with_reducible apply State.dropRegion_keeps | split | with_reducible apply keeps_foldl | with_reducible apply keeps_foldl1 | with_reducible apply keeps_foldl2 | with_reducible apply keeps_foldl22 | intro _ | dsimp only | simp only [keeps_mk, keepsT_self])

theorem State.dropReq_keeps {s0 s : State} (h : Keeps s0 s) (p : Port) (i : SlotId) : Keeps s0 (State.dropReq s p i) := by
  unfold State.dropReq
  repeat' (first | with_reducible assumption | split | with_reducible apply keeps_foldl | with_reducible apply keeps_foldl1 | with_reducible apply keeps_foldl2 | with_reducible apply keeps_foldl22 | intro _ | dsimp only | simp only [keeps_mk, keepsT_self])

theorem State.respond_keeps {s0 s : State} (h : Keeps s0 s) (p : Port) (i : SlotId) (st : St) (reason : Nat) (off : Nat) (payload : List Byte) : Keeps s0 (State.respond s p i st reason off payload) := by
  unfold State.respond
  repeat' (first | with_reducible assumption | with_reducible apply State.dropReq_keeps | with_reducible apply State.setSlot_keeps | with_reducible apply State.raise_keeps | split | with_reducible apply keeps_foldl | with_reducible apply keeps_foldl1 | with_reducible apply keeps_foldl2 | with_reducible apply keeps_foldl22 | intro _ | dsimp only | simp only [keeps_mk, keepsT_self])

theorem State.answerRowless_keeps {s0 s : State} (h : Keeps s0 s) (p : Port) (i : SlotId) : Keeps s0 (State.answerRowless s p i) := by
  unfold State.answerRowless
  repeat' (first | with_reducible assumption | with_reducible apply State.respond_keeps | split | with_reducible apply keeps_foldl | with_reducible apply keeps_foldl1 | with_reducible apply keeps_foldl2 | with_reducible apply keeps_foldl22 | intro _ | dsimp only | simp only [keeps_mk, keepsT_self])

theorem State.answerWaiting_keeps {s0 s : State} (h : Keeps s0 s)  : Keeps s0 (State.answerWaiting s) := by
  unfold State.answerWaiting
  repeat' (first | with_reducible assumption | with_reducible apply State.answerRowless_keeps | split | with_reducible apply keeps_foldl | with_reducible apply keeps_foldl1 | with_reducible apply keeps_foldl2 | with_reducible apply keeps_foldl22 | intro _ | dsimp only | simp only [keeps_mk, keepsT_self])

theorem State.answer_keeps {s0 s : State} (h : Keeps s0 s) (p : Port) (i : SlotId) (st : St) (reason : Nat) (off : Nat) (payload : List Byte) : Keeps s0 (State.answer s p i st reason off payload) := by
  unfold State.answer
  repeat' (first | with_reducible assumption | with_reducible apply State.answerWaiting_keeps | with_reducible apply State.respond_keeps | split | with_reducible apply keeps_foldl | with_reducible apply keeps_foldl1 | with_reducible apply keeps_foldl2 | with_reducible apply keeps_foldl22 | intro _ | dsimp only | simp only [keeps_mk, keepsT_self])

theorem State.answerOk_keeps {s0 s : State} (h : Keeps s0 s) (p : Port) (i : SlotId) (payload : List Byte) : Keeps s0 (State.answerOk s p i payload) := by
  unfold State.answerOk
  repeat' (first | with_reducible assumption | with_reducible apply State.answer_keeps | split | with_reducible apply keeps_foldl | with_reducible apply keeps_foldl1 | with_reducible apply keeps_foldl2 | with_reducible apply keeps_foldl22 | intro _ | dsimp only | simp only [keeps_mk, keepsT_self])

theorem State.answerSt_keeps {s0 s : State} (h : Keeps s0 s) (p : Port) (i : SlotId) (st : St) : Keeps s0 (State.answerSt s p i st) := by
  unfold State.answerSt
  repeat' (first | with_reducible assumption | with_reducible apply State.answer_keeps | split | with_reducible apply keeps_foldl | with_reducible apply keeps_foldl1 | with_reducible apply keeps_foldl2 | with_reducible apply keeps_foldl22 | intro _ | dsimp only | simp only [keeps_mk, keepsT_self])

theorem State.answerBad_keeps {s0 s : State} (h : Keeps s0 s) (p : Port) (i : SlotId) (reason : Nat) (off : Nat) : Keeps s0 (State.answerBad s p i reason off) := by
  unfold State.answerBad
  repeat' (first | with_reducible assumption | with_reducible apply State.answer_keeps | split | with_reducible apply keeps_foldl | with_reducible apply keeps_foldl1 | with_reducible apply keeps_foldl2 | with_reducible apply keeps_foldl22 | intro _ | dsimp only | simp only [keeps_mk, keepsT_self])

theorem State.mailRow_keeps {s0 s : State} (h : Keeps s0 s) (p : Port) (i : SlotId) (opcode : Nat) (need : Need) (fields : List (Nat × Nat))
    (body : State → State) (hb : ∀ t, Keeps s0 t → Keeps s0 (body t)) : Keeps s0 (s.mailRow p i opcode need fields body) := by
  unfold State.mailRow
  repeat' (first | with_reducible assumption | with_reducible apply hb | with_reducible apply State.answerSt_keeps | with_reducible apply State.answerBad_keeps | split | with_reducible apply keeps_foldl | with_reducible apply keeps_foldl1 | with_reducible apply keeps_foldl2 | with_reducible apply keeps_foldl22 | intro _ | dsimp only | simp only [keeps_mk, keepsT_self])


theorem State.keepReq_keeps {s0 s : State} (h : Keeps s0 s) (p : Port) (i : SlotId) : Keeps s0 (State.keepReq s p i) := by
  unfold State.keepReq
  repeat' (first | with_reducible assumption | with_reducible apply State.setSlot_keeps | split | with_reducible apply keeps_foldl | with_reducible apply keeps_foldl1 | with_reducible apply keeps_foldl2 | with_reducible apply keeps_foldl22 | intro _ | dsimp only | simp only [keeps_mk, keepsT_self])

theorem State.ringSlot_keeps {s0 s : State} (h : Keeps s0 s) (p : Port) (i : SlotId) : Keeps s0 (State.ringSlot s p i) := by
  unfold State.ringSlot
  repeat' (first | with_reducible assumption | with_reducible apply State.flag_keeps | with_reducible apply State.setSlot_keeps | with_reducible apply State.answerWaiting_keeps | split | with_reducible apply keeps_foldl | with_reducible apply keeps_foldl1 | with_reducible apply keeps_foldl2 | with_reducible apply keeps_foldl22 | intro _ | dsimp only | simp only [keeps_mk, keepsT_self])

theorem State.dropStaged_keeps {s0 s : State} (h : Keeps s0 s)  : Keeps s0 (State.dropStaged s) := by
  unfold State.dropStaged
  repeat' (first | with_reducible assumption | split | with_reducible apply keeps_foldl | with_reducible apply keeps_foldl1 | with_reducible apply keeps_foldl2 | with_reducible apply keeps_foldl22 | intro _ | dsimp only | simp only [keeps_mk, keepsT_self])

theorem State.breakSems_keeps {s0 s : State} (h : Keeps s0 s) (p : Port) : Keeps s0 (State.breakSems s p).1 := by
  unfold State.breakSems
  repeat' (first | with_reducible assumption | split | with_reducible apply keeps_foldl | with_reducible apply keeps_foldl1 | with_reducible apply keeps_foldl2 | with_reducible apply keeps_foldl22 | intro _ | dsimp only | simp only [keeps_mk, keepsT_self])
theorem State.breakSems_keeps_of {s0 s u : State} {p : Port} {x_} (e : (State.breakSems s p) = (u, x_)) (h : Keeps s0 s) : Keeps s0 u := by
  have h2 := State.breakSems_keeps h p
  rw [e] at h2; exact h2

theorem State.orphan_keeps {s0 s : State} (h : Keeps s0 s) (p : Port) : Keeps s0 (State.orphan s p) := by
  unfold State.orphan
  repeat' (first | with_reducible assumption | with_reducible apply State.setPart_keeps | split | with_reducible apply keeps_foldl | with_reducible apply keeps_foldl1 | with_reducible apply keeps_foldl2 | with_reducible apply keeps_foldl22 | intro _ | dsimp only | simp only [keeps_mk, keepsT_self])

theorem State.detach_keeps {s0 s : State} (h : Keeps s0 s) (p : Port) (cause : Nat) (keep : Option SlotId) : Keeps s0 (State.detach s p cause keep) := by
  unfold State.detach
  repeat' (first | with_reducible assumption | with_reducible apply State.setPort_keeps | with_reducible apply State.flagIf_keeps | with_reducible apply State.breakSems_keeps | with_reducible apply State.log_keeps | with_reducible apply State.ethDetach_keeps | with_reducible apply State.abortPort_keeps | with_reducible apply State.orphan_keeps | with_reducible apply State.setSlot_keeps | with_reducible apply State.raise_keeps | with_reducible apply State.dropStaged_keeps | with_reducible refine State.breakSems_keeps_of (by assumption) ?_ | split | with_reducible apply keeps_foldl | with_reducible apply keeps_foldl1 | with_reducible apply keeps_foldl2 | with_reducible apply keeps_foldl22 | intro _ | dsimp only | simp only [keeps_mk, keepsT_self])

theorem State.portLinkLost_keeps {s0 s : State} (h : Keeps s0 s) (p : Port) : Keeps s0 (State.portLinkLost s p) := by
  unfold State.portLinkLost
  repeat' (first | with_reducible assumption | with_reducible apply State.setPort_keeps | split | with_reducible apply keeps_foldl | with_reducible apply keeps_foldl1 | with_reducible apply keeps_foldl2 | with_reducible apply keeps_foldl22 | intro _ | dsimp only | simp only [keeps_mk, keepsT_self])

theorem State.resetFunction_keeps {s0 s : State} (h : Keeps s0 s) (p : Port) : Keeps s0 (State.resetFunction s p) := by
  unfold State.resetFunction
  repeat' (first | with_reducible assumption | with_reducible apply State.setPort_keeps | split | with_reducible apply keeps_foldl | with_reducible apply keeps_foldl1 | with_reducible apply keeps_foldl2 | with_reducible apply keeps_foldl22 | intro _ | dsimp only | simp only [keeps_mk, keepsT_self])

theorem State.modeRow_keeps {s0 s : State} (h : Keeps s0 s) (p : Port) (i : SlotId) (set values scopes : Nat) (more : List (Nat × Nat))
    (body : State → State) (hb : ∀ t, Keeps s0 t → Keeps s0 (body t)) : Keeps s0 (s.modeRow p i set values scopes more body) := by
  unfold State.modeRow
  repeat' (first | with_reducible assumption | with_reducible apply hb | with_reducible apply State.mailRow_keeps | split | with_reducible apply keeps_foldl | with_reducible apply keeps_foldl1 | with_reducible apply keeps_foldl2 | with_reducible apply keeps_foldl22 | intro _ | dsimp only | simp only [keeps_mk, keepsT_self])


theorem State.setPair_keeps {s0 s : State} (h : Keeps s0 s) (r : PairId) (x : Pair) : Keeps s0 (State.setPair s r x) := by
  unfold State.setPair
  repeat' (first | with_reducible assumption | split | with_reducible apply keeps_foldl | with_reducible apply keeps_foldl1 | with_reducible apply keeps_foldl2 | with_reducible apply keeps_foldl22 | intro _ | dsimp only | simp only [keeps_mk, keepsT_self])

theorem State.unfill_keeps {s0 s : State} (h : Keeps s0 s) (r : WellPart) : Keeps s0 (State.unfill s r) := by
  unfold State.unfill
  repeat' (first | with_reducible assumption | with_reducible apply State.undefine_keeps | with_reducible apply State.setWctl_keeps | split | with_reducible apply keeps_foldl | with_reducible apply keeps_foldl1 | with_reducible apply keeps_foldl2 | with_reducible apply keeps_foldl22 | intro _ | dsimp only | simp only [keeps_mk, keepsT_self])

theorem State.unfillClus_keeps {s0 s : State} (h : Keeps s0 s) (c : ClusId) : Keeps s0 (State.unfillClus s c) := by
  unfold State.unfillClus
  repeat' (first | with_reducible assumption | with_reducible apply State.unfill_keeps | split | with_reducible apply keeps_foldl | with_reducible apply keeps_foldl1 | with_reducible apply keeps_foldl2 | with_reducible apply keeps_foldl22 | intro _ | dsimp only | simp only [keeps_mk, keepsT_self])

theorem State.clone_keeps {s0 s : State} (h : Keeps s0 s) (src dst len : Nat) : Keeps s0 (s.clone src dst len) :=
  ⟨h.1, fun m => ⟨cellsWf_clone src dst len (h.2 m).1, (h.2 m).2⟩⟩


theorem State.mirrorPart_keeps {s0 s : State} (h : Keeps s0 s) (r : WellPart) : Keeps s0 (State.mirrorPart s r) := by
  unfold State.mirrorPart
  repeat' (first | with_reducible assumption | with_reducible apply State.setWctl_keeps | with_reducible apply State.clone_keeps | with_reducible apply State.undefine_keeps | split | with_reducible apply keeps_foldl | with_reducible apply keeps_foldl1 | with_reducible apply keeps_foldl2 | with_reducible apply keeps_foldl22 | intro _ | dsimp only | simp only [keeps_mk, keepsT_self])

theorem State.mirrorClus_keeps {s0 s : State} (h : Keeps s0 s) (main : ClusId) (chk : ClusId) : Keeps s0 (State.mirrorClus s main chk) := by
  unfold State.mirrorClus
  repeat' (first | with_reducible assumption | with_reducible apply State.mirrorPart_keeps | split | with_reducible apply keeps_foldl | with_reducible apply keeps_foldl1 | with_reducible apply keeps_foldl2 | with_reducible apply keeps_foldl22 | intro _ | dsimp only | simp only [keeps_mk, keepsT_self])

theorem State.stopClus_keeps {s0 s : State} (h : Keeps s0 s) (c : ClusId) : Keeps s0 (State.stopClus s c) := by
  unfold State.stopClus
  repeat' (first | with_reducible assumption | split | with_reducible apply keeps_foldl | with_reducible apply keeps_foldl1 | with_reducible apply keeps_foldl2 | with_reducible apply keeps_foldl22 | intro _ | dsimp only | simp only [keeps_mk, keepsT_self])

theorem State.enterPair_keeps {s0 s : State} (h : Keeps s0 s) (p : Port) (i : SlotId) (r : PairId) (testOk : Bool) : Keeps s0 (State.enterPair s p i r testOk) := by
  unfold State.enterPair
  repeat' (first | with_reducible assumption | with_reducible apply State.mirrorClus_keeps | with_reducible apply State.answerOk_keeps | with_reducible apply State.applySkip_keeps | with_reducible apply State.setPair_keeps | with_reducible apply State.flag_keeps | with_reducible apply State.answerSt_keeps | split | with_reducible apply keeps_foldl | with_reducible apply keeps_foldl1 | with_reducible apply keeps_foldl2 | with_reducible apply keeps_foldl22 | intro _ | dsimp only | simp only [keeps_mk, keepsT_self])

theorem State.leavePair_keeps {s0 s : State} (h : Keeps s0 s) (r : PairId) : Keeps s0 (State.leavePair s r) := by
  unfold State.leavePair
  repeat' (first | with_reducible assumption | with_reducible apply State.applySkip_keeps | with_reducible apply State.setPair_keeps | with_reducible apply State.unfillClus_keeps | split | with_reducible apply keeps_foldl | with_reducible apply keeps_foldl1 | with_reducible apply keeps_foldl2 | with_reducible apply keeps_foldl22 | intro _ | dsimp only | simp only [keeps_mk, keepsT_self])

theorem State.fenceClus_keeps {s0 s : State} (h : Keeps s0 s) (c : ClusId) : Keeps s0 (State.fenceClus s c) := by
  unfold State.fenceClus
  repeat' (first | with_reducible assumption | with_reducible apply State.logUnit_keeps | with_reducible apply State.unfill_keeps | split | with_reducible apply keeps_foldl | with_reducible apply keeps_foldl1 | with_reducible apply keeps_foldl2 | with_reducible apply keeps_foldl22 | intro _ | dsimp only | simp only [keeps_mk, keepsT_self])

theorem State.moveClus_keeps {s0 s : State} (h : Keeps s0 s) (k : ClusId) : Keeps s0 (State.moveClus s k) := by
  unfold State.moveClus
  repeat' (first | with_reducible assumption | with_reducible apply State.setPart_keeps | split | with_reducible apply keeps_foldl | with_reducible apply keeps_foldl1 | with_reducible apply keeps_foldl2 | with_reducible apply keeps_foldl22 | intro _ | dsimp only | simp only [keeps_mk, keepsT_self])

theorem State.rerunEnded_keeps {s0 s : State} (h : Keeps s0 s) (r : PairId) : Keeps s0 (State.rerunEnded s r) := by
  unfold State.rerunEnded
  repeat' (first | with_reducible assumption | with_reducible apply State.setPair_keeps | split | with_reducible apply keeps_foldl | with_reducible apply keeps_foldl1 | with_reducible apply keeps_foldl2 | with_reducible apply keeps_foldl22 | intro _ | dsimp only | simp only [keeps_mk, keepsT_self])

theorem State.splitAnswered_keeps {s0 s : State} (h : Keeps s0 s) (r : PairId) : Keeps s0 (State.splitAnswered s r) := by
  unfold State.splitAnswered
  repeat' (first | with_reducible assumption | with_reducible apply State.leavePair_keeps | with_reducible apply State.setPair_keeps | with_reducible apply State.answerOk_keeps | split | with_reducible apply keeps_foldl | with_reducible apply keeps_foldl1 | with_reducible apply keeps_foldl2 | with_reducible apply keeps_foldl22 | intro _ | dsimp only | simp only [keeps_mk, keepsT_self])

theorem State.oneFailed_keeps {s0 s : State} (h : Keeps s0 s) (r : PairId) (mainFails : Bool) : Keeps s0 (State.oneFailed s r mainFails) := by
  unfold State.oneFailed
  repeat' (first | with_reducible assumption | with_reducible apply State.fenceClus_keeps | with_reducible apply State.mirrorClus_keeps | with_reducible apply State.moveClus_keeps | with_reducible apply State.setPair_keeps | split | with_reducible apply keeps_foldl | with_reducible apply keeps_foldl1 | with_reducible apply keeps_foldl2 | with_reducible apply keeps_foldl22 | intro _ | dsimp only | simp only [keeps_mk, keepsT_self])

theorem State.debugWrite_keeps {s0 s : State} (h : Keeps s0 s) (c : ClusId) (a : Nat) (bs : List Byte) : Keeps s0 (State.debugWrite s c a bs) := by
  unfold State.debugWrite
  repeat' (first | with_reducible assumption | with_reducible apply State.devStore_keeps | split | with_reducible apply keeps_foldl | with_reducible apply keeps_foldl1 | with_reducible apply keeps_foldl2 | with_reducible apply keeps_foldl22 | intro _ | dsimp only | simp only [keeps_mk, keepsT_self])

theorem State.sendRegion_keeps {s0 s : State} (h : Keeps s0 s) (base : Nat) (len : Nat) : Keeps s0 (State.sendRegion s base len) := by
  unfold State.sendRegion
  repeat' (first | with_reducible assumption | with_reducible apply State.load_keeps | with_reducible apply State.siphonSend_keeps | with_reducible refine State.load_keeps_of (by assumption) ?_ | split | with_reducible apply keeps_foldl | with_reducible apply keeps_foldl1 | with_reducible apply keeps_foldl2 | with_reducible apply keeps_foldl22 | intro _ | dsimp only | simp only [keeps_mk, keepsT_self])

theorem State.extraRanges_keeps {s0 s : State} (h : Keeps s0 s) (c : Cmd) : Keeps s0 (State.extraRanges s c).2.2 := by
  unfold State.extraRanges
  repeat' (first | with_reducible assumption | with_reducible apply State.devLoad_keeps | with_reducible refine State.devLoad_keeps_of (by assumption) ?_ | split | with_reducible apply keeps_foldl | with_reducible apply keeps_foldl1 | with_reducible apply keeps_foldl2 | with_reducible apply keeps_foldl22 | intro _ | dsimp only | simp only [keeps_mk, keepsT_self])
theorem State.extraRanges_keeps_of {s0 s u : State} {c : Cmd} {x_ y_} (e : (State.extraRanges s c) = (x_, y_, u)) (h : Keeps s0 s) : Keeps s0 u := by
  have h2 := State.extraRanges_keeps h c
  rw [e] at h2; exact h2

theorem State.inspect_keeps {s0 s : State} (h : Keeps s0 s) (c : Cmd) : Keeps s0 (State.inspect s c).2.2 := by
  unfold State.inspect
  repeat' (first | with_reducible assumption | with_reducible apply State.extraRanges_keeps | with_reducible apply State.readEcc_keeps | with_reducible refine State.extraRanges_keeps_of (by assumption) ?_ | split | with_reducible apply keeps_foldl | with_reducible apply keeps_foldl1 | with_reducible apply keeps_foldl2 | with_reducible apply keeps_foldl22 | intro _ | dsimp only | simp only [keeps_mk, keepsT_self])
theorem State.inspect_keeps_of {s0 s u : State} {c : Cmd} {x_ y_} (e : (State.inspect s c) = (x_, y_, u)) (h : Keeps s0 s) : Keeps s0 u := by
  have h2 := State.inspect_keeps h c
  rw [e] at h2; exact h2

theorem State.refuseCmd_keeps {s0 s : State} (h : Keeps s0 s) (c : Cmd) (bad : List Nat) (conds : List St) : Keeps s0 (State.refuseCmd s c bad conds) := by
  unfold State.refuseCmd
  repeat' (first | with_reducible assumption | with_reducible apply State.complete_keeps | split | with_reducible apply keeps_foldl | with_reducible apply keeps_foldl1 | with_reducible apply keeps_foldl2 | with_reducible apply keeps_foldl22 | intro _ | dsimp only | simp only [keeps_mk, keepsT_self])

theorem State.admitCmd_keeps {s0 s : State} (h : Keeps s0 s) (c : Cmd) : Keeps s0 (s.admitCmd c) := by
  have h2 := State.inspect_keeps h c
  unfold State.admitCmd
  generalize s.inspect c = q at h2 ⊢
  obtain ⟨bad, c1, s1⟩ := q
  dsimp only at h2 ⊢
  repeat' (first | with_reducible assumption | with_reducible apply State.inspect_keeps | with_reducible apply State.refuseCmd_keeps | with_reducible apply State.attnAdmit_keeps | with_reducible refine State.inspect_keeps_of (by assumption) ?_ | split | with_reducible apply keeps_foldl | with_reducible apply keeps_foldl1 | with_reducible apply keeps_foldl2 | with_reducible apply keeps_foldl22 | intro _ | dsimp only | simp only [keeps_mk, keepsT_self])


theorem State.countHolds_keeps {s0 s : State} (h : Keeps s0 s) (p : PartId) : Keeps s0 (State.countHolds s p) := by
  unfold State.countHolds
  repeat' (first | with_reducible assumption | with_reducible apply State.putCmd_keeps | split | with_reducible apply keeps_foldl | with_reducible apply keeps_foldl1 | with_reducible apply keeps_foldl2 | with_reducible apply keeps_foldl22 | intro _ | dsimp only | simp only [keeps_mk, keepsT_self])

theorem State.issueFlags_keeps {s0 s : State} (h : Keeps s0 s) (c : Cmd) (u : Place) : Keeps s0 (State.issueFlags s c u) := by
  unfold State.issueFlags
  repeat' (first | with_reducible assumption | with_reducible apply State.flagClosed_keeps | split | with_reducible apply keeps_foldl | with_reducible apply keeps_foldl1 | with_reducible apply keeps_foldl2 | with_reducible apply keeps_foldl22 | intro _ | dsimp only | simp only [keeps_mk, keepsT_self])

theorem State.endUnissued_keeps {s0 s : State} (h : Keeps s0 s) (c : Cmd) (u : Place) (conds : List St) : Keeps s0 (State.endUnissued s c u conds) := by
  unfold State.endUnissued
  repeat' (first | with_reducible assumption | with_reducible apply State.complete_keeps | split | with_reducible apply keeps_foldl | with_reducible apply keeps_foldl1 | with_reducible apply keeps_foldl2 | with_reducible apply keeps_foldl22 | intro _ | dsimp only | simp only [keeps_mk, keepsT_self])

theorem State.issueOn_keeps {s0 s : State} (h : Keeps s0 s) (c : Cmd) (u : Place) : Keeps s0 (State.issueOn s c u) := by
  unfold State.issueOn
  repeat' (first | with_reducible assumption | with_reducible apply State.checkRows_keeps | with_reducible apply State.putCmd_keeps | with_reducible apply State.checkEntries_keeps | with_reducible apply State.raiseHigh_keeps | with_reducible refine State.checkRows_keeps_of (by assumption) ?_ | with_reducible refine State.checkEntries_keeps_of (by assumption) ?_ | split | with_reducible apply keeps_foldl | with_reducible apply keeps_foldl1 | with_reducible apply keeps_foldl2 | with_reducible apply keeps_foldl22 | intro _ | dsimp only | simp only [keeps_mk, keepsT_self])

theorem State.clearMarks_keeps {s0 s : State} (h : Keeps s0 s) (rs : List Rng) : Keeps s0 (State.clearMarks s rs) := by
  unfold State.clearMarks
  repeat' (first | with_reducible assumption | split | with_reducible apply keeps_foldl | with_reducible apply keeps_foldl1 | with_reducible apply keeps_foldl2 | with_reducible apply keeps_foldl22 | intro _ | dsimp only | simp only [keeps_mk, keepsT_self])

theorem State.finish_keeps {s0 s : State} (h : Keeps s0 s) (c : Cmd) (conds : List St) : Keeps s0 (State.finish s c conds) := by
  unfold State.finish
  repeat' (first | with_reducible assumption | with_reducible apply State.strReports_keeps | with_reducible apply State.attnReports_keeps | with_reducible apply State.clearMarks_keeps | with_reducible apply State.attnSweep_keeps | with_reducible apply State.complete_keeps | split | with_reducible apply keeps_foldl | with_reducible apply keeps_foldl1 | with_reducible apply keeps_foldl2 | with_reducible apply keeps_foldl22 | intro _ | dsimp only | simp only [keeps_mk, keepsT_self])

theorem State.liveMasks_keeps {s0 s : State} (h : Keeps s0 s) (c : Cmd) : Keeps s0 (State.liveMasks s c).2.2 := by
  unfold State.liveMasks
  repeat' (first | with_reducible assumption | with_reducible apply State.devLoad_keeps | with_reducible refine State.devLoad_keeps_of (by assumption) ?_ | split | with_reducible apply keeps_foldl | with_reducible apply keeps_foldl1 | with_reducible apply keeps_foldl2 | with_reducible apply keeps_foldl22 | intro _ | dsimp only | simp only [keeps_mk, keepsT_self])
theorem State.liveMasks_keeps_of {s0 s u : State} {c : Cmd} {x_ y_} (e : (State.liveMasks s c) = (x_, y_, u)) (h : Keeps s0 s) : Keeps s0 u := by
  have h2 := State.liveMasks_keeps h c
  rw [e] at h2; exact h2

theorem State.ctxPut_keeps {s0 s : State} (h : Keeps s0 s) (a : Nat) (bs : List PByte) : Keeps s0 (State.ctxPut s a bs) := by
  unfold State.ctxPut
  repeat' (first | with_reducible assumption | with_reducible apply State.cisternStore_keeps | with_reducible apply State.store_keeps | split | with_reducible apply keeps_foldl | with_reducible apply keeps_foldl1 | with_reducible apply keeps_foldl2 | with_reducible apply keeps_foldl22 | intro _ | dsimp only | simp only [keeps_mk, keepsT_self])

theorem State.ctxWrite_keeps {s0 s : State} (h : Keeps s0 s) (z1 : List (Nat × Nat)) (z2 : List PByte) : Keeps s0 (State.ctxWrite s z1 z2).1 := by
  induction z1 generalizing s z2 with
  | nil =>
    unfold State.ctxWrite
    repeat' (first | with_reducible assumption | with_reducible apply State.ctxPut_keeps | split | with_reducible apply keeps_foldl | with_reducible apply keeps_foldl1 | with_reducible apply keeps_foldl2 | with_reducible apply keeps_foldl22 | intro _ | dsimp only | simp only [keeps_mk, keepsT_self])
  | cons x xs ih =>
    unfold State.ctxWrite
    repeat' (first | with_reducible assumption | with_reducible apply ih | with_reducible apply State.ctxPut_keeps | split | with_reducible apply keeps_foldl | with_reducible apply keeps_foldl1 | with_reducible apply keeps_foldl2 | with_reducible apply keeps_foldl22 | intro _ | dsimp only | simp only [keeps_mk, keepsT_self])
theorem State.ctxWrite_keeps_of {s0 s u : State} {z1 : List (Nat × Nat)} {z2 : List PByte} {x_} (e : (State.ctxWrite s z1 z2) = (u, x_)) (h : Keeps s0 s) : Keeps s0 u := by
  have h2 := State.ctxWrite_keeps h z1 z2
  rw [e] at h2; exact h2

theorem State.freeState_keeps {s0 s : State} (h : Keeps s0 s) (n : Nat) : Keeps s0 (State.freeState s n).2 := by
  unfold State.freeState
  repeat' (first | with_reducible assumption | split | with_reducible apply keeps_foldl | with_reducible apply keeps_foldl1 | with_reducible apply keeps_foldl2 | with_reducible apply keeps_foldl22 | intro _ | dsimp only | simp only [keeps_mk, keepsT_self])
theorem State.freeState_keeps_of {s0 s u : State} {n : Nat} {x_} (e : (State.freeState s n) = (x_, u)) (h : Keeps s0 s) : Keeps s0 u := by
  have h2 := State.freeState_keeps h n
  rw [e] at h2; exact h2

theorem Saving.put_keeps {s0 s : State} (h : Keeps s0 s) (x : Saving) (bs : List PByte) : Keeps s0 (x.put s bs).state :=
  State.ctxWrite_keeps h x.space bs
theorem Saving.freeBytes_keeps {s0 : State} {x : Saving} (h : Keeps s0 x.state) (n : Nat) : Keeps s0 (x.freeBytes n).state :=
  Saving.put_keeps (State.freeState_keeps h n) x _
theorem Saving.rows_keeps {s0 : State} {x : Saving} (h : Keeps s0 x.state) (n : CoreId) (i : Nat) : Keeps s0 (Saving.rows n x i).state :=
  Saving.put_keeps (State.load_keeps h (wellAddr n (i * maskBytes)) maskBytes) x _
theorem saving_foldl {α : Type} {f : Saving → α → Saving} {l : List α} {s0 : State} {x : Saving}
    (hf : ∀ (u : Saving) (a : α), Keeps s0 u.state → Keeps s0 (f u a).state) (h : Keeps s0 x.state) : Keeps s0 (l.foldl f x).state := by
  induction l generalizing x with
  | nil => exact h
  | cons a l ih => exact ih (hf x a h)
theorem Saving.core_keeps {s0 : State} {x : Saving} (h : Keeps s0 x.state) (c : CoreId × W16) : Keeps s0 (x.core c).state :=
  Saving.freeBytes_keeps (saving_foldl (fun _ i hu => Saving.rows_keeps hu c.1 i) h) _
theorem State.saveAll_keeps {s0 s : State} (h : Keeps s0 s) (p : PartId) (live : List (CoreId × W16)) : Keeps s0 (s.saveAll p live).1 :=
  Saving.freeBytes_keeps (saving_foldl (fun _ c hu => Saving.core_keeps hu c) h) _

theorem State.saveAll_keeps_of {s0 s u : State} {p : PartId} {live : List (CoreId × W16)} {x_} (e : (State.saveAll s p live) = (u, x_)) (h : Keeps s0 s) : Keeps s0 u := by
  have h2 := State.saveAll_keeps h p live
  rw [e] at h2; exact h2

theorem State.recordStop_keeps {s0 s : State} (h : Keeps s0 s) (c : Cmd) : Keeps s0 (State.recordStop s c) := by
  unfold State.recordStop
  repeat' (first | with_reducible assumption | with_reducible apply State.countStatus_keeps | with_reducible apply State.putCmd_keeps | with_reducible apply State.queueRecord_keeps | split | with_reducible apply keeps_foldl | with_reducible apply keeps_foldl1 | with_reducible apply keeps_foldl2 | with_reducible apply keeps_foldl22 | intro _ | dsimp only | simp only [keeps_mk, keepsT_self])

theorem State.recordStopped_keeps {s0 s : State} (h : Keeps s0 s) (p : PartId) : Keeps s0 (State.recordStopped s p) := by
  unfold State.recordStopped
  repeat' (first | with_reducible assumption | with_reducible apply State.recordStop_keeps | split | with_reducible apply keeps_foldl | with_reducible apply keeps_foldl1 | with_reducible apply keeps_foldl2 | with_reducible apply keeps_foldl22 | intro _ | dsimp only | simp only [keeps_mk, keepsT_self])

theorem State.saveEnds_keeps {s0 s : State} (h : Keeps s0 s) (c : Cmd) : Keeps s0 (State.saveEnds s c) := by
  unfold State.saveEnds
  repeat' (first | with_reducible assumption | with_reducible apply State.liveMasks_keeps | with_reducible apply State.saveAll_keeps | with_reducible apply State.recordStopped_keeps | with_reducible apply State.finish_keeps | with_reducible apply State.flagIf_keeps | with_reducible apply State.setPart_keeps | with_reducible refine State.liveMasks_keeps_of (by assumption) ?_ | with_reducible refine State.saveAll_keeps_of (by assumption) ?_ | split | with_reducible apply keeps_foldl | with_reducible apply keeps_foldl1 | with_reducible apply keeps_foldl2 | with_reducible apply keeps_foldl22 | intro _ | dsimp only | simp only [keeps_mk, keepsT_self])

theorem State.ctxRead_keeps {s0 s : State} (h : Keeps s0 s) (z1 : List (Nat × Nat)) : Keeps s0 (State.ctxRead s z1).2 := by
  induction z1 generalizing s with
  | nil =>
    unfold State.ctxRead
    repeat' (first | with_reducible assumption | with_reducible apply State.readAt_keeps | with_reducible refine State.readAt_keeps_of (by assumption) ?_ | split | with_reducible apply keeps_foldl | with_reducible apply keeps_foldl1 | with_reducible apply keeps_foldl2 | with_reducible apply keeps_foldl22 | intro _ | dsimp only | simp only [keeps_mk, keepsT_self])
  | cons x xs ih =>
    unfold State.ctxRead
    repeat' (first | with_reducible assumption | with_reducible apply ih | with_reducible apply State.readAt_keeps | with_reducible refine State.readAt_keeps_of (by assumption) ?_ | split | with_reducible apply keeps_foldl | with_reducible apply keeps_foldl1 | with_reducible apply keeps_foldl2 | with_reducible apply keeps_foldl22 | intro _ | dsimp only | simp only [keeps_mk, keepsT_self])
theorem State.ctxRead_keeps_of {s0 s u : State} {z1 : List (Nat × Nat)} {x_} (e : (State.ctxRead s z1) = (x_, u)) (h : Keeps s0 s) : Keeps s0 u := by
  have h2 := State.ctxRead_keeps h z1
  rw [e] at h2; exact h2

theorem State.restoreRows_keeps {s0 s : State} (h : Keeps s0 s) (adm : Nat) (n : CoreId) (i : Nat) (data : Option (List PByte)) : Keeps s0 (State.restoreRows s adm n i data) := by
  unfold State.restoreRows
  repeat' (first | with_reducible assumption | with_reducible apply State.store_keeps | with_reducible apply State.flagClosed_keeps | with_reducible apply State.undefine_keeps | split | with_reducible apply keeps_foldl | with_reducible apply keeps_foldl1 | with_reducible apply keeps_foldl2 | with_reducible apply keeps_foldl22 | intro _ | dsimp only | simp only [keeps_mk, keepsT_self])

theorem State.restoreCore_keeps {s0 s : State} (h : Keeps s0 s) (adm : Nat) (bs : List PByte) (x : CoreId × W16) :
    Keeps s0 (s.restoreCore adm bs x).1 := by
  have h2 : Keeps s0 ((List.range 16).foldl (fun (acc : State × List PByte) i =>
      if x.2.getLsbD i then (acc.1.restoreRows adm x.1 i (some (acc.2.take maskBytes)), acc.2.drop maskBytes)
      else (acc.1.restoreRows adm x.1 i none, acc.2)) (s, bs)).1 := by
    refine keeps_foldl1 (t := (s, bs)) ?_ h
    intro u i hu
    split
    · exact State.restoreRows_keeps hu _ _ _ _
    · exact State.restoreRows_keeps hu _ _ _ _
  exact h2

theorem State.restoreCore_keeps_of {s0 s u : State} {adm : Nat} {bs : List PByte} {x0 : CoreId × W16} {x_} (e : (State.restoreCore s adm bs x0) = (u, x_)) (h : Keeps s0 s) : Keeps s0 u := by
  have h2 := State.restoreCore_keeps h adm bs x0
  rw [e] at h2; exact h2

theorem State.resumeStopped_keeps {s0 s : State} (h : Keeps s0 s) (p : PartId) (lost : Bool) : Keeps s0 (State.resumeStopped s p lost) := by
  unfold State.resumeStopped
  repeat' (first | with_reducible assumption | split | with_reducible apply keeps_foldl | with_reducible apply keeps_foldl1 | with_reducible apply keeps_foldl2 | with_reducible apply keeps_foldl22 | intro _ | dsimp only | simp only [keeps_mk, keepsT_self])

theorem State.loadEnds_keeps {s0 s : State} (h : Keeps s0 s) (c : Cmd) : Keeps s0 (State.loadEnds s c) := by
  unfold State.loadEnds
  repeat' (first | with_reducible assumption | with_reducible apply State.ctxRead_keeps | with_reducible apply State.restoreCore_keeps | with_reducible apply State.resumeStopped_keeps | with_reducible apply State.finish_keeps | with_reducible apply State.setPart_keeps | with_reducible refine State.ctxRead_keeps_of (by assumption) ?_ | with_reducible refine State.restoreCore_keeps_of (by assumption) ?_ | split | with_reducible apply keeps_foldl | with_reducible apply keeps_foldl1 | with_reducible apply keeps_foldl2 | with_reducible apply keeps_foldl22 | intro _ | dsimp only | simp only [keeps_mk, keepsT_self])

theorem State.setPd_keeps {s0 s : State} (h : Keeps s0 s) (pd : PdId) (on : Bool) : Keeps s0 (State.setPd s pd on) := by
  unfold State.setPd
  repeat' (first | with_reducible assumption | split | with_reducible apply keeps_foldl | with_reducible apply keeps_foldl1 | with_reducible apply keeps_foldl2 | with_reducible apply keeps_foldl22 | intro _ | dsimp only | simp only [keeps_mk, keepsT_self])

theorem State.pdResult_keeps {s0 s : State} (h : Keeps s0 s) (p : Port) (pd : PdId) (st : St) (isDone : Bool) : Keeps s0 (State.pdResult s p pd st isDone) := by
  unfold State.pdResult
  repeat' (first | with_reducible assumption | with_reducible apply State.setPort_keeps | split | with_reducible apply keeps_foldl | with_reducible apply keeps_foldl1 | with_reducible apply keeps_foldl2 | with_reducible apply keeps_foldl22 | intro _ | dsimp only | simp only [keeps_mk, keepsT_self])

theorem State.closePart_keeps {s0 s : State} (h : Keeps s0 s) (r : WellPart) (p : Option Port) : Keeps s0 (State.closePart s r p) := by
  unfold State.closePart
  repeat' (first | with_reducible assumption | with_reducible apply State.setWctl_keeps | split | with_reducible apply keeps_foldl | with_reducible apply keeps_foldl1 | with_reducible apply keeps_foldl2 | with_reducible apply keeps_foldl22 | intro _ | dsimp only | simp only [keeps_mk, keepsT_self])

theorem State.powerPart_keeps {s0 s : State} (h : Keeps s0 s) (r : WellPart) (p : Option Port) : Keeps s0 (State.powerPart s r p) := by
  unfold State.powerPart
  repeat' (first | with_reducible assumption | with_reducible apply State.setWctl_keeps | split | with_reducible apply keeps_foldl | with_reducible apply keeps_foldl1 | with_reducible apply keeps_foldl2 | with_reducible apply keeps_foldl22 | intro _ | dsimp only | simp only [keeps_mk, keepsT_self])

theorem State.partOff_keeps {s0 s : State} (h : Keeps s0 s) (r : WellPart) : Keeps s0 (State.partOff s r) := by
  unfold State.partOff
  repeat' (first | with_reducible assumption | with_reducible apply State.setPd_keeps | with_reducible apply State.setWctl_keeps | with_reducible apply State.pdResult_keeps | split | with_reducible apply keeps_foldl | with_reducible apply keeps_foldl1 | with_reducible apply keeps_foldl2 | with_reducible apply keeps_foldl22 | intro _ | dsimp only | simp only [keeps_mk, keepsT_self])

theorem State.gateEnds_keeps {s0 s : State} (h : Keeps s0 s) (r : WellPart) : Keeps s0 (State.gateEnds s r) := by
  unfold State.gateEnds
  repeat' (first | with_reducible assumption | with_reducible apply State.dropOp_keeps | with_reducible apply State.attnSweep_keeps | with_reducible apply State.abandon_keeps | with_reducible apply State.setSph_keeps | with_reducible apply State.partOff_keeps | with_reducible apply State.flagIf_keeps | split | with_reducible apply keeps_foldl | with_reducible apply keeps_foldl1 | with_reducible apply keeps_foldl2 | with_reducible apply keeps_foldl22 | intro _ | dsimp only | simp only [keeps_mk, keepsT_self])

theorem State.comeUp_keeps {s0 s : State} (h : Keeps s0 s) (r : WellPart) : Keeps s0 (State.comeUp s r) := by
  unfold State.comeUp
  repeat' (first | with_reducible assumption | with_reducible apply State.setPd_keeps | with_reducible apply State.undefine_keeps | with_reducible apply State.setWctl_keeps | with_reducible apply State.pdResult_keeps | split | with_reducible apply keeps_foldl | with_reducible apply keeps_foldl1 | with_reducible apply keeps_foldl2 | with_reducible apply keeps_foldl22 | intro _ | dsimp only | simp only [keeps_mk, keepsT_self])

theorem State.darken_keeps {s0 s : State} (h : Keeps s0 s) (pd : PdId) : Keeps s0 (State.darken s pd) := by
  unfold State.darken
  repeat' (first | with_reducible assumption | with_reducible apply State.camDark_keeps | with_reducible apply State.recDark_keeps | with_reducible apply State.setSph_keeps | with_reducible apply State.ethStop_keeps | split | with_reducible apply keeps_foldl | with_reducible apply keeps_foldl1 | with_reducible apply keeps_foldl2 | with_reducible apply keeps_foldl22 | intro _ | dsimp only | simp only [keeps_mk, keepsT_self])

theorem State.lighten_keeps {s0 s : State} (h : Keeps s0 s) (pd : PdId) : Keeps s0 (State.lighten s pd) := by
  unfold State.lighten
  repeat' (first | with_reducible assumption | with_reducible apply State.ethIdle_keeps | with_reducible apply State.setPipe_keeps | with_reducible apply State.camLight_keeps | with_reducible apply State.setSph_keeps | with_reducible apply State.setEth_keeps | split | with_reducible apply keeps_foldl | with_reducible apply keeps_foldl1 | with_reducible apply keeps_foldl2 | with_reducible apply keeps_foldl22 | intro _ | dsimp only | simp only [keeps_mk, keepsT_self])

theorem State.pdStart_keeps {s0 s : State} (h : Keeps s0 s) (pd : PdId) (asks : Option Port) : Keeps s0 (State.pdStart s pd asks) := by
  unfold State.pdStart
  repeat' (first | with_reducible assumption | with_reducible apply State.powerPart_keeps | split | with_reducible apply keeps_foldl | with_reducible apply keeps_foldl1 | with_reducible apply keeps_foldl2 | with_reducible apply keeps_foldl22 | intro _ | dsimp only | simp only [keeps_mk, keepsT_self])

theorem State.pdStop_keeps {s0 s : State} (h : Keeps s0 s) (pd : PdId) (asks : Option Port) : Keeps s0 (State.pdStop s pd asks) := by
  unfold State.pdStop
  repeat' (first | with_reducible assumption | with_reducible apply State.closePart_keeps | with_reducible apply State.setPd_keeps | with_reducible apply State.darken_keeps | split | with_reducible apply keeps_foldl | with_reducible apply keeps_foldl1 | with_reducible apply keeps_foldl2 | with_reducible apply keeps_foldl22 | intro _ | dsimp only | simp only [keeps_mk, keepsT_self])

theorem State.pdFollows_keeps {s0 s : State} (h : Keeps s0 s) (pd : PdId) (on : Bool) : Keeps s0 (State.pdFollows s pd on) := by
  unfold State.pdFollows
  repeat' (first | with_reducible assumption | split | with_reducible apply keeps_foldl | with_reducible apply keeps_foldl1 | with_reducible apply keeps_foldl2 | with_reducible apply keeps_foldl22 | intro _ | dsimp only | simp only [keeps_mk, keepsT_self])

theorem State.twinsTick_keeps {s0 s : State} (h : Keeps s0 s)  : Keeps s0 (State.twinsTick s) := by
  unfold State.twinsTick
  repeat' (first | with_reducible assumption | with_reducible apply State.pdStart_keeps | with_reducible apply State.pdStop_keeps | split | with_reducible apply keeps_foldl | with_reducible apply keeps_foldl1 | with_reducible apply keeps_foldl2 | with_reducible apply keeps_foldl22 | intro _ | dsimp only | simp only [keeps_mk, keepsT_self])

theorem State.askOn_keeps {s0 s : State} (h : Keeps s0 s) (p : Port) (pd : PdId) : Keeps s0 (State.askOn s p pd) := by
  unfold State.askOn
  repeat' (first | with_reducible assumption | with_reducible apply State.flag_keeps | with_reducible apply State.pdResult_keeps | with_reducible apply State.pdFollows_keeps | with_reducible apply State.pdStart_keeps | split | with_reducible apply keeps_foldl | with_reducible apply keeps_foldl1 | with_reducible apply keeps_foldl2 | with_reducible apply keeps_foldl22 | intro _ | dsimp only | simp only [keeps_mk, keepsT_self])

theorem State.askOff_keeps {s0 s : State} (h : Keeps s0 s) (p : Port) (pd : PdId) : Keeps s0 (State.askOff s p pd) := by
  unfold State.askOff
  repeat' (first | with_reducible assumption | with_reducible apply State.flag_keeps | with_reducible apply State.pdResult_keeps | with_reducible apply State.pdFollows_keeps | with_reducible apply State.pdStop_keeps | split | with_reducible apply keeps_foldl | with_reducible apply keeps_foldl1 | with_reducible apply keeps_foldl2 | with_reducible apply keeps_foldl22 | intro _ | dsimp only | simp only [keeps_mk, keepsT_self])

theorem State.endMove_keeps {s0 s : State} (h : Keeps s0 s) (m : PdMove) : Keeps s0 (State.endMove s m) := by
  unfold State.endMove
  repeat' (first | with_reducible assumption | with_reducible apply State.lighten_keeps | with_reducible apply State.setPd_keeps | with_reducible apply State.pdResult_keeps | split | with_reducible apply keeps_foldl | with_reducible apply keeps_foldl1 | with_reducible apply keeps_foldl2 | with_reducible apply keeps_foldl22 | intro _ | dsimp only | simp only [keeps_mk, keepsT_self])

theorem State.cancelHints_keeps {s0 s : State} (h : Keeps s0 s) (p : PartId) : Keeps s0 (State.cancelHints s p) := by
  unfold State.cancelHints
  repeat' (first | with_reducible assumption | with_reducible apply State.applySkip_keeps | split | with_reducible apply keeps_foldl | with_reducible apply keeps_foldl1 | with_reducible apply keeps_foldl2 | with_reducible apply keeps_foldl22 | intro _ | dsimp only | simp only [keeps_mk, keepsT_self])

theorem State.endStale_keeps {s0 s : State} (h : Keeps s0 s) (p : PartId) (f : Cmd → Bool) : Keeps s0 (State.endStale s p f) := by
  unfold State.endStale
  repeat' (first | with_reducible assumption | with_reducible apply State.abandon_keeps | split | with_reducible apply keeps_foldl | with_reducible apply keeps_foldl1 | with_reducible apply keeps_foldl2 | with_reducible apply keeps_foldl22 | intro _ | dsimp only | simp only [keeps_mk, keepsT_self])

theorem State.beginClose_keeps {s0 s : State} (h : Keeps s0 s) (q : PartId) : Keeps s0 (State.beginClose s q) := by
  unfold State.beginClose
  repeat' (first | with_reducible assumption | with_reducible apply State.recClose_keeps | with_reducible apply State.camsClose_keeps | with_reducible apply State.cancelHints_keeps | with_reducible apply State.tripAxes_keeps | with_reducible apply State.attnSweep_keeps | with_reducible apply State.endStale_keeps | with_reducible apply State.setPart_keeps | split | with_reducible apply keeps_foldl | with_reducible apply keeps_foldl1 | with_reducible apply keeps_foldl2 | with_reducible apply keeps_foldl22 | intro _ | dsimp only | simp only [keeps_mk, keepsT_self])

theorem State.release_keeps {s0 s : State} (h : Keeps s0 s) (q : PartId) : Keeps s0 (State.release s q) := by
  unfold State.release
  repeat' (first | with_reducible assumption | with_reducible apply State.recClose_keeps | with_reducible apply State.bindingsClose_keeps | with_reducible apply State.attnClose_keeps | with_reducible apply State.strClose_keeps | with_reducible apply State.drained_keeps | split | with_reducible apply keeps_foldl | with_reducible apply keeps_foldl1 | with_reducible apply keeps_foldl2 | with_reducible apply keeps_foldl22 | intro _ | dsimp only | simp only [keeps_mk, keepsT_self])

theorem State.beginReset_keeps {s0 s : State} (h : Keeps s0 s) (q : PartId) : Keeps s0 (State.beginReset s q) := by
  unfold State.beginReset
  repeat' (first | with_reducible assumption | with_reducible apply State.cancelHints_keeps | with_reducible apply State.attnSweep_keeps | with_reducible apply State.endStale_keeps | split | with_reducible apply keeps_foldl | with_reducible apply keeps_foldl1 | with_reducible apply keeps_foldl2 | with_reducible apply keeps_foldl22 | intro _ | dsimp only | simp only [keeps_mk, keepsT_self])

theorem State.logFw_keeps {s0 s : State} (h : Keeps s0 s) (opcode : Nat) (st : St) (version : Nat) : Keeps s0 (State.logFw s opcode st version) := by
  unfold State.logFw
  repeat' (first | with_reducible assumption | with_reducible apply State.log_keeps | split | with_reducible apply keeps_foldl | with_reducible apply keeps_foldl1 | with_reducible apply keeps_foldl2 | with_reducible apply keeps_foldl22 | intro _ | dsimp only | simp only [keeps_mk, keepsT_self])

theorem State.powerAll_keeps {s0 s : State} (h : Keeps s0 s)  : Keeps s0 (State.powerAll s) := by
  unfold State.powerAll
  repeat' (first | with_reducible assumption | with_reducible apply State.powerPart_keeps | split | with_reducible apply keeps_foldl | with_reducible apply keeps_foldl1 | with_reducible apply keeps_foldl2 | with_reducible apply keeps_foldl22 | intro _ | dsimp only | simp only [keeps_mk, keepsT_self])

theorem State.startGoride_keeps {s0 s : State} (h : Keeps s0 s) (image : List Byte) (recovery : Bool) : Keeps s0 (State.startGoride s image recovery) := by
  unfold State.startGoride
  repeat' (first | with_reducible assumption | with_reducible apply State.powerAll_keeps | split | with_reducible apply keeps_foldl | with_reducible apply keeps_foldl1 | with_reducible apply keeps_foldl2 | with_reducible apply keeps_foldl22 | intro _ | dsimp only | simp only [keeps_mk, keepsT_self])

theorem State.recoverLast.refused_keeps {s0 s : State} (h : Keeps s0 s) (p : Port) (i : SlotId) (x : Staged) : Keeps s0 (State.recoverLast.refused s p i x) := by
  unfold State.recoverLast.refused
  repeat' (first | with_reducible assumption | with_reducible apply State.answerBad_keeps | with_reducible apply State.logFw_keeps | with_reducible apply State.flag_keeps | split | with_reducible apply keeps_foldl | with_reducible apply keeps_foldl1 | with_reducible apply keeps_foldl2 | with_reducible apply keeps_foldl22 | intro _ | dsimp only | simp only [keeps_mk, keepsT_self])

theorem State.recoverLast_keeps {s0 s : State} (h : Keeps s0 s) (p : Port) (i : SlotId) : Keeps s0 (State.recoverLast s p i) := by
  unfold State.recoverLast
  repeat' (first | with_reducible assumption | with_reducible apply State.answerOk_keeps | with_reducible apply State.logFw_keeps | with_reducible apply State.startGoride_keeps | with_reducible apply State.recoverLast.refused_keeps | with_reducible apply State.answerBad_keeps | with_reducible apply State.flag_keeps | split | with_reducible apply keeps_foldl | with_reducible apply keeps_foldl1 | with_reducible apply keeps_foldl2 | with_reducible apply keeps_foldl22 | intro _ | dsimp only | simp only [keeps_mk, keepsT_self])

theorem State.endCommit_keeps {s0 s : State} (h : Keeps s0 s) (p : Port) (i : SlotId) (image : List Byte) (ms : Nat) (ok : Bool) : Keeps s0 (State.endCommit s p i image ms ok) := by
  unfold State.endCommit
  repeat' (first | with_reducible assumption | with_reducible apply State.answerOk_keeps | with_reducible apply State.logFw_keeps | with_reducible apply State.dropStaged_keeps | with_reducible apply State.answerSt_keeps | with_reducible apply State.flag_keeps | split | with_reducible apply keeps_foldl | with_reducible apply keeps_foldl1 | with_reducible apply keeps_foldl2 | with_reducible apply keeps_foldl22 | intro _ | dsimp only | simp only [keeps_mk, keepsT_self])

theorem State.setMeas_keeps {s0 s : State} (h : Keeps s0 s) (q : PartId) (m : Meas) : Keeps s0 (State.setMeas s q m) := by
  unfold State.setMeas
  repeat' (first | with_reducible assumption | with_reducible apply State.setPart_keeps | split | with_reducible apply keeps_foldl | with_reducible apply keeps_foldl1 | with_reducible apply keeps_foldl2 | with_reducible apply keeps_foldl22 | intro _ | dsimp only | simp only [keeps_mk, keepsT_self])

theorem State.measStart_keeps {s0 s : State} (h : Keeps s0 s) (p : Port) (q : PartId) (entries : Nat) : Keeps s0 (State.measStart s p q entries) := by
  unfold State.measStart
  repeat' (first | with_reducible assumption | with_reducible apply State.flag_keeps | with_reducible apply State.setMeas_keeps | split | with_reducible apply keeps_foldl | with_reducible apply keeps_foldl1 | with_reducible apply keeps_foldl2 | with_reducible apply keeps_foldl22 | intro _ | dsimp only | simp only [keeps_mk, keepsT_self])

theorem State.markFenced_keeps {s0 s : State} (h : Keeps s0 s) (k : Nat) (n : Nat) : Keeps s0 (State.markFenced s k n) := by
  unfold State.markFenced
  repeat' (first | with_reducible assumption | split | with_reducible apply keeps_foldl | with_reducible apply keeps_foldl1 | with_reducible apply keeps_foldl2 | with_reducible apply keeps_foldl22 | intro _ | dsimp only | simp only [keeps_mk, keepsT_self])

theorem State.unmarkFenced_keeps {s0 s : State} (h : Keeps s0 s) (k : Nat) (n : Nat) : Keeps s0 (State.unmarkFenced s k n) := by
  unfold State.unmarkFenced
  repeat' (first | with_reducible assumption | split | with_reducible apply keeps_foldl | with_reducible apply keeps_foldl1 | with_reducible apply keeps_foldl2 | with_reducible apply keeps_foldl22 | intro _ | dsimp only | simp only [keeps_mk, keepsT_self])

theorem State.fenceDone_keeps {s0 s : State} (h : Keeps s0 s) (p : Port) (i : SlotId) (k : Nat) (n : Nat) (ended : Nat) : Keeps s0 (State.fenceDone s p i k n ended) := by
  unfold State.fenceDone
  repeat' (first | with_reducible assumption | with_reducible apply State.answerOk_keeps | with_reducible apply State.logUnit_keeps | split | with_reducible apply keeps_foldl | with_reducible apply keeps_foldl1 | with_reducible apply keeps_foldl2 | with_reducible apply keeps_foldl22 | intro _ | dsimp only | simp only [keeps_mk, keepsT_self])

theorem State.unitNotReady_keeps {s0 s : State} (h : Keeps s0 s) (p : Port) (i : SlotId) (k : Nat) (n : Nat) (action : Nat) : Keeps s0 (State.unitNotReady s p i k n action) := by
  unfold State.unitNotReady
  repeat' (first | with_reducible assumption | with_reducible apply State.answerSt_keeps | with_reducible apply State.logUnit_keeps | split | with_reducible apply keeps_foldl | with_reducible apply keeps_foldl1 | with_reducible apply keeps_foldl2 | with_reducible apply keeps_foldl22 | intro _ | dsimp only | simp only [keeps_mk, keepsT_self])

theorem State.fenceCluster_keeps {s0 s : State} (h : Keeps s0 s) (p : Port) (i : SlotId) (c : ClusId) : Keeps s0 (State.fenceCluster s p i c) := by
  unfold State.fenceCluster
  repeat' (first | with_reducible assumption | with_reducible apply State.fenceDone_keeps | with_reducible apply State.unitNotReady_keeps | with_reducible apply State.markFenced_keeps | with_reducible apply State.setSlot_keeps | split | with_reducible apply keeps_foldl | with_reducible apply keeps_foldl1 | with_reducible apply keeps_foldl2 | with_reducible apply keeps_foldl22 | intro _ | dsimp only | simp only [keeps_mk, keepsT_self])

theorem State.fencePackage_keeps {s0 s : State} (h : Keeps s0 s) (p : Port) (i : SlotId) (k : Fin 16) : Keeps s0 (State.fencePackage s p i k) := by
  unfold State.fencePackage
  repeat' (first | with_reducible assumption | with_reducible apply State.keepReq_keeps | with_reducible apply State.answerOk_keeps | with_reducible apply State.answerSt_keeps | split | with_reducible apply keeps_foldl | with_reducible apply keeps_foldl1 | with_reducible apply keeps_foldl2 | with_reducible apply keeps_foldl22 | intro _ | dsimp only | simp only [keeps_mk, keepsT_self])

theorem State.fenceSiphon_keeps {s0 s : State} (h : Keeps s0 s)  : Keeps s0 (State.fenceSiphon s) := by
  unfold State.fenceSiphon
  repeat' (first | with_reducible assumption | with_reducible apply State.linkDown_keeps | with_reducible apply State.sendRole_keeps | with_reducible apply State.setSph_keeps | split | with_reducible apply keeps_foldl | with_reducible apply keeps_foldl1 | with_reducible apply keeps_foldl2 | with_reducible apply keeps_foldl22 | intro _ | dsimp only | simp only [keeps_mk, keepsT_self])

theorem State.fenceFle_keeps {s0 s : State} (h : Keeps s0 s) (p : Port) (i : SlotId) (d : Die) : Keeps s0 (State.fenceFle s p i d) := by
  unfold State.fenceFle
  repeat' (first | with_reducible assumption | with_reducible apply State.markFenced_keeps | with_reducible apply State.fenceDone_keeps | with_reducible apply State.keepReq_keeps | split | with_reducible apply keeps_foldl | with_reducible apply keeps_foldl1 | with_reducible apply keeps_foldl2 | with_reducible apply keeps_foldl22 | intro _ | dsimp only | simp only [keeps_mk, keepsT_self])

theorem State.fenceLpe_keeps {s0 s : State} (h : Keeps s0 s) (d : Die) : Keeps s0 (State.fenceLpe s d) := by
  unfold State.fenceLpe
  repeat' (first | with_reducible assumption | with_reducible apply State.markFenced_keeps | split | with_reducible apply keeps_foldl | with_reducible apply keeps_foldl1 | with_reducible apply keeps_foldl2 | with_reducible apply keeps_foldl22 | intro _ | dsimp only | simp only [keeps_mk, keepsT_self])

theorem State.marched_keeps {s0 s : State} (h : Keeps s0 s) (c : ClusId) : Keeps s0 (State.marched s c) := by
  unfold State.marched
  repeat' (first | with_reducible assumption | with_reducible apply State.undefine_keeps | split | with_reducible apply keeps_foldl | with_reducible apply keeps_foldl1 | with_reducible apply keeps_foldl2 | with_reducible apply keeps_foldl22 | intro _ | dsimp only | simp only [keeps_mk, keepsT_self])

theorem State.pkgTesting_keeps {s0 s : State} (h : Keeps s0 s) (st : PkgState) : Keeps s0 (State.pkgTesting s st) := by
  unfold State.pkgTesting
  repeat' (first | with_reducible assumption | split | with_reducible apply keeps_foldl | with_reducible apply keeps_foldl1 | with_reducible apply keeps_foldl2 | with_reducible apply keeps_foldl22 | intro _ | dsimp only | simp only [keeps_mk, keepsT_self])

theorem State.tested_keeps {s0 s : State} (h : Keeps s0 s) (k : Nat) (n : Nat) (failed : Bool) : Keeps s0 (State.tested s k n failed) := by
  unfold State.tested
  repeat' (first | with_reducible assumption | with_reducible apply State.marched_keeps | with_reducible apply State.pkgTesting_keeps | split | with_reducible apply keeps_foldl | with_reducible apply keeps_foldl1 | with_reducible apply keeps_foldl2 | with_reducible apply keeps_foldl22 | intro _ | dsimp only | simp only [keeps_mk, keepsT_self])

theorem State.lpeReturn_keeps {s0 s : State} (h : Keeps s0 s) (d : Die) : Keeps s0 (State.lpeReturn s d) := by
  unfold State.lpeReturn
  repeat' (first | with_reducible assumption | split | with_reducible apply keeps_foldl | intro _ | dsimp only | simp only [keeps_mk, keepsT_self])

theorem State.unitBack_keeps {s0 s : State} (h : Keeps s0 s) (k : Nat) (n : Nat) : Keeps s0 (State.unitBack s k n) := by
  unfold State.unitBack
  repeat' (first | with_reducible assumption | with_reducible apply State.lpeReturn_keeps | with_reducible apply State.ethIdle_keeps | with_reducible apply State.unmarkFenced_keeps | with_reducible apply State.unfillClus_keeps | with_reducible apply State.setEth_keeps | with_reducible apply State.setCam_keeps | with_reducible apply State.recReturn_keeps | with_reducible apply State.setSph_keeps | split | with_reducible apply keeps_foldl | with_reducible apply keeps_foldl1 | with_reducible apply keeps_foldl2 | with_reducible apply keeps_foldl22 | intro _ | dsimp only | simp only [keeps_mk, keepsT_self])

theorem State.returnPackage_keeps {s0 s : State} (h : Keeps s0 s) (p : Port) (i : SlotId) (n : Nat) : Keeps s0 (State.returnPackage s p i n) := by
  unfold State.returnPackage
  repeat' (first | with_reducible assumption | with_reducible apply State.answerOk_keeps | with_reducible apply State.unitNotReady_keeps | split | with_reducible apply keeps_foldl | with_reducible apply keeps_foldl1 | with_reducible apply keeps_foldl2 | with_reducible apply keeps_foldl22 | intro _ | dsimp only | simp only [keeps_mk, keepsT_self])

theorem State.logBoot_keeps {s0 s : State} (h : Keeps s0 s) (step : Nat) (ok : Bool) : Keeps s0 (State.logBoot s step ok) := by
  unfold State.logBoot
  repeat' (first | with_reducible assumption | with_reducible apply State.log_keeps | split | with_reducible apply keeps_foldl | with_reducible apply keeps_foldl1 | with_reducible apply keeps_foldl2 | with_reducible apply keeps_foldl22 | intro _ | dsimp only | simp only [keeps_mk, keepsT_self])

theorem State.openCount_keeps {s0 s : State} (h : Keeps s0 s)  : Keeps s0 (State.openCount s) := by
  unfold State.openCount
  repeat' (first | with_reducible assumption | split | with_reducible apply keeps_foldl | with_reducible apply keeps_foldl1 | with_reducible apply keeps_foldl2 | with_reducible apply keeps_foldl22 | intro _ | dsimp only | simp only [keeps_mk, keepsT_self])

theorem State.logFails_keeps {s0 s : State} (h : Keeps s0 s) (z1 : Nat) (z2 : List Nat) : Keeps s0 (State.logFails s z1 z2) := by
  induction z2 generalizing s z1 with
  | nil =>
    unfold State.logFails
    repeat' (first | with_reducible assumption | with_reducible apply State.log_keeps | with_reducible apply State.openCount_keeps | split | with_reducible apply keeps_foldl | with_reducible apply keeps_foldl1 | with_reducible apply keeps_foldl2 | with_reducible apply keeps_foldl22 | intro _ | dsimp only | simp only [keeps_mk, keepsT_self])
  | cons x xs ih =>
    unfold State.logFails
    repeat' (first | with_reducible assumption | with_reducible apply ih | with_reducible apply State.log_keeps | with_reducible apply State.openCount_keeps | split | with_reducible apply keeps_foldl | with_reducible apply keeps_foldl1 | with_reducible apply keeps_foldl2 | with_reducible apply keeps_foldl22 | intro _ | dsimp only | simp only [keeps_mk, keepsT_self])

theorem State.bootConfig_keeps {s0 s : State} (h : Keeps s0 s)  : Keeps s0 (State.bootConfig s) := by
  unfold State.bootConfig
  repeat' (first | with_reducible assumption | with_reducible apply State.logBoot_keeps | with_reducible apply State.flagIf_keeps | with_reducible apply State.flag_keeps | split | with_reducible apply keeps_foldl | with_reducible apply keeps_foldl1 | with_reducible apply keeps_foldl2 | with_reducible apply keeps_foldl22 | intro _ | dsimp only | simp only [keeps_mk, keepsT_self])

theorem State.bootImage_keeps {s0 s : State} (h : Keeps s0 s)  : Keeps s0 (State.bootImage s) := by
  unfold State.bootImage
  repeat' (first | with_reducible assumption | with_reducible apply State.startGoride_keeps | with_reducible apply State.logBoot_keeps | with_reducible apply State.flag_keeps | split | with_reducible apply keeps_foldl | with_reducible apply keeps_foldl1 | with_reducible apply keeps_foldl2 | with_reducible apply keeps_foldl22 | intro _ | dsimp only | simp only [keeps_mk, keepsT_self])

theorem State.domainsUp_keeps {s0 s : State} (h : Keeps s0 s)  : Keeps s0 (State.domainsUp s) := by
  unfold State.domainsUp
  repeat' (first | with_reducible assumption | with_reducible apply State.comeUp_keeps | with_reducible apply State.endMove_keeps | split | with_reducible apply keeps_foldl | with_reducible apply keeps_foldl1 | with_reducible apply keeps_foldl2 | with_reducible apply keeps_foldl22 | intro _ | dsimp only | simp only [keeps_mk, keepsT_self])

theorem State.resetNotice_keeps {s0 s : State} (h : Keeps s0 s) (z1 : ResetCause) : Keeps s0 (State.resetNotice s z1) := by
  unfold State.resetNotice
  repeat' (first | with_reducible assumption | with_reducible apply State.raise_keeps | split | with_reducible apply keeps_foldl | with_reducible apply keeps_foldl1 | with_reducible apply keeps_foldl2 | with_reducible apply keeps_foldl22 | intro _ | dsimp only | simp only [keeps_mk, keepsT_self])

theorem State.dropTiers_keeps {s0 s : State} (h : Keeps s0 s)  : Keeps s0 (State.dropTiers s) := by
  unfold State.dropTiers
  repeat' (first | with_reducible assumption | with_reducible apply State.abortPort_keeps | with_reducible apply State.abortWindow_keeps | split | with_reducible apply keeps_foldl | with_reducible apply keeps_foldl1 | with_reducible apply keeps_foldl2 | with_reducible apply keeps_foldl22 | intro _ | dsimp only | simp only [keeps_mk, keepsT_self])

theorem State.clearSticky_keeps {s0 s : State} (h : Keeps s0 s) (code : Nat) : Keeps s0 (State.clearSticky s code) := by
  unfold State.clearSticky
  repeat' (first | with_reducible assumption | with_reducible apply State.log_keeps | split | with_reducible apply keeps_foldl | with_reducible apply keeps_foldl1 | with_reducible apply keeps_foldl2 | with_reducible apply keeps_foldl22 | intro _ | dsimp only | simp only [keeps_mk, keepsT_self])

theorem State.resetDetach_keeps {s0 s : State} (h : Keeps s0 s) (p : Port) : Keeps s0 (State.resetDetach s p) := by
  unfold State.resetDetach
  repeat' (first | with_reducible assumption | with_reducible apply State.setPort_keeps | with_reducible apply State.log_keeps | split | with_reducible apply keeps_foldl | with_reducible apply keeps_foldl1 | with_reducible apply keeps_foldl2 | with_reducible apply keeps_foldl22 | intro _ | dsimp only | simp only [keeps_mk, keepsT_self])

theorem State.resetSlots_keeps {s0 s : State} (h : Keeps s0 s) (keep : Option (Port × SlotId)) : Keeps s0 (State.resetSlots s keep) := by
  unfold State.resetSlots
  repeat' (first | with_reducible assumption | with_reducible apply State.setPort_keeps | split | with_reducible apply keeps_foldl | with_reducible apply keeps_foldl1 | with_reducible apply keeps_foldl2 | with_reducible apply keeps_foldl22 | intro _ | dsimp only | simp only [keeps_mk, keepsT_self])

theorem State.resetEcc_keeps {s0 s : State} (h : Keeps s0 s)  : Keeps s0 (State.resetEcc s) := by
  unfold State.resetEcc
  repeat' (first | with_reducible assumption | split | with_reducible apply keeps_foldl | with_reducible apply keeps_foldl1 | with_reducible apply keeps_foldl2 | with_reducible apply keeps_foldl22 | intro _ | dsimp only | simp only [keeps_mk, keepsT_self])

theorem State.resetPair_keeps {s0 s : State} (h : Keeps s0 s) (r : PairId) : Keeps s0 (State.resetPair s r) := by
  unfold State.resetPair
  repeat' (first | with_reducible assumption | with_reducible apply State.unfillClus_keeps | with_reducible apply State.setPair_keeps | split | with_reducible apply keeps_foldl | with_reducible apply keeps_foldl1 | with_reducible apply keeps_foldl2 | with_reducible apply keeps_foldl22 | intro _ | dsimp only | simp only [keeps_mk, keepsT_self])

theorem State.resetSiphon_keeps {s0 s : State} (h : Keeps s0 s)  : Keeps s0 (State.resetSiphon s) := by
  unfold State.resetSiphon
  repeat' (first | with_reducible assumption | with_reducible apply State.checkRoles_keeps | with_reducible apply State.log_keeps | with_reducible apply State.sendRole_keeps | split | with_reducible apply keeps_foldl | with_reducible apply keeps_foldl1 | with_reducible apply keeps_foldl2 | with_reducible apply keeps_foldl22 | intro _ | dsimp only | simp only [keeps_mk, keepsT_self])

theorem State.resetLoop_keeps {s0 s : State} (h : Keeps s0 s)  : Keeps s0 (State.resetLoop s) := by
  unfold State.resetLoop
  repeat' (first | with_reducible assumption | split | with_reducible apply keeps_foldl | with_reducible apply keeps_foldl1 | with_reducible apply keeps_foldl2 | with_reducible apply keeps_foldl22 | intro _ | dsimp only | simp only [keeps_mk, keepsT_self])

theorem State.resetPins_keeps {s0 s : State} (h : Keeps s0 s)  : Keeps s0 (State.resetPins s) := by
  unfold State.resetPins
  repeat' (first | with_reducible assumption | with_reducible apply State.emit_keeps | split | with_reducible apply keeps_foldl | with_reducible apply keeps_foldl1 | with_reducible apply keeps_foldl2 | with_reducible apply keeps_foldl22 | intro _ | dsimp only | simp only [keeps_mk, keepsT_self])

theorem State.resetPower_keeps {s0 s : State} (h : Keeps s0 s)  : Keeps s0 (State.resetPower s) := by
  unfold State.resetPower
  repeat' (first | with_reducible assumption | with_reducible apply State.applySkip_keeps | split | with_reducible apply keeps_foldl | with_reducible apply keeps_foldl1 | with_reducible apply keeps_foldl2 | with_reducible apply keeps_foldl22 | intro _ | dsimp only | simp only [keeps_mk, keepsT_self])

theorem State.resetFront_keeps {s0 s : State} (h : Keeps s0 s)  : Keeps s0 (State.resetFront s) := by
  unfold State.resetFront
  repeat' (first | with_reducible assumption | split | with_reducible apply keeps_foldl | with_reducible apply keeps_foldl1 | with_reducible apply keeps_foldl2 | with_reducible apply keeps_foldl22 | intro _ | dsimp only | simp only [keeps_mk, keepsT_self])

theorem State.deviceReset_keeps {s0 s : State} (h : Keeps s0 s) (c : ResetCause) (st : BitVec 4) : Keeps s0 (State.deviceReset s c st) := by
  unfold State.deviceReset
  repeat' (first | with_reducible assumption | with_reducible apply State.resetNotice_keeps | with_reducible apply State.resetDetach_keeps | with_reducible apply State.clearSticky_keeps | with_reducible apply State.dropTiers_keeps | with_reducible apply State.resetSiphon_keeps | with_reducible apply State.resetPins_keeps | with_reducible apply State.resetEcc_keeps | with_reducible apply State.resetFront_keeps | with_reducible apply State.resetSlots_keeps | with_reducible apply State.resetPair_keeps | with_reducible apply State.resetPower_keeps | with_reducible apply State.resetLoop_keeps | with_reducible apply State.ethReset_keeps | with_reducible apply State.recReset_keeps | with_reducible apply State.intakeReset_keeps | with_reducible apply State.attnReset_keeps | with_reducible apply State.strReset_keeps | split | with_reducible apply keeps_foldl | with_reducible apply keeps_foldl1 | with_reducible apply keeps_foldl2 | with_reducible apply keeps_foldl22 | intro _ | dsimp only | simp only [keeps_mk, keepsT_self])

theorem State.clearHighWater_keeps {s0 s : State} (h : Keeps s0 s) (n : CoreId) : Keeps s0 (State.clearHighWater s n) := by
  unfold State.clearHighWater
  repeat' (first | with_reducible assumption | split | with_reducible apply keeps_foldl | with_reducible apply keeps_foldl1 | with_reducible apply keeps_foldl2 | with_reducible apply keeps_foldl22 | intro _ | dsimp only | simp only [keeps_mk, keepsT_self])

theorem State.clearBits_keeps {s0 s : State} (h : Keeps s0 s) (off : Nat) (v : W32) : Keeps s0 (State.clearBits s off v) := by
  unfold State.clearBits
  repeat' (first | with_reducible assumption | with_reducible apply State.clearHighWater_keeps | split | with_reducible apply keeps_foldl | with_reducible apply keeps_foldl1 | with_reducible apply keeps_foldl2 | with_reducible apply keeps_foldl22 | intro _ | dsimp only | simp only [keeps_mk, keepsT_self])

theorem State.writeCrIrq_keeps {s0 s : State} (h : Keeps s0 s) (p : Port) (q : PartId) (k : QueId) (v : W32) : Keeps s0 (State.writeCrIrq s p q k v) := by
  unfold State.writeCrIrq
  repeat' (first | with_reducible assumption | with_reducible apply State.setQueue_keeps | with_reducible apply State.flag_keeps | split | with_reducible apply keeps_foldl | with_reducible apply keeps_foldl1 | with_reducible apply keeps_foldl2 | with_reducible apply keeps_foldl22 | intro _ | dsimp only | simp only [keeps_mk, keepsT_self])

theorem State.writeMsix_keeps {s0 s : State} (h : Keeps s0 s) (p : Port) (n : Fin 64) (word : Nat) (v : W32) : Keeps s0 (State.writeMsix s p n word v) := by
  unfold State.writeMsix
  repeat' (first | with_reducible assumption | with_reducible apply State.setPort_keeps | with_reducible apply State.emit_keeps | split | with_reducible apply keeps_foldl | with_reducible apply keeps_foldl1 | with_reducible apply keeps_foldl2 | with_reducible apply keeps_foldl22 | intro _ | dsimp only | simp only [keeps_mk, keepsT_self])

theorem State.writeSig_keeps {s0 s : State} (h : Keeps s0 s) (p : Port) (q : PartId) (i : SemId) (v : W32) : Keeps s0 (State.writeSig s p q i v) := by
  unfold State.writeSig
  repeat' (first | with_reducible assumption | with_reducible apply State.setPart_keeps | with_reducible apply State.flag_keeps | split | with_reducible apply keeps_foldl | with_reducible apply keeps_foldl1 | with_reducible apply keeps_foldl2 | with_reducible apply keeps_foldl22 | intro _ | dsimp only | simp only [keeps_mk, keepsT_self])

theorem State.writeTb_keeps {s0 s : State} (h : Keeps s0 s) (p : Port) (o : Nat) (v : W32) : Keeps s0 (State.writeTb s p o v) := by
  unfold State.writeTb
  repeat' (first | with_reducible assumption | with_reducible apply State.setPort_keeps | with_reducible apply State.ppsRestart_keeps | split | with_reducible apply keeps_foldl | with_reducible apply keeps_foldl1 | with_reducible apply keeps_foldl2 | with_reducible apply keeps_foldl22 | intro _ | dsimp only | simp only [keeps_mk, keepsT_self])

theorem State.writeCam_keeps {s0 s : State} (h : Keeps s0 s) (p : Port) (v : CamId) (k : Nat) (x : W32) : Keeps s0 (State.writeCam s p v k x) := by
  unfold State.writeCam
  repeat' (first | with_reducible assumption | with_reducible apply State.flag_keeps | with_reducible apply State.setCam_keeps | split | with_reducible apply keeps_foldl | with_reducible apply keeps_foldl1 | with_reducible apply keeps_foldl2 | with_reducible apply keeps_foldl22 | intro _ | dsimp only | simp only [keeps_mk, keepsT_self])

theorem State.writeTdm_keeps {s0 s : State} (h : Keeps s0 s) (t : TdmId) (v : W32) : Keeps s0 (State.writeTdm s t v) := by
  unfold State.writeTdm
  repeat' (first | with_reducible assumption | with_reducible apply State.emit_keeps | split | with_reducible apply keeps_foldl | with_reducible apply keeps_foldl1 | with_reducible apply keeps_foldl2 | with_reducible apply keeps_foldl22 | intro _ | dsimp only | simp only [keeps_mk, keepsT_self])

theorem State.writePipe_keeps {s0 s : State} (h : Keeps s0 s) (p : Port) (i : PipeId) (k : Nat) (v : W32) : Keeps s0 (State.writePipe s p i k v) := by
  unfold State.writePipe
  repeat' (first | with_reducible assumption | with_reducible apply State.flag_keeps | with_reducible apply State.setPipe_keeps | split | with_reducible apply keeps_foldl | with_reducible apply keeps_foldl1 | with_reducible apply keeps_foldl2 | with_reducible apply keeps_foldl22 | intro _ | dsimp only | simp only [keeps_mk, keepsT_self])

theorem State.writeAxis_keeps {s0 s : State} (h : Keeps s0 s) (p : Port) (a : AxisId) (k : Nat) (v : W32) : Keeps s0 (State.writeAxis s p a k v) := by
  unfold State.writeAxis
  repeat' (first | with_reducible assumption | with_reducible apply State.flag_keeps | split | with_reducible apply keeps_foldl | with_reducible apply keeps_foldl1 | with_reducible apply keeps_foldl2 | with_reducible apply keeps_foldl22 | intro _ | dsimp only | simp only [keeps_mk, keepsT_self])

theorem State.writeStation_keeps {s0 s : State} (h : Keeps s0 s) (p : Port) (j : StationId) (k : Nat) (v : W32) : Keeps s0 (State.writeStation s p j k v) := by
  unfold State.writeStation
  repeat' (first | with_reducible assumption | with_reducible apply State.flag_keeps | split | with_reducible apply keeps_foldl | with_reducible apply keeps_foldl1 | with_reducible apply keeps_foldl2 | with_reducible apply keeps_foldl22 | intro _ | dsimp only | simp only [keeps_mk, keepsT_self])

theorem State.writeEth_keeps {s0 s : State} (h : Keeps s0 s) (p : Port) (e : EthId) (k : Nat) (v : W32) : Keeps s0 (State.writeEth s p e k v) := by
  unfold State.writeEth
  repeat' (first | with_reducible assumption | with_reducible apply State.flag_keeps | with_reducible apply State.setEth_keeps | split | with_reducible apply keeps_foldl | with_reducible apply keeps_foldl1 | with_reducible apply keeps_foldl2 | with_reducible apply keeps_foldl22 | intro _ | dsimp only | simp only [keeps_mk, keepsT_self])

theorem State.writeMcast_keeps {s0 s : State} (h : Keeps s0 s) (p : Port) (e : EthId) (i : Fin 32) (word : Nat) (v : W32) : Keeps s0 (State.writeMcast s p e i word v) := by
  unfold State.writeMcast
  repeat' (first | with_reducible assumption | with_reducible apply State.setEth_keeps | with_reducible apply State.flag_keeps | split | with_reducible apply keeps_foldl | with_reducible apply keeps_foldl1 | with_reducible apply keeps_foldl2 | with_reducible apply keeps_foldl22 | intro _ | dsimp only | simp only [keeps_mk, keepsT_self])

theorem State.writePair_keeps {s0 s : State} (h : Keeps s0 s) (r : PairId) (k : Nat) (v : W32) : Keeps s0 (State.writePair s r k v) := by
  unfold State.writePair
  repeat' (first | with_reducible assumption | with_reducible apply State.flag_keeps | with_reducible apply State.setPair_keeps | split | with_reducible apply keeps_foldl | with_reducible apply keeps_foldl1 | with_reducible apply keeps_foldl2 | with_reducible apply keeps_foldl22 | intro _ | dsimp only | simp only [keeps_mk, keepsT_self])

theorem State.writeSph_keeps {s0 s : State} (h : Keeps s0 s) (off : Nat) (v : W32) : Keeps s0 (State.writeSph s off v) := by
  unfold State.writeSph
  repeat' (first | with_reducible assumption | with_reducible apply State.setSph_keeps | split | with_reducible apply keeps_foldl | with_reducible apply keeps_foldl1 | with_reducible apply keeps_foldl2 | with_reducible apply keeps_foldl22 | intro _ | dsimp only | simp only [keeps_mk, keepsT_self])

theorem State.writeMirror_keeps {s0 s : State} (h : Keeps s0 s) (r : MirId) (k : Nat) (v : W32) : Keeps s0 (State.writeMirror s r k v) := by
  unfold State.writeMirror
  repeat' (first | with_reducible assumption | split | with_reducible apply keeps_foldl | with_reducible apply keeps_foldl1 | with_reducible apply keeps_foldl2 | with_reducible apply keeps_foldl22 | intro _ | dsimp only | simp only [keeps_mk, keepsT_self])

theorem State.writeMeas_keeps {s0 s : State} (h : Keeps s0 s) (p : Port) (q : PartId) (k : Nat) (v : W32) : Keeps s0 (State.writeMeas s p q k v) := by
  unfold State.writeMeas
  repeat' (first | with_reducible assumption | with_reducible apply State.flag_keeps | with_reducible apply State.setMeas_keeps | split | with_reducible apply keeps_foldl | with_reducible apply keeps_foldl1 | with_reducible apply keeps_foldl2 | with_reducible apply keeps_foldl22 | intro _ | dsimp only | simp only [keeps_mk, keepsT_self])

theorem State.writeDet_keeps {s0 s : State} (h : Keeps s0 s) (off : Nat) (v : W32) : Keeps s0 (State.writeDet s off v) := by
  unfold State.writeDet
  repeat' (first | with_reducible assumption | with_reducible apply State.setDet_keeps | split | with_reducible apply keeps_foldl | with_reducible apply keeps_foldl1 | with_reducible apply keeps_foldl2 | with_reducible apply keeps_foldl22 | intro _ | dsimp only | simp only [keeps_mk, keepsT_self])

theorem State.writeBlocks_keeps {s0 s : State} (h : Keeps s0 s) (p : Port) (off : Nat) (v : W32) : Keeps s0 (s.writeBlocks p off v) := by
  unfold State.writeBlocks
  dsimp only
  repeat' (first | with_reducible assumption | with_reducible refine keeps_ite (fun _ => ?_) (fun _ => ?_) | with_reducible apply State.writeSig_keeps | with_reducible apply State.writeDet_keeps | with_reducible apply State.writeCam_keeps | with_reducible apply State.writeTdm_keeps | with_reducible apply State.writePipe_keeps | with_reducible apply State.writeAxis_keeps | with_reducible apply State.writeStation_keeps | with_reducible apply State.writeEth_keeps | with_reducible apply State.writeMcast_keeps | with_reducible apply State.writePair_keeps | with_reducible apply State.writeSph_keeps | with_reducible apply State.writeMirror_keeps | with_reducible apply State.writeMeas_keeps | split | with_reducible apply keeps_foldl | with_reducible apply keeps_foldl1 | with_reducible apply keeps_foldl2 | with_reducible apply keeps_foldl22 | intro _ | dsimp only | simp only [keeps_mk, keepsT_self])


theorem State.writeReg_keeps {s0 s : State} (h : Keeps s0 s) (p : Port) (off : Nat) (v : W32) : Keeps s0 (State.writeReg s p off v) := by
  unfold State.writeReg
  repeat' (first | with_reducible assumption | with_reducible apply State.setPort_keeps | with_reducible apply State.writeTb_keeps | with_reducible apply State.writeBlocks_keeps | with_reducible apply State.writeCrIrq_keeps | with_reducible apply State.writeMsix_keeps | split | with_reducible apply keeps_foldl | with_reducible apply keeps_foldl1 | with_reducible apply keeps_foldl2 | with_reducible apply keeps_foldl22 | intro _ | dsimp only | simp only [keeps_mk, keepsT_self])

theorem State.writeFunction_keeps {s0 s : State} (h : Keeps s0 s) (p : Port) (off : Nat) (v : W32) : Keeps s0 (State.writeFunction s p off v) := by
  unfold State.writeFunction
  repeat' (first | with_reducible assumption | with_reducible apply State.setPort_keeps | split | with_reducible apply keeps_foldl | with_reducible apply keeps_foldl1 | with_reducible apply keeps_foldl2 | with_reducible apply keeps_foldl22 | intro _ | dsimp only | simp only [keeps_mk, keepsT_self])

theorem State.countReached_keeps {s0 s : State} (h : Keeps s0 s)  : Keeps s0 (State.countReached s) := by
  unfold State.countReached
  repeat' (first | with_reducible assumption | with_reducible apply State.sampleInstants_keeps | with_reducible apply State.tbOpGo_keeps | split | with_reducible apply keeps_foldl | with_reducible apply keeps_foldl1 | with_reducible apply keeps_foldl2 | with_reducible apply keeps_foldl22 | intro _ | dsimp only | simp only [keeps_mk, keepsT_self])

theorem State.countStalls_keeps {s0 s : State} (h : Keeps s0 s)  : Keeps s0 (State.countStalls s) := by
  unfold State.countStalls
  repeat' (first | with_reducible assumption | split | with_reducible apply keeps_foldl | with_reducible apply keeps_foldl1 | with_reducible apply keeps_foldl2 | with_reducible apply keeps_foldl22 | intro _ | dsimp only | simp only [keeps_mk, keepsT_self])

theorem State.entryStalls_keeps {s0 s : State} (h : Keeps s0 s)  : Keeps s0 (State.entryStalls s) := by
  unfold State.entryStalls
  repeat' (first | with_reducible assumption | split | with_reducible apply keeps_foldl | with_reducible apply keeps_foldl1 | with_reducible apply keeps_foldl2 | with_reducible apply keeps_foldl22 | intro _ | dsimp only | simp only [keeps_mk, keepsT_self])

theorem State.iosGo_keeps {s0 s : State} (h : Keeps s0 s)  : Keeps s0 (State.iosGo s) := by
  unfold State.iosGo
  repeat' (first | with_reducible assumption | with_reducible apply State.ioAll_keeps | split | with_reducible apply keeps_foldl | with_reducible apply keeps_foldl1 | with_reducible apply keeps_foldl2 | with_reducible apply keeps_foldl22 | intro _ | dsimp only | simp only [keeps_mk, keepsT_self])

theorem State.bankStalls_keeps {s0 s : State} (h : Keeps s0 s)  : Keeps s0 (State.bankStalls s) := by
  unfold State.bankStalls
  repeat' (first | with_reducible assumption | split | with_reducible apply keeps_foldl | with_reducible apply keeps_foldl1 | with_reducible apply keeps_foldl2 | with_reducible apply keeps_foldl22 | intro _ | dsimp only | simp only [keeps_mk, keepsT_self])

theorem State.cycle_keeps {s0 s : State} (h : Keeps s0 s)  : Keeps s0 (State.cycle s) := by
  unfold State.cycle
  repeat' (first | with_reducible assumption | with_reducible apply State.countReached_keeps | with_reducible apply State.drained_keeps | with_reducible apply State.countStalls_keeps | with_reducible apply State.regSweep_keeps | with_reducible apply State.iosGo_keeps | with_reducible apply State.bankStalls_keeps | with_reducible apply State.entryStalls_keeps | with_reducible apply State.nextExchange_keeps | with_reducible apply State.twinsTick_keeps | with_reducible apply State.aclkTick_keeps | split | with_reducible apply keeps_foldl | with_reducible apply keeps_foldl1 | with_reducible apply keeps_foldl2 | with_reducible apply keeps_foldl22 | intro _ | dsimp only | simp only [keeps_mk, keepsT_self])

theorem tick_keeps {s0 s : State} (h : Keeps s0 s)  : Keeps s0 (tick s) := by
  unfold tick
  repeat' (first | with_reducible assumption | with_reducible apply settle_keeps | with_reducible apply State.cycle_keeps | split | with_reducible apply keeps_foldl | with_reducible apply keeps_foldl1 | with_reducible apply keeps_foldl2 | with_reducible apply keeps_foldl22 | intro _ | dsimp only | simp only [keeps_mk, keepsT_self])





end Sys2Proof.Machine
end

