-- ==== Sys2Proof/Laws/Settle.lean ====
section
/-! SUPPORT. What settle does: it adds event log entries, MSI-X pending bits and messages, and nothing else. -/
namespace Sys2Proof.Machine

/-- Setting a pending bit leaves the still part of a port. -/
theorem HostPort.still_pend (h : HostPort) (v : Nat) (hv : v < 64) :
    HostPort.still { h with msix := h.msix.set v { h.msix[v] with pending := true } } = HostPort.still h := by
  simp only [HostPort.still, HostPort.mk.injEq, true_and, and_true]
  ext i hi
  · simp only [Vector.getElem_map, Vector.getElem_set]
    split
    · rename_i hh; subst hh; rfl
    · rfl
  all_goals
    simp only [Vector.getElem_map, Vector.getElem_set]
    split
    · rename_i hh; subst hh; rfl
    · rfl

theorem State.still_log (s : State) (code sub inst : Nat) (args : List Byte) : (s.log code sub inst args).still = s.still := rfl

theorem State.still_emit (s : State) (o : Out) : (s.emit o).still = s.still := rfl

/-- Replacing a port by one with the same still part. -/
theorem State.still_setPort (s : State) (p : Port) (h : HostPort) (e : h.still = (s.port p).still) : (s.setPort p h).still = s.still := by
  simp only [State.still, State.setPort, State.mk.injEq, true_and, and_true]
  apply Vector.ext
  intro i hi
  simp only [Vector.getElem_map, Vector.getElem_set]
  split
  · rename_i hh; subst hh; simpa [State.port] using e
  · rfl

theorem State.still_raise (s : State) (p : Port) (v : Nat) : (s.raise p v).still = s.still := by
  unfold State.raise
  split
  · simp only
    split
    · rfl
    · split
      · exact s.still_setPort p _ (HostPort.still_pend _ v ‹_›)
      · rfl
  · rfl

/-- A fold of updates that keep the still part keeps it. -/
theorem still_foldl {α : Type} (f : State → α → State) (h : ∀ t x, (f t x).still = t.still) (l : List α) (s : State) :
    (l.foldl f s).still = s.still := by
  induction l generalizing s with
  | nil => rfl
  | cons x xs ih => simp [ih, h]

theorem logSticky_still (b a : State) : (logSticky b a).still = a.still := by
  unfold logSticky
  apply still_foldl
  intro t k
  split
  · rfl
  · rfl

theorem State.still_v1 (s : State) (v : Bool) : { s with v1Raised := v }.still = s.still := rfl

theorem alertVector_still (b a : State) : (alertVector b a).still = a.still := by
  simp only [alertVector]
  split
  · rw [State.still_v1, State.still_raise, State.still_raise]
  · rfl

/-- settle leaves the still part of a state. -/
@[simp] theorem settle_still (b a : State) : (settle b a).still = a.still := by
  rw [settle, alertVector_still, logSticky_still]

/-- A command that ends in `done s u` gives every state with the still part of `u`. -/
theorem gives_done {c : Instr} {s u v : State} (h : exec c s = done s u) (e : u.still = v.still) : Sys2Proof.Safety.Gives c s v :=
  ⟨settle s u, h, by rw [settle_still, e]⟩

/-- A command that ends in `done s u` leads to the settled `u`. -/
theorem leads_done {c : Instr} {s u : State} {P : State → Prop} (h : exec c s = done s u) (e : P (settle s u)) : Sys2Proof.Safety.Leads c s P :=
  ⟨settle s u, h, e⟩

/-- States with the same still part agree in a field that the still part keeps. -/
theorem still_field {α : Type} (f : State → α) (hf : ∀ s, f s.still = f s) {s t : State} (h : s.still = t.still) : f s = f t := by
  rw [← hf s, ← hf t, h]

/-! settle, field by field -/
@[simp] theorem settle_sys (b a : State) : (settle b a).sys = a.sys := still_field (·.sys) (fun _ => rfl) (settle_still b a)
@[simp] theorem settle_counter (b a : State) : (settle b a).counter = a.counter := still_field (·.counter) (fun _ => rfl) (settle_still b a)
@[simp] theorem settle_reqs (b a : State) : (settle b a).reqs = a.reqs := still_field (·.reqs) (fun _ => rfl) (settle_still b a)
@[simp] theorem settle_sems (b a : State) : (settle b a).sems = a.sems := still_field (·.sems) (fun _ => rfl) (settle_still b a)
@[simp] theorem settle_errs (b a : State) : (settle b a).errs = a.errs := still_field (·.errs) (fun _ => rfl) (settle_still b a)
@[simp] theorem settle_cnts (b a : State) : (settle b a).cnts = a.cnts := still_field (·.cnts) (fun _ => rfl) (settle_still b a)
@[simp] theorem settle_parts (b a : State) : (settle b a).parts = a.parts := still_field (·.parts) (fun _ => rfl) (settle_still b a)
@[simp] theorem settle_cmds (b a : State) : (settle b a).cmds = a.cmds := still_field (·.cmds) (fun _ => rfl) (settle_still b a)
@[simp] theorem settle_admitNext (b a : State) : (settle b a).admitNext = a.admitNext := still_field (·.admitNext) (fun _ => rfl) (settle_still b a)
@[simp] theorem settle_issuedNow (b a : State) : (settle b a).issuedNow = a.issuedNow := still_field (·.issuedNow) (fun _ => rfl) (settle_still b a)
@[simp] theorem settle_issueNext (b a : State) : (settle b a).issueNext = a.issueNext := still_field (·.issueNext) (fun _ => rfl) (settle_still b a)
@[simp] theorem settle_keys (b a : State) : (settle b a).keys = a.keys := still_field (·.keys) (fun _ => rfl) (settle_still b a)
@[simp] theorem settle_ops (b a : State) : (settle b a).ops = a.ops := still_field (·.ops) (fun _ => rfl) (settle_still b a)
@[simp] theorem settle_opNext (b a : State) : (settle b a).opNext = a.opNext := still_field (·.opNext) (fun _ => rfl) (settle_still b a)
@[simp] theorem settle_scHalt (b a : State) : (settle b a).scHalt = a.scHalt := still_field (·.scHalt) (fun _ => rfl) (settle_still b a)
@[simp] theorem settle_halted (b a : State) : (settle b a).halted = a.halted := still_field (·.halted) (fun _ => rfl) (settle_still b a)
@[simp] theorem settle_mem (b a : State) : (settle b a).mem = a.mem := still_field (·.mem) (fun _ => rfl) (settle_still b a)
@[simp] theorem settle_undef (b a : State) : (settle b a).undef = a.undef := still_field (·.undef) (fun _ => rfl) (settle_still b a)
@[simp] theorem settle_poison (b a : State) : (settle b a).poison = a.poison := still_field (·.poison) (fun _ => rfl) (settle_still b a)
@[simp] theorem settle_ecc (b a : State) : (settle b a).ecc = a.ecc := still_field (·.ecc) (fun _ => rfl) (settle_still b a)
@[simp] theorem settle_hw (b a : State) : (settle b a).hw = a.hw := still_field (·.hw) (fun _ => rfl) (settle_still b a)
@[simp] theorem settle_pools (b a : State) : (settle b a).pools = a.pools := still_field (·.pools) (fun _ => rfl) (settle_still b a)
@[simp] theorem settle_hostMem (b a : State) : (settle b a).hostMem = a.hostMem := still_field (·.hostMem) (fun _ => rfl) (settle_still b a)
@[simp] theorem settle_ecs (b a : State) : (settle b a).ecs = a.ecs := still_field (·.ecs) (fun _ => rfl) (settle_still b a)
@[simp] theorem settle_fence (b a : State) : (settle b a).fence = a.fence := still_field (·.fence) (fun _ => rfl) (settle_still b a)
@[simp] theorem settle_regions (b a : State) : (settle b a).regions = a.regions := still_field (·.regions) (fun _ => rfl) (settle_still b a)
@[simp] theorem settle_windows (b a : State) : (settle b a).windows = a.windows := still_field (·.windows) (fun _ => rfl) (settle_still b a)
@[simp] theorem settle_streams (b a : State) : (settle b a).streams = a.streams := still_field (·.streams) (fun _ => rfl) (settle_still b a)
@[simp] theorem settle_groups (b a : State) : (settle b a).groups = a.groups := still_field (·.groups) (fun _ => rfl) (settle_still b a)
@[simp] theorem settle_strPeek (b a : State) : (settle b a).strPeek = a.strPeek := still_field (·.strPeek) (fun _ => rfl) (settle_still b a)
@[simp] theorem settle_heaps (b a : State) : (settle b a).heaps = a.heaps := still_field (·.heaps) (fun _ => rfl) (settle_still b a)
@[simp] theorem settle_seqs (b a : State) : (settle b a).seqs = a.seqs := still_field (·.seqs) (fun _ => rfl) (settle_still b a)
@[simp] theorem settle_spills (b a : State) : (settle b a).spills = a.spills := still_field (·.spills) (fun _ => rfl) (settle_still b a)
@[simp] theorem settle_returns (b a : State) : (settle b a).returns = a.returns := still_field (·.returns) (fun _ => rfl) (settle_still b a)
@[simp] theorem settle_det (b a : State) : (settle b a).det = a.det := still_field (·.det) (fun _ => rfl) (settle_still b a)
@[simp] theorem settle_cams (b a : State) : (settle b a).cams = a.cams := still_field (·.cams) (fun _ => rfl) (settle_still b a)
@[simp] theorem settle_audTable (b a : State) : (settle b a).audTable = a.audTable := still_field (·.audTable) (fun _ => rfl) (settle_still b a)
@[simp] theorem settle_audFir (b a : State) : (settle b a).audFir = a.audFir := still_field (·.audFir) (fun _ => rfl) (settle_still b a)
@[simp] theorem settle_fir (b a : State) : (settle b a).fir = a.fir := still_field (·.fir) (fun _ => rfl) (settle_still b a)
@[simp] theorem settle_bindings (b a : State) : (settle b a).bindings = a.bindings := still_field (·.bindings) (fun _ => rfl) (settle_still b a)
@[simp] theorem settle_audio (b a : State) : (settle b a).audio = a.audio := still_field (·.audio) (fun _ => rfl) (settle_still b a)
@[simp] theorem settle_tdm (b a : State) : (settle b a).tdm = a.tdm := still_field (·.tdm) (fun _ => rfl) (settle_still b a)
@[simp] theorem settle_pipes (b a : State) : (settle b a).pipes = a.pipes := still_field (·.pipes) (fun _ => rfl) (settle_still b a)
@[simp] theorem settle_axes (b a : State) : (settle b a).axes = a.axes := still_field (·.axes) (fun _ => rfl) (settle_still b a)
@[simp] theorem settle_stations (b a : State) : (settle b a).stations = a.stations := still_field (·.stations) (fun _ => rfl) (settle_still b a)
@[simp] theorem settle_lpeLatched (b a : State) : (settle b a).lpeLatched = a.lpeLatched := still_field (·.lpeLatched) (fun _ => rfl) (settle_still b a)
@[simp] theorem settle_lpeBusy (b a : State) : (settle b a).lpeBusy = a.lpeBusy := still_field (·.lpeBusy) (fun _ => rfl) (settle_still b a)
@[simp] theorem settle_tb (b a : State) : (settle b a).tb = a.tb := still_field (·.tb) (fun _ => rfl) (settle_still b a)
@[simp] theorem settle_eth (b a : State) : (settle b a).eth = a.eth := still_field (·.eth) (fun _ => rfl) (settle_still b a)
@[simp] theorem settle_pm (b a : State) : (settle b a).pm = a.pm := still_field (·.pm) (fun _ => rfl) (settle_still b a)
@[simp] theorem settle_pdOn (b a : State) : (settle b a).pdOn = a.pdOn := still_field (·.pdOn) (fun _ => rfl) (settle_still b a)
@[simp] theorem settle_pdMoves (b a : State) : (settle b a).pdMoves = a.pdMoves := still_field (·.pdMoves) (fun _ => rfl) (settle_still b a)
@[simp] theorem settle_pairs (b a : State) : (settle b a).pairs = a.pairs := still_field (·.pairs) (fun _ => rfl) (settle_still b a)
@[simp] theorem settle_sph (b a : State) : (settle b a).sph = a.sph := still_field (·.sph) (fun _ => rfl) (settle_still b a)
@[simp] theorem settle_mirrors (b a : State) : (settle b a).mirrors = a.mirrors := still_field (·.mirrors) (fun _ => rfl) (settle_still b a)
@[simp] theorem settle_setNow (b a : State) : (settle b a).setNow = a.setNow := still_field (·.setNow) (fun _ => rfl) (settle_still b a)
@[simp] theorem settle_hostErr (b a : State) : (settle b a).hostErr = a.hostErr := still_field (·.hostErr) (fun _ => rfl) (settle_still b a)
@[simp] theorem settle_cisPoison (b a : State) : (settle b a).cisPoison = a.cisPoison := still_field (·.cisPoison) (fun _ => rfl) (settle_still b a)
@[simp] theorem settle_bar2Reads (b a : State) : (settle b a).bar2Reads = a.bar2Reads := still_field (·.bar2Reads) (fun _ => rfl) (settle_still b a)
@[simp] theorem settle_recTurn (b a : State) : (settle b a).recTurn = a.recTurn := still_field (·.recTurn) (fun _ => rfl) (settle_still b a)
@[simp] theorem settle_pending (b a : State) : (settle b a).pending = a.pending := still_field (·.pending) (fun _ => rfl) (settle_still b a)
@[simp] theorem settle_fresh (b a : State) : (settle b a).fresh = a.fresh := still_field (·.fresh) (fun _ => rfl) (settle_still b a)
@[simp] theorem settle_trb_configOk (b a : State) : (settle b a).trb.configOk = a.trb.configOk := still_field (·.trb.configOk) (fun _ => rfl) (settle_still b a)
@[simp] theorem settle_trb_identityOk (b a : State) : (settle b a).trb.identityOk = a.trb.identityOk := still_field (·.trb.identityOk) (fun _ => rfl) (settle_still b a)
@[simp] theorem settle_trb_recoveryBoot (b a : State) : (settle b a).trb.recoveryBoot = a.trb.recoveryBoot := still_field (·.trb.recoveryBoot) (fun _ => rfl) (settle_still b a)
@[simp] theorem settle_trb_flash (b a : State) : (settle b a).trb.flash = a.trb.flash := still_field (·.trb.flash) (fun _ => rfl) (settle_still b a)
@[simp] theorem settle_trb_running (b a : State) : (settle b a).trb.running = a.trb.running := still_field (·.trb.running) (fun _ => rfl) (settle_still b a)
@[simp] theorem settle_trb_recovery (b a : State) : (settle b a).trb.recovery = a.trb.recovery := still_field (·.trb.recovery) (fun _ => rfl) (settle_still b a)
@[simp] theorem settle_trb_staged (b a : State) : (settle b a).trb.staged = a.trb.staged := still_field (·.trb.staged) (fun _ => rfl) (settle_still b a)
@[simp] theorem settle_trb_stagedPort (b a : State) : (settle b a).trb.stagedPort = a.trb.stagedPort := still_field (·.trb.stagedPort) (fun _ => rfl) (settle_still b a)
@[simp] theorem settle_trb_verified (b a : State) : (settle b a).trb.verified = a.trb.verified := still_field (·.trb.verified) (fun _ => rfl) (settle_still b a)
@[simp] theorem settle_trb_commit (b a : State) : (settle b a).trb.commit = a.trb.commit := still_field (·.trb.commit) (fun _ => rfl) (settle_still b a)
@[simp] theorem settle_trb_alertMask (b a : State) : (settle b a).trb.alertMask = a.trb.alertMask := still_field (·.trb.alertMask) (fun _ => rfl) (settle_still b a)
@[simp] theorem settle_trb_fenced (b a : State) : (settle b a).trb.fenced = a.trb.fenced := still_field (·.trb.fenced) (fun _ => rfl) (settle_still b a)
@[simp] theorem settle_trb_testFailed (b a : State) : (settle b a).trb.testFailed = a.trb.testFailed := still_field (·.trb.testFailed) (fun _ => rfl) (settle_still b a)
theorem State.port_still (s : State) (p : Port) : (s.still.port p) = (s.port p).still := by
  simp [State.still, State.port]
@[simp] theorem settle_port_attached (b a : State) (p : Port) : ((settle b a).port p).attached = (a.port p).attached := still_field (fun s => (s.port p).attached) (fun s => by rw [State.port_still]; rfl) (settle_still b a)
@[simp] theorem settle_port_link (b a : State) (p : Port) : ((settle b a).port p).link = (a.port p).link := still_field (fun s => (s.port p).link) (fun s => by rw [State.port_still]; rfl) (settle_still b a)
@[simp] theorem settle_port_perst (b a : State) (p : Port) : ((settle b a).port p).perst = (a.port p).perst := still_field (fun s => (s.port p).perst) (fun s => by rw [State.port_still]; rfl) (settle_still b a)
@[simp] theorem settle_port_hbPeriod (b a : State) (p : Port) : ((settle b a).port p).hbPeriod = (a.port p).hbPeriod := still_field (fun s => (s.port p).hbPeriod) (fun s => by rw [State.port_still]; rfl) (settle_still b a)
@[simp] theorem settle_port_hbLast (b a : State) (p : Port) : ((settle b a).port p).hbLast = (a.port p).hbLast := still_field (fun s => (s.port p).hbLast) (fun s => by rw [State.port_still]; rfl) (settle_still b a)
@[simp] theorem settle_port_policyClose (b a : State) (p : Port) : ((settle b a).port p).policyClose = (a.port p).policyClose := still_field (fun s => (s.port p).policyClose) (fun s => by rw [State.port_still]; rfl) (settle_still b a)
@[simp] theorem settle_port_bar2Base (b a : State) (p : Port) : ((settle b a).port p).bar2Base = (a.port p).bar2Base := still_field (fun s => (s.port p).bar2Base) (fun s => by rw [State.port_still]; rfl) (settle_still b a)
@[simp] theorem settle_port_bar2Log2 (b a : State) (p : Port) : ((settle b a).port p).bar2Log2 = (a.port p).bar2Log2 := still_field (fun s => (s.port p).bar2Log2) (fun s => by rw [State.port_still]; rfl) (settle_still b a)
@[simp] theorem settle_port_slots (b a : State) (p : Port) : ((settle b a).port p).slots = (a.port p).slots := still_field (fun s => (s.port p).slots) (fun s => by rw [State.port_still]; rfl) (settle_still b a)
@[simp] theorem settle_port_doneIrqEn (b a : State) (p : Port) : ((settle b a).port p).doneIrqEn = (a.port p).doneIrqEn := still_field (fun s => (s.port p).doneIrqEn) (fun s => by rw [State.port_still]; rfl) (settle_still b a)
@[simp] theorem settle_port_tbAdj (b a : State) (p : Port) : ((settle b a).port p).tbAdj = (a.port p).tbAdj := still_field (fun s => (s.port p).tbAdj) (fun s => by rw [State.port_still]; rfl) (settle_still b a)
@[simp] theorem settle_port_tbRateSet (b a : State) (p : Port) : ((settle b a).port p).tbRateSet = (a.port p).tbRateSet := still_field (fun s => (s.port p).tbRateSet) (fun s => by rw [State.port_still]; rfl) (settle_still b a)
@[simp] theorem settle_port_tbResStatus (b a : State) (p : Port) : ((settle b a).port p).tbResStatus = (a.port p).tbResStatus := still_field (fun s => (s.port p).tbResStatus) (fun s => by rw [State.port_still]; rfl) (settle_still b a)
@[simp] theorem settle_port_tbResCount (b a : State) (p : Port) : ((settle b a).port p).tbResCount = (a.port p).tbResCount := still_field (fun s => (s.port p).tbResCount) (fun s => by rw [State.port_still]; rfl) (settle_still b a)
@[simp] theorem settle_port_nowCnt (b a : State) (p : Port) : ((settle b a).port p).nowCnt = (a.port p).nowCnt := still_field (fun s => (s.port p).nowCnt) (fun s => by rw [State.port_still]; rfl) (settle_still b a)
@[simp] theorem settle_port_nowTime (b a : State) (p : Port) : ((settle b a).port p).nowTime = (a.port p).nowTime := still_field (fun s => (s.port p).nowTime) (fun s => by rw [State.port_still]; rfl) (settle_still b a)
@[simp] theorem settle_port_energyHi (b a : State) (p : Port) : ((settle b a).port p).energyHi = (a.port p).energyHi := still_field (fun s => (s.port p).energyHi) (fun s => by rw [State.port_still]; rfl) (settle_still b a)
@[simp] theorem settle_port_pdStatus (b a : State) (p : Port) : ((settle b a).port p).pdStatus = (a.port p).pdStatus := still_field (fun s => (s.port p).pdStatus) (fun s => by rw [State.port_still]; rfl) (settle_still b a)
@[simp] theorem settle_port_pdDomain (b a : State) (p : Port) : ((settle b a).port p).pdDomain = (a.port p).pdDomain := still_field (fun s => (s.port p).pdDomain) (fun s => by rw [State.port_still]; rfl) (settle_still b a)
@[simp] theorem settle_port_pdDone (b a : State) (p : Port) : ((settle b a).port p).pdDone = (a.port p).pdDone := still_field (fun s => (s.port p).pdDone) (fun s => by rw [State.port_still]; rfl) (settle_still b a)

end Sys2Proof.Machine
end

