-- ==== Sys2Proof/Laws/Mail.lean ====
section
/-! SUPPORT. Mailbox requests: what raising a vector and answering leave as it was, what an answered slot holds, and when a message has its own effect. -/
namespace Sys2Proof.Machine

open Sys2Proof.Safety

/-- A fold of updates that keep a field keeps it. -/
theorem foldl_field {α β : Type} (g : State → α) {f : State → β → State} (h : ∀ t x, g (f t x) = g t) (l : List β) (s : State) :
    g (l.foldl f s) = g s := by
  induction l generalizing s with
  | nil => rfl
  | cons x xs ih => rw [List.foldl_cons, ih, h]

/-! State.raise -/
@[simp] theorem State.raise_sys (s : State) (p : Port) (v : Nat) : (State.raise s p v).sys = s.sys := by unfold State.raise; split <;> (try simp only) <;> (try split) <;> (try split) <;> rfl
@[simp] theorem State.raise_counter (s : State) (p : Port) (v : Nat) : (State.raise s p v).counter = s.counter := by unfold State.raise; split <;> (try simp only) <;> (try split) <;> (try split) <;> rfl
@[simp] theorem State.raise_trb (s : State) (p : Port) (v : Nat) : (State.raise s p v).trb = s.trb := by unfold State.raise; split <;> (try simp only) <;> (try split) <;> (try split) <;> rfl
@[simp] theorem State.raise_reqs (s : State) (p : Port) (v : Nat) : (State.raise s p v).reqs = s.reqs := by unfold State.raise; split <;> (try simp only) <;> (try split) <;> (try split) <;> rfl
@[simp] theorem State.raise_sems (s : State) (p : Port) (v : Nat) : (State.raise s p v).sems = s.sems := by unfold State.raise; split <;> (try simp only) <;> (try split) <;> (try split) <;> rfl
@[simp] theorem State.raise_errs (s : State) (p : Port) (v : Nat) : (State.raise s p v).errs = s.errs := by unfold State.raise; split <;> (try simp only) <;> (try split) <;> (try split) <;> rfl
@[simp] theorem State.raise_setNow (s : State) (p : Port) (v : Nat) : (State.raise s p v).setNow = s.setNow := by unfold State.raise; split <;> (try simp only) <;> (try split) <;> (try split) <;> rfl
@[simp] theorem State.raise_v1Raised (s : State) (p : Port) (v : Nat) : (State.raise s p v).v1Raised = s.v1Raised := by unfold State.raise; split <;> (try simp only) <;> (try split) <;> (try split) <;> rfl
@[simp] theorem State.raise_cnts (s : State) (p : Port) (v : Nat) : (State.raise s p v).cnts = s.cnts := by unfold State.raise; split <;> (try simp only) <;> (try split) <;> (try split) <;> rfl
@[simp] theorem State.raise_parts (s : State) (p : Port) (v : Nat) : (State.raise s p v).parts = s.parts := by unfold State.raise; split <;> (try simp only) <;> (try split) <;> (try split) <;> rfl
@[simp] theorem State.raise_cmds (s : State) (p : Port) (v : Nat) : (State.raise s p v).cmds = s.cmds := by unfold State.raise; split <;> (try simp only) <;> (try split) <;> (try split) <;> rfl
@[simp] theorem State.raise_admitNext (s : State) (p : Port) (v : Nat) : (State.raise s p v).admitNext = s.admitNext := by unfold State.raise; split <;> (try simp only) <;> (try split) <;> (try split) <;> rfl
@[simp] theorem State.raise_issuedNow (s : State) (p : Port) (v : Nat) : (State.raise s p v).issuedNow = s.issuedNow := by unfold State.raise; split <;> (try simp only) <;> (try split) <;> (try split) <;> rfl
@[simp] theorem State.raise_issueNext (s : State) (p : Port) (v : Nat) : (State.raise s p v).issueNext = s.issueNext := by unfold State.raise; split <;> (try simp only) <;> (try split) <;> (try split) <;> rfl
@[simp] theorem State.raise_keys (s : State) (p : Port) (v : Nat) : (State.raise s p v).keys = s.keys := by unfold State.raise; split <;> (try simp only) <;> (try split) <;> (try split) <;> rfl
@[simp] theorem State.raise_ops (s : State) (p : Port) (v : Nat) : (State.raise s p v).ops = s.ops := by unfold State.raise; split <;> (try simp only) <;> (try split) <;> (try split) <;> rfl
@[simp] theorem State.raise_opNext (s : State) (p : Port) (v : Nat) : (State.raise s p v).opNext = s.opNext := by unfold State.raise; split <;> (try simp only) <;> (try split) <;> (try split) <;> rfl
@[simp] theorem State.raise_scHalt (s : State) (p : Port) (v : Nat) : (State.raise s p v).scHalt = s.scHalt := by unfold State.raise; split <;> (try simp only) <;> (try split) <;> (try split) <;> rfl
@[simp] theorem State.raise_halted (s : State) (p : Port) (v : Nat) : (State.raise s p v).halted = s.halted := by unfold State.raise; split <;> (try simp only) <;> (try split) <;> (try split) <;> rfl
@[simp] theorem State.raise_mem (s : State) (p : Port) (v : Nat) : (State.raise s p v).mem = s.mem := by unfold State.raise; split <;> (try simp only) <;> (try split) <;> (try split) <;> rfl
@[simp] theorem State.raise_undef (s : State) (p : Port) (v : Nat) : (State.raise s p v).undef = s.undef := by unfold State.raise; split <;> (try simp only) <;> (try split) <;> (try split) <;> rfl
@[simp] theorem State.raise_poison (s : State) (p : Port) (v : Nat) : (State.raise s p v).poison = s.poison := by unfold State.raise; split <;> (try simp only) <;> (try split) <;> (try split) <;> rfl
@[simp] theorem State.raise_ecc (s : State) (p : Port) (v : Nat) : (State.raise s p v).ecc = s.ecc := by unfold State.raise; split <;> (try simp only) <;> (try split) <;> (try split) <;> rfl
@[simp] theorem State.raise_hw (s : State) (p : Port) (v : Nat) : (State.raise s p v).hw = s.hw := by unfold State.raise; split <;> (try simp only) <;> (try split) <;> (try split) <;> rfl
@[simp] theorem State.raise_pools (s : State) (p : Port) (v : Nat) : (State.raise s p v).pools = s.pools := by unfold State.raise; split <;> (try simp only) <;> (try split) <;> (try split) <;> rfl
@[simp] theorem State.raise_hostMem (s : State) (p : Port) (v : Nat) : (State.raise s p v).hostMem = s.hostMem := by unfold State.raise; split <;> (try simp only) <;> (try split) <;> (try split) <;> rfl
@[simp] theorem State.raise_hostErr (s : State) (p : Port) (v : Nat) : (State.raise s p v).hostErr = s.hostErr := by unfold State.raise; split <;> (try simp only) <;> (try split) <;> (try split) <;> rfl
@[simp] theorem State.raise_cisPoison (s : State) (p : Port) (v : Nat) : (State.raise s p v).cisPoison = s.cisPoison := by unfold State.raise; split <;> (try simp only) <;> (try split) <;> (try split) <;> rfl
@[simp] theorem State.raise_bar2Reads (s : State) (p : Port) (v : Nat) : (State.raise s p v).bar2Reads = s.bar2Reads := by unfold State.raise; split <;> (try simp only) <;> (try split) <;> (try split) <;> rfl
@[simp] theorem State.raise_ecs (s : State) (p : Port) (v : Nat) : (State.raise s p v).ecs = s.ecs := by unfold State.raise; split <;> (try simp only) <;> (try split) <;> (try split) <;> rfl
@[simp] theorem State.raise_fence (s : State) (p : Port) (v : Nat) : (State.raise s p v).fence = s.fence := by unfold State.raise; split <;> (try simp only) <;> (try split) <;> (try split) <;> rfl
@[simp] theorem State.raise_regions (s : State) (p : Port) (v : Nat) : (State.raise s p v).regions = s.regions := by unfold State.raise; split <;> (try simp only) <;> (try split) <;> (try split) <;> rfl
@[simp] theorem State.raise_windows (s : State) (p : Port) (v : Nat) : (State.raise s p v).windows = s.windows := by unfold State.raise; split <;> (try simp only) <;> (try split) <;> (try split) <;> rfl
@[simp] theorem State.raise_streams (s : State) (p : Port) (v : Nat) : (State.raise s p v).streams = s.streams := by unfold State.raise; split <;> (try simp only) <;> (try split) <;> (try split) <;> rfl
@[simp] theorem State.raise_groups (s : State) (p : Port) (v : Nat) : (State.raise s p v).groups = s.groups := by unfold State.raise; split <;> (try simp only) <;> (try split) <;> (try split) <;> rfl
@[simp] theorem State.raise_strPeek (s : State) (p : Port) (v : Nat) : (State.raise s p v).strPeek = s.strPeek := by unfold State.raise; split <;> (try simp only) <;> (try split) <;> (try split) <;> rfl
@[simp] theorem State.raise_heaps (s : State) (p : Port) (v : Nat) : (State.raise s p v).heaps = s.heaps := by unfold State.raise; split <;> (try simp only) <;> (try split) <;> (try split) <;> rfl
@[simp] theorem State.raise_seqs (s : State) (p : Port) (v : Nat) : (State.raise s p v).seqs = s.seqs := by unfold State.raise; split <;> (try simp only) <;> (try split) <;> (try split) <;> rfl
@[simp] theorem State.raise_spills (s : State) (p : Port) (v : Nat) : (State.raise s p v).spills = s.spills := by unfold State.raise; split <;> (try simp only) <;> (try split) <;> (try split) <;> rfl
@[simp] theorem State.raise_returns (s : State) (p : Port) (v : Nat) : (State.raise s p v).returns = s.returns := by unfold State.raise; split <;> (try simp only) <;> (try split) <;> (try split) <;> rfl
@[simp] theorem State.raise_det (s : State) (p : Port) (v : Nat) : (State.raise s p v).det = s.det := by unfold State.raise; split <;> (try simp only) <;> (try split) <;> (try split) <;> rfl
@[simp] theorem State.raise_cams (s : State) (p : Port) (v : Nat) : (State.raise s p v).cams = s.cams := by unfold State.raise; split <;> (try simp only) <;> (try split) <;> (try split) <;> rfl
@[simp] theorem State.raise_audTable (s : State) (p : Port) (v : Nat) : (State.raise s p v).audTable = s.audTable := by unfold State.raise; split <;> (try simp only) <;> (try split) <;> (try split) <;> rfl
@[simp] theorem State.raise_audFir (s : State) (p : Port) (v : Nat) : (State.raise s p v).audFir = s.audFir := by unfold State.raise; split <;> (try simp only) <;> (try split) <;> (try split) <;> rfl
@[simp] theorem State.raise_fir (s : State) (p : Port) (v : Nat) : (State.raise s p v).fir = s.fir := by unfold State.raise; split <;> (try simp only) <;> (try split) <;> (try split) <;> rfl
@[simp] theorem State.raise_bindings (s : State) (p : Port) (v : Nat) : (State.raise s p v).bindings = s.bindings := by unfold State.raise; split <;> (try simp only) <;> (try split) <;> (try split) <;> rfl
@[simp] theorem State.raise_audio (s : State) (p : Port) (v : Nat) : (State.raise s p v).audio = s.audio := by unfold State.raise; split <;> (try simp only) <;> (try split) <;> (try split) <;> rfl
@[simp] theorem State.raise_tdm (s : State) (p : Port) (v : Nat) : (State.raise s p v).tdm = s.tdm := by unfold State.raise; split <;> (try simp only) <;> (try split) <;> (try split) <;> rfl
@[simp] theorem State.raise_pipes (s : State) (p : Port) (v : Nat) : (State.raise s p v).pipes = s.pipes := by unfold State.raise; split <;> (try simp only) <;> (try split) <;> (try split) <;> rfl
@[simp] theorem State.raise_recTurn (s : State) (p : Port) (v : Nat) : (State.raise s p v).recTurn = s.recTurn := by unfold State.raise; split <;> (try simp only) <;> (try split) <;> (try split) <;> rfl
@[simp] theorem State.raise_axes (s : State) (p : Port) (v : Nat) : (State.raise s p v).axes = s.axes := by unfold State.raise; split <;> (try simp only) <;> (try split) <;> (try split) <;> rfl
@[simp] theorem State.raise_stations (s : State) (p : Port) (v : Nat) : (State.raise s p v).stations = s.stations := by unfold State.raise; split <;> (try simp only) <;> (try split) <;> (try split) <;> rfl
@[simp] theorem State.raise_lpeLatched (s : State) (p : Port) (v : Nat) : (State.raise s p v).lpeLatched = s.lpeLatched := by unfold State.raise; split <;> (try simp only) <;> (try split) <;> (try split) <;> rfl
@[simp] theorem State.raise_lpeBusy (s : State) (p : Port) (v : Nat) : (State.raise s p v).lpeBusy = s.lpeBusy := by unfold State.raise; split <;> (try simp only) <;> (try split) <;> (try split) <;> rfl
@[simp] theorem State.raise_tb (s : State) (p : Port) (v : Nat) : (State.raise s p v).tb = s.tb := by unfold State.raise; split <;> (try simp only) <;> (try split) <;> (try split) <;> rfl
@[simp] theorem State.raise_eth (s : State) (p : Port) (v : Nat) : (State.raise s p v).eth = s.eth := by unfold State.raise; split <;> (try simp only) <;> (try split) <;> (try split) <;> rfl
@[simp] theorem State.raise_pm (s : State) (p : Port) (v : Nat) : (State.raise s p v).pm = s.pm := by unfold State.raise; split <;> (try simp only) <;> (try split) <;> (try split) <;> rfl
@[simp] theorem State.raise_pdOn (s : State) (p : Port) (v : Nat) : (State.raise s p v).pdOn = s.pdOn := by unfold State.raise; split <;> (try simp only) <;> (try split) <;> (try split) <;> rfl
@[simp] theorem State.raise_pdMoves (s : State) (p : Port) (v : Nat) : (State.raise s p v).pdMoves = s.pdMoves := by unfold State.raise; split <;> (try simp only) <;> (try split) <;> (try split) <;> rfl
@[simp] theorem State.raise_pairs (s : State) (p : Port) (v : Nat) : (State.raise s p v).pairs = s.pairs := by unfold State.raise; split <;> (try simp only) <;> (try split) <;> (try split) <;> rfl
@[simp] theorem State.raise_sph (s : State) (p : Port) (v : Nat) : (State.raise s p v).sph = s.sph := by unfold State.raise; split <;> (try simp only) <;> (try split) <;> (try split) <;> rfl
@[simp] theorem State.raise_mirrors (s : State) (p : Port) (v : Nat) : (State.raise s p v).mirrors = s.mirrors := by unfold State.raise; split <;> (try simp only) <;> (try split) <;> (try split) <;> rfl
@[simp] theorem State.raise_pending (s : State) (p : Port) (v : Nat) : (State.raise s p v).pending = s.pending := by unfold State.raise; split <;> (try simp only) <;> (try split) <;> (try split) <;> rfl
@[simp] theorem State.raise_fresh (s : State) (p : Port) (v : Nat) : (State.raise s p v).fresh = s.fresh := by unfold State.raise; split <;> (try simp only) <;> (try split) <;> (try split) <;> rfl

/-! State.dropReq -/
@[simp] theorem State.dropReq_sys (s : State) (p : Port) (i : SlotId) : (State.dropReq s p i).sys = s.sys := rfl
@[simp] theorem State.dropReq_counter (s : State) (p : Port) (i : SlotId) : (State.dropReq s p i).counter = s.counter := rfl
@[simp] theorem State.dropReq_trb (s : State) (p : Port) (i : SlotId) : (State.dropReq s p i).trb = s.trb := rfl
@[simp] theorem State.dropReq_ports (s : State) (p : Port) (i : SlotId) : (State.dropReq s p i).ports = s.ports := rfl
@[simp] theorem State.dropReq_sems (s : State) (p : Port) (i : SlotId) : (State.dropReq s p i).sems = s.sems := rfl
@[simp] theorem State.dropReq_errs (s : State) (p : Port) (i : SlotId) : (State.dropReq s p i).errs = s.errs := rfl
@[simp] theorem State.dropReq_setNow (s : State) (p : Port) (i : SlotId) : (State.dropReq s p i).setNow = s.setNow := rfl
@[simp] theorem State.dropReq_v1Raised (s : State) (p : Port) (i : SlotId) : (State.dropReq s p i).v1Raised = s.v1Raised := rfl
@[simp] theorem State.dropReq_cnts (s : State) (p : Port) (i : SlotId) : (State.dropReq s p i).cnts = s.cnts := rfl
@[simp] theorem State.dropReq_parts (s : State) (p : Port) (i : SlotId) : (State.dropReq s p i).parts = s.parts := rfl
@[simp] theorem State.dropReq_cmds (s : State) (p : Port) (i : SlotId) : (State.dropReq s p i).cmds = s.cmds := rfl
@[simp] theorem State.dropReq_admitNext (s : State) (p : Port) (i : SlotId) : (State.dropReq s p i).admitNext = s.admitNext := rfl
@[simp] theorem State.dropReq_issuedNow (s : State) (p : Port) (i : SlotId) : (State.dropReq s p i).issuedNow = s.issuedNow := rfl
@[simp] theorem State.dropReq_issueNext (s : State) (p : Port) (i : SlotId) : (State.dropReq s p i).issueNext = s.issueNext := rfl
@[simp] theorem State.dropReq_keys (s : State) (p : Port) (i : SlotId) : (State.dropReq s p i).keys = s.keys := rfl
@[simp] theorem State.dropReq_ops (s : State) (p : Port) (i : SlotId) : (State.dropReq s p i).ops = s.ops := rfl
@[simp] theorem State.dropReq_opNext (s : State) (p : Port) (i : SlotId) : (State.dropReq s p i).opNext = s.opNext := rfl
@[simp] theorem State.dropReq_scHalt (s : State) (p : Port) (i : SlotId) : (State.dropReq s p i).scHalt = s.scHalt := rfl
@[simp] theorem State.dropReq_halted (s : State) (p : Port) (i : SlotId) : (State.dropReq s p i).halted = s.halted := rfl
@[simp] theorem State.dropReq_mem (s : State) (p : Port) (i : SlotId) : (State.dropReq s p i).mem = s.mem := rfl
@[simp] theorem State.dropReq_undef (s : State) (p : Port) (i : SlotId) : (State.dropReq s p i).undef = s.undef := rfl
@[simp] theorem State.dropReq_poison (s : State) (p : Port) (i : SlotId) : (State.dropReq s p i).poison = s.poison := rfl
@[simp] theorem State.dropReq_ecc (s : State) (p : Port) (i : SlotId) : (State.dropReq s p i).ecc = s.ecc := rfl
@[simp] theorem State.dropReq_hw (s : State) (p : Port) (i : SlotId) : (State.dropReq s p i).hw = s.hw := rfl
@[simp] theorem State.dropReq_pools (s : State) (p : Port) (i : SlotId) : (State.dropReq s p i).pools = s.pools := rfl
@[simp] theorem State.dropReq_hostMem (s : State) (p : Port) (i : SlotId) : (State.dropReq s p i).hostMem = s.hostMem := rfl
@[simp] theorem State.dropReq_hostErr (s : State) (p : Port) (i : SlotId) : (State.dropReq s p i).hostErr = s.hostErr := rfl
@[simp] theorem State.dropReq_cisPoison (s : State) (p : Port) (i : SlotId) : (State.dropReq s p i).cisPoison = s.cisPoison := rfl
@[simp] theorem State.dropReq_bar2Reads (s : State) (p : Port) (i : SlotId) : (State.dropReq s p i).bar2Reads = s.bar2Reads := rfl
@[simp] theorem State.dropReq_ecs (s : State) (p : Port) (i : SlotId) : (State.dropReq s p i).ecs = s.ecs := rfl
@[simp] theorem State.dropReq_fence (s : State) (p : Port) (i : SlotId) : (State.dropReq s p i).fence = s.fence := rfl
@[simp] theorem State.dropReq_regions (s : State) (p : Port) (i : SlotId) : (State.dropReq s p i).regions = s.regions := rfl
@[simp] theorem State.dropReq_windows (s : State) (p : Port) (i : SlotId) : (State.dropReq s p i).windows = s.windows := rfl
@[simp] theorem State.dropReq_streams (s : State) (p : Port) (i : SlotId) : (State.dropReq s p i).streams = s.streams := rfl
@[simp] theorem State.dropReq_groups (s : State) (p : Port) (i : SlotId) : (State.dropReq s p i).groups = s.groups := rfl
@[simp] theorem State.dropReq_strPeek (s : State) (p : Port) (i : SlotId) : (State.dropReq s p i).strPeek = s.strPeek := rfl
@[simp] theorem State.dropReq_heaps (s : State) (p : Port) (i : SlotId) : (State.dropReq s p i).heaps = s.heaps := rfl
@[simp] theorem State.dropReq_seqs (s : State) (p : Port) (i : SlotId) : (State.dropReq s p i).seqs = s.seqs := rfl
@[simp] theorem State.dropReq_spills (s : State) (p : Port) (i : SlotId) : (State.dropReq s p i).spills = s.spills := rfl
@[simp] theorem State.dropReq_returns (s : State) (p : Port) (i : SlotId) : (State.dropReq s p i).returns = s.returns := rfl
@[simp] theorem State.dropReq_det (s : State) (p : Port) (i : SlotId) : (State.dropReq s p i).det = s.det := rfl
@[simp] theorem State.dropReq_cams (s : State) (p : Port) (i : SlotId) : (State.dropReq s p i).cams = s.cams := rfl
@[simp] theorem State.dropReq_audTable (s : State) (p : Port) (i : SlotId) : (State.dropReq s p i).audTable = s.audTable := rfl
@[simp] theorem State.dropReq_audFir (s : State) (p : Port) (i : SlotId) : (State.dropReq s p i).audFir = s.audFir := rfl
@[simp] theorem State.dropReq_fir (s : State) (p : Port) (i : SlotId) : (State.dropReq s p i).fir = s.fir := rfl
@[simp] theorem State.dropReq_bindings (s : State) (p : Port) (i : SlotId) : (State.dropReq s p i).bindings = s.bindings := rfl
@[simp] theorem State.dropReq_audio (s : State) (p : Port) (i : SlotId) : (State.dropReq s p i).audio = s.audio := rfl
@[simp] theorem State.dropReq_tdm (s : State) (p : Port) (i : SlotId) : (State.dropReq s p i).tdm = s.tdm := rfl
@[simp] theorem State.dropReq_pipes (s : State) (p : Port) (i : SlotId) : (State.dropReq s p i).pipes = s.pipes := rfl
@[simp] theorem State.dropReq_recTurn (s : State) (p : Port) (i : SlotId) : (State.dropReq s p i).recTurn = s.recTurn := rfl
@[simp] theorem State.dropReq_axes (s : State) (p : Port) (i : SlotId) : (State.dropReq s p i).axes = s.axes := rfl
@[simp] theorem State.dropReq_stations (s : State) (p : Port) (i : SlotId) : (State.dropReq s p i).stations = s.stations := rfl
@[simp] theorem State.dropReq_lpeLatched (s : State) (p : Port) (i : SlotId) : (State.dropReq s p i).lpeLatched = s.lpeLatched := rfl
@[simp] theorem State.dropReq_lpeBusy (s : State) (p : Port) (i : SlotId) : (State.dropReq s p i).lpeBusy = s.lpeBusy := rfl
@[simp] theorem State.dropReq_tb (s : State) (p : Port) (i : SlotId) : (State.dropReq s p i).tb = s.tb := rfl
@[simp] theorem State.dropReq_eth (s : State) (p : Port) (i : SlotId) : (State.dropReq s p i).eth = s.eth := rfl
@[simp] theorem State.dropReq_pm (s : State) (p : Port) (i : SlotId) : (State.dropReq s p i).pm = s.pm := rfl
@[simp] theorem State.dropReq_pdOn (s : State) (p : Port) (i : SlotId) : (State.dropReq s p i).pdOn = s.pdOn := rfl
@[simp] theorem State.dropReq_pdMoves (s : State) (p : Port) (i : SlotId) : (State.dropReq s p i).pdMoves = s.pdMoves := rfl
@[simp] theorem State.dropReq_pairs (s : State) (p : Port) (i : SlotId) : (State.dropReq s p i).pairs = s.pairs := rfl
@[simp] theorem State.dropReq_sph (s : State) (p : Port) (i : SlotId) : (State.dropReq s p i).sph = s.sph := rfl
@[simp] theorem State.dropReq_mirrors (s : State) (p : Port) (i : SlotId) : (State.dropReq s p i).mirrors = s.mirrors := rfl
@[simp] theorem State.dropReq_pending (s : State) (p : Port) (i : SlotId) : (State.dropReq s p i).pending = s.pending := rfl
@[simp] theorem State.dropReq_out (s : State) (p : Port) (i : SlotId) : (State.dropReq s p i).out = s.out := rfl
@[simp] theorem State.dropReq_fresh (s : State) (p : Port) (i : SlotId) : (State.dropReq s p i).fresh = s.fresh := rfl

/-! State.keepReq -/
@[simp] theorem State.keepReq_sys (s : State) (p : Port) (i : SlotId) : (State.keepReq s p i).sys = s.sys := rfl
@[simp] theorem State.keepReq_counter (s : State) (p : Port) (i : SlotId) : (State.keepReq s p i).counter = s.counter := rfl
@[simp] theorem State.keepReq_trb (s : State) (p : Port) (i : SlotId) : (State.keepReq s p i).trb = s.trb := rfl
@[simp] theorem State.keepReq_reqs (s : State) (p : Port) (i : SlotId) : (State.keepReq s p i).reqs = s.reqs := rfl
@[simp] theorem State.keepReq_sems (s : State) (p : Port) (i : SlotId) : (State.keepReq s p i).sems = s.sems := rfl
@[simp] theorem State.keepReq_errs (s : State) (p : Port) (i : SlotId) : (State.keepReq s p i).errs = s.errs := rfl
@[simp] theorem State.keepReq_setNow (s : State) (p : Port) (i : SlotId) : (State.keepReq s p i).setNow = s.setNow := rfl
@[simp] theorem State.keepReq_v1Raised (s : State) (p : Port) (i : SlotId) : (State.keepReq s p i).v1Raised = s.v1Raised := rfl
@[simp] theorem State.keepReq_cnts (s : State) (p : Port) (i : SlotId) : (State.keepReq s p i).cnts = s.cnts := rfl
@[simp] theorem State.keepReq_parts (s : State) (p : Port) (i : SlotId) : (State.keepReq s p i).parts = s.parts := rfl
@[simp] theorem State.keepReq_cmds (s : State) (p : Port) (i : SlotId) : (State.keepReq s p i).cmds = s.cmds := rfl
@[simp] theorem State.keepReq_admitNext (s : State) (p : Port) (i : SlotId) : (State.keepReq s p i).admitNext = s.admitNext := rfl
@[simp] theorem State.keepReq_issuedNow (s : State) (p : Port) (i : SlotId) : (State.keepReq s p i).issuedNow = s.issuedNow := rfl
@[simp] theorem State.keepReq_issueNext (s : State) (p : Port) (i : SlotId) : (State.keepReq s p i).issueNext = s.issueNext := rfl
@[simp] theorem State.keepReq_keys (s : State) (p : Port) (i : SlotId) : (State.keepReq s p i).keys = s.keys := rfl
@[simp] theorem State.keepReq_ops (s : State) (p : Port) (i : SlotId) : (State.keepReq s p i).ops = s.ops := rfl
@[simp] theorem State.keepReq_opNext (s : State) (p : Port) (i : SlotId) : (State.keepReq s p i).opNext = s.opNext := rfl
@[simp] theorem State.keepReq_scHalt (s : State) (p : Port) (i : SlotId) : (State.keepReq s p i).scHalt = s.scHalt := rfl
@[simp] theorem State.keepReq_halted (s : State) (p : Port) (i : SlotId) : (State.keepReq s p i).halted = s.halted := rfl
@[simp] theorem State.keepReq_mem (s : State) (p : Port) (i : SlotId) : (State.keepReq s p i).mem = s.mem := rfl
@[simp] theorem State.keepReq_undef (s : State) (p : Port) (i : SlotId) : (State.keepReq s p i).undef = s.undef := rfl
@[simp] theorem State.keepReq_poison (s : State) (p : Port) (i : SlotId) : (State.keepReq s p i).poison = s.poison := rfl
@[simp] theorem State.keepReq_ecc (s : State) (p : Port) (i : SlotId) : (State.keepReq s p i).ecc = s.ecc := rfl
@[simp] theorem State.keepReq_hw (s : State) (p : Port) (i : SlotId) : (State.keepReq s p i).hw = s.hw := rfl
@[simp] theorem State.keepReq_pools (s : State) (p : Port) (i : SlotId) : (State.keepReq s p i).pools = s.pools := rfl
@[simp] theorem State.keepReq_hostMem (s : State) (p : Port) (i : SlotId) : (State.keepReq s p i).hostMem = s.hostMem := rfl
@[simp] theorem State.keepReq_hostErr (s : State) (p : Port) (i : SlotId) : (State.keepReq s p i).hostErr = s.hostErr := rfl
@[simp] theorem State.keepReq_cisPoison (s : State) (p : Port) (i : SlotId) : (State.keepReq s p i).cisPoison = s.cisPoison := rfl
@[simp] theorem State.keepReq_bar2Reads (s : State) (p : Port) (i : SlotId) : (State.keepReq s p i).bar2Reads = s.bar2Reads := rfl
@[simp] theorem State.keepReq_ecs (s : State) (p : Port) (i : SlotId) : (State.keepReq s p i).ecs = s.ecs := rfl
@[simp] theorem State.keepReq_fence (s : State) (p : Port) (i : SlotId) : (State.keepReq s p i).fence = s.fence := rfl
@[simp] theorem State.keepReq_regions (s : State) (p : Port) (i : SlotId) : (State.keepReq s p i).regions = s.regions := rfl
@[simp] theorem State.keepReq_windows (s : State) (p : Port) (i : SlotId) : (State.keepReq s p i).windows = s.windows := rfl
@[simp] theorem State.keepReq_streams (s : State) (p : Port) (i : SlotId) : (State.keepReq s p i).streams = s.streams := rfl
@[simp] theorem State.keepReq_groups (s : State) (p : Port) (i : SlotId) : (State.keepReq s p i).groups = s.groups := rfl
@[simp] theorem State.keepReq_strPeek (s : State) (p : Port) (i : SlotId) : (State.keepReq s p i).strPeek = s.strPeek := rfl
@[simp] theorem State.keepReq_heaps (s : State) (p : Port) (i : SlotId) : (State.keepReq s p i).heaps = s.heaps := rfl
@[simp] theorem State.keepReq_seqs (s : State) (p : Port) (i : SlotId) : (State.keepReq s p i).seqs = s.seqs := rfl
@[simp] theorem State.keepReq_spills (s : State) (p : Port) (i : SlotId) : (State.keepReq s p i).spills = s.spills := rfl
@[simp] theorem State.keepReq_returns (s : State) (p : Port) (i : SlotId) : (State.keepReq s p i).returns = s.returns := rfl
@[simp] theorem State.keepReq_det (s : State) (p : Port) (i : SlotId) : (State.keepReq s p i).det = s.det := rfl
@[simp] theorem State.keepReq_cams (s : State) (p : Port) (i : SlotId) : (State.keepReq s p i).cams = s.cams := rfl
@[simp] theorem State.keepReq_audTable (s : State) (p : Port) (i : SlotId) : (State.keepReq s p i).audTable = s.audTable := rfl
@[simp] theorem State.keepReq_audFir (s : State) (p : Port) (i : SlotId) : (State.keepReq s p i).audFir = s.audFir := rfl
@[simp] theorem State.keepReq_fir (s : State) (p : Port) (i : SlotId) : (State.keepReq s p i).fir = s.fir := rfl
@[simp] theorem State.keepReq_bindings (s : State) (p : Port) (i : SlotId) : (State.keepReq s p i).bindings = s.bindings := rfl
@[simp] theorem State.keepReq_audio (s : State) (p : Port) (i : SlotId) : (State.keepReq s p i).audio = s.audio := rfl
@[simp] theorem State.keepReq_tdm (s : State) (p : Port) (i : SlotId) : (State.keepReq s p i).tdm = s.tdm := rfl
@[simp] theorem State.keepReq_pipes (s : State) (p : Port) (i : SlotId) : (State.keepReq s p i).pipes = s.pipes := rfl
@[simp] theorem State.keepReq_recTurn (s : State) (p : Port) (i : SlotId) : (State.keepReq s p i).recTurn = s.recTurn := rfl
@[simp] theorem State.keepReq_axes (s : State) (p : Port) (i : SlotId) : (State.keepReq s p i).axes = s.axes := rfl
@[simp] theorem State.keepReq_stations (s : State) (p : Port) (i : SlotId) : (State.keepReq s p i).stations = s.stations := rfl
@[simp] theorem State.keepReq_lpeLatched (s : State) (p : Port) (i : SlotId) : (State.keepReq s p i).lpeLatched = s.lpeLatched := rfl
@[simp] theorem State.keepReq_lpeBusy (s : State) (p : Port) (i : SlotId) : (State.keepReq s p i).lpeBusy = s.lpeBusy := rfl
@[simp] theorem State.keepReq_tb (s : State) (p : Port) (i : SlotId) : (State.keepReq s p i).tb = s.tb := rfl
@[simp] theorem State.keepReq_eth (s : State) (p : Port) (i : SlotId) : (State.keepReq s p i).eth = s.eth := rfl
@[simp] theorem State.keepReq_pm (s : State) (p : Port) (i : SlotId) : (State.keepReq s p i).pm = s.pm := rfl
@[simp] theorem State.keepReq_pdOn (s : State) (p : Port) (i : SlotId) : (State.keepReq s p i).pdOn = s.pdOn := rfl
@[simp] theorem State.keepReq_pdMoves (s : State) (p : Port) (i : SlotId) : (State.keepReq s p i).pdMoves = s.pdMoves := rfl
@[simp] theorem State.keepReq_pairs (s : State) (p : Port) (i : SlotId) : (State.keepReq s p i).pairs = s.pairs := rfl
@[simp] theorem State.keepReq_sph (s : State) (p : Port) (i : SlotId) : (State.keepReq s p i).sph = s.sph := rfl
@[simp] theorem State.keepReq_mirrors (s : State) (p : Port) (i : SlotId) : (State.keepReq s p i).mirrors = s.mirrors := rfl
@[simp] theorem State.keepReq_pending (s : State) (p : Port) (i : SlotId) : (State.keepReq s p i).pending = s.pending := rfl
@[simp] theorem State.keepReq_out (s : State) (p : Port) (i : SlotId) : (State.keepReq s p i).out = s.out := rfl
@[simp] theorem State.keepReq_fresh (s : State) (p : Port) (i : SlotId) : (State.keepReq s p i).fresh = s.fresh := rfl

/-! State.respond -/
@[simp] theorem State.respond_sys (s : State) (p : Port) (i : SlotId) (st : St) (reason off : Nat) (payload : List Byte) : (State.respond s p i st reason off payload).sys = s.sys := by unfold State.respond; simp only; split <;> (try split) <;> simp
@[simp] theorem State.respond_counter (s : State) (p : Port) (i : SlotId) (st : St) (reason off : Nat) (payload : List Byte) : (State.respond s p i st reason off payload).counter = s.counter := by unfold State.respond; simp only; split <;> (try split) <;> simp
@[simp] theorem State.respond_trb (s : State) (p : Port) (i : SlotId) (st : St) (reason off : Nat) (payload : List Byte) : (State.respond s p i st reason off payload).trb = s.trb := by unfold State.respond; simp only; split <;> (try split) <;> simp
@[simp] theorem State.respond_sems (s : State) (p : Port) (i : SlotId) (st : St) (reason off : Nat) (payload : List Byte) : (State.respond s p i st reason off payload).sems = s.sems := by unfold State.respond; simp only; split <;> (try split) <;> simp
@[simp] theorem State.respond_errs (s : State) (p : Port) (i : SlotId) (st : St) (reason off : Nat) (payload : List Byte) : (State.respond s p i st reason off payload).errs = s.errs := by unfold State.respond; simp only; split <;> (try split) <;> simp
@[simp] theorem State.respond_setNow (s : State) (p : Port) (i : SlotId) (st : St) (reason off : Nat) (payload : List Byte) : (State.respond s p i st reason off payload).setNow = s.setNow := by unfold State.respond; simp only; split <;> (try split) <;> simp
@[simp] theorem State.respond_v1Raised (s : State) (p : Port) (i : SlotId) (st : St) (reason off : Nat) (payload : List Byte) : (State.respond s p i st reason off payload).v1Raised = s.v1Raised := by unfold State.respond; simp only; split <;> (try split) <;> simp
@[simp] theorem State.respond_cnts (s : State) (p : Port) (i : SlotId) (st : St) (reason off : Nat) (payload : List Byte) : (State.respond s p i st reason off payload).cnts = s.cnts := by unfold State.respond; simp only; split <;> (try split) <;> simp
@[simp] theorem State.respond_parts (s : State) (p : Port) (i : SlotId) (st : St) (reason off : Nat) (payload : List Byte) : (State.respond s p i st reason off payload).parts = s.parts := by unfold State.respond; simp only; split <;> (try split) <;> simp
@[simp] theorem State.respond_cmds (s : State) (p : Port) (i : SlotId) (st : St) (reason off : Nat) (payload : List Byte) : (State.respond s p i st reason off payload).cmds = s.cmds := by unfold State.respond; simp only; split <;> (try split) <;> simp
@[simp] theorem State.respond_admitNext (s : State) (p : Port) (i : SlotId) (st : St) (reason off : Nat) (payload : List Byte) : (State.respond s p i st reason off payload).admitNext = s.admitNext := by unfold State.respond; simp only; split <;> (try split) <;> simp
@[simp] theorem State.respond_issuedNow (s : State) (p : Port) (i : SlotId) (st : St) (reason off : Nat) (payload : List Byte) : (State.respond s p i st reason off payload).issuedNow = s.issuedNow := by unfold State.respond; simp only; split <;> (try split) <;> simp
@[simp] theorem State.respond_issueNext (s : State) (p : Port) (i : SlotId) (st : St) (reason off : Nat) (payload : List Byte) : (State.respond s p i st reason off payload).issueNext = s.issueNext := by unfold State.respond; simp only; split <;> (try split) <;> simp
@[simp] theorem State.respond_keys (s : State) (p : Port) (i : SlotId) (st : St) (reason off : Nat) (payload : List Byte) : (State.respond s p i st reason off payload).keys = s.keys := by unfold State.respond; simp only; split <;> (try split) <;> simp
@[simp] theorem State.respond_ops (s : State) (p : Port) (i : SlotId) (st : St) (reason off : Nat) (payload : List Byte) : (State.respond s p i st reason off payload).ops = s.ops := by unfold State.respond; simp only; split <;> (try split) <;> simp
@[simp] theorem State.respond_opNext (s : State) (p : Port) (i : SlotId) (st : St) (reason off : Nat) (payload : List Byte) : (State.respond s p i st reason off payload).opNext = s.opNext := by unfold State.respond; simp only; split <;> (try split) <;> simp
@[simp] theorem State.respond_scHalt (s : State) (p : Port) (i : SlotId) (st : St) (reason off : Nat) (payload : List Byte) : (State.respond s p i st reason off payload).scHalt = s.scHalt := by unfold State.respond; simp only; split <;> (try split) <;> simp
@[simp] theorem State.respond_halted (s : State) (p : Port) (i : SlotId) (st : St) (reason off : Nat) (payload : List Byte) : (State.respond s p i st reason off payload).halted = s.halted := by unfold State.respond; simp only; split <;> (try split) <;> simp
@[simp] theorem State.respond_mem (s : State) (p : Port) (i : SlotId) (st : St) (reason off : Nat) (payload : List Byte) : (State.respond s p i st reason off payload).mem = s.mem := by unfold State.respond; simp only; split <;> (try split) <;> simp
@[simp] theorem State.respond_undef (s : State) (p : Port) (i : SlotId) (st : St) (reason off : Nat) (payload : List Byte) : (State.respond s p i st reason off payload).undef = s.undef := by unfold State.respond; simp only; split <;> (try split) <;> simp
@[simp] theorem State.respond_poison (s : State) (p : Port) (i : SlotId) (st : St) (reason off : Nat) (payload : List Byte) : (State.respond s p i st reason off payload).poison = s.poison := by unfold State.respond; simp only; split <;> (try split) <;> simp
@[simp] theorem State.respond_ecc (s : State) (p : Port) (i : SlotId) (st : St) (reason off : Nat) (payload : List Byte) : (State.respond s p i st reason off payload).ecc = s.ecc := by unfold State.respond; simp only; split <;> (try split) <;> simp
@[simp] theorem State.respond_hw (s : State) (p : Port) (i : SlotId) (st : St) (reason off : Nat) (payload : List Byte) : (State.respond s p i st reason off payload).hw = s.hw := by unfold State.respond; simp only; split <;> (try split) <;> simp
@[simp] theorem State.respond_pools (s : State) (p : Port) (i : SlotId) (st : St) (reason off : Nat) (payload : List Byte) : (State.respond s p i st reason off payload).pools = s.pools := by unfold State.respond; simp only; split <;> (try split) <;> simp
@[simp] theorem State.respond_hostMem (s : State) (p : Port) (i : SlotId) (st : St) (reason off : Nat) (payload : List Byte) : (State.respond s p i st reason off payload).hostMem = s.hostMem := by unfold State.respond; simp only; split <;> (try split) <;> simp
@[simp] theorem State.respond_hostErr (s : State) (p : Port) (i : SlotId) (st : St) (reason off : Nat) (payload : List Byte) : (State.respond s p i st reason off payload).hostErr = s.hostErr := by unfold State.respond; simp only; split <;> (try split) <;> simp
@[simp] theorem State.respond_cisPoison (s : State) (p : Port) (i : SlotId) (st : St) (reason off : Nat) (payload : List Byte) : (State.respond s p i st reason off payload).cisPoison = s.cisPoison := by unfold State.respond; simp only; split <;> (try split) <;> simp
@[simp] theorem State.respond_bar2Reads (s : State) (p : Port) (i : SlotId) (st : St) (reason off : Nat) (payload : List Byte) : (State.respond s p i st reason off payload).bar2Reads = s.bar2Reads := by unfold State.respond; simp only; split <;> (try split) <;> simp
@[simp] theorem State.respond_ecs (s : State) (p : Port) (i : SlotId) (st : St) (reason off : Nat) (payload : List Byte) : (State.respond s p i st reason off payload).ecs = s.ecs := by unfold State.respond; simp only; split <;> (try split) <;> simp
@[simp] theorem State.respond_fence (s : State) (p : Port) (i : SlotId) (st : St) (reason off : Nat) (payload : List Byte) : (State.respond s p i st reason off payload).fence = s.fence := by unfold State.respond; simp only; split <;> (try split) <;> simp
@[simp] theorem State.respond_regions (s : State) (p : Port) (i : SlotId) (st : St) (reason off : Nat) (payload : List Byte) : (State.respond s p i st reason off payload).regions = s.regions := by unfold State.respond; simp only; split <;> (try split) <;> simp
@[simp] theorem State.respond_windows (s : State) (p : Port) (i : SlotId) (st : St) (reason off : Nat) (payload : List Byte) : (State.respond s p i st reason off payload).windows = s.windows := by unfold State.respond; simp only; split <;> (try split) <;> simp
@[simp] theorem State.respond_streams (s : State) (p : Port) (i : SlotId) (st : St) (reason off : Nat) (payload : List Byte) : (State.respond s p i st reason off payload).streams = s.streams := by unfold State.respond; simp only; split <;> (try split) <;> simp
@[simp] theorem State.respond_groups (s : State) (p : Port) (i : SlotId) (st : St) (reason off : Nat) (payload : List Byte) : (State.respond s p i st reason off payload).groups = s.groups := by unfold State.respond; simp only; split <;> (try split) <;> simp
@[simp] theorem State.respond_strPeek (s : State) (p : Port) (i : SlotId) (st : St) (reason off : Nat) (payload : List Byte) : (State.respond s p i st reason off payload).strPeek = s.strPeek := by unfold State.respond; simp only; split <;> (try split) <;> simp
@[simp] theorem State.respond_heaps (s : State) (p : Port) (i : SlotId) (st : St) (reason off : Nat) (payload : List Byte) : (State.respond s p i st reason off payload).heaps = s.heaps := by unfold State.respond; simp only; split <;> (try split) <;> simp
@[simp] theorem State.respond_seqs (s : State) (p : Port) (i : SlotId) (st : St) (reason off : Nat) (payload : List Byte) : (State.respond s p i st reason off payload).seqs = s.seqs := by unfold State.respond; simp only; split <;> (try split) <;> simp
@[simp] theorem State.respond_spills (s : State) (p : Port) (i : SlotId) (st : St) (reason off : Nat) (payload : List Byte) : (State.respond s p i st reason off payload).spills = s.spills := by unfold State.respond; simp only; split <;> (try split) <;> simp
@[simp] theorem State.respond_returns (s : State) (p : Port) (i : SlotId) (st : St) (reason off : Nat) (payload : List Byte) : (State.respond s p i st reason off payload).returns = s.returns := by unfold State.respond; simp only; split <;> (try split) <;> simp
@[simp] theorem State.respond_det (s : State) (p : Port) (i : SlotId) (st : St) (reason off : Nat) (payload : List Byte) : (State.respond s p i st reason off payload).det = s.det := by unfold State.respond; simp only; split <;> (try split) <;> simp
@[simp] theorem State.respond_cams (s : State) (p : Port) (i : SlotId) (st : St) (reason off : Nat) (payload : List Byte) : (State.respond s p i st reason off payload).cams = s.cams := by unfold State.respond; simp only; split <;> (try split) <;> simp
@[simp] theorem State.respond_audTable (s : State) (p : Port) (i : SlotId) (st : St) (reason off : Nat) (payload : List Byte) : (State.respond s p i st reason off payload).audTable = s.audTable := by unfold State.respond; simp only; split <;> (try split) <;> simp
@[simp] theorem State.respond_audFir (s : State) (p : Port) (i : SlotId) (st : St) (reason off : Nat) (payload : List Byte) : (State.respond s p i st reason off payload).audFir = s.audFir := by unfold State.respond; simp only; split <;> (try split) <;> simp
@[simp] theorem State.respond_fir (s : State) (p : Port) (i : SlotId) (st : St) (reason off : Nat) (payload : List Byte) : (State.respond s p i st reason off payload).fir = s.fir := by unfold State.respond; simp only; split <;> (try split) <;> simp
@[simp] theorem State.respond_bindings (s : State) (p : Port) (i : SlotId) (st : St) (reason off : Nat) (payload : List Byte) : (State.respond s p i st reason off payload).bindings = s.bindings := by unfold State.respond; simp only; split <;> (try split) <;> simp
@[simp] theorem State.respond_audio (s : State) (p : Port) (i : SlotId) (st : St) (reason off : Nat) (payload : List Byte) : (State.respond s p i st reason off payload).audio = s.audio := by unfold State.respond; simp only; split <;> (try split) <;> simp
@[simp] theorem State.respond_tdm (s : State) (p : Port) (i : SlotId) (st : St) (reason off : Nat) (payload : List Byte) : (State.respond s p i st reason off payload).tdm = s.tdm := by unfold State.respond; simp only; split <;> (try split) <;> simp
@[simp] theorem State.respond_pipes (s : State) (p : Port) (i : SlotId) (st : St) (reason off : Nat) (payload : List Byte) : (State.respond s p i st reason off payload).pipes = s.pipes := by unfold State.respond; simp only; split <;> (try split) <;> simp
@[simp] theorem State.respond_recTurn (s : State) (p : Port) (i : SlotId) (st : St) (reason off : Nat) (payload : List Byte) : (State.respond s p i st reason off payload).recTurn = s.recTurn := by unfold State.respond; simp only; split <;> (try split) <;> simp
@[simp] theorem State.respond_axes (s : State) (p : Port) (i : SlotId) (st : St) (reason off : Nat) (payload : List Byte) : (State.respond s p i st reason off payload).axes = s.axes := by unfold State.respond; simp only; split <;> (try split) <;> simp
@[simp] theorem State.respond_stations (s : State) (p : Port) (i : SlotId) (st : St) (reason off : Nat) (payload : List Byte) : (State.respond s p i st reason off payload).stations = s.stations := by unfold State.respond; simp only; split <;> (try split) <;> simp
@[simp] theorem State.respond_lpeLatched (s : State) (p : Port) (i : SlotId) (st : St) (reason off : Nat) (payload : List Byte) : (State.respond s p i st reason off payload).lpeLatched = s.lpeLatched := by unfold State.respond; simp only; split <;> (try split) <;> simp
@[simp] theorem State.respond_lpeBusy (s : State) (p : Port) (i : SlotId) (st : St) (reason off : Nat) (payload : List Byte) : (State.respond s p i st reason off payload).lpeBusy = s.lpeBusy := by unfold State.respond; simp only; split <;> (try split) <;> simp
@[simp] theorem State.respond_tb (s : State) (p : Port) (i : SlotId) (st : St) (reason off : Nat) (payload : List Byte) : (State.respond s p i st reason off payload).tb = s.tb := by unfold State.respond; simp only; split <;> (try split) <;> simp
@[simp] theorem State.respond_eth (s : State) (p : Port) (i : SlotId) (st : St) (reason off : Nat) (payload : List Byte) : (State.respond s p i st reason off payload).eth = s.eth := by unfold State.respond; simp only; split <;> (try split) <;> simp
@[simp] theorem State.respond_pm (s : State) (p : Port) (i : SlotId) (st : St) (reason off : Nat) (payload : List Byte) : (State.respond s p i st reason off payload).pm = s.pm := by unfold State.respond; simp only; split <;> (try split) <;> simp
@[simp] theorem State.respond_pdOn (s : State) (p : Port) (i : SlotId) (st : St) (reason off : Nat) (payload : List Byte) : (State.respond s p i st reason off payload).pdOn = s.pdOn := by unfold State.respond; simp only; split <;> (try split) <;> simp
@[simp] theorem State.respond_pdMoves (s : State) (p : Port) (i : SlotId) (st : St) (reason off : Nat) (payload : List Byte) : (State.respond s p i st reason off payload).pdMoves = s.pdMoves := by unfold State.respond; simp only; split <;> (try split) <;> simp
@[simp] theorem State.respond_pairs (s : State) (p : Port) (i : SlotId) (st : St) (reason off : Nat) (payload : List Byte) : (State.respond s p i st reason off payload).pairs = s.pairs := by unfold State.respond; simp only; split <;> (try split) <;> simp
@[simp] theorem State.respond_sph (s : State) (p : Port) (i : SlotId) (st : St) (reason off : Nat) (payload : List Byte) : (State.respond s p i st reason off payload).sph = s.sph := by unfold State.respond; simp only; split <;> (try split) <;> simp
@[simp] theorem State.respond_mirrors (s : State) (p : Port) (i : SlotId) (st : St) (reason off : Nat) (payload : List Byte) : (State.respond s p i st reason off payload).mirrors = s.mirrors := by unfold State.respond; simp only; split <;> (try split) <;> simp
@[simp] theorem State.respond_pending (s : State) (p : Port) (i : SlotId) (st : St) (reason off : Nat) (payload : List Byte) : (State.respond s p i st reason off payload).pending = s.pending := by unfold State.respond; simp only; split <;> (try split) <;> simp
@[simp] theorem State.respond_fresh (s : State) (p : Port) (i : SlotId) (st : St) (reason off : Nat) (payload : List Byte) : (State.respond s p i st reason off payload).fresh = s.fresh := by unfold State.respond; simp only; split <;> (try split) <;> simp

/-! State.answerRowless -/
@[simp] theorem State.answerRowless_sys (s : State) (p : Port) (i : SlotId) : (State.answerRowless s p i).sys = s.sys := by unfold State.answerRowless; simp only; split <;> (try split) <;> simp
@[simp] theorem State.answerRowless_counter (s : State) (p : Port) (i : SlotId) : (State.answerRowless s p i).counter = s.counter := by unfold State.answerRowless; simp only; split <;> (try split) <;> simp
@[simp] theorem State.answerRowless_trb (s : State) (p : Port) (i : SlotId) : (State.answerRowless s p i).trb = s.trb := by unfold State.answerRowless; simp only; split <;> (try split) <;> simp
@[simp] theorem State.answerRowless_sems (s : State) (p : Port) (i : SlotId) : (State.answerRowless s p i).sems = s.sems := by unfold State.answerRowless; simp only; split <;> (try split) <;> simp
@[simp] theorem State.answerRowless_errs (s : State) (p : Port) (i : SlotId) : (State.answerRowless s p i).errs = s.errs := by unfold State.answerRowless; simp only; split <;> (try split) <;> simp
@[simp] theorem State.answerRowless_setNow (s : State) (p : Port) (i : SlotId) : (State.answerRowless s p i).setNow = s.setNow := by unfold State.answerRowless; simp only; split <;> (try split) <;> simp
@[simp] theorem State.answerRowless_v1Raised (s : State) (p : Port) (i : SlotId) : (State.answerRowless s p i).v1Raised = s.v1Raised := by unfold State.answerRowless; simp only; split <;> (try split) <;> simp
@[simp] theorem State.answerRowless_cnts (s : State) (p : Port) (i : SlotId) : (State.answerRowless s p i).cnts = s.cnts := by unfold State.answerRowless; simp only; split <;> (try split) <;> simp
@[simp] theorem State.answerRowless_parts (s : State) (p : Port) (i : SlotId) : (State.answerRowless s p i).parts = s.parts := by unfold State.answerRowless; simp only; split <;> (try split) <;> simp
@[simp] theorem State.answerRowless_cmds (s : State) (p : Port) (i : SlotId) : (State.answerRowless s p i).cmds = s.cmds := by unfold State.answerRowless; simp only; split <;> (try split) <;> simp
@[simp] theorem State.answerRowless_admitNext (s : State) (p : Port) (i : SlotId) : (State.answerRowless s p i).admitNext = s.admitNext := by unfold State.answerRowless; simp only; split <;> (try split) <;> simp
@[simp] theorem State.answerRowless_issuedNow (s : State) (p : Port) (i : SlotId) : (State.answerRowless s p i).issuedNow = s.issuedNow := by unfold State.answerRowless; simp only; split <;> (try split) <;> simp
@[simp] theorem State.answerRowless_issueNext (s : State) (p : Port) (i : SlotId) : (State.answerRowless s p i).issueNext = s.issueNext := by unfold State.answerRowless; simp only; split <;> (try split) <;> simp
@[simp] theorem State.answerRowless_keys (s : State) (p : Port) (i : SlotId) : (State.answerRowless s p i).keys = s.keys := by unfold State.answerRowless; simp only; split <;> (try split) <;> simp
@[simp] theorem State.answerRowless_ops (s : State) (p : Port) (i : SlotId) : (State.answerRowless s p i).ops = s.ops := by unfold State.answerRowless; simp only; split <;> (try split) <;> simp
@[simp] theorem State.answerRowless_opNext (s : State) (p : Port) (i : SlotId) : (State.answerRowless s p i).opNext = s.opNext := by unfold State.answerRowless; simp only; split <;> (try split) <;> simp
@[simp] theorem State.answerRowless_scHalt (s : State) (p : Port) (i : SlotId) : (State.answerRowless s p i).scHalt = s.scHalt := by unfold State.answerRowless; simp only; split <;> (try split) <;> simp
@[simp] theorem State.answerRowless_halted (s : State) (p : Port) (i : SlotId) : (State.answerRowless s p i).halted = s.halted := by unfold State.answerRowless; simp only; split <;> (try split) <;> simp
@[simp] theorem State.answerRowless_mem (s : State) (p : Port) (i : SlotId) : (State.answerRowless s p i).mem = s.mem := by unfold State.answerRowless; simp only; split <;> (try split) <;> simp
@[simp] theorem State.answerRowless_undef (s : State) (p : Port) (i : SlotId) : (State.answerRowless s p i).undef = s.undef := by unfold State.answerRowless; simp only; split <;> (try split) <;> simp
@[simp] theorem State.answerRowless_poison (s : State) (p : Port) (i : SlotId) : (State.answerRowless s p i).poison = s.poison := by unfold State.answerRowless; simp only; split <;> (try split) <;> simp
@[simp] theorem State.answerRowless_ecc (s : State) (p : Port) (i : SlotId) : (State.answerRowless s p i).ecc = s.ecc := by unfold State.answerRowless; simp only; split <;> (try split) <;> simp
@[simp] theorem State.answerRowless_hw (s : State) (p : Port) (i : SlotId) : (State.answerRowless s p i).hw = s.hw := by unfold State.answerRowless; simp only; split <;> (try split) <;> simp
@[simp] theorem State.answerRowless_pools (s : State) (p : Port) (i : SlotId) : (State.answerRowless s p i).pools = s.pools := by unfold State.answerRowless; simp only; split <;> (try split) <;> simp
@[simp] theorem State.answerRowless_hostMem (s : State) (p : Port) (i : SlotId) : (State.answerRowless s p i).hostMem = s.hostMem := by unfold State.answerRowless; simp only; split <;> (try split) <;> simp
@[simp] theorem State.answerRowless_hostErr (s : State) (p : Port) (i : SlotId) : (State.answerRowless s p i).hostErr = s.hostErr := by unfold State.answerRowless; simp only; split <;> (try split) <;> simp
@[simp] theorem State.answerRowless_cisPoison (s : State) (p : Port) (i : SlotId) : (State.answerRowless s p i).cisPoison = s.cisPoison := by unfold State.answerRowless; simp only; split <;> (try split) <;> simp
@[simp] theorem State.answerRowless_bar2Reads (s : State) (p : Port) (i : SlotId) : (State.answerRowless s p i).bar2Reads = s.bar2Reads := by unfold State.answerRowless; simp only; split <;> (try split) <;> simp
@[simp] theorem State.answerRowless_ecs (s : State) (p : Port) (i : SlotId) : (State.answerRowless s p i).ecs = s.ecs := by unfold State.answerRowless; simp only; split <;> (try split) <;> simp
@[simp] theorem State.answerRowless_fence (s : State) (p : Port) (i : SlotId) : (State.answerRowless s p i).fence = s.fence := by unfold State.answerRowless; simp only; split <;> (try split) <;> simp
@[simp] theorem State.answerRowless_regions (s : State) (p : Port) (i : SlotId) : (State.answerRowless s p i).regions = s.regions := by unfold State.answerRowless; simp only; split <;> (try split) <;> simp
@[simp] theorem State.answerRowless_windows (s : State) (p : Port) (i : SlotId) : (State.answerRowless s p i).windows = s.windows := by unfold State.answerRowless; simp only; split <;> (try split) <;> simp
@[simp] theorem State.answerRowless_streams (s : State) (p : Port) (i : SlotId) : (State.answerRowless s p i).streams = s.streams := by unfold State.answerRowless; simp only; split <;> (try split) <;> simp
@[simp] theorem State.answerRowless_groups (s : State) (p : Port) (i : SlotId) : (State.answerRowless s p i).groups = s.groups := by unfold State.answerRowless; simp only; split <;> (try split) <;> simp
@[simp] theorem State.answerRowless_strPeek (s : State) (p : Port) (i : SlotId) : (State.answerRowless s p i).strPeek = s.strPeek := by unfold State.answerRowless; simp only; split <;> (try split) <;> simp
@[simp] theorem State.answerRowless_heaps (s : State) (p : Port) (i : SlotId) : (State.answerRowless s p i).heaps = s.heaps := by unfold State.answerRowless; simp only; split <;> (try split) <;> simp
@[simp] theorem State.answerRowless_seqs (s : State) (p : Port) (i : SlotId) : (State.answerRowless s p i).seqs = s.seqs := by unfold State.answerRowless; simp only; split <;> (try split) <;> simp
@[simp] theorem State.answerRowless_spills (s : State) (p : Port) (i : SlotId) : (State.answerRowless s p i).spills = s.spills := by unfold State.answerRowless; simp only; split <;> (try split) <;> simp
@[simp] theorem State.answerRowless_returns (s : State) (p : Port) (i : SlotId) : (State.answerRowless s p i).returns = s.returns := by unfold State.answerRowless; simp only; split <;> (try split) <;> simp
@[simp] theorem State.answerRowless_det (s : State) (p : Port) (i : SlotId) : (State.answerRowless s p i).det = s.det := by unfold State.answerRowless; simp only; split <;> (try split) <;> simp
@[simp] theorem State.answerRowless_cams (s : State) (p : Port) (i : SlotId) : (State.answerRowless s p i).cams = s.cams := by unfold State.answerRowless; simp only; split <;> (try split) <;> simp
@[simp] theorem State.answerRowless_audTable (s : State) (p : Port) (i : SlotId) : (State.answerRowless s p i).audTable = s.audTable := by unfold State.answerRowless; simp only; split <;> (try split) <;> simp
@[simp] theorem State.answerRowless_audFir (s : State) (p : Port) (i : SlotId) : (State.answerRowless s p i).audFir = s.audFir := by unfold State.answerRowless; simp only; split <;> (try split) <;> simp
@[simp] theorem State.answerRowless_fir (s : State) (p : Port) (i : SlotId) : (State.answerRowless s p i).fir = s.fir := by unfold State.answerRowless; simp only; split <;> (try split) <;> simp
@[simp] theorem State.answerRowless_bindings (s : State) (p : Port) (i : SlotId) : (State.answerRowless s p i).bindings = s.bindings := by unfold State.answerRowless; simp only; split <;> (try split) <;> simp
@[simp] theorem State.answerRowless_audio (s : State) (p : Port) (i : SlotId) : (State.answerRowless s p i).audio = s.audio := by unfold State.answerRowless; simp only; split <;> (try split) <;> simp
@[simp] theorem State.answerRowless_tdm (s : State) (p : Port) (i : SlotId) : (State.answerRowless s p i).tdm = s.tdm := by unfold State.answerRowless; simp only; split <;> (try split) <;> simp
@[simp] theorem State.answerRowless_pipes (s : State) (p : Port) (i : SlotId) : (State.answerRowless s p i).pipes = s.pipes := by unfold State.answerRowless; simp only; split <;> (try split) <;> simp
@[simp] theorem State.answerRowless_recTurn (s : State) (p : Port) (i : SlotId) : (State.answerRowless s p i).recTurn = s.recTurn := by unfold State.answerRowless; simp only; split <;> (try split) <;> simp
@[simp] theorem State.answerRowless_axes (s : State) (p : Port) (i : SlotId) : (State.answerRowless s p i).axes = s.axes := by unfold State.answerRowless; simp only; split <;> (try split) <;> simp
@[simp] theorem State.answerRowless_stations (s : State) (p : Port) (i : SlotId) : (State.answerRowless s p i).stations = s.stations := by unfold State.answerRowless; simp only; split <;> (try split) <;> simp
@[simp] theorem State.answerRowless_lpeLatched (s : State) (p : Port) (i : SlotId) : (State.answerRowless s p i).lpeLatched = s.lpeLatched := by unfold State.answerRowless; simp only; split <;> (try split) <;> simp
@[simp] theorem State.answerRowless_lpeBusy (s : State) (p : Port) (i : SlotId) : (State.answerRowless s p i).lpeBusy = s.lpeBusy := by unfold State.answerRowless; simp only; split <;> (try split) <;> simp
@[simp] theorem State.answerRowless_tb (s : State) (p : Port) (i : SlotId) : (State.answerRowless s p i).tb = s.tb := by unfold State.answerRowless; simp only; split <;> (try split) <;> simp
@[simp] theorem State.answerRowless_eth (s : State) (p : Port) (i : SlotId) : (State.answerRowless s p i).eth = s.eth := by unfold State.answerRowless; simp only; split <;> (try split) <;> simp
@[simp] theorem State.answerRowless_pm (s : State) (p : Port) (i : SlotId) : (State.answerRowless s p i).pm = s.pm := by unfold State.answerRowless; simp only; split <;> (try split) <;> simp
@[simp] theorem State.answerRowless_pdOn (s : State) (p : Port) (i : SlotId) : (State.answerRowless s p i).pdOn = s.pdOn := by unfold State.answerRowless; simp only; split <;> (try split) <;> simp
@[simp] theorem State.answerRowless_pdMoves (s : State) (p : Port) (i : SlotId) : (State.answerRowless s p i).pdMoves = s.pdMoves := by unfold State.answerRowless; simp only; split <;> (try split) <;> simp
@[simp] theorem State.answerRowless_pairs (s : State) (p : Port) (i : SlotId) : (State.answerRowless s p i).pairs = s.pairs := by unfold State.answerRowless; simp only; split <;> (try split) <;> simp
@[simp] theorem State.answerRowless_sph (s : State) (p : Port) (i : SlotId) : (State.answerRowless s p i).sph = s.sph := by unfold State.answerRowless; simp only; split <;> (try split) <;> simp
@[simp] theorem State.answerRowless_mirrors (s : State) (p : Port) (i : SlotId) : (State.answerRowless s p i).mirrors = s.mirrors := by unfold State.answerRowless; simp only; split <;> (try split) <;> simp
@[simp] theorem State.answerRowless_pending (s : State) (p : Port) (i : SlotId) : (State.answerRowless s p i).pending = s.pending := by unfold State.answerRowless; simp only; split <;> (try split) <;> simp
@[simp] theorem State.answerRowless_fresh (s : State) (p : Port) (i : SlotId) : (State.answerRowless s p i).fresh = s.fresh := by unfold State.answerRowless; simp only; split <;> (try split) <;> simp

/-! State.answerWaiting -/
@[simp] theorem State.answerWaiting_sys (s : State) : (State.answerWaiting s).sys = s.sys := foldl_field (·.sys) (fun t r => by split <;> simp) _ s
@[simp] theorem State.answerWaiting_counter (s : State) : (State.answerWaiting s).counter = s.counter := foldl_field (·.counter) (fun t r => by split <;> simp) _ s
@[simp] theorem State.answerWaiting_trb (s : State) : (State.answerWaiting s).trb = s.trb := foldl_field (·.trb) (fun t r => by split <;> simp) _ s
@[simp] theorem State.answerWaiting_sems (s : State) : (State.answerWaiting s).sems = s.sems := foldl_field (·.sems) (fun t r => by split <;> simp) _ s
@[simp] theorem State.answerWaiting_errs (s : State) : (State.answerWaiting s).errs = s.errs := foldl_field (·.errs) (fun t r => by split <;> simp) _ s
@[simp] theorem State.answerWaiting_setNow (s : State) : (State.answerWaiting s).setNow = s.setNow := foldl_field (·.setNow) (fun t r => by split <;> simp) _ s
@[simp] theorem State.answerWaiting_v1Raised (s : State) : (State.answerWaiting s).v1Raised = s.v1Raised := foldl_field (·.v1Raised) (fun t r => by split <;> simp) _ s
@[simp] theorem State.answerWaiting_cnts (s : State) : (State.answerWaiting s).cnts = s.cnts := foldl_field (·.cnts) (fun t r => by split <;> simp) _ s
@[simp] theorem State.answerWaiting_parts (s : State) : (State.answerWaiting s).parts = s.parts := foldl_field (·.parts) (fun t r => by split <;> simp) _ s
@[simp] theorem State.answerWaiting_cmds (s : State) : (State.answerWaiting s).cmds = s.cmds := foldl_field (·.cmds) (fun t r => by split <;> simp) _ s
@[simp] theorem State.answerWaiting_admitNext (s : State) : (State.answerWaiting s).admitNext = s.admitNext := foldl_field (·.admitNext) (fun t r => by split <;> simp) _ s
@[simp] theorem State.answerWaiting_issuedNow (s : State) : (State.answerWaiting s).issuedNow = s.issuedNow := foldl_field (·.issuedNow) (fun t r => by split <;> simp) _ s
@[simp] theorem State.answerWaiting_issueNext (s : State) : (State.answerWaiting s).issueNext = s.issueNext := foldl_field (·.issueNext) (fun t r => by split <;> simp) _ s
@[simp] theorem State.answerWaiting_keys (s : State) : (State.answerWaiting s).keys = s.keys := foldl_field (·.keys) (fun t r => by split <;> simp) _ s
@[simp] theorem State.answerWaiting_ops (s : State) : (State.answerWaiting s).ops = s.ops := foldl_field (·.ops) (fun t r => by split <;> simp) _ s
@[simp] theorem State.answerWaiting_opNext (s : State) : (State.answerWaiting s).opNext = s.opNext := foldl_field (·.opNext) (fun t r => by split <;> simp) _ s
@[simp] theorem State.answerWaiting_scHalt (s : State) : (State.answerWaiting s).scHalt = s.scHalt := foldl_field (·.scHalt) (fun t r => by split <;> simp) _ s
@[simp] theorem State.answerWaiting_halted (s : State) : (State.answerWaiting s).halted = s.halted := foldl_field (·.halted) (fun t r => by split <;> simp) _ s
@[simp] theorem State.answerWaiting_mem (s : State) : (State.answerWaiting s).mem = s.mem := foldl_field (·.mem) (fun t r => by split <;> simp) _ s
@[simp] theorem State.answerWaiting_undef (s : State) : (State.answerWaiting s).undef = s.undef := foldl_field (·.undef) (fun t r => by split <;> simp) _ s
@[simp] theorem State.answerWaiting_poison (s : State) : (State.answerWaiting s).poison = s.poison := foldl_field (·.poison) (fun t r => by split <;> simp) _ s
@[simp] theorem State.answerWaiting_ecc (s : State) : (State.answerWaiting s).ecc = s.ecc := foldl_field (·.ecc) (fun t r => by split <;> simp) _ s
@[simp] theorem State.answerWaiting_hw (s : State) : (State.answerWaiting s).hw = s.hw := foldl_field (·.hw) (fun t r => by split <;> simp) _ s
@[simp] theorem State.answerWaiting_pools (s : State) : (State.answerWaiting s).pools = s.pools := foldl_field (·.pools) (fun t r => by split <;> simp) _ s
@[simp] theorem State.answerWaiting_hostMem (s : State) : (State.answerWaiting s).hostMem = s.hostMem := foldl_field (·.hostMem) (fun t r => by split <;> simp) _ s
@[simp] theorem State.answerWaiting_hostErr (s : State) : (State.answerWaiting s).hostErr = s.hostErr := foldl_field (·.hostErr) (fun t r => by split <;> simp) _ s
@[simp] theorem State.answerWaiting_cisPoison (s : State) : (State.answerWaiting s).cisPoison = s.cisPoison := foldl_field (·.cisPoison) (fun t r => by split <;> simp) _ s
@[simp] theorem State.answerWaiting_bar2Reads (s : State) : (State.answerWaiting s).bar2Reads = s.bar2Reads := foldl_field (·.bar2Reads) (fun t r => by split <;> simp) _ s
@[simp] theorem State.answerWaiting_ecs (s : State) : (State.answerWaiting s).ecs = s.ecs := foldl_field (·.ecs) (fun t r => by split <;> simp) _ s
@[simp] theorem State.answerWaiting_fence (s : State) : (State.answerWaiting s).fence = s.fence := foldl_field (·.fence) (fun t r => by split <;> simp) _ s
@[simp] theorem State.answerWaiting_regions (s : State) : (State.answerWaiting s).regions = s.regions := foldl_field (·.regions) (fun t r => by split <;> simp) _ s
@[simp] theorem State.answerWaiting_windows (s : State) : (State.answerWaiting s).windows = s.windows := foldl_field (·.windows) (fun t r => by split <;> simp) _ s
@[simp] theorem State.answerWaiting_streams (s : State) : (State.answerWaiting s).streams = s.streams := foldl_field (·.streams) (fun t r => by split <;> simp) _ s
@[simp] theorem State.answerWaiting_groups (s : State) : (State.answerWaiting s).groups = s.groups := foldl_field (·.groups) (fun t r => by split <;> simp) _ s
@[simp] theorem State.answerWaiting_strPeek (s : State) : (State.answerWaiting s).strPeek = s.strPeek := foldl_field (·.strPeek) (fun t r => by split <;> simp) _ s
@[simp] theorem State.answerWaiting_heaps (s : State) : (State.answerWaiting s).heaps = s.heaps := foldl_field (·.heaps) (fun t r => by split <;> simp) _ s
@[simp] theorem State.answerWaiting_seqs (s : State) : (State.answerWaiting s).seqs = s.seqs := foldl_field (·.seqs) (fun t r => by split <;> simp) _ s
@[simp] theorem State.answerWaiting_spills (s : State) : (State.answerWaiting s).spills = s.spills := foldl_field (·.spills) (fun t r => by split <;> simp) _ s
@[simp] theorem State.answerWaiting_returns (s : State) : (State.answerWaiting s).returns = s.returns := foldl_field (·.returns) (fun t r => by split <;> simp) _ s
@[simp] theorem State.answerWaiting_det (s : State) : (State.answerWaiting s).det = s.det := foldl_field (·.det) (fun t r => by split <;> simp) _ s
@[simp] theorem State.answerWaiting_cams (s : State) : (State.answerWaiting s).cams = s.cams := foldl_field (·.cams) (fun t r => by split <;> simp) _ s
@[simp] theorem State.answerWaiting_audTable (s : State) : (State.answerWaiting s).audTable = s.audTable := foldl_field (·.audTable) (fun t r => by split <;> simp) _ s
@[simp] theorem State.answerWaiting_audFir (s : State) : (State.answerWaiting s).audFir = s.audFir := foldl_field (·.audFir) (fun t r => by split <;> simp) _ s
@[simp] theorem State.answerWaiting_fir (s : State) : (State.answerWaiting s).fir = s.fir := foldl_field (·.fir) (fun t r => by split <;> simp) _ s
@[simp] theorem State.answerWaiting_bindings (s : State) : (State.answerWaiting s).bindings = s.bindings := foldl_field (·.bindings) (fun t r => by split <;> simp) _ s
@[simp] theorem State.answerWaiting_audio (s : State) : (State.answerWaiting s).audio = s.audio := foldl_field (·.audio) (fun t r => by split <;> simp) _ s
@[simp] theorem State.answerWaiting_tdm (s : State) : (State.answerWaiting s).tdm = s.tdm := foldl_field (·.tdm) (fun t r => by split <;> simp) _ s
@[simp] theorem State.answerWaiting_pipes (s : State) : (State.answerWaiting s).pipes = s.pipes := foldl_field (·.pipes) (fun t r => by split <;> simp) _ s
@[simp] theorem State.answerWaiting_recTurn (s : State) : (State.answerWaiting s).recTurn = s.recTurn := foldl_field (·.recTurn) (fun t r => by split <;> simp) _ s
@[simp] theorem State.answerWaiting_axes (s : State) : (State.answerWaiting s).axes = s.axes := foldl_field (·.axes) (fun t r => by split <;> simp) _ s
@[simp] theorem State.answerWaiting_stations (s : State) : (State.answerWaiting s).stations = s.stations := foldl_field (·.stations) (fun t r => by split <;> simp) _ s
@[simp] theorem State.answerWaiting_lpeLatched (s : State) : (State.answerWaiting s).lpeLatched = s.lpeLatched := foldl_field (·.lpeLatched) (fun t r => by split <;> simp) _ s
@[simp] theorem State.answerWaiting_lpeBusy (s : State) : (State.answerWaiting s).lpeBusy = s.lpeBusy := foldl_field (·.lpeBusy) (fun t r => by split <;> simp) _ s
@[simp] theorem State.answerWaiting_tb (s : State) : (State.answerWaiting s).tb = s.tb := foldl_field (·.tb) (fun t r => by split <;> simp) _ s
@[simp] theorem State.answerWaiting_eth (s : State) : (State.answerWaiting s).eth = s.eth := foldl_field (·.eth) (fun t r => by split <;> simp) _ s
@[simp] theorem State.answerWaiting_pm (s : State) : (State.answerWaiting s).pm = s.pm := foldl_field (·.pm) (fun t r => by split <;> simp) _ s
@[simp] theorem State.answerWaiting_pdOn (s : State) : (State.answerWaiting s).pdOn = s.pdOn := foldl_field (·.pdOn) (fun t r => by split <;> simp) _ s
@[simp] theorem State.answerWaiting_pdMoves (s : State) : (State.answerWaiting s).pdMoves = s.pdMoves := foldl_field (·.pdMoves) (fun t r => by split <;> simp) _ s
@[simp] theorem State.answerWaiting_pairs (s : State) : (State.answerWaiting s).pairs = s.pairs := foldl_field (·.pairs) (fun t r => by split <;> simp) _ s
@[simp] theorem State.answerWaiting_sph (s : State) : (State.answerWaiting s).sph = s.sph := foldl_field (·.sph) (fun t r => by split <;> simp) _ s
@[simp] theorem State.answerWaiting_mirrors (s : State) : (State.answerWaiting s).mirrors = s.mirrors := foldl_field (·.mirrors) (fun t r => by split <;> simp) _ s
@[simp] theorem State.answerWaiting_pending (s : State) : (State.answerWaiting s).pending = s.pending := foldl_field (·.pending) (fun t r => by split <;> simp) _ s
@[simp] theorem State.answerWaiting_fresh (s : State) : (State.answerWaiting s).fresh = s.fresh := foldl_field (·.fresh) (fun t r => by split <;> simp) _ s

/-! State.answer -/
@[simp] theorem State.answer_sys (s : State) (p : Port) (i : SlotId) (st : St) (reason off : Nat) (payload : List Byte) : (State.answer s p i st reason off payload).sys = s.sys := by simp [State.answer]
@[simp] theorem State.answer_counter (s : State) (p : Port) (i : SlotId) (st : St) (reason off : Nat) (payload : List Byte) : (State.answer s p i st reason off payload).counter = s.counter := by simp [State.answer]
@[simp] theorem State.answer_trb (s : State) (p : Port) (i : SlotId) (st : St) (reason off : Nat) (payload : List Byte) : (State.answer s p i st reason off payload).trb = s.trb := by simp [State.answer]
@[simp] theorem State.answer_sems (s : State) (p : Port) (i : SlotId) (st : St) (reason off : Nat) (payload : List Byte) : (State.answer s p i st reason off payload).sems = s.sems := by simp [State.answer]
@[simp] theorem State.answer_errs (s : State) (p : Port) (i : SlotId) (st : St) (reason off : Nat) (payload : List Byte) : (State.answer s p i st reason off payload).errs = s.errs := by simp [State.answer]
@[simp] theorem State.answer_setNow (s : State) (p : Port) (i : SlotId) (st : St) (reason off : Nat) (payload : List Byte) : (State.answer s p i st reason off payload).setNow = s.setNow := by simp [State.answer]
@[simp] theorem State.answer_v1Raised (s : State) (p : Port) (i : SlotId) (st : St) (reason off : Nat) (payload : List Byte) : (State.answer s p i st reason off payload).v1Raised = s.v1Raised := by simp [State.answer]
@[simp] theorem State.answer_cnts (s : State) (p : Port) (i : SlotId) (st : St) (reason off : Nat) (payload : List Byte) : (State.answer s p i st reason off payload).cnts = s.cnts := by simp [State.answer]
@[simp] theorem State.answer_parts (s : State) (p : Port) (i : SlotId) (st : St) (reason off : Nat) (payload : List Byte) : (State.answer s p i st reason off payload).parts = s.parts := by simp [State.answer]
@[simp] theorem State.answer_cmds (s : State) (p : Port) (i : SlotId) (st : St) (reason off : Nat) (payload : List Byte) : (State.answer s p i st reason off payload).cmds = s.cmds := by simp [State.answer]
@[simp] theorem State.answer_admitNext (s : State) (p : Port) (i : SlotId) (st : St) (reason off : Nat) (payload : List Byte) : (State.answer s p i st reason off payload).admitNext = s.admitNext := by simp [State.answer]
@[simp] theorem State.answer_issuedNow (s : State) (p : Port) (i : SlotId) (st : St) (reason off : Nat) (payload : List Byte) : (State.answer s p i st reason off payload).issuedNow = s.issuedNow := by simp [State.answer]
@[simp] theorem State.answer_issueNext (s : State) (p : Port) (i : SlotId) (st : St) (reason off : Nat) (payload : List Byte) : (State.answer s p i st reason off payload).issueNext = s.issueNext := by simp [State.answer]
@[simp] theorem State.answer_keys (s : State) (p : Port) (i : SlotId) (st : St) (reason off : Nat) (payload : List Byte) : (State.answer s p i st reason off payload).keys = s.keys := by simp [State.answer]
@[simp] theorem State.answer_ops (s : State) (p : Port) (i : SlotId) (st : St) (reason off : Nat) (payload : List Byte) : (State.answer s p i st reason off payload).ops = s.ops := by simp [State.answer]
@[simp] theorem State.answer_opNext (s : State) (p : Port) (i : SlotId) (st : St) (reason off : Nat) (payload : List Byte) : (State.answer s p i st reason off payload).opNext = s.opNext := by simp [State.answer]
@[simp] theorem State.answer_scHalt (s : State) (p : Port) (i : SlotId) (st : St) (reason off : Nat) (payload : List Byte) : (State.answer s p i st reason off payload).scHalt = s.scHalt := by simp [State.answer]
@[simp] theorem State.answer_halted (s : State) (p : Port) (i : SlotId) (st : St) (reason off : Nat) (payload : List Byte) : (State.answer s p i st reason off payload).halted = s.halted := by simp [State.answer]
@[simp] theorem State.answer_mem (s : State) (p : Port) (i : SlotId) (st : St) (reason off : Nat) (payload : List Byte) : (State.answer s p i st reason off payload).mem = s.mem := by simp [State.answer]
@[simp] theorem State.answer_undef (s : State) (p : Port) (i : SlotId) (st : St) (reason off : Nat) (payload : List Byte) : (State.answer s p i st reason off payload).undef = s.undef := by simp [State.answer]
@[simp] theorem State.answer_poison (s : State) (p : Port) (i : SlotId) (st : St) (reason off : Nat) (payload : List Byte) : (State.answer s p i st reason off payload).poison = s.poison := by simp [State.answer]
@[simp] theorem State.answer_ecc (s : State) (p : Port) (i : SlotId) (st : St) (reason off : Nat) (payload : List Byte) : (State.answer s p i st reason off payload).ecc = s.ecc := by simp [State.answer]
@[simp] theorem State.answer_hw (s : State) (p : Port) (i : SlotId) (st : St) (reason off : Nat) (payload : List Byte) : (State.answer s p i st reason off payload).hw = s.hw := by simp [State.answer]
@[simp] theorem State.answer_pools (s : State) (p : Port) (i : SlotId) (st : St) (reason off : Nat) (payload : List Byte) : (State.answer s p i st reason off payload).pools = s.pools := by simp [State.answer]
@[simp] theorem State.answer_hostMem (s : State) (p : Port) (i : SlotId) (st : St) (reason off : Nat) (payload : List Byte) : (State.answer s p i st reason off payload).hostMem = s.hostMem := by simp [State.answer]
@[simp] theorem State.answer_hostErr (s : State) (p : Port) (i : SlotId) (st : St) (reason off : Nat) (payload : List Byte) : (State.answer s p i st reason off payload).hostErr = s.hostErr := by simp [State.answer]
@[simp] theorem State.answer_cisPoison (s : State) (p : Port) (i : SlotId) (st : St) (reason off : Nat) (payload : List Byte) : (State.answer s p i st reason off payload).cisPoison = s.cisPoison := by simp [State.answer]
@[simp] theorem State.answer_bar2Reads (s : State) (p : Port) (i : SlotId) (st : St) (reason off : Nat) (payload : List Byte) : (State.answer s p i st reason off payload).bar2Reads = s.bar2Reads := by simp [State.answer]
@[simp] theorem State.answer_ecs (s : State) (p : Port) (i : SlotId) (st : St) (reason off : Nat) (payload : List Byte) : (State.answer s p i st reason off payload).ecs = s.ecs := by simp [State.answer]
@[simp] theorem State.answer_fence (s : State) (p : Port) (i : SlotId) (st : St) (reason off : Nat) (payload : List Byte) : (State.answer s p i st reason off payload).fence = s.fence := by simp [State.answer]
@[simp] theorem State.answer_regions (s : State) (p : Port) (i : SlotId) (st : St) (reason off : Nat) (payload : List Byte) : (State.answer s p i st reason off payload).regions = s.regions := by simp [State.answer]
@[simp] theorem State.answer_windows (s : State) (p : Port) (i : SlotId) (st : St) (reason off : Nat) (payload : List Byte) : (State.answer s p i st reason off payload).windows = s.windows := by simp [State.answer]
@[simp] theorem State.answer_streams (s : State) (p : Port) (i : SlotId) (st : St) (reason off : Nat) (payload : List Byte) : (State.answer s p i st reason off payload).streams = s.streams := by simp [State.answer]
@[simp] theorem State.answer_groups (s : State) (p : Port) (i : SlotId) (st : St) (reason off : Nat) (payload : List Byte) : (State.answer s p i st reason off payload).groups = s.groups := by simp [State.answer]
@[simp] theorem State.answer_strPeek (s : State) (p : Port) (i : SlotId) (st : St) (reason off : Nat) (payload : List Byte) : (State.answer s p i st reason off payload).strPeek = s.strPeek := by simp [State.answer]
@[simp] theorem State.answer_heaps (s : State) (p : Port) (i : SlotId) (st : St) (reason off : Nat) (payload : List Byte) : (State.answer s p i st reason off payload).heaps = s.heaps := by simp [State.answer]
@[simp] theorem State.answer_seqs (s : State) (p : Port) (i : SlotId) (st : St) (reason off : Nat) (payload : List Byte) : (State.answer s p i st reason off payload).seqs = s.seqs := by simp [State.answer]
@[simp] theorem State.answer_spills (s : State) (p : Port) (i : SlotId) (st : St) (reason off : Nat) (payload : List Byte) : (State.answer s p i st reason off payload).spills = s.spills := by simp [State.answer]
@[simp] theorem State.answer_returns (s : State) (p : Port) (i : SlotId) (st : St) (reason off : Nat) (payload : List Byte) : (State.answer s p i st reason off payload).returns = s.returns := by simp [State.answer]
@[simp] theorem State.answer_det (s : State) (p : Port) (i : SlotId) (st : St) (reason off : Nat) (payload : List Byte) : (State.answer s p i st reason off payload).det = s.det := by simp [State.answer]
@[simp] theorem State.answer_cams (s : State) (p : Port) (i : SlotId) (st : St) (reason off : Nat) (payload : List Byte) : (State.answer s p i st reason off payload).cams = s.cams := by simp [State.answer]
@[simp] theorem State.answer_audTable (s : State) (p : Port) (i : SlotId) (st : St) (reason off : Nat) (payload : List Byte) : (State.answer s p i st reason off payload).audTable = s.audTable := by simp [State.answer]
@[simp] theorem State.answer_audFir (s : State) (p : Port) (i : SlotId) (st : St) (reason off : Nat) (payload : List Byte) : (State.answer s p i st reason off payload).audFir = s.audFir := by simp [State.answer]
@[simp] theorem State.answer_fir (s : State) (p : Port) (i : SlotId) (st : St) (reason off : Nat) (payload : List Byte) : (State.answer s p i st reason off payload).fir = s.fir := by simp [State.answer]
@[simp] theorem State.answer_bindings (s : State) (p : Port) (i : SlotId) (st : St) (reason off : Nat) (payload : List Byte) : (State.answer s p i st reason off payload).bindings = s.bindings := by simp [State.answer]
@[simp] theorem State.answer_audio (s : State) (p : Port) (i : SlotId) (st : St) (reason off : Nat) (payload : List Byte) : (State.answer s p i st reason off payload).audio = s.audio := by simp [State.answer]
@[simp] theorem State.answer_tdm (s : State) (p : Port) (i : SlotId) (st : St) (reason off : Nat) (payload : List Byte) : (State.answer s p i st reason off payload).tdm = s.tdm := by simp [State.answer]
@[simp] theorem State.answer_pipes (s : State) (p : Port) (i : SlotId) (st : St) (reason off : Nat) (payload : List Byte) : (State.answer s p i st reason off payload).pipes = s.pipes := by simp [State.answer]
@[simp] theorem State.answer_recTurn (s : State) (p : Port) (i : SlotId) (st : St) (reason off : Nat) (payload : List Byte) : (State.answer s p i st reason off payload).recTurn = s.recTurn := by simp [State.answer]
@[simp] theorem State.answer_axes (s : State) (p : Port) (i : SlotId) (st : St) (reason off : Nat) (payload : List Byte) : (State.answer s p i st reason off payload).axes = s.axes := by simp [State.answer]
@[simp] theorem State.answer_stations (s : State) (p : Port) (i : SlotId) (st : St) (reason off : Nat) (payload : List Byte) : (State.answer s p i st reason off payload).stations = s.stations := by simp [State.answer]
@[simp] theorem State.answer_lpeLatched (s : State) (p : Port) (i : SlotId) (st : St) (reason off : Nat) (payload : List Byte) : (State.answer s p i st reason off payload).lpeLatched = s.lpeLatched := by simp [State.answer]
@[simp] theorem State.answer_lpeBusy (s : State) (p : Port) (i : SlotId) (st : St) (reason off : Nat) (payload : List Byte) : (State.answer s p i st reason off payload).lpeBusy = s.lpeBusy := by simp [State.answer]
@[simp] theorem State.answer_tb (s : State) (p : Port) (i : SlotId) (st : St) (reason off : Nat) (payload : List Byte) : (State.answer s p i st reason off payload).tb = s.tb := by simp [State.answer]
@[simp] theorem State.answer_eth (s : State) (p : Port) (i : SlotId) (st : St) (reason off : Nat) (payload : List Byte) : (State.answer s p i st reason off payload).eth = s.eth := by simp [State.answer]
@[simp] theorem State.answer_pm (s : State) (p : Port) (i : SlotId) (st : St) (reason off : Nat) (payload : List Byte) : (State.answer s p i st reason off payload).pm = s.pm := by simp [State.answer]
@[simp] theorem State.answer_pdOn (s : State) (p : Port) (i : SlotId) (st : St) (reason off : Nat) (payload : List Byte) : (State.answer s p i st reason off payload).pdOn = s.pdOn := by simp [State.answer]
@[simp] theorem State.answer_pdMoves (s : State) (p : Port) (i : SlotId) (st : St) (reason off : Nat) (payload : List Byte) : (State.answer s p i st reason off payload).pdMoves = s.pdMoves := by simp [State.answer]
@[simp] theorem State.answer_pairs (s : State) (p : Port) (i : SlotId) (st : St) (reason off : Nat) (payload : List Byte) : (State.answer s p i st reason off payload).pairs = s.pairs := by simp [State.answer]
@[simp] theorem State.answer_sph (s : State) (p : Port) (i : SlotId) (st : St) (reason off : Nat) (payload : List Byte) : (State.answer s p i st reason off payload).sph = s.sph := by simp [State.answer]
@[simp] theorem State.answer_mirrors (s : State) (p : Port) (i : SlotId) (st : St) (reason off : Nat) (payload : List Byte) : (State.answer s p i st reason off payload).mirrors = s.mirrors := by simp [State.answer]
@[simp] theorem State.answer_pending (s : State) (p : Port) (i : SlotId) (st : St) (reason off : Nat) (payload : List Byte) : (State.answer s p i st reason off payload).pending = s.pending := by simp [State.answer]
@[simp] theorem State.answer_fresh (s : State) (p : Port) (i : SlotId) (st : St) (reason off : Nat) (payload : List Byte) : (State.answer s p i st reason off payload).fresh = s.fresh := by simp [State.answer]

/-! State.answerOk -/
@[simp] theorem State.answerOk_sys (s : State) (p : Port) (i : SlotId) (payload : List Byte) : (State.answerOk s p i payload).sys = s.sys := by simp [State.answerOk]
@[simp] theorem State.answerOk_counter (s : State) (p : Port) (i : SlotId) (payload : List Byte) : (State.answerOk s p i payload).counter = s.counter := by simp [State.answerOk]
@[simp] theorem State.answerOk_trb (s : State) (p : Port) (i : SlotId) (payload : List Byte) : (State.answerOk s p i payload).trb = s.trb := by simp [State.answerOk]
@[simp] theorem State.answerOk_sems (s : State) (p : Port) (i : SlotId) (payload : List Byte) : (State.answerOk s p i payload).sems = s.sems := by simp [State.answerOk]
@[simp] theorem State.answerOk_errs (s : State) (p : Port) (i : SlotId) (payload : List Byte) : (State.answerOk s p i payload).errs = s.errs := by simp [State.answerOk]
@[simp] theorem State.answerOk_setNow (s : State) (p : Port) (i : SlotId) (payload : List Byte) : (State.answerOk s p i payload).setNow = s.setNow := by simp [State.answerOk]
@[simp] theorem State.answerOk_v1Raised (s : State) (p : Port) (i : SlotId) (payload : List Byte) : (State.answerOk s p i payload).v1Raised = s.v1Raised := by simp [State.answerOk]
@[simp] theorem State.answerOk_cnts (s : State) (p : Port) (i : SlotId) (payload : List Byte) : (State.answerOk s p i payload).cnts = s.cnts := by simp [State.answerOk]
@[simp] theorem State.answerOk_parts (s : State) (p : Port) (i : SlotId) (payload : List Byte) : (State.answerOk s p i payload).parts = s.parts := by simp [State.answerOk]
@[simp] theorem State.answerOk_cmds (s : State) (p : Port) (i : SlotId) (payload : List Byte) : (State.answerOk s p i payload).cmds = s.cmds := by simp [State.answerOk]
@[simp] theorem State.answerOk_admitNext (s : State) (p : Port) (i : SlotId) (payload : List Byte) : (State.answerOk s p i payload).admitNext = s.admitNext := by simp [State.answerOk]
@[simp] theorem State.answerOk_issuedNow (s : State) (p : Port) (i : SlotId) (payload : List Byte) : (State.answerOk s p i payload).issuedNow = s.issuedNow := by simp [State.answerOk]
@[simp] theorem State.answerOk_issueNext (s : State) (p : Port) (i : SlotId) (payload : List Byte) : (State.answerOk s p i payload).issueNext = s.issueNext := by simp [State.answerOk]
@[simp] theorem State.answerOk_keys (s : State) (p : Port) (i : SlotId) (payload : List Byte) : (State.answerOk s p i payload).keys = s.keys := by simp [State.answerOk]
@[simp] theorem State.answerOk_ops (s : State) (p : Port) (i : SlotId) (payload : List Byte) : (State.answerOk s p i payload).ops = s.ops := by simp [State.answerOk]
@[simp] theorem State.answerOk_opNext (s : State) (p : Port) (i : SlotId) (payload : List Byte) : (State.answerOk s p i payload).opNext = s.opNext := by simp [State.answerOk]
@[simp] theorem State.answerOk_scHalt (s : State) (p : Port) (i : SlotId) (payload : List Byte) : (State.answerOk s p i payload).scHalt = s.scHalt := by simp [State.answerOk]
@[simp] theorem State.answerOk_halted (s : State) (p : Port) (i : SlotId) (payload : List Byte) : (State.answerOk s p i payload).halted = s.halted := by simp [State.answerOk]
@[simp] theorem State.answerOk_mem (s : State) (p : Port) (i : SlotId) (payload : List Byte) : (State.answerOk s p i payload).mem = s.mem := by simp [State.answerOk]
@[simp] theorem State.answerOk_undef (s : State) (p : Port) (i : SlotId) (payload : List Byte) : (State.answerOk s p i payload).undef = s.undef := by simp [State.answerOk]
@[simp] theorem State.answerOk_poison (s : State) (p : Port) (i : SlotId) (payload : List Byte) : (State.answerOk s p i payload).poison = s.poison := by simp [State.answerOk]
@[simp] theorem State.answerOk_ecc (s : State) (p : Port) (i : SlotId) (payload : List Byte) : (State.answerOk s p i payload).ecc = s.ecc := by simp [State.answerOk]
@[simp] theorem State.answerOk_hw (s : State) (p : Port) (i : SlotId) (payload : List Byte) : (State.answerOk s p i payload).hw = s.hw := by simp [State.answerOk]
@[simp] theorem State.answerOk_pools (s : State) (p : Port) (i : SlotId) (payload : List Byte) : (State.answerOk s p i payload).pools = s.pools := by simp [State.answerOk]
@[simp] theorem State.answerOk_hostMem (s : State) (p : Port) (i : SlotId) (payload : List Byte) : (State.answerOk s p i payload).hostMem = s.hostMem := by simp [State.answerOk]
@[simp] theorem State.answerOk_hostErr (s : State) (p : Port) (i : SlotId) (payload : List Byte) : (State.answerOk s p i payload).hostErr = s.hostErr := by simp [State.answerOk]
@[simp] theorem State.answerOk_cisPoison (s : State) (p : Port) (i : SlotId) (payload : List Byte) : (State.answerOk s p i payload).cisPoison = s.cisPoison := by simp [State.answerOk]
@[simp] theorem State.answerOk_bar2Reads (s : State) (p : Port) (i : SlotId) (payload : List Byte) : (State.answerOk s p i payload).bar2Reads = s.bar2Reads := by simp [State.answerOk]
@[simp] theorem State.answerOk_ecs (s : State) (p : Port) (i : SlotId) (payload : List Byte) : (State.answerOk s p i payload).ecs = s.ecs := by simp [State.answerOk]
@[simp] theorem State.answerOk_fence (s : State) (p : Port) (i : SlotId) (payload : List Byte) : (State.answerOk s p i payload).fence = s.fence := by simp [State.answerOk]
@[simp] theorem State.answerOk_regions (s : State) (p : Port) (i : SlotId) (payload : List Byte) : (State.answerOk s p i payload).regions = s.regions := by simp [State.answerOk]
@[simp] theorem State.answerOk_windows (s : State) (p : Port) (i : SlotId) (payload : List Byte) : (State.answerOk s p i payload).windows = s.windows := by simp [State.answerOk]
@[simp] theorem State.answerOk_streams (s : State) (p : Port) (i : SlotId) (payload : List Byte) : (State.answerOk s p i payload).streams = s.streams := by simp [State.answerOk]
@[simp] theorem State.answerOk_groups (s : State) (p : Port) (i : SlotId) (payload : List Byte) : (State.answerOk s p i payload).groups = s.groups := by simp [State.answerOk]
@[simp] theorem State.answerOk_strPeek (s : State) (p : Port) (i : SlotId) (payload : List Byte) : (State.answerOk s p i payload).strPeek = s.strPeek := by simp [State.answerOk]
@[simp] theorem State.answerOk_heaps (s : State) (p : Port) (i : SlotId) (payload : List Byte) : (State.answerOk s p i payload).heaps = s.heaps := by simp [State.answerOk]
@[simp] theorem State.answerOk_seqs (s : State) (p : Port) (i : SlotId) (payload : List Byte) : (State.answerOk s p i payload).seqs = s.seqs := by simp [State.answerOk]
@[simp] theorem State.answerOk_spills (s : State) (p : Port) (i : SlotId) (payload : List Byte) : (State.answerOk s p i payload).spills = s.spills := by simp [State.answerOk]
@[simp] theorem State.answerOk_returns (s : State) (p : Port) (i : SlotId) (payload : List Byte) : (State.answerOk s p i payload).returns = s.returns := by simp [State.answerOk]
@[simp] theorem State.answerOk_det (s : State) (p : Port) (i : SlotId) (payload : List Byte) : (State.answerOk s p i payload).det = s.det := by simp [State.answerOk]
@[simp] theorem State.answerOk_cams (s : State) (p : Port) (i : SlotId) (payload : List Byte) : (State.answerOk s p i payload).cams = s.cams := by simp [State.answerOk]
@[simp] theorem State.answerOk_audTable (s : State) (p : Port) (i : SlotId) (payload : List Byte) : (State.answerOk s p i payload).audTable = s.audTable := by simp [State.answerOk]
@[simp] theorem State.answerOk_audFir (s : State) (p : Port) (i : SlotId) (payload : List Byte) : (State.answerOk s p i payload).audFir = s.audFir := by simp [State.answerOk]
@[simp] theorem State.answerOk_fir (s : State) (p : Port) (i : SlotId) (payload : List Byte) : (State.answerOk s p i payload).fir = s.fir := by simp [State.answerOk]
@[simp] theorem State.answerOk_bindings (s : State) (p : Port) (i : SlotId) (payload : List Byte) : (State.answerOk s p i payload).bindings = s.bindings := by simp [State.answerOk]
@[simp] theorem State.answerOk_audio (s : State) (p : Port) (i : SlotId) (payload : List Byte) : (State.answerOk s p i payload).audio = s.audio := by simp [State.answerOk]
@[simp] theorem State.answerOk_tdm (s : State) (p : Port) (i : SlotId) (payload : List Byte) : (State.answerOk s p i payload).tdm = s.tdm := by simp [State.answerOk]
@[simp] theorem State.answerOk_pipes (s : State) (p : Port) (i : SlotId) (payload : List Byte) : (State.answerOk s p i payload).pipes = s.pipes := by simp [State.answerOk]
@[simp] theorem State.answerOk_recTurn (s : State) (p : Port) (i : SlotId) (payload : List Byte) : (State.answerOk s p i payload).recTurn = s.recTurn := by simp [State.answerOk]
@[simp] theorem State.answerOk_axes (s : State) (p : Port) (i : SlotId) (payload : List Byte) : (State.answerOk s p i payload).axes = s.axes := by simp [State.answerOk]
@[simp] theorem State.answerOk_stations (s : State) (p : Port) (i : SlotId) (payload : List Byte) : (State.answerOk s p i payload).stations = s.stations := by simp [State.answerOk]
@[simp] theorem State.answerOk_lpeLatched (s : State) (p : Port) (i : SlotId) (payload : List Byte) : (State.answerOk s p i payload).lpeLatched = s.lpeLatched := by simp [State.answerOk]
@[simp] theorem State.answerOk_lpeBusy (s : State) (p : Port) (i : SlotId) (payload : List Byte) : (State.answerOk s p i payload).lpeBusy = s.lpeBusy := by simp [State.answerOk]
@[simp] theorem State.answerOk_tb (s : State) (p : Port) (i : SlotId) (payload : List Byte) : (State.answerOk s p i payload).tb = s.tb := by simp [State.answerOk]
@[simp] theorem State.answerOk_eth (s : State) (p : Port) (i : SlotId) (payload : List Byte) : (State.answerOk s p i payload).eth = s.eth := by simp [State.answerOk]
@[simp] theorem State.answerOk_pm (s : State) (p : Port) (i : SlotId) (payload : List Byte) : (State.answerOk s p i payload).pm = s.pm := by simp [State.answerOk]
@[simp] theorem State.answerOk_pdOn (s : State) (p : Port) (i : SlotId) (payload : List Byte) : (State.answerOk s p i payload).pdOn = s.pdOn := by simp [State.answerOk]
@[simp] theorem State.answerOk_pdMoves (s : State) (p : Port) (i : SlotId) (payload : List Byte) : (State.answerOk s p i payload).pdMoves = s.pdMoves := by simp [State.answerOk]
@[simp] theorem State.answerOk_pairs (s : State) (p : Port) (i : SlotId) (payload : List Byte) : (State.answerOk s p i payload).pairs = s.pairs := by simp [State.answerOk]
@[simp] theorem State.answerOk_sph (s : State) (p : Port) (i : SlotId) (payload : List Byte) : (State.answerOk s p i payload).sph = s.sph := by simp [State.answerOk]
@[simp] theorem State.answerOk_mirrors (s : State) (p : Port) (i : SlotId) (payload : List Byte) : (State.answerOk s p i payload).mirrors = s.mirrors := by simp [State.answerOk]
@[simp] theorem State.answerOk_pending (s : State) (p : Port) (i : SlotId) (payload : List Byte) : (State.answerOk s p i payload).pending = s.pending := by simp [State.answerOk]
@[simp] theorem State.answerOk_fresh (s : State) (p : Port) (i : SlotId) (payload : List Byte) : (State.answerOk s p i payload).fresh = s.fresh := by simp [State.answerOk]

/-! State.answerSt -/
@[simp] theorem State.answerSt_sys (s : State) (p : Port) (i : SlotId) (st : St) : (State.answerSt s p i st).sys = s.sys := by simp [State.answerSt]
@[simp] theorem State.answerSt_counter (s : State) (p : Port) (i : SlotId) (st : St) : (State.answerSt s p i st).counter = s.counter := by simp [State.answerSt]
@[simp] theorem State.answerSt_trb (s : State) (p : Port) (i : SlotId) (st : St) : (State.answerSt s p i st).trb = s.trb := by simp [State.answerSt]
@[simp] theorem State.answerSt_sems (s : State) (p : Port) (i : SlotId) (st : St) : (State.answerSt s p i st).sems = s.sems := by simp [State.answerSt]
@[simp] theorem State.answerSt_errs (s : State) (p : Port) (i : SlotId) (st : St) : (State.answerSt s p i st).errs = s.errs := by simp [State.answerSt]
@[simp] theorem State.answerSt_setNow (s : State) (p : Port) (i : SlotId) (st : St) : (State.answerSt s p i st).setNow = s.setNow := by simp [State.answerSt]
@[simp] theorem State.answerSt_v1Raised (s : State) (p : Port) (i : SlotId) (st : St) : (State.answerSt s p i st).v1Raised = s.v1Raised := by simp [State.answerSt]
@[simp] theorem State.answerSt_cnts (s : State) (p : Port) (i : SlotId) (st : St) : (State.answerSt s p i st).cnts = s.cnts := by simp [State.answerSt]
@[simp] theorem State.answerSt_parts (s : State) (p : Port) (i : SlotId) (st : St) : (State.answerSt s p i st).parts = s.parts := by simp [State.answerSt]
@[simp] theorem State.answerSt_cmds (s : State) (p : Port) (i : SlotId) (st : St) : (State.answerSt s p i st).cmds = s.cmds := by simp [State.answerSt]
@[simp] theorem State.answerSt_admitNext (s : State) (p : Port) (i : SlotId) (st : St) : (State.answerSt s p i st).admitNext = s.admitNext := by simp [State.answerSt]
@[simp] theorem State.answerSt_issuedNow (s : State) (p : Port) (i : SlotId) (st : St) : (State.answerSt s p i st).issuedNow = s.issuedNow := by simp [State.answerSt]
@[simp] theorem State.answerSt_issueNext (s : State) (p : Port) (i : SlotId) (st : St) : (State.answerSt s p i st).issueNext = s.issueNext := by simp [State.answerSt]
@[simp] theorem State.answerSt_keys (s : State) (p : Port) (i : SlotId) (st : St) : (State.answerSt s p i st).keys = s.keys := by simp [State.answerSt]
@[simp] theorem State.answerSt_ops (s : State) (p : Port) (i : SlotId) (st : St) : (State.answerSt s p i st).ops = s.ops := by simp [State.answerSt]
@[simp] theorem State.answerSt_opNext (s : State) (p : Port) (i : SlotId) (st : St) : (State.answerSt s p i st).opNext = s.opNext := by simp [State.answerSt]
@[simp] theorem State.answerSt_scHalt (s : State) (p : Port) (i : SlotId) (st : St) : (State.answerSt s p i st).scHalt = s.scHalt := by simp [State.answerSt]
@[simp] theorem State.answerSt_halted (s : State) (p : Port) (i : SlotId) (st : St) : (State.answerSt s p i st).halted = s.halted := by simp [State.answerSt]
@[simp] theorem State.answerSt_mem (s : State) (p : Port) (i : SlotId) (st : St) : (State.answerSt s p i st).mem = s.mem := by simp [State.answerSt]
@[simp] theorem State.answerSt_undef (s : State) (p : Port) (i : SlotId) (st : St) : (State.answerSt s p i st).undef = s.undef := by simp [State.answerSt]
@[simp] theorem State.answerSt_poison (s : State) (p : Port) (i : SlotId) (st : St) : (State.answerSt s p i st).poison = s.poison := by simp [State.answerSt]
@[simp] theorem State.answerSt_ecc (s : State) (p : Port) (i : SlotId) (st : St) : (State.answerSt s p i st).ecc = s.ecc := by simp [State.answerSt]
@[simp] theorem State.answerSt_hw (s : State) (p : Port) (i : SlotId) (st : St) : (State.answerSt s p i st).hw = s.hw := by simp [State.answerSt]
@[simp] theorem State.answerSt_pools (s : State) (p : Port) (i : SlotId) (st : St) : (State.answerSt s p i st).pools = s.pools := by simp [State.answerSt]
@[simp] theorem State.answerSt_hostMem (s : State) (p : Port) (i : SlotId) (st : St) : (State.answerSt s p i st).hostMem = s.hostMem := by simp [State.answerSt]
@[simp] theorem State.answerSt_hostErr (s : State) (p : Port) (i : SlotId) (st : St) : (State.answerSt s p i st).hostErr = s.hostErr := by simp [State.answerSt]
@[simp] theorem State.answerSt_cisPoison (s : State) (p : Port) (i : SlotId) (st : St) : (State.answerSt s p i st).cisPoison = s.cisPoison := by simp [State.answerSt]
@[simp] theorem State.answerSt_bar2Reads (s : State) (p : Port) (i : SlotId) (st : St) : (State.answerSt s p i st).bar2Reads = s.bar2Reads := by simp [State.answerSt]
@[simp] theorem State.answerSt_ecs (s : State) (p : Port) (i : SlotId) (st : St) : (State.answerSt s p i st).ecs = s.ecs := by simp [State.answerSt]
@[simp] theorem State.answerSt_fence (s : State) (p : Port) (i : SlotId) (st : St) : (State.answerSt s p i st).fence = s.fence := by simp [State.answerSt]
@[simp] theorem State.answerSt_regions (s : State) (p : Port) (i : SlotId) (st : St) : (State.answerSt s p i st).regions = s.regions := by simp [State.answerSt]
@[simp] theorem State.answerSt_windows (s : State) (p : Port) (i : SlotId) (st : St) : (State.answerSt s p i st).windows = s.windows := by simp [State.answerSt]
@[simp] theorem State.answerSt_streams (s : State) (p : Port) (i : SlotId) (st : St) : (State.answerSt s p i st).streams = s.streams := by simp [State.answerSt]
@[simp] theorem State.answerSt_groups (s : State) (p : Port) (i : SlotId) (st : St) : (State.answerSt s p i st).groups = s.groups := by simp [State.answerSt]
@[simp] theorem State.answerSt_strPeek (s : State) (p : Port) (i : SlotId) (st : St) : (State.answerSt s p i st).strPeek = s.strPeek := by simp [State.answerSt]
@[simp] theorem State.answerSt_heaps (s : State) (p : Port) (i : SlotId) (st : St) : (State.answerSt s p i st).heaps = s.heaps := by simp [State.answerSt]
@[simp] theorem State.answerSt_seqs (s : State) (p : Port) (i : SlotId) (st : St) : (State.answerSt s p i st).seqs = s.seqs := by simp [State.answerSt]
@[simp] theorem State.answerSt_spills (s : State) (p : Port) (i : SlotId) (st : St) : (State.answerSt s p i st).spills = s.spills := by simp [State.answerSt]
@[simp] theorem State.answerSt_returns (s : State) (p : Port) (i : SlotId) (st : St) : (State.answerSt s p i st).returns = s.returns := by simp [State.answerSt]
@[simp] theorem State.answerSt_det (s : State) (p : Port) (i : SlotId) (st : St) : (State.answerSt s p i st).det = s.det := by simp [State.answerSt]
@[simp] theorem State.answerSt_cams (s : State) (p : Port) (i : SlotId) (st : St) : (State.answerSt s p i st).cams = s.cams := by simp [State.answerSt]
@[simp] theorem State.answerSt_audTable (s : State) (p : Port) (i : SlotId) (st : St) : (State.answerSt s p i st).audTable = s.audTable := by simp [State.answerSt]
@[simp] theorem State.answerSt_audFir (s : State) (p : Port) (i : SlotId) (st : St) : (State.answerSt s p i st).audFir = s.audFir := by simp [State.answerSt]
@[simp] theorem State.answerSt_fir (s : State) (p : Port) (i : SlotId) (st : St) : (State.answerSt s p i st).fir = s.fir := by simp [State.answerSt]
@[simp] theorem State.answerSt_bindings (s : State) (p : Port) (i : SlotId) (st : St) : (State.answerSt s p i st).bindings = s.bindings := by simp [State.answerSt]
@[simp] theorem State.answerSt_audio (s : State) (p : Port) (i : SlotId) (st : St) : (State.answerSt s p i st).audio = s.audio := by simp [State.answerSt]
@[simp] theorem State.answerSt_tdm (s : State) (p : Port) (i : SlotId) (st : St) : (State.answerSt s p i st).tdm = s.tdm := by simp [State.answerSt]
@[simp] theorem State.answerSt_pipes (s : State) (p : Port) (i : SlotId) (st : St) : (State.answerSt s p i st).pipes = s.pipes := by simp [State.answerSt]
@[simp] theorem State.answerSt_recTurn (s : State) (p : Port) (i : SlotId) (st : St) : (State.answerSt s p i st).recTurn = s.recTurn := by simp [State.answerSt]
@[simp] theorem State.answerSt_axes (s : State) (p : Port) (i : SlotId) (st : St) : (State.answerSt s p i st).axes = s.axes := by simp [State.answerSt]
@[simp] theorem State.answerSt_stations (s : State) (p : Port) (i : SlotId) (st : St) : (State.answerSt s p i st).stations = s.stations := by simp [State.answerSt]
@[simp] theorem State.answerSt_lpeLatched (s : State) (p : Port) (i : SlotId) (st : St) : (State.answerSt s p i st).lpeLatched = s.lpeLatched := by simp [State.answerSt]
@[simp] theorem State.answerSt_lpeBusy (s : State) (p : Port) (i : SlotId) (st : St) : (State.answerSt s p i st).lpeBusy = s.lpeBusy := by simp [State.answerSt]
@[simp] theorem State.answerSt_tb (s : State) (p : Port) (i : SlotId) (st : St) : (State.answerSt s p i st).tb = s.tb := by simp [State.answerSt]
@[simp] theorem State.answerSt_eth (s : State) (p : Port) (i : SlotId) (st : St) : (State.answerSt s p i st).eth = s.eth := by simp [State.answerSt]
@[simp] theorem State.answerSt_pm (s : State) (p : Port) (i : SlotId) (st : St) : (State.answerSt s p i st).pm = s.pm := by simp [State.answerSt]
@[simp] theorem State.answerSt_pdOn (s : State) (p : Port) (i : SlotId) (st : St) : (State.answerSt s p i st).pdOn = s.pdOn := by simp [State.answerSt]
@[simp] theorem State.answerSt_pdMoves (s : State) (p : Port) (i : SlotId) (st : St) : (State.answerSt s p i st).pdMoves = s.pdMoves := by simp [State.answerSt]
@[simp] theorem State.answerSt_pairs (s : State) (p : Port) (i : SlotId) (st : St) : (State.answerSt s p i st).pairs = s.pairs := by simp [State.answerSt]
@[simp] theorem State.answerSt_sph (s : State) (p : Port) (i : SlotId) (st : St) : (State.answerSt s p i st).sph = s.sph := by simp [State.answerSt]
@[simp] theorem State.answerSt_mirrors (s : State) (p : Port) (i : SlotId) (st : St) : (State.answerSt s p i st).mirrors = s.mirrors := by simp [State.answerSt]
@[simp] theorem State.answerSt_pending (s : State) (p : Port) (i : SlotId) (st : St) : (State.answerSt s p i st).pending = s.pending := by simp [State.answerSt]
@[simp] theorem State.answerSt_fresh (s : State) (p : Port) (i : SlotId) (st : St) : (State.answerSt s p i st).fresh = s.fresh := by simp [State.answerSt]

/-! State.answerBad -/
@[simp] theorem State.answerBad_sys (s : State) (p : Port) (i : SlotId) (reason off : Nat) : (State.answerBad s p i reason off).sys = s.sys := by simp [State.answerBad]
@[simp] theorem State.answerBad_counter (s : State) (p : Port) (i : SlotId) (reason off : Nat) : (State.answerBad s p i reason off).counter = s.counter := by simp [State.answerBad]
@[simp] theorem State.answerBad_trb (s : State) (p : Port) (i : SlotId) (reason off : Nat) : (State.answerBad s p i reason off).trb = s.trb := by simp [State.answerBad]
@[simp] theorem State.answerBad_sems (s : State) (p : Port) (i : SlotId) (reason off : Nat) : (State.answerBad s p i reason off).sems = s.sems := by simp [State.answerBad]
@[simp] theorem State.answerBad_errs (s : State) (p : Port) (i : SlotId) (reason off : Nat) : (State.answerBad s p i reason off).errs = s.errs := by simp [State.answerBad]
@[simp] theorem State.answerBad_setNow (s : State) (p : Port) (i : SlotId) (reason off : Nat) : (State.answerBad s p i reason off).setNow = s.setNow := by simp [State.answerBad]
@[simp] theorem State.answerBad_v1Raised (s : State) (p : Port) (i : SlotId) (reason off : Nat) : (State.answerBad s p i reason off).v1Raised = s.v1Raised := by simp [State.answerBad]
@[simp] theorem State.answerBad_cnts (s : State) (p : Port) (i : SlotId) (reason off : Nat) : (State.answerBad s p i reason off).cnts = s.cnts := by simp [State.answerBad]
@[simp] theorem State.answerBad_parts (s : State) (p : Port) (i : SlotId) (reason off : Nat) : (State.answerBad s p i reason off).parts = s.parts := by simp [State.answerBad]
@[simp] theorem State.answerBad_cmds (s : State) (p : Port) (i : SlotId) (reason off : Nat) : (State.answerBad s p i reason off).cmds = s.cmds := by simp [State.answerBad]
@[simp] theorem State.answerBad_admitNext (s : State) (p : Port) (i : SlotId) (reason off : Nat) : (State.answerBad s p i reason off).admitNext = s.admitNext := by simp [State.answerBad]
@[simp] theorem State.answerBad_issuedNow (s : State) (p : Port) (i : SlotId) (reason off : Nat) : (State.answerBad s p i reason off).issuedNow = s.issuedNow := by simp [State.answerBad]
@[simp] theorem State.answerBad_issueNext (s : State) (p : Port) (i : SlotId) (reason off : Nat) : (State.answerBad s p i reason off).issueNext = s.issueNext := by simp [State.answerBad]
@[simp] theorem State.answerBad_keys (s : State) (p : Port) (i : SlotId) (reason off : Nat) : (State.answerBad s p i reason off).keys = s.keys := by simp [State.answerBad]
@[simp] theorem State.answerBad_ops (s : State) (p : Port) (i : SlotId) (reason off : Nat) : (State.answerBad s p i reason off).ops = s.ops := by simp [State.answerBad]
@[simp] theorem State.answerBad_opNext (s : State) (p : Port) (i : SlotId) (reason off : Nat) : (State.answerBad s p i reason off).opNext = s.opNext := by simp [State.answerBad]
@[simp] theorem State.answerBad_scHalt (s : State) (p : Port) (i : SlotId) (reason off : Nat) : (State.answerBad s p i reason off).scHalt = s.scHalt := by simp [State.answerBad]
@[simp] theorem State.answerBad_halted (s : State) (p : Port) (i : SlotId) (reason off : Nat) : (State.answerBad s p i reason off).halted = s.halted := by simp [State.answerBad]
@[simp] theorem State.answerBad_mem (s : State) (p : Port) (i : SlotId) (reason off : Nat) : (State.answerBad s p i reason off).mem = s.mem := by simp [State.answerBad]
@[simp] theorem State.answerBad_undef (s : State) (p : Port) (i : SlotId) (reason off : Nat) : (State.answerBad s p i reason off).undef = s.undef := by simp [State.answerBad]
@[simp] theorem State.answerBad_poison (s : State) (p : Port) (i : SlotId) (reason off : Nat) : (State.answerBad s p i reason off).poison = s.poison := by simp [State.answerBad]
@[simp] theorem State.answerBad_ecc (s : State) (p : Port) (i : SlotId) (reason off : Nat) : (State.answerBad s p i reason off).ecc = s.ecc := by simp [State.answerBad]
@[simp] theorem State.answerBad_hw (s : State) (p : Port) (i : SlotId) (reason off : Nat) : (State.answerBad s p i reason off).hw = s.hw := by simp [State.answerBad]
@[simp] theorem State.answerBad_pools (s : State) (p : Port) (i : SlotId) (reason off : Nat) : (State.answerBad s p i reason off).pools = s.pools := by simp [State.answerBad]
@[simp] theorem State.answerBad_hostMem (s : State) (p : Port) (i : SlotId) (reason off : Nat) : (State.answerBad s p i reason off).hostMem = s.hostMem := by simp [State.answerBad]
@[simp] theorem State.answerBad_hostErr (s : State) (p : Port) (i : SlotId) (reason off : Nat) : (State.answerBad s p i reason off).hostErr = s.hostErr := by simp [State.answerBad]
@[simp] theorem State.answerBad_cisPoison (s : State) (p : Port) (i : SlotId) (reason off : Nat) : (State.answerBad s p i reason off).cisPoison = s.cisPoison := by simp [State.answerBad]
@[simp] theorem State.answerBad_bar2Reads (s : State) (p : Port) (i : SlotId) (reason off : Nat) : (State.answerBad s p i reason off).bar2Reads = s.bar2Reads := by simp [State.answerBad]
@[simp] theorem State.answerBad_ecs (s : State) (p : Port) (i : SlotId) (reason off : Nat) : (State.answerBad s p i reason off).ecs = s.ecs := by simp [State.answerBad]
@[simp] theorem State.answerBad_fence (s : State) (p : Port) (i : SlotId) (reason off : Nat) : (State.answerBad s p i reason off).fence = s.fence := by simp [State.answerBad]
@[simp] theorem State.answerBad_regions (s : State) (p : Port) (i : SlotId) (reason off : Nat) : (State.answerBad s p i reason off).regions = s.regions := by simp [State.answerBad]
@[simp] theorem State.answerBad_windows (s : State) (p : Port) (i : SlotId) (reason off : Nat) : (State.answerBad s p i reason off).windows = s.windows := by simp [State.answerBad]
@[simp] theorem State.answerBad_streams (s : State) (p : Port) (i : SlotId) (reason off : Nat) : (State.answerBad s p i reason off).streams = s.streams := by simp [State.answerBad]
@[simp] theorem State.answerBad_groups (s : State) (p : Port) (i : SlotId) (reason off : Nat) : (State.answerBad s p i reason off).groups = s.groups := by simp [State.answerBad]
@[simp] theorem State.answerBad_strPeek (s : State) (p : Port) (i : SlotId) (reason off : Nat) : (State.answerBad s p i reason off).strPeek = s.strPeek := by simp [State.answerBad]
@[simp] theorem State.answerBad_heaps (s : State) (p : Port) (i : SlotId) (reason off : Nat) : (State.answerBad s p i reason off).heaps = s.heaps := by simp [State.answerBad]
@[simp] theorem State.answerBad_seqs (s : State) (p : Port) (i : SlotId) (reason off : Nat) : (State.answerBad s p i reason off).seqs = s.seqs := by simp [State.answerBad]
@[simp] theorem State.answerBad_spills (s : State) (p : Port) (i : SlotId) (reason off : Nat) : (State.answerBad s p i reason off).spills = s.spills := by simp [State.answerBad]
@[simp] theorem State.answerBad_returns (s : State) (p : Port) (i : SlotId) (reason off : Nat) : (State.answerBad s p i reason off).returns = s.returns := by simp [State.answerBad]
@[simp] theorem State.answerBad_det (s : State) (p : Port) (i : SlotId) (reason off : Nat) : (State.answerBad s p i reason off).det = s.det := by simp [State.answerBad]
@[simp] theorem State.answerBad_cams (s : State) (p : Port) (i : SlotId) (reason off : Nat) : (State.answerBad s p i reason off).cams = s.cams := by simp [State.answerBad]
@[simp] theorem State.answerBad_audTable (s : State) (p : Port) (i : SlotId) (reason off : Nat) : (State.answerBad s p i reason off).audTable = s.audTable := by simp [State.answerBad]
@[simp] theorem State.answerBad_audFir (s : State) (p : Port) (i : SlotId) (reason off : Nat) : (State.answerBad s p i reason off).audFir = s.audFir := by simp [State.answerBad]
@[simp] theorem State.answerBad_fir (s : State) (p : Port) (i : SlotId) (reason off : Nat) : (State.answerBad s p i reason off).fir = s.fir := by simp [State.answerBad]
@[simp] theorem State.answerBad_bindings (s : State) (p : Port) (i : SlotId) (reason off : Nat) : (State.answerBad s p i reason off).bindings = s.bindings := by simp [State.answerBad]
@[simp] theorem State.answerBad_audio (s : State) (p : Port) (i : SlotId) (reason off : Nat) : (State.answerBad s p i reason off).audio = s.audio := by simp [State.answerBad]
@[simp] theorem State.answerBad_tdm (s : State) (p : Port) (i : SlotId) (reason off : Nat) : (State.answerBad s p i reason off).tdm = s.tdm := by simp [State.answerBad]
@[simp] theorem State.answerBad_pipes (s : State) (p : Port) (i : SlotId) (reason off : Nat) : (State.answerBad s p i reason off).pipes = s.pipes := by simp [State.answerBad]
@[simp] theorem State.answerBad_recTurn (s : State) (p : Port) (i : SlotId) (reason off : Nat) : (State.answerBad s p i reason off).recTurn = s.recTurn := by simp [State.answerBad]
@[simp] theorem State.answerBad_axes (s : State) (p : Port) (i : SlotId) (reason off : Nat) : (State.answerBad s p i reason off).axes = s.axes := by simp [State.answerBad]
@[simp] theorem State.answerBad_stations (s : State) (p : Port) (i : SlotId) (reason off : Nat) : (State.answerBad s p i reason off).stations = s.stations := by simp [State.answerBad]
@[simp] theorem State.answerBad_lpeLatched (s : State) (p : Port) (i : SlotId) (reason off : Nat) : (State.answerBad s p i reason off).lpeLatched = s.lpeLatched := by simp [State.answerBad]
@[simp] theorem State.answerBad_lpeBusy (s : State) (p : Port) (i : SlotId) (reason off : Nat) : (State.answerBad s p i reason off).lpeBusy = s.lpeBusy := by simp [State.answerBad]
@[simp] theorem State.answerBad_tb (s : State) (p : Port) (i : SlotId) (reason off : Nat) : (State.answerBad s p i reason off).tb = s.tb := by simp [State.answerBad]
@[simp] theorem State.answerBad_eth (s : State) (p : Port) (i : SlotId) (reason off : Nat) : (State.answerBad s p i reason off).eth = s.eth := by simp [State.answerBad]
@[simp] theorem State.answerBad_pm (s : State) (p : Port) (i : SlotId) (reason off : Nat) : (State.answerBad s p i reason off).pm = s.pm := by simp [State.answerBad]
@[simp] theorem State.answerBad_pdOn (s : State) (p : Port) (i : SlotId) (reason off : Nat) : (State.answerBad s p i reason off).pdOn = s.pdOn := by simp [State.answerBad]
@[simp] theorem State.answerBad_pdMoves (s : State) (p : Port) (i : SlotId) (reason off : Nat) : (State.answerBad s p i reason off).pdMoves = s.pdMoves := by simp [State.answerBad]
@[simp] theorem State.answerBad_pairs (s : State) (p : Port) (i : SlotId) (reason off : Nat) : (State.answerBad s p i reason off).pairs = s.pairs := by simp [State.answerBad]
@[simp] theorem State.answerBad_sph (s : State) (p : Port) (i : SlotId) (reason off : Nat) : (State.answerBad s p i reason off).sph = s.sph := by simp [State.answerBad]
@[simp] theorem State.answerBad_mirrors (s : State) (p : Port) (i : SlotId) (reason off : Nat) : (State.answerBad s p i reason off).mirrors = s.mirrors := by simp [State.answerBad]
@[simp] theorem State.answerBad_pending (s : State) (p : Port) (i : SlotId) (reason off : Nat) : (State.answerBad s p i reason off).pending = s.pending := by simp [State.answerBad]
@[simp] theorem State.answerBad_fresh (s : State) (p : Port) (i : SlotId) (reason off : Nat) : (State.answerBad s p i reason off).fresh = s.fresh := by simp [State.answerBad]

/-! Ports -/

/-- Raising a vector touches only the MSI-X table of its port. -/
theorem State.raise_port (s : State) (p q : Port) (v : Nat) :
    ∃ m, (s.raise p v).port q = { s.port q with msix := m } := by
  unfold State.raise
  split
  · simp only
    split
    · exact ⟨_, rfl⟩
    · split
      · by_cases h : q = p
        · subst h; exact ⟨_, by rw [State.setPort_port]⟩
        · exact ⟨_, by rw [State.setPort_port_of_ne _ _ _ _ h]⟩
      · exact ⟨_, rfl⟩
  · exact ⟨_, rfl⟩

@[simp] theorem State.raise_slot (s : State) (p q : Port) (v : Nat) (i : SlotId) : (s.raise p v).slot q i = s.slot q i := by
  obtain ⟨m, h⟩ := s.raise_port p q v
  simp [State.slot, h]

@[simp] theorem State.raise_attached (s : State) (p q : Port) (v : Nat) : ((s.raise p v).port q).attached = (s.port q).attached := by
  obtain ⟨m, h⟩ := s.raise_port p q v
  simp [h]

@[simp] theorem State.setSlot_slot_self (s : State) (p : Port) (i : SlotId) (x : Slot) : (s.setSlot p i x).slot p i = x :=
  s.setSlot_slot p i x

@[simp] theorem settle_slot (b a : State) (p : Port) (i : SlotId) : (settle b a).slot p i = a.slot p i := by
  simp [State.slot]

theorem State.setSlot_slot_of_ne (s : State) (p q : Port) (i j : SlotId) (x : Slot) (h : (q, j) ≠ (p, i)) : (s.setSlot p i x).slot q j = s.slot q j := by
  by_cases hq : q = p
  · subst hq
    have hj : j ≠ i := fun e => h (by rw [e])
    have hv : i.val ≠ j.val := fun e => hj (Fin.ext e.symm)
    simp [State.setSlot, State.slot, hv]
  · simp [State.setSlot, State.slot, State.setPort_port_of_ne _ _ _ _ hq]

@[simp] theorem State.dropReq_slot (s : State) (p q : Port) (i j : SlotId) : (s.dropReq p i).slot q j = s.slot q j := rfl

/-- A response leaves every other slot. -/
theorem State.respond_slot_of_ne (s : State) (p q : Port) (i j : SlotId) (st : St) (reason off : Nat) (payload : List Byte) (h : (q, j) ≠ (p, i)) :
    (s.respond p i st reason off payload).slot q j = s.slot q j := by
  unfold State.respond
  simp only
  split
  · rw [State.setSlot_slot_of_ne _ _ _ _ _ _ h, State.dropReq_slot]
  · split
    · rw [State.raise_slot, State.setSlot_slot_of_ne _ _ _ _ _ _ h, State.dropReq_slot]
    · rw [State.setSlot_slot_of_ne _ _ _ _ _ _ h, State.dropReq_slot]

/-- Answering the requests without a row leaves a slot that is not BUSY. -/
theorem State.answerWaiting_slot (s : State) (p : Port) (i : SlotId) (h : (s.slot p i).busy = false) : s.answerWaiting.slot p i = s.slot p i := by
  unfold State.answerWaiting
  generalize s.reqs = l
  induction l generalizing s with
  | nil => rfl
  | cons r rs ih =>
    have hr : (if ((s.slot r.1 r.2).busy && (s.slot r.1 r.2).rowless && s.answers && s.itsTurn r.1 r.2) = true then s.answerRowless r.1 r.2
        else s).slot p i = s.slot p i := by
      split
      · rename_i hb
        have hne : (p, i) ≠ (r.1, r.2) := by
          intro e
          cases e
          simp [h] at hb
        unfold State.answerRowless
        simp only
        split
        · rw [State.respond_slot_of_ne _ _ _ _ _ _ _ _ _ hne]
        · split
          · rw [State.respond_slot_of_ne _ _ _ _ _ _ _ _ _ hne]
          · rfl
      · rfl
    rw [List.foldl_cons, ih _ (by rw [hr]; exact h), hr]

/-- An answered slot that is not orphaned is DONE with the response of Table MBX-7. -/
theorem answer_answered (s : State) (p : Port) (i : SlotId) (st : St) (reason off : Nat) (payload : List Byte) (h : (s.slot p i).orphaned = false) :
    Answered (s.answer p i st reason off payload) p i (s.slot p i) st reason off payload := by
  have ht : Answered (s.respond p i st reason off payload) p i (s.slot p i) st reason off payload := by
    unfold State.respond
    simp only [h, Bool.false_eq_true, if_false]
    split <;> simp [Answered]
  have hw := State.answerWaiting_slot (s.respond p i st reason off payload) p i ht.1
  simp only [Answered, State.answer, hw]
  exact ht

theorem answered_settle {b t : State} {p : Port} {i : SlotId} {x : Slot} {st : St} {reason off : Nat} {payload : List Byte}
    (h : Answered t p i x st reason off payload) : Answered (settle b t) p i x st reason off payload := by
  simpa [Answered] using h

/-! Messages -/

/-- The refusals of Table MBX-8 that come from the header are none. -/
theorem mailBad_of_asks {s : State} {p : Port} {i : SlotId} {opcode : Nat} {need : Need} (h : Asks s p i opcode need)
    {fields : List (Nat × Nat)} (hf : fields = []) : s.mailBad p (s.slot p i) need fields = none := by
  obtain ⟨hr, _, _, _, ⟨lo, hi, hm, hl, hh⟩, hz, hp, ha⟩ := h
  have hop : (s.slot p i).opcode = opcode := by
    simp [State.mailRuns] at hr
    exact hr.1.1.2
  have hf2 : (catalogue.find? fun c => c.1 == (s.slot p i).opcode) = some (opcode, lo, hi) := by
    rw [hop]
    simp only [catalogue, List.mem_cons, Prod.mk.injEq, List.not_mem_nil, or_false] at hm
    rcases hm with h | h | h | h | h | h | h | h | h | h | h | h | h | h | h | h | h | h | h | h | h | h | h | h | h | h <;>
      (obtain ⟨rfl, rfl, rfl⟩ := h; rfl)
  unfold State.mailBad
  rw [hf2]
  have h2 : ¬ ((s.slot p i).len < lo ∨ hi < (s.slot p i).len) := by omega
  subst hf
  simp only [hz, hp, hop]
  rw [if_neg (by simpa using h2)]
  rcases ha with h | h | h | h <;> simp [h, firstBad]

/-- A message that passes every check has its own effect. -/
theorem mailRow_of_asks {s : State} {p : Port} {i : SlotId} {opcode : Nat} {need : Need} (h : Asks s p i opcode need)
    {fields : List (Nat × Nat)} (hf : fields = []) (body : State → State) : s.mailRow p i opcode need fields body = body s := by
  unfold State.mailRow
  have hb := mailBad_of_asks h hf
  obtain ⟨hr, hs, _, hw, _⟩ := h
  simp [hr, hs, hw, hb]

end Sys2Proof.Machine
end

