-- ==== Sys2Proof/WellFormed.lean ====
section
/-! DEFINITION. Which commands are well formed: every operand within the width or the range that the spec gives it. A meaning is defined on every
command; an ill-formed one stands for nothing that can reach the module. -/
namespace Sys2Proof

/-- An access of a mailbox slot: inside its 1,024 bytes (Table MBX-5). -/
def slotSpanOk (off len : Nat) : Bool := 0 < len && off + len ≤ 1024

/-- An access through BAR2: inside the largest BAR, 256 GiB (R37). -/
def bar2SpanOk (off len : Nat) : Bool := 0 < len && off + len ≤ 2 ^ 38

/-- A message of the Siphon link: its length field is that of its payload, of at most 4,096 bytes (Table PRG-6, R416). -/
def Msg.wf (m : Msg) : Bool := m.length.toNat == m.payload.length && m.payload.length ≤ 4096

/-- An address of the 40-bit module space (R27). -/
def addrOk (a : Nat) : Bool := a < 2 ^ 40

/-- A 48-bit stamp. -/
def stampOk (t : Nat) : Bool := t < 2 ^ 48

/-- Well-formed commands. -/
def Instr.wf : Instr → Bool
  | .pwrEnRise _ => true
  | .pwrEnFall _ => true
  | .railsInRegulation => true
  | .rstNAssert _ => true
  | .rstNRelease => true
  | .undervoltageLockout => true
  | .inputRise35V => true
  | .inputLow => true
  | .dieAlignment failed => failed.length ≤ 3 && failed.all fun x => x == 3 || x == 5
  | .boot => true
  | .gorideReady _ => true
  | .watchdogExpiry => true
  | .flr _ => true
  | .pcieHotReset _ => true
  | .pcieLinkDown _ => true
  | .d3hotEntry _ => true
  | .perstAssert _ => true
  | .perstRelease _ => true
  | .heartbeatLapse _ => true
  | .orphanClose _ => true
  | .poisonedTlpWrite _ => true
  | .bar0BadAccess _ off size => !((size == 4 || size == 8) && off % size == 0)
  | .bar2Read _ off len => bar2SpanOk off len
  | .bar2Write _ off data => bar2SpanOk off data.length
  | .mbxSlotWrite _ _ off data => slotSpanOk off data.length
  | .mbxRing _ _ => true
  | .mbxDoneClear _ _ => true
  | .getInfo _ _ => true
  | .hostAttach _ _ => true
  | .hostDetach _ _ => true
  | .heartbeat _ _ => true
  | .deviceReset _ _ => true
  | .deviceResetDone => true
  | .modeSetPower _ _ => true
  | .modeSetDeterminism _ _ => true
  | .modeSetPaired _ _ _ => true
  | .modeSetSplit _ _ => true
  | .modeSetAugmentation _ _ => true
  | .modeSetInlineEcc _ _ => true
  | .modeSetSiphonRole _ _ => true
  | .partOpen _ _ => true
  | .partClose _ _ => true
  | .partReset _ _ => true
  | .partAdopt _ _ => true
  | .ringRegister _ _ => true
  | .cisternRegister _ _ => true
  | .cisternRelease _ _ => true
  | .windowOpen _ _ _ => true
  | .windowClose _ _ => true
  | .unitFence _ _ => true
  | .evacuationGroupCopied => true
  | .unitTest _ _ us failAt => us < 2 ^ 32 && match failAt with
    | some (loc, want) => loc < 2 ^ 64 && want < 2 ^ 64
    | none => true
  | .unitReturn _ _ => true
  | .restoreDone => true
  | .engineReset _ _ => true
  | .fwWrite _ _ => true
  | .fwVerify _ _ => true
  | .fwCommit _ _ ms _ => ms < 2 ^ 32
  | .recoveryImage _ _ => true
  | .attestQuote _ _ => true
  | .certRead _ _ => true
  | .logRead _ _ => true
  | .semAcquire _ a b => a.isSome || b.isSome
  | .semRelease _ _ _ => true
  | .queueDoorbell _ _ _ _ => true
  | .crConsumerWrite _ _ _ _ => true
  | .descriptorFetch _ _ => true
  | .commandIssue _ => true
  | .deadlineMiss _ _ n => n < 2 ^ 32
  | .launchAt _ _ n => n < 2 ^ 32
  | .preemptionStop _ _ n => n < 2 ^ 32
  | .commandCompletion _ _ n => n < 2 ^ 32
  | .completionRecordWrite _ _ => true
  | .gemm _ _ n _ => n < 2 ^ 32
  | .vop _ _ n _ => n < 2 ^ 32
  | .conv _ _ n _ => n < 2 ^ 32
  | .pool _ _ n _ => n < 2 ^ 32
  | .crop _ _ n _ => n < 2 ^ 32
  | .s2d _ _ n _ => n < 2 ^ 32
  | .d2s _ _ n _ => n < 2 ^ 32
  | .frc _ _ n _ => n < 2 ^ 32
  | .qscan _ _ n => n < 2 ^ 32
  | .qconv _ _ n => n < 2 ^ 32
  | .adapt _ _ n _ => n < 2 ^ 32
  | .pump _ _ n => n < 2 ^ 32
  | .fill _ _ n => n < 2 ^ 32
  | .copy _ _ n => n < 2 ^ 32
  | .pumpOperationRetire _ _ => true
  | .farRegistration _ => true
  | .hint _ _ n => n < 2 ^ 32
  | .wait _ _ n => n < 2 ^ 32
  | .signalAdd _ _ n => n < 2 ^ 32
  | .signalRemote _ _ n => n < 2 ^ 32
  | .signalWrite _ _ n => n < 2 ^ 32
  | .fence _ _ n => n < 2 ^ 32
  | .save _ _ n => n < 2 ^ 32
  | .load _ _ n => n < 2 ^ 32
  | .rstep _ _ n _ => n < 2 ^ 32
  | .lstep _ _ n _ => n < 2 ^ 32
  | .feat _ _ n _ => n < 2 ^ 32
  | .streamGroup _ _ n => n < 2 ^ 32
  | .streamOpen _ _ n => n < 2 ^ 32
  | .streamPause _ _ n => n < 2 ^ 32
  | .streamResume _ _ n => n < 2 ^ 32
  | .streamPark _ _ n => n < 2 ^ 32
  | .streamReset _ _ n => n < 2 ^ 32
  | .streamExport _ _ n => n < 2 ^ 32
  | .streamImport _ _ n => n < 2 ^ 32
  | .streamClose _ _ n => n < 2 ^ 32
  | .attnStepFinish _ _ n _ => n < 2 ^ 32
  | .attnStepNodes _ _ n _ => n < 2 ^ 32
  | .attnStepCombine _ _ n _ => n < 2 ^ 32
  | .heap _ _ n => n < 2 ^ 32
  | .seqOpen _ _ n => n < 2 ^ 32
  | .seqClose _ _ n => n < 2 ^ 32
  | .pin _ _ n => n < 2 ^ 32
  | .unpin _ _ n => n < 2 ^ 32
  | .trim _ _ n => n < 2 ^ 32
  | .spillAcknowledged desc => addrOk desc
  | .returnLanded desc _ => addrOk desc
  | .cisternTimeout _ => true
  | .halfWellPowerDownDone _ => true
  | .gateTimeout _ => true
  | .halfWellPowerUpDone _ => true
  | .domainOn _ _ => true
  | .domainOff _ _ => true
  | .domainSwitchDone _ => true
  | .memoryInitDone => true
  | .patrolScrub word => addrOk (8 * word)
  | .ondieEccPoll counts => counts.length == 64
  | .controlStep _ _ _ => true
  | .tempSensorRead temps => temps.length == 24
  | .thermalThrottleTick => true
  | .voltageSettled => true
  | .energyIntegrate => true
  | .hintActivate _ n => n < 2 ^ 32
  | .hintExpire _ n => n < 2 ^ 32
  | .energyLowRead _ => true
  | .tbNowRead _ => true
  | .tbRateOp _ => true
  | .tbStepOp _ _ => true
  | .ppsOutRise => true
  | .ppsOutFall => true
  | .ppsInEdge _ => true
  | .ppsInLost => true
  | .netPortEnable _ _ => true
  | .netPortDisable _ _ => true
  | .ethLinkUp _ speed => 1 ≤ speed && speed ≤ 4
  | .ethLinkDown _ => true
  | .ethFrameReceive _ stamp _ _ => stamp < 2 ^ 64
  | .netTxProducerWrite _ _ _ _ => true
  | .netRxProducerWrite _ _ _ => true
  | .transmitStart _ => true
  | .launchLate _ => true
  | .stationLoad _ _ => true
  | .stationDisable _ _ => true
  | .axisLoad _ _ => true
  | .axisDisable _ _ => true
  | .axisTrip _ _ => true
  | .feedbackFrame _ => true
  | .feedbackDue _ => true
  | .frameAssembly _ => true
  | .driveFrameCompare _ _ => true
  | .faultLatchClear _ => true
  | .axisSelftestDone _ _ _ => true
  | .cameraLoad _ _ => true
  | .cameraDisable _ _ => true
  | .aphyLinkUp _ => true
  | .aphyLinkLost _ => true
  | .frameStart _ vc number stamp => vc < 16 && number < 2 ^ 16 && stampOk stamp
  | .frameEnd _ vc stamp => vc < 16 && stampOk stamp
  | .csiLinePacket _ vc dtype _ _ line => vc < 16 && dtype < 64 && line.payload.length < 2 ^ 16
  | .frameRecordWrite _ => true
  | .triggerPulse _ => true
  | .triggerEnd _ => true
  | .cciTransaction _ _ _ => true
  | .cciDone _ _ _ => true
  | .bindingLoad _ index => index < 4096
  | .bindingClear _ index => index < 4096
  | .firLoad _ addr => addrOk addr
  | .audioPacket _ => true
  | .tdmFrame _ samples => samples.length == 16
  | .tdmFsyncLoss _ => true
  | .audioChunkDue stream => stream < 262144
  | .pipelineLoad _ _ => true
  | .pipelineStop _ _ => true
  | .jobTake _ => true
  | .sampleStart _ => true
  | .budgetExceeded _ _ _ => true
  | .sampleDone _ _ _ => true
  | .sampleReportRelease _ => true
  | .siphonLinkUp _ _ role => role < 3
  | .siphonLinkDown => true
  | .siphonRetransmit => true
  | .siphonWrite m => m.wf
  | .siphonReadReq m => m.wf
  | .siphonReadData m => m.wf
  | .siphonRegister m => m.wf
  | .siphonRegDone m => m.wf
  | .siphonRelease m => m.wf
  | .siphonSignal m => m.wf
  | .siphonAck m => m.wf
  | .siphonTime m stamp _ => m.wf && stamp < 2 ^ 64
  | .siphonTimebase m => m.wf
  | .siphonHeartbeat m => m.wf
  | .siphonMirror m => m.wf
  | .siphonRole m => m.wf
  | .heartbeatSend => true
  | .partnerSilent => true
  | .alignmentRetry => true
  | .counterLoad => true
  | .pairOffsetMeasure offsets => offsets.length == 4
  | .counterHold => true
  | .pairMismatch _ t driven => t < 2 ^ 64 && driven.main.length == 6 && driven.chk.length == 6
  | .pairSelftestDone _ _ _ _ => true
  | .mirrorEnable _ _ _ => true
  | .mirrorSyncDone _ => true
  | .debugAction _ act => match act with
    | .write addr data => addrOk addr && 0 < data.length
    | .halt => true
    | .step => true
    | .resume => true
  | .smbusRead off => off % 4 == 0 && off < 2 ^ 24
  | .measurementStart _ _ entries => entries < 2 ^ 13
  | .measurementDone _ => true
  | .stickyClear _ off _ => off % 4 == 0 && off < 2 ^ 24
  | .registerWrite _ off _ => off % 4 == 0 && off < 2 ^ 24
  | .pcieLinkUp _ => true
  | .inputAbove36V => true
  | .die0StopFault => true
  | .pwrEnRiseTakesEffect => true

end Sys2Proof
end

