-- ==== Sys2Proof/Laws/PerInstr.lean ====
section
/-! SUPPORT. One lemma for each command: what well-formedness says of its sequence number and of the data it carries. -/
namespace Sys2Proof.Laws.Shape

/-- The sequence number by which a command of the module's own engines names a command of a queue (R171). -/
def seqOf : Instr → Option Nat
  | .deadlineMiss _ _ n => some n
  | .launchAt _ _ n => some n
  | .preemptionStop _ _ n => some n
  | .commandCompletion _ _ n => some n
  | .gemm _ _ n _ => some n
  | .vop _ _ n _ => some n
  | .conv _ _ n _ => some n
  | .pool _ _ n _ => some n
  | .crop _ _ n _ => some n
  | .s2d _ _ n _ => some n
  | .d2s _ _ n _ => some n
  | .frc _ _ n _ => some n
  | .qscan _ _ n => some n
  | .qconv _ _ n => some n
  | .adapt _ _ n _ => some n
  | .pump _ _ n => some n
  | .fill _ _ n => some n
  | .copy _ _ n => some n
  | .hint _ _ n => some n
  | .wait _ _ n => some n
  | .signalAdd _ _ n => some n
  | .signalRemote _ _ n => some n
  | .signalWrite _ _ n => some n
  | .fence _ _ n => some n
  | .save _ _ n => some n
  | .load _ _ n => some n
  | .rstep _ _ n _ => some n
  | .lstep _ _ n _ => some n
  | .feat _ _ n _ => some n
  | .streamGroup _ _ n => some n
  | .streamOpen _ _ n => some n
  | .streamPause _ _ n => some n
  | .streamResume _ _ n => some n
  | .streamPark _ _ n => some n
  | .streamReset _ _ n => some n
  | .streamExport _ _ n => some n
  | .streamImport _ _ n => some n
  | .streamClose _ _ n => some n
  | .attnStepFinish _ _ n _ => some n
  | .attnStepNodes _ _ n _ => some n
  | .attnStepCombine _ _ n _ => some n
  | .heap _ _ n => some n
  | .seqOpen _ _ n => some n
  | .seqClose _ _ n => some n
  | .pin _ _ n => some n
  | .unpin _ _ n => some n
  | .trim _ _ n => some n
  | .hintActivate _ n => some n
  | .hintExpire _ n => some n
  | _ => none

/-- How many bytes a command carries, and how many one of its kind may carry. -/
def dataOf : Instr → Option (Nat × Nat)
  | .bar2Write _ _ data => some (data.length, 274877906944)
  | .mbxSlotWrite _ _ _ data => some (data.length, 1024)
  | .siphonWrite m => some (m.payload.length, 4096)
  | .siphonReadReq m => some (m.payload.length, 4096)
  | .siphonReadData m => some (m.payload.length, 4096)
  | .siphonRegister m => some (m.payload.length, 4096)
  | .siphonRegDone m => some (m.payload.length, 4096)
  | .siphonRelease m => some (m.payload.length, 4096)
  | .siphonSignal m => some (m.payload.length, 4096)
  | .siphonAck m => some (m.payload.length, 4096)
  | .siphonTime m _ _ => some (m.payload.length, 4096)
  | .siphonTimebase m => some (m.payload.length, 4096)
  | .siphonHeartbeat m => some (m.payload.length, 4096)
  | .siphonMirror m => some (m.payload.length, 4096)
  | .siphonRole m => some (m.payload.length, 4096)
  | _ => none

/-- A well-formed command's sequence number has 32 bits, and it carries no more data than its kind may. -/
def Statement (i : Instr) : Prop := i.wf = true → (∀ n, seqOf i = some n → n < 2 ^ 32) ∧ ∀ x, dataOf i = some x → x.1 ≤ x.2

/-- A command that names no sequence number and carries no data. -/
theorem of_none {i : Instr} (h1 : seqOf i = none) (h2 : dataOf i = none) : Statement i :=
  fun _ => ⟨fun _ e => (nomatch h1.symm.trans e), fun _ e => (nomatch h2.symm.trans e)⟩

/-- A command that names a sequence number and carries no data. -/
theorem of_seq {i : Instr} {n : Nat} (h1 : seqOf i = some n) (h2 : dataOf i = none) (h : i.wf = true → n < 2 ^ 32) : Statement i :=
  fun w => ⟨fun _ e => Option.some.inj (h1.symm.trans e) ▸ h w, fun _ e => (nomatch h2.symm.trans e)⟩

/-- A command that carries data. -/
theorem of_data {i : Instr} {x : Nat × Nat} (h1 : seqOf i = none) (h2 : dataOf i = some x) (h : i.wf = true → x.1 ≤ x.2) : Statement i :=
  fun w => ⟨fun _ e => (nomatch h1.symm.trans e), fun _ e => Option.some.inj (h2.symm.trans e) ▸ h w⟩

/-- The payload of a well-formed message. -/
theorem msg_le {m : Msg} (h : m.wf = true) : m.payload.length ≤ 4096 := by
  simp only [Msg.wf, Bool.and_eq_true, decide_eq_true_eq] at h
  exact h.2

theorem pwrEnRise (msSinceFall : Nat) : Statement (.pwrEnRise msSinceFall) := of_none rfl rfl
theorem pwrEnFall (lowUs : Nat) : Statement (.pwrEnFall lowUs) := of_none rfl rfl
theorem railsInRegulation : Statement (.railsInRegulation) := of_none rfl rfl
theorem rstNAssert (lowNs : Nat) : Statement (.rstNAssert lowNs) := of_none rfl rfl
theorem rstNRelease : Statement (.rstNRelease) := of_none rfl rfl
theorem undervoltageLockout : Statement (.undervoltageLockout) := of_none rfl rfl
theorem inputRise35V : Statement (.inputRise35V) := of_none rfl rfl
theorem inputLow : Statement (.inputLow) := of_none rfl rfl
theorem dieAlignment (failedSteps : List Nat) : Statement (.dieAlignment failedSteps) := of_none rfl rfl
theorem boot : Statement (.boot) := of_none rfl rfl
theorem gorideReady (pufOk : Bool) : Statement (.gorideReady pufOk) := of_none rfl rfl
theorem watchdogExpiry : Statement (.watchdogExpiry) := of_none rfl rfl
theorem flr (port : Port) : Statement (.flr port) := of_none rfl rfl
theorem pcieHotReset (port : Port) : Statement (.pcieHotReset port) := of_none rfl rfl
theorem pcieLinkDown (port : Port) : Statement (.pcieLinkDown port) := of_none rfl rfl
theorem d3hotEntry (port : Port) : Statement (.d3hotEntry port) := of_none rfl rfl
theorem perstAssert (port : Port) : Statement (.perstAssert port) := of_none rfl rfl
theorem perstRelease (port : Port) : Statement (.perstRelease port) := of_none rfl rfl
theorem heartbeatLapse (port : Port) : Statement (.heartbeatLapse port) := of_none rfl rfl
theorem orphanClose (p : PartId) : Statement (.orphanClose p) := of_none rfl rfl
theorem poisonedTlpWrite (port : Port) : Statement (.poisonedTlpWrite port) := of_none rfl rfl
theorem bar0BadAccess (port : Port) (off : Nat) (size : Nat) : Statement (.bar0BadAccess port off size) := of_none rfl rfl
theorem bar2Read (port : Port) (off : Nat) (len : Nat) : Statement (.bar2Read port off len) := of_none rfl rfl
theorem bar2Write (port : Port) (off : Nat) (data : List Byte) : Statement (.bar2Write port off data) := of_data rfl rfl (by simp only [Instr.wf, bar2SpanOk, Bool.and_eq_true, decide_eq_true_eq]; omega)
theorem mbxSlotWrite (port : Port) (slot : SlotId) (off : Nat) (data : List Byte) : Statement (.mbxSlotWrite port slot off data) := of_data rfl rfl (by simp only [Instr.wf, slotSpanOk, Bool.and_eq_true, decide_eq_true_eq]; omega)
theorem mbxRing (port : Port) (mask : W32) : Statement (.mbxRing port mask) := of_none rfl rfl
theorem mbxDoneClear (port : Port) (mask : W32) : Statement (.mbxDoneClear port mask) := of_none rfl rfl
theorem getInfo (port : Port) (slot : SlotId) : Statement (.getInfo port slot) := of_none rfl rfl
theorem hostAttach (port : Port) (slot : SlotId) : Statement (.hostAttach port slot) := of_none rfl rfl
theorem hostDetach (port : Port) (slot : SlotId) : Statement (.hostDetach port slot) := of_none rfl rfl
theorem heartbeat (port : Port) (slot : SlotId) : Statement (.heartbeat port slot) := of_none rfl rfl
theorem deviceReset (port : Port) (slot : SlotId) : Statement (.deviceReset port slot) := of_none rfl rfl
theorem deviceResetDone : Statement (.deviceResetDone) := of_none rfl rfl
theorem modeSetPower (port : Port) (slot : SlotId) : Statement (.modeSetPower port slot) := of_none rfl rfl
theorem modeSetDeterminism (port : Port) (slot : SlotId) : Statement (.modeSetDeterminism port slot) := of_none rfl rfl
theorem modeSetPaired (port : Port) (slot : SlotId) (testOk : Bool) : Statement (.modeSetPaired port slot testOk) := of_none rfl rfl
theorem modeSetSplit (port : Port) (slot : SlotId) : Statement (.modeSetSplit port slot) := of_none rfl rfl
theorem modeSetAugmentation (port : Port) (slot : SlotId) : Statement (.modeSetAugmentation port slot) := of_none rfl rfl
theorem modeSetInlineEcc (port : Port) (slot : SlotId) : Statement (.modeSetInlineEcc port slot) := of_none rfl rfl
theorem modeSetSiphonRole (port : Port) (slot : SlotId) : Statement (.modeSetSiphonRole port slot) := of_none rfl rfl
theorem partOpen (port : Port) (slot : SlotId) : Statement (.partOpen port slot) := of_none rfl rfl
theorem partClose (port : Port) (slot : SlotId) : Statement (.partClose port slot) := of_none rfl rfl
theorem partReset (port : Port) (slot : SlotId) : Statement (.partReset port slot) := of_none rfl rfl
theorem partAdopt (port : Port) (slot : SlotId) : Statement (.partAdopt port slot) := of_none rfl rfl
theorem ringRegister (port : Port) (slot : SlotId) : Statement (.ringRegister port slot) := of_none rfl rfl
theorem cisternRegister (port : Port) (slot : SlotId) : Statement (.cisternRegister port slot) := of_none rfl rfl
theorem cisternRelease (port : Port) (slot : SlotId) : Statement (.cisternRelease port slot) := of_none rfl rfl
theorem windowOpen (port : Port) (slot : SlotId) (partnerMaps : Bool) : Statement (.windowOpen port slot partnerMaps) := of_none rfl rfl
theorem windowClose (port : Port) (slot : SlotId) : Statement (.windowClose port slot) := of_none rfl rfl
theorem unitFence (port : Port) (slot : SlotId) : Statement (.unitFence port slot) := of_none rfl rfl
theorem evacuationGroupCopied : Statement (.evacuationGroupCopied) := of_none rfl rfl
theorem unitTest (port : Port) (slot : SlotId) (us : Nat) (failAt : Option (Nat × Nat)) : Statement (.unitTest port slot us failAt) := of_none rfl rfl
theorem unitReturn (port : Port) (slot : SlotId) : Statement (.unitReturn port slot) := of_none rfl rfl
theorem restoreDone : Statement (.restoreDone) := of_none rfl rfl
theorem engineReset (port : Port) (slot : SlotId) : Statement (.engineReset port slot) := of_none rfl rfl
theorem fwWrite (port : Port) (slot : SlotId) : Statement (.fwWrite port slot) := of_none rfl rfl
theorem fwVerify (port : Port) (slot : SlotId) : Statement (.fwVerify port slot) := of_none rfl rfl
theorem fwCommit (port : Port) (slot : SlotId) (ms : Nat) (readBackOk : Bool) : Statement (.fwCommit port slot ms readBackOk) := of_none rfl rfl
theorem recoveryImage (port : Port) (slot : SlotId) : Statement (.recoveryImage port slot) := of_none rfl rfl
theorem attestQuote (port : Port) (slot : SlotId) : Statement (.attestQuote port slot) := of_none rfl rfl
theorem certRead (port : Port) (slot : SlotId) : Statement (.certRead port slot) := of_none rfl rfl
theorem logRead (port : Port) (slot : SlotId) : Statement (.logRead port slot) := of_none rfl rfl
theorem semAcquire (sem : SemId) (tagA : Option (BitVec 16)) (tagB : Option (BitVec 16)) : Statement (.semAcquire sem tagA tagB) := of_none rfl rfl
theorem semRelease (port : Port) (sem : SemId) (tag : BitVec 16) : Statement (.semRelease port sem tag) := of_none rfl rfl
theorem queueDoorbell (port : Port) (p : PartId) (q : QueId) (value : W32) : Statement (.queueDoorbell port p q value) := of_none rfl rfl
theorem crConsumerWrite (port : Port) (p : PartId) (q : QueId) (value : W32) : Statement (.crConsumerWrite port p q value) := of_none rfl rfl
theorem descriptorFetch (p : PartId) (q : QueId) : Statement (.descriptorFetch p q) := of_none rfl rfl
theorem commandIssue (p : PartId) : Statement (.commandIssue p) := of_none rfl rfl
theorem deadlineMiss (p : PartId) (q : QueId) (n : Nat) : Statement (.deadlineMiss p q n) := of_seq rfl rfl of_decide_eq_true
theorem launchAt (p : PartId) (q : QueId) (n : Nat) : Statement (.launchAt p q n) := of_seq rfl rfl of_decide_eq_true
theorem preemptionStop (p : PartId) (q : QueId) (n : Nat) : Statement (.preemptionStop p q n) := of_seq rfl rfl of_decide_eq_true
theorem commandCompletion (p : PartId) (q : QueId) (n : Nat) : Statement (.commandCompletion p q n) := of_seq rfl rfl of_decide_eq_true
theorem completionRecordWrite (p : PartId) (q : QueId) : Statement (.completionRecordWrite p q) := of_none rfl rfl
theorem gemm (p : PartId) (q : QueId) (n : Nat) (flt : UnitFault) : Statement (.gemm p q n flt) := of_seq rfl rfl of_decide_eq_true
theorem vop (p : PartId) (q : QueId) (n : Nat) (flt : UnitFault) : Statement (.vop p q n flt) := of_seq rfl rfl of_decide_eq_true
theorem conv (p : PartId) (q : QueId) (n : Nat) (flt : UnitFault) : Statement (.conv p q n flt) := of_seq rfl rfl of_decide_eq_true
theorem pool (p : PartId) (q : QueId) (n : Nat) (flt : UnitFault) : Statement (.pool p q n flt) := of_seq rfl rfl of_decide_eq_true
theorem crop (p : PartId) (q : QueId) (n : Nat) (flt : UnitFault) : Statement (.crop p q n flt) := of_seq rfl rfl of_decide_eq_true
theorem s2d (p : PartId) (q : QueId) (n : Nat) (flt : UnitFault) : Statement (.s2d p q n flt) := of_seq rfl rfl of_decide_eq_true
theorem d2s (p : PartId) (q : QueId) (n : Nat) (flt : UnitFault) : Statement (.d2s p q n flt) := of_seq rfl rfl of_decide_eq_true
theorem frc (p : PartId) (q : QueId) (n : Nat) (flt : UnitFault) : Statement (.frc p q n flt) := of_seq rfl rfl of_decide_eq_true
theorem qscan (p : PartId) (q : QueId) (n : Nat) : Statement (.qscan p q n) := of_seq rfl rfl of_decide_eq_true
theorem qconv (p : PartId) (q : QueId) (n : Nat) : Statement (.qconv p q n) := of_seq rfl rfl of_decide_eq_true
theorem adapt (p : PartId) (q : QueId) (n : Nat) (flt : UnitFault) : Statement (.adapt p q n flt) := of_seq rfl rfl of_decide_eq_true
theorem pump (p : PartId) (q : QueId) (n : Nat) : Statement (.pump p q n) := of_seq rfl rfl of_decide_eq_true
theorem fill (p : PartId) (q : QueId) (n : Nat) : Statement (.fill p q n) := of_seq rfl rfl of_decide_eq_true
theorem copy (p : PartId) (q : QueId) (n : Nat) : Statement (.copy p q n) := of_seq rfl rfl of_decide_eq_true
theorem pumpOperationRetire (op : Nat) (srcPoison : Bool) : Statement (.pumpOperationRetire op srcPoison) := of_none rfl rfl
theorem farRegistration (op : Nat) : Statement (.farRegistration op) := of_none rfl rfl
theorem hint (p : PartId) (q : QueId) (n : Nat) : Statement (.hint p q n) := of_seq rfl rfl of_decide_eq_true
theorem wait (p : PartId) (q : QueId) (n : Nat) : Statement (.wait p q n) := of_seq rfl rfl of_decide_eq_true
theorem signalAdd (p : PartId) (q : QueId) (n : Nat) : Statement (.signalAdd p q n) := of_seq rfl rfl of_decide_eq_true
theorem signalRemote (p : PartId) (q : QueId) (n : Nat) : Statement (.signalRemote p q n) := of_seq rfl rfl of_decide_eq_true
theorem signalWrite (p : PartId) (q : QueId) (n : Nat) : Statement (.signalWrite p q n) := of_seq rfl rfl of_decide_eq_true
theorem fence (p : PartId) (q : QueId) (n : Nat) : Statement (.fence p q n) := of_seq rfl rfl of_decide_eq_true
theorem save (p : PartId) (q : QueId) (n : Nat) : Statement (.save p q n) := of_seq rfl rfl of_decide_eq_true
theorem load (p : PartId) (q : QueId) (n : Nat) : Statement (.load p q n) := of_seq rfl rfl of_decide_eq_true
theorem rstep (p : PartId) (q : QueId) (n : Nat) (flt : UnitFault) : Statement (.rstep p q n flt) := of_seq rfl rfl of_decide_eq_true
theorem lstep (p : PartId) (q : QueId) (n : Nat) (flt : UnitFault) : Statement (.lstep p q n flt) := of_seq rfl rfl of_decide_eq_true
theorem feat (p : PartId) (q : QueId) (n : Nat) (flt : UnitFault) : Statement (.feat p q n flt) := of_seq rfl rfl of_decide_eq_true
theorem streamGroup (p : PartId) (q : QueId) (n : Nat) : Statement (.streamGroup p q n) := of_seq rfl rfl of_decide_eq_true
theorem streamOpen (p : PartId) (q : QueId) (n : Nat) : Statement (.streamOpen p q n) := of_seq rfl rfl of_decide_eq_true
theorem streamPause (p : PartId) (q : QueId) (n : Nat) : Statement (.streamPause p q n) := of_seq rfl rfl of_decide_eq_true
theorem streamResume (p : PartId) (q : QueId) (n : Nat) : Statement (.streamResume p q n) := of_seq rfl rfl of_decide_eq_true
theorem streamPark (p : PartId) (q : QueId) (n : Nat) : Statement (.streamPark p q n) := of_seq rfl rfl of_decide_eq_true
theorem streamReset (p : PartId) (q : QueId) (n : Nat) : Statement (.streamReset p q n) := of_seq rfl rfl of_decide_eq_true
theorem streamExport (p : PartId) (q : QueId) (n : Nat) : Statement (.streamExport p q n) := of_seq rfl rfl of_decide_eq_true
theorem streamImport (p : PartId) (q : QueId) (n : Nat) : Statement (.streamImport p q n) := of_seq rfl rfl of_decide_eq_true
theorem streamClose (p : PartId) (q : QueId) (n : Nat) : Statement (.streamClose p q n) := of_seq rfl rfl of_decide_eq_true
theorem attnStepFinish (p : PartId) (q : QueId) (n : Nat) (flt : UnitFault) : Statement (.attnStepFinish p q n flt) := of_seq rfl rfl of_decide_eq_true
theorem attnStepNodes (p : PartId) (q : QueId) (n : Nat) (flt : UnitFault) : Statement (.attnStepNodes p q n flt) := of_seq rfl rfl of_decide_eq_true
theorem attnStepCombine (p : PartId) (q : QueId) (n : Nat) (flt : UnitFault) : Statement (.attnStepCombine p q n flt) := of_seq rfl rfl of_decide_eq_true
theorem heap (p : PartId) (q : QueId) (n : Nat) : Statement (.heap p q n) := of_seq rfl rfl of_decide_eq_true
theorem seqOpen (p : PartId) (q : QueId) (n : Nat) : Statement (.seqOpen p q n) := of_seq rfl rfl of_decide_eq_true
theorem seqClose (p : PartId) (q : QueId) (n : Nat) : Statement (.seqClose p q n) := of_seq rfl rfl of_decide_eq_true
theorem pin (p : PartId) (q : QueId) (n : Nat) : Statement (.pin p q n) := of_seq rfl rfl of_decide_eq_true
theorem unpin (p : PartId) (q : QueId) (n : Nat) : Statement (.unpin p q n) := of_seq rfl rfl of_decide_eq_true
theorem trim (p : PartId) (q : QueId) (n : Nat) : Statement (.trim p q n) := of_seq rfl rfl of_decide_eq_true
theorem spillAcknowledged (desc : Nat) : Statement (.spillAcknowledged desc) := of_none rfl rfl
theorem returnLanded (desc : Nat) (poisoned : Bool) : Statement (.returnLanded desc poisoned) := of_none rfl rfl
theorem cisternTimeout (read : CisternRead) : Statement (.cisternTimeout read) := of_none rfl rfl
theorem halfWellPowerDownDone (r : WellPart) : Statement (.halfWellPowerDownDone r) := of_none rfl rfl
theorem gateTimeout (r : WellPart) : Statement (.gateTimeout r) := of_none rfl rfl
theorem halfWellPowerUpDone (r : WellPart) : Statement (.halfWellPowerUpDone r) := of_none rfl rfl
theorem domainOn (port : Port) (pd : PdId) : Statement (.domainOn port pd) := of_none rfl rfl
theorem domainOff (port : Port) (pd : PdId) : Statement (.domainOff port pd) := of_none rfl rfl
theorem domainSwitchDone (pd : PdId) : Statement (.domainSwitchDone pd) := of_none rfl rfl
theorem memoryInitDone : Statement (.memoryInitDone) := of_none rfl rfl
theorem patrolScrub (word : Nat) : Statement (.patrolScrub word) := of_none rfl rfl
theorem ondieEccPoll (counts : List Nat) : Statement (.ondieEccPoll counts) := of_none rfl rfl
theorem controlStep (measured : Option Nat) (volts : Nat) (estimate : Nat) : Statement (.controlStep measured volts estimate) := of_none rfl rfl
theorem tempSensorRead (temps : List (Option Int)) : Statement (.tempSensorRead temps) := of_none rfl rfl
theorem thermalThrottleTick : Statement (.thermalThrottleTick) := of_none rfl rfl
theorem voltageSettled : Statement (.voltageSettled) := of_none rfl rfl
theorem energyIntegrate : Statement (.energyIntegrate) := of_none rfl rfl
theorem hintActivate (p : PartId) (n : Nat) : Statement (.hintActivate p n) := of_seq rfl rfl of_decide_eq_true
theorem hintExpire (p : PartId) (n : Nat) : Statement (.hintExpire p n) := of_seq rfl rfl of_decide_eq_true
theorem energyLowRead (port : Port) : Statement (.energyLowRead port) := of_none rfl rfl
theorem tbNowRead (port : Port) : Statement (.tbNowRead port) := of_none rfl rfl
theorem tbRateOp (port : Port) : Statement (.tbRateOp port) := of_none rfl rfl
theorem tbStepOp (port : Port) (force : Bool) : Statement (.tbStepOp port force) := of_none rfl rfl
theorem ppsOutRise : Statement (.ppsOutRise) := of_none rfl rfl
theorem ppsOutFall : Statement (.ppsOutFall) := of_none rfl rfl
theorem ppsInEdge (stamp : W64) : Statement (.ppsInEdge stamp) := of_none rfl rfl
theorem ppsInLost : Statement (.ppsInLost) := of_none rfl rfl
theorem netPortEnable (port : Port) (e : EthId) : Statement (.netPortEnable port e) := of_none rfl rfl
theorem netPortDisable (port : Port) (e : EthId) : Statement (.netPortDisable port e) := of_none rfl rfl
theorem ethLinkUp (e : EthId) (speed : Nat) : Statement (.ethLinkUp e speed) := of_none rfl rfl
theorem ethLinkDown (e : EthId) : Statement (.ethLinkDown e) := of_none rfl rfl
theorem ethFrameReceive (e : EthId) (stamp : Nat) (fcsOk : Bool) (frame : List Byte) : Statement (.ethFrameReceive e stamp fcsOk frame) := of_none rfl rfl
theorem netTxProducerWrite (port : Port) (e : EthId) (timed : Bool) (value : W32) : Statement (.netTxProducerWrite port e timed value) := of_none rfl rfl
theorem netRxProducerWrite (port : Port) (e : EthId) (value : W32) : Statement (.netRxProducerWrite port e value) := of_none rfl rfl
theorem transmitStart (e : EthId) : Statement (.transmitStart e) := of_none rfl rfl
theorem launchLate (e : EthId) : Statement (.launchLate e) := of_none rfl rfl
theorem stationLoad (port : Port) (st : StationId) : Statement (.stationLoad port st) := of_none rfl rfl
theorem stationDisable (port : Port) (st : StationId) : Statement (.stationDisable port st) := of_none rfl rfl
theorem axisLoad (port : Port) (ax : AxisId) : Statement (.axisLoad port ax) := of_none rfl rfl
theorem axisDisable (port : Port) (ax : AxisId) : Statement (.axisDisable port ax) := of_none rfl rfl
theorem axisTrip (port : Port) (ax : AxisId) : Statement (.axisTrip port ax) := of_none rfl rfl
theorem feedbackFrame (e : EthId) : Statement (.feedbackFrame e) := of_none rfl rfl
theorem feedbackDue (st : StationId) : Statement (.feedbackDue st) := of_none rfl rfl
theorem frameAssembly (st : StationId) : Statement (.frameAssembly st) := of_none rfl rfl
theorem driveFrameCompare (st : StationId) (equal : Bool) : Statement (.driveFrameCompare st equal) := of_none rfl rfl
theorem faultLatchClear (port : Port) : Statement (.faultLatchClear port) := of_none rfl rfl
theorem axisSelftestDone (pr : PairId) (pass0 : Bool) (pass1 : Bool) : Statement (.axisSelftestDone pr pass0 pass1) := of_none rfl rfl
theorem cameraLoad (port : Port) (v : CamId) : Statement (.cameraLoad port v) := of_none rfl rfl
theorem cameraDisable (port : Port) (v : CamId) : Statement (.cameraDisable port v) := of_none rfl rfl
theorem aphyLinkUp (v : CamId) : Statement (.aphyLinkUp v) := of_none rfl rfl
theorem aphyLinkLost (v : CamId) : Statement (.aphyLinkLost v) := of_none rfl rfl
theorem frameStart (v : CamId) (vc : Nat) (number : Nat) (stamp : Nat) : Statement (.frameStart v vc number stamp) := of_none rfl rfl
theorem frameEnd (v : CamId) (vc : Nat) (stamp : Nat) : Statement (.frameEnd v vc stamp) := of_none rfl rfl
theorem csiLinePacket (v : CamId) (vc : Nat) (dtype : Nat) (headerOk : Bool) (crcOk : Bool) (line : CsiLine) : Statement (.csiLinePacket v vc dtype headerOk crcOk line) := of_none rfl rfl
theorem frameRecordWrite (v : CamId) : Statement (.frameRecordWrite v) := of_none rfl rfl
theorem triggerPulse (v : CamId) : Statement (.triggerPulse v) := of_none rfl rfl
theorem triggerEnd (v : CamId) : Statement (.triggerEnd v) := of_none rfl rfl
theorem cciTransaction (port : Port) (v : CamId) (value : W32) : Statement (.cciTransaction port v value) := of_none rfl rfl
theorem cciDone (v : CamId) (ack : Bool) (data : Byte) : Statement (.cciDone v ack data) := of_none rfl rfl
theorem bindingLoad (port : Port) (index : Nat) : Statement (.bindingLoad port index) := of_none rfl rfl
theorem bindingClear (port : Port) (index : Nat) : Statement (.bindingClear port index) := of_none rfl rfl
theorem firLoad (port : Port) (addr : Nat) : Statement (.firLoad port addr) := of_none rfl rfl
theorem audioPacket (e : EthId) : Statement (.audioPacket e) := of_none rfl rfl
theorem tdmFrame (t : TdmId) (samples : List Nat) : Statement (.tdmFrame t samples) := of_none rfl rfl
theorem tdmFsyncLoss (t : TdmId) : Statement (.tdmFsyncLoss t) := of_none rfl rfl
theorem audioChunkDue (stream : Nat) : Statement (.audioChunkDue stream) := of_none rfl rfl
theorem pipelineLoad (port : Port) (pl : PipeId) : Statement (.pipelineLoad port pl) := of_none rfl rfl
theorem pipelineStop (port : Port) (pl : PipeId) : Statement (.pipelineStop port pl) := of_none rfl rfl
theorem jobTake (pl : PipeId) : Statement (.jobTake pl) := of_none rfl rfl
theorem sampleStart (pl : PipeId) : Statement (.sampleStart pl) := of_none rfl rfl
theorem budgetExceeded (pl : PipeId) (pos : Nat) (cycles : Nat) : Statement (.budgetExceeded pl pos cycles) := of_none rfl rfl
theorem sampleDone (pl : PipeId) (pos : Nat) (cycles : Nat) : Statement (.sampleDone pl pos cycles) := of_none rfl rfl
theorem sampleReportRelease (pl : PipeId) : Statement (.sampleReportRelease pl) := of_none rfl rfl
theorem siphonLinkUp (serial : W64) (count : W64) (role : Nat) : Statement (.siphonLinkUp serial count role) := of_none rfl rfl
theorem siphonLinkDown : Statement (.siphonLinkDown) := of_none rfl rfl
theorem siphonRetransmit : Statement (.siphonRetransmit) := of_none rfl rfl
theorem siphonWrite (m : Msg) : Statement (.siphonWrite m) := of_data rfl rfl msg_le
theorem siphonReadReq (m : Msg) : Statement (.siphonReadReq m) := of_data rfl rfl msg_le
theorem siphonReadData (m : Msg) : Statement (.siphonReadData m) := of_data rfl rfl msg_le
theorem siphonRegister (m : Msg) : Statement (.siphonRegister m) := of_data rfl rfl msg_le
theorem siphonRegDone (m : Msg) : Statement (.siphonRegDone m) := of_data rfl rfl msg_le
theorem siphonRelease (m : Msg) : Statement (.siphonRelease m) := of_data rfl rfl msg_le
theorem siphonSignal (m : Msg) : Statement (.siphonSignal m) := of_data rfl rfl msg_le
theorem siphonAck (m : Msg) : Statement (.siphonAck m) := of_data rfl rfl msg_le
theorem siphonTime (m : Msg) (stamp : Nat) (path : Int) : Statement (.siphonTime m stamp path) := of_data rfl rfl fun h => msg_le (Bool.and_eq_true _ _ ▸ h).1
theorem siphonTimebase (m : Msg) : Statement (.siphonTimebase m) := of_data rfl rfl msg_le
theorem siphonHeartbeat (m : Msg) : Statement (.siphonHeartbeat m) := of_data rfl rfl msg_le
theorem siphonMirror (m : Msg) : Statement (.siphonMirror m) := of_data rfl rfl msg_le
theorem siphonRole (m : Msg) : Statement (.siphonRole m) := of_data rfl rfl msg_le
theorem heartbeatSend : Statement (.heartbeatSend) := of_none rfl rfl
theorem partnerSilent : Statement (.partnerSilent) := of_none rfl rfl
theorem alignmentRetry : Statement (.alignmentRetry) := of_none rfl rfl
theorem counterLoad : Statement (.counterLoad) := of_none rfl rfl
theorem pairOffsetMeasure (offsets : List Int) : Statement (.pairOffsetMeasure offsets) := of_none rfl rfl
theorem counterHold : Statement (.counterHold) := of_none rfl rfl
theorem pairMismatch (pr : PairId) (t : Nat) (driven : Driven) : Statement (.pairMismatch pr t driven) := of_none rfl rfl
theorem pairSelftestDone (pr : PairId) (pass0 : Bool) (pass1 : Bool) (testOk : Bool) : Statement (.pairSelftestDone pr pass0 pass1 testOk) := of_none rfl rfl
theorem mirrorEnable (port : Port) (r : MirId) (partnerMaps : Bool) : Statement (.mirrorEnable port r partnerMaps) := of_none rfl rfl
theorem mirrorSyncDone (r : MirId) : Statement (.mirrorSyncDone r) := of_none rfl rfl
theorem debugAction (c : ClusId) (act : DebugAct) : Statement (.debugAction c act) := of_none rfl rfl
theorem smbusRead (off : Nat) : Statement (.smbusRead off) := of_none rfl rfl
theorem measurementStart (port : Port) (p : PartId) (entries : Nat) : Statement (.measurementStart port p entries) := of_none rfl rfl
theorem measurementDone (p : PartId) : Statement (.measurementDone p) := of_none rfl rfl
theorem stickyClear (port : Port) (off : Nat) (value : W32) : Statement (.stickyClear port off value) := of_none rfl rfl
theorem registerWrite (port : Port) (off : Nat) (value : W32) : Statement (.registerWrite port off value) := of_none rfl rfl
theorem pcieLinkUp (port : Port) : Statement (.pcieLinkUp port) := of_none rfl rfl
theorem inputAbove36V : Statement (.inputAbove36V) := of_none rfl rfl
theorem die0StopFault : Statement (.die0StopFault) := of_none rfl rfl
theorem pwrEnRiseTakesEffect : Statement (.pwrEnRiseTakesEffect) := of_none rfl rfl

end Sys2Proof.Laws.Shape
end

