-- ==== Sys2Proof/Tests/Slice0.lean ====
section
/-! SUPPORT. Tests: the well-formedness checks refuse an ill-formed term each; every statement's hypotheses are met by a concrete state and operands; and
single steps that the spec's own words and tables fix. -/
set_option Elab.async false

namespace Sys2Proof.Tests

open Sys2Proof.Machine Sys2Proof.Safety

/-! ## Small states -/

/-- A partition of port A with the four cores of cluster 0, its pool, and a context area. -/
def part0 : Part := { state := .opened, owner := .a, issueDepth := 8, epoch := 1, lastEpoch := 1, cores := 0xF
                      grants := (Vector.replicate 8 0).set 0 0xFFFF, ctxBase := 0x100000, ctxSize := 0x200 }

/-- A module in state 3 with both ports attached, every well and domain on, main memory initialised, and partition 0 open. -/
def up : State :=
  { sys := { rstN := true, clocked := true, die1 := true, boot := .booted, fwState := 3, initDone := true }
    counter := 1000000
    ports := .replicate 2 { attached := true, link := true }
    parts := (Vector.replicate 16 {}).set 0 part0
    hw := .replicate 64 { st := .on }
    pools := .replicate 8 { st := .on }
    pdOn := BitVec.allOnes 128 }

/-- A slot that holds a rung request of an opcode for a partition with a payload. -/
def slotOf (op part : Nat) (pay : List Byte) : Slot :=
  { req := bytesAt (leBytes 2 op ++ leBytes 2 pay.length ++ leBytes 4 7 ++ leBytes 2 part ++ repByte 6 0 ++ pay) 0 512, busy := true }

/-- A state with a rung request in slot 0 of port A. -/
def asking (s : State) (op part : Nat) (pay : List Byte) : State := { s.setSlot .a 0 (slotOf op part pay) with reqs := [(.a, 0)] }

/-- The checks of a request, as a test. -/
def asksB (s : State) (p : Port) (i : SlotId) (op : Nat) (need : Need) : Bool :=
  s.mailRuns p i op && !(s.slot p i).started && !(s.slot p i).orphaned && s.sys.fwState == 3 &&
  (catalogue.any fun c => c.1 == op && c.2.1 ≤ (s.slot p i).len && (s.slot p i).len ≤ c.2.2) &&
  (nonzeroAt (s.slot p i).req 10 6).isEmpty && (s.partBad p (s.slot p i) need).isEmpty &&
  ((s.port p).attached || op == 1 || op == 2 || op == 0x43)

theorem asks_of {s : State} {p : Port} {i : SlotId} {op : Nat} {need : Need} (h : asksB s p i op need = true) : Asks s p i op need := by
  unfold asksB at h
  simp only [Bool.and_eq_true, Bool.or_eq_true, Bool.not_eq_true', beq_iff_eq, List.any_eq_true, decide_eq_true_eq, List.isEmpty_iff] at h
  obtain ⟨⟨⟨⟨⟨⟨⟨h1, h2⟩, h3⟩, h4⟩, ⟨⟨o, lo, hi⟩, hm, ⟨he, hl⟩, hh⟩⟩, h6⟩, h7⟩, h8⟩ := h
  refine ⟨h1, h2, h3, h4, ⟨lo, hi, ?_, hl, hh⟩, h6, h7, ?_⟩
  · cases he
    exact hm
  · rcases h8 with ((h | h) | h) | h
    · exact .inl h
    · exact .inr (.inl h)
    · exact .inr (.inr (.inl h))
    · exact .inr (.inr (.inr h))

/-- A command of partition 0, queue 0, sequence number 0, of a kind, issued to core 0, with the bytes of its operand area. -/
def cmdOf (k : CmdKind) (op : Nat) (area : List Byte) : Cmd :=
  { adm := 0, part := 0, que := 0, seq := 0, desc := BitVec.ofNat 512 (op + 2 ^ 256 * leNat area), kind := k, deadline := none, launch := none
    life := .issued, place := .core 0, epochAt := 1 }

/-- A state whose only command is one. -/
def running (s : State) (c : Cmd) : State := { s with cmds := [c], admitNext := 1 }

theorem runs_of {s : State} {p : PartId} {q : QueId} {n : Nat} {k : CmdKind} {c : Cmd}
    (h : (s.findCmd p q n == some c && c.kind == k && s.mayRun c) = true) : Runs s p q n k c := by
  simp only [Bool.and_eq_true, beq_iff_eq] at h
  exact ⟨h.1.1, h.1.2, h.2⟩

/-- The state with BAR2 of both ports moved. -/
def barAt (s : State) (b : BitVec 6) : State := { s with ports := s.ports.map fun (h : HostPort) => { h with bar2Base := b } }

/-- A completion record. -/
def record0 : Record :=
  { seq := 0, launchLate := false, resumed := false, placed := true, opcode := 1, status := .ok, tag := 0, epoch := 1, ndc := 0, core := 0, badField := 0
    stamp := 5, start := 4, irqNow := false, owned := [] }

/-- A cistern region of port A and partition 0. -/
def region0 : Region := { id := 0, port := .a, part := some 0, cls := 0, rd := true, wr := true, host := 0x100000, len := 0x10000, loc := cisternBase }

/-- A remote window of partition 0. -/
def window0 : Window := { id := 0, part := 0, untracked := true, rd := true, wr := true, loc := windowBase, remote := 0, len := 0x10000 }

/-- The module with its Siphon link UP. -/
def linked : State := { up with sph := { link := 2 } }

/-- A state with bytes in memory. -/
def holding (s : State) (a : Nat) (bs : List Byte) : State := { s with mem := cellsWrite s.mem a bs }

/-- A partition 0 in a state. -/
def partIs (s : State) (st : PState) : State := s.setPart 0 { s.parts[(0 : PartId)] with state := st }

/-- The command that issues next, as a test. -/
def nextB (s : State) (p : PartId) (c : Cmd) (u : Place) : Bool :=
  match s.nextIssue p with
  | some (d, .ok v) => d == c && v == u
  | _ => false

theorem next_of {s : State} {p : PartId} {c : Cmd} {u : Place} (h : nextB s p c u = true) : s.nextIssue p = some (c, .ok u) := by
  unfold nextB at h
  split at h
  · rename_i e
    simp only [Bool.and_eq_true, beq_iff_eq] at h
    rw [e, h.1, h.2]
  · cases h

/-- A command like those of cmdOf with fields of its operand area given by their lowest bits. -/
def cmdF (k : CmdKind) (op : Nat) (fs : List (Nat × Nat)) : Cmd :=
  { cmdOf k op [] with desc := BitVec.ofNat 512 (op + fs.foldl (fun n x => n + x.2 * 2 ^ (256 + x.1)) 0) }

/-- A pump operation of core 0 from main memory to main memory. -/
def op0 : PumpOp :=
  { id := 5, part := 0, owner := .cmd 0, core := 0, die := 0, kind := .move, src := 0x1000, dst := 0x2000, len := 4096, reads := [⟨0x1000, 4096, false⟩]
    writes := [⟨0x2000, 4096, true⟩], far := false, farDone := false, at_ := 1000000 }

/-- A module whose half-wells are all off. -/
def wellsOff : State := { up with hw := .replicate 64 {} }

/-- A heap, a sequence with a table of two pages, and a group, each of partition 0. -/
def heap0 : Heap := { num := 0, part := 0, fmt := 0, dim := 0, nslots := 4, base := 0x100000, low := 1, high := 2 }
def seq0 : Seq :=
  { addr := 0x4000, part := 0, table := 0x5000, length := 256, firstPage := 0, maxPages := 2, endPage := 1, layers := 1, kvHeads := 1, heap := 0
    tail := false, epoch := 1 }
def group0 : Group :=
  { num := 0, part := 0, core := 0, classB := true, nslots := 2, slotBase := 0, slotUnits := 2, stagingBase := 0x1000, stagingBytes := 0x1000
    initAddr := 0x6000 }

/-- The sequence's record in memory. -/
def seqBytes : List Byte := leBytes 8 0x5000 ++ leBytes 4 256 ++ leBytes 2 0 ++ leBytes 2 2 ++ leBytes 2 1 ++ leBytes 2 1 ++ [1, 0, 0, 0, 1, 0] ++ repByte 38 0

/-- Its first page in a state of Table ATN-10, in slot 0. -/
def paged (st : Nat) : State :=
  { holding up 0x5000 (Desc.bytes ⟨0x100000, st, false, 256, 0, 0, 0⟩) with heaps := [heap0], seqs := [seq0] }

/-- A stream command of a group: its kind, its block and its rows. -/
def strCmd (k : CmdKind) (fs : List (Nat × Nat)) (blk rows : List Byte) (codes : List Nat) : Cmd :=
  { cmdF k 0x0A fs with copies := [(0, blk), (0, rows)], notes := [0, 0] ++ codes }

/-- An attention command of a block. -/
def atnCmd (k : CmdKind) (blk : List Byte) : Cmd := { cmdF k 0x0D [] with copies := [(0, blk)], notes := [0] }

/-- The module with a page on its way back from a cistern region. -/
def returning : State :=
  { paged pgReturning with returns := [{ desc := 0x5000, span := cisternBase }], regions := [region0] }

theorem forall_none {α : Type} {o : Option α} {P : α → Prop} (h : o = none) (d : α) (k : o = some d) : P d := by
  rw [h] at k
  cases k

theorem forall_some {α : Type} {o : Option α} {x : α} {P : α → Prop} (h : o = some x) (hp : P x) (d : α) (k : o = some d) : P d := by
  rw [h] at k
  cases k
  exact hp

/-- The module with one Ethernet port, station, axis or camera port, or pipeline, in slot 0, set. -/
def ethIs (x : EthPort) : State := { up with eth := up.eth.set 0 x }
def ethUp : State := ethIs { state := .up, speed := 4, cfg := 1, owner := some .a }
def statIs (x : Station) : State := { up with stations := up.stations.set 0 x }
def axisIs (s : State) (x : Axis) : State := { s with axes := s.axes.set 0 x }
def camIs (x : Camera) : State := { up with cams := up.cams.set 0 x }
def pipeIs (x : Pipe) : State := { up with pipes := up.pipes.set 0 x }

/-- A frame to every station, of 60 bytes. -/
def bcast : List Byte := repByte 6 0xFF ++ repByte 54 0

theorem not_runs {s : State} {p : PartId} {q : QueId} {n : Nat} {k : CmdKind} (h : s.findCmd p q n = none) (c : Cmd) : ¬ Runs s p q n k c := by
  intro r
  rw [r.1] at h
  cases h

def inRamB (s : State) (a len : Nat) : Bool :=
  (List.range len).all fun i => match s.reach (a + i) with
    | .main => true
    | .well _ _ => true
    | .pool _ _ => true
    | _ => false

theorem inRam_of {s : State} {a len : Nat} (h : inRamB s a len = true) : InRam s a len := by
  intro i hi
  have h2 := List.all_eq_true.mp h i (List.mem_range.mpr hi)
  split at h2
  · exact .inl ‹_›
  · exact .inr (.inl ⟨_, _, ‹_›⟩)
  · exact .inr (.inr ⟨_, _, ‹_›⟩)
  · cases h2
def nextErrB (s : State) (p : PartId) (c : Cmd) (x : St) (l : Bool) : Bool :=
  match s.nextIssue p with
  | some (d, .error (y, k)) => d == c && y == x && k == l
  | _ => false

theorem nextErr_of {s : State} {p : PartId} {c : Cmd} {x : St} {l : Bool} (h : nextErrB s p c x l = true) :
    s.nextIssue p = some (c, .error (x, l)) := by
  unfold nextErrB at h
  split at h
  · rename_i e
    simp only [Bool.and_eq_true, beq_iff_eq] at h
    rw [e, h.1.1, h.1.2, h.2]
  · cases h

/-- The signature of a cycle in which every group is idle, and of one in which the last group alone is driven. -/
theorem crc64_zeros (n : Nat) : (List.replicate n (0 : Byte)).foldl crc64Byte 0 = 0 := by
  induction n with
  | zero => rfl
  | succ n ih => rw [List.replicate_succ, List.foldl_cons, show crc64Byte 0 0 = 0 by decide +kernel, ih]

theorem signature_idle : signature [] = 0 := by
  rw [signature, crc64, show sigBytes [] = List.replicate 324 0 by decide +kernel, crc64_zeros]

theorem signature_last : signature [0, 0, 0, 0, 0, 1] ≠ signature [] := by
  rw [signature_idle, signature, crc64, show sigBytes [0, 0, 0, 0, 0, 1] = List.replicate 316 0 ++ [1, 0, 0, 0, 0, 0, 0, 0] by decide +kernel,
    List.foldl_append, crc64_zeros]
  decide +kernel
/-- What the clauses of TheModuleFollowsItsSupply ask of a state and operands can be met. -/
theorem wit_TheModuleFollowsItsSupply :
    (∃ (s : State) (ms : Nat), s.sys.pwrEn = true) ∧
    (∃ (s : State) (ms : Nat), s.sys.pwrEn = false ∧ s.sys.rails ≠ .off) ∧
    (∃ (s : State) (ms : Nat), s.sys.pwrEn = false ∧ s.sys.rails = .off ∧ 10 ≤ ms) ∧
    (∃ (s : State) (ms : Nat), s.sys.pwrEn = false ∧ s.sys.rails = .off ∧ ms < 10) ∧
    (∃ (s : State), s.sys.riseWaits = true ∧ s.sys.pwrEn = true ∧ s.sys.rails = .off) ∧
    (∃ (s : State), (¬ (s.sys.riseWaits = true ∧ s.sys.pwrEn = true ∧ s.sys.rails = .off))) ∧
    (∃ (s : State), s.sys.pwrEn = true ∧ s.sys.rails = .off) ∧
    (∃ (s : State), (¬ (s.sys.pwrEn = true ∧ s.sys.rails = .off))) ∧
    (∃ (s : State), s.sys.rails = .on ∧ s.sys.inputLow = false) ∧
    (∃ (s : State), (¬ (s.sys.rails = .on ∧ s.sys.inputLow = false))) ∧
    (∃ (s : State), s.sys.rails ≠ .off) ∧
    (∃ (s : State), s.sys.rails = .off) ∧
    (∃ (s : State) (ns : Nat), 1000 ≤ ns) ∧
    (∃ (s : State) (ns : Nat), ns < 100) ∧
    (∃ (s : State) (ns : Nat), 100 ≤ ns ∧ ns < 1000) ∧
    (∃ (s : State), s.sys.rails = .on) ∧
    (∃ (s : State), s.sys.rails ≠ .on) ∧
    (∃ (s : State) (c : Instr), ((c = .die0StopFault ∧ s.sys.rails = .on) ∨ (c = .undervoltageLockout ∧ s.sys.rails ≠ .off))) :=
  ⟨⟨up, 5, (by decide +kernel)⟩,
   ⟨{ up with sys := { up.sys with pwrEn := false } }, 5, (by decide +kernel)⟩,
   ⟨{ up with sys := { rails := .off, pwrEn := false } }, 10, (by decide +kernel)⟩,
   ⟨{ up with sys := { rails := .off, pwrEn := false } }, 9, (by decide +kernel)⟩,
   ⟨{ up with sys := { rails := .off, riseWaits := true } }, (by decide +kernel)⟩,
   ⟨up, (by decide +kernel)⟩,
   ⟨{ up with sys := { rails := .off } }, (by decide +kernel)⟩,
   ⟨up, (by decide +kernel)⟩,
   ⟨up, (by decide +kernel)⟩,
   ⟨{ up with sys := { inputLow := true } }, (by decide +kernel)⟩,
   ⟨up, (by decide +kernel)⟩,
   ⟨{ up with sys := { rails := .off } }, (by decide +kernel)⟩,
   ⟨up, 1000, (by decide +kernel)⟩,
   ⟨up, 99, (by decide +kernel)⟩,
   ⟨up, 999, (by decide +kernel)⟩,
   ⟨up, (by decide +kernel)⟩,
   ⟨{ up with sys := { rails := .off } }, (by decide +kernel)⟩,
   ⟨up, .die0StopFault, .inl ⟨rfl, by decide +kernel⟩⟩⟩

/-- What the clauses of SemaphoresFollowTheirRules ask of a state and operands can be met. -/
theorem wit_SemaphoresFollowTheirRules :
    (∃ (s : State) (k : SemId) (t : W16), s.sems[k].held = false ∧ s.reached .a = true) ∧
    (∃ (s : State) (k : SemId) (t : W16), s.sems[k].held = false ∧ s.reached .b = true) ∧
    (∃ (s : State) (k : SemId) (t u : W16), s.sems[k].held = false ∧ s.reached .a = true ∧ s.reached .b = true) ∧
    (∃ (s : State) (k : SemId) (a b : Option W16), s.sems[k].held = true) ∧
    (∃ (s : State) (k : SemId) (a b : Option W16), s.reached .a = false) ∧
    (∃ (s : State) (k : SemId) (a b : Option W16), s.reached .b = false) ∧
    (∃ (s : State) (p : Port) (k : SemId) (t : W16), s.reached p = true ∧ s.sems[k].held = true ∧ s.sems[k].owner = p ∧ s.sems[k].tag = t) ∧
    (∃ (s : State) (p : Port) (k : SemId) (t : W16), s.reached p = true ∧ (¬ (s.sems[k].held = true ∧ s.sems[k].owner = p ∧ s.sems[k].tag = t))) ∧
    (∃ (s : State) (p : Port) (k : SemId) (t : W16), s.reached p = false) :=
  ⟨⟨up, 63, 0xFFFF, (by decide +kernel)⟩,
   ⟨up, 63, 0xFFFF, (by decide +kernel)⟩,
   ⟨up, 0, 1, 2, (by decide +kernel)⟩,
   ⟨{ up with sems := up.sems.set 63 { held := true, owner := .b, tag := 5 } }, 63, some 1, none, (by decide +kernel)⟩,
   ⟨State.reset, 63, some 1, none, (by decide +kernel)⟩,
   ⟨State.reset, 63, some 1, some 2, (by decide +kernel)⟩,
   ⟨{ up with sems := up.sems.set 63 { held := true, owner := .b, tag := 5 } }, .b, 63, 5, (by decide +kernel)⟩,
   ⟨{ up with sems := up.sems.set 63 { held := true, owner := .b, tag := 5 } }, .a, 63, 5, (by decide +kernel)⟩,
   ⟨State.reset, .a, 63, 5, (by decide +kernel)⟩⟩

/-- What the clauses of QueuePointersMoveOnlyForward ask of a state and operands can be met. -/
theorem wit_QueuePointersMoveOnlyForward :
    (∃ (s : State) (p : Port) (r : PartId) (q : QueId) (v : W32), s.reached p = true ∧ s.owns p r = false) ∧
    (∃ (s : State) (p : Port) (r : PartId) (q : QueId) (v : W32), s.reached p = true ∧ s.owns p r = true ∧ (s.queue r q).cring = none) ∧
    (∃ (s : State) (p : Port) (r : PartId) (q : QueId) (v : W32) (ring : Ring), s.reached p = true ∧ s.owns p r = true ∧ (s.queue r q).cring = some ring ∧ (v - (s.queue r q).prod).toNat < 2 ^ 31 ∧ (v - (s.queue r q).fetched).toNat ≤ ring.entries) ∧
    (∃ (s : State) (p : Port) (r : PartId) (q : QueId) (v : W32) (ring : Ring), s.reached p = true ∧ s.owns p r = true ∧ (s.queue r q).cring = some ring ∧ (¬ ((v - (s.queue r q).prod).toNat < 2 ^ 31 ∧ (v - (s.queue r q).fetched).toNat ≤ ring.entries))) ∧
    (∃ (s : State) (p : Port) (r : PartId) (q : QueId) (v : W32), s.reached p = true ∧ s.owns p r = true ∧ (v - (s.queue r q).crCons).toNat ≤ ((s.queue r q).crProd - (s.queue r q).crCons).toNat) ∧
    (∃ (s : State) (p : Port) (r : PartId) (q : QueId) (v : W32), s.reached p = true ∧ s.owns p r = true ∧ ((s.queue r q).crProd - (s.queue r q).crCons).toNat < (v - (s.queue r q).crCons).toNat) ∧
    (∃ (s : State) (p : Port) (r : PartId) (q : QueId) (v : W32), s.reached p = false) ∧
    (∃ (s : State) (p : PartId) (q : QueId) (r : Record) (rest : List Record) (ring : Ring), (s.queue p q).waiting = r :: rest ∧ (s.queue p q).rring = some ring ∧ (ring.host = true → s.parts[p].state ≠ .orphaned) ∧ ((s.queue p q).crProd - (s.queue p q).crCons).toNat < ring.entries) ∧
    (∃ (s : State) (p : PartId) (q : QueId) (r : Record) (rest : List Record) (ring : Ring), (s.queue p q).waiting = r :: rest ∧ (s.queue p q).rring = some ring ∧ ring.host = true ∧ s.parts[p].state = .orphaned) ∧
    (∃ (s : State) (p : PartId) (q : QueId), ((s.queue p q).waiting = [] ∨ (s.queue p q).rring = none ∨ ∃ ring, (s.queue p q).rring = some ring ∧ (ring.host = true → s.parts[p].state ≠ .orphaned) ∧ ring.entries ≤ ((s.queue p q).crProd - (s.queue p q).crCons).toNat)) :=
  ⟨⟨up, .b, 0, 0, 1, (by decide +kernel)⟩,
   ⟨up, .a, 0, 3, 1, (by decide +kernel)⟩,
   ⟨up.setQueue 0 0 { cring := some ⟨false, 64, 0x10000⟩ }, .a, 0, 0, 64, ⟨false, 64, 0x10000⟩, (by decide +kernel)⟩,
   ⟨up.setQueue 0 0 { cring := some ⟨false, 64, 0x10000⟩ }, .a, 0, 0, 65, ⟨false, 64, 0x10000⟩, (by decide +kernel)⟩,
   ⟨up.setQueue 0 0 { crProd := 5, crCons := 3 }, .a, 0, 0, 5, (by decide +kernel)⟩,
   ⟨up.setQueue 0 0 { crProd := 5, crCons := 3 }, .a, 0, 0, 6, (by decide +kernel)⟩,
   ⟨State.reset, .b, 0, 0, 1, (by decide +kernel)⟩,
   ⟨up.setQueue 0 0 { rring := some ⟨false, 64, 0x20000⟩, waiting := [record0], crProd := 63 }, 0, 0, record0, [], ⟨false, 64, 0x20000⟩, (by decide +kernel)⟩,
   ⟨{ up.setQueue 0 0 { rring := some ⟨true, 64, 0x20000⟩, waiting := [record0] } with parts := (Vector.replicate 16 {}).set 0 { part0 with state := .orphaned, queues := (Vector.replicate 4 {}).set 0 { rring := some ⟨true, 64, 0x20000⟩, waiting := [record0] } } }, 0, 0, record0, [], ⟨true, 64, 0x20000⟩, (by decide +kernel)⟩,
   ⟨up, 0, 0, .inl (by decide +kernel)⟩⟩

/-- What the clauses of BadTlpsChangeNothing ask of a state and operands can be met. -/
theorem wit_BadTlpsChangeNothing :
    (∃ (s : State) (p : Port), s.reached p = true) ∧
    (∃ (s : State) (p : Port) (off size : Nat), s.reached p = true ∧ (¬ ((size = 4 ∨ size = 8) ∧ off % size = 0))) ∧
    (∃ (s : State) (p : Port), s.reached p = false) :=
  ⟨⟨up, .a, (by decide +kernel)⟩,
   ⟨up, .a, 0, 2, (by decide +kernel)⟩,
   ⟨State.reset, .a, (by decide +kernel)⟩⟩

/-- What the clauses of Bar2ReachesModuleMemory ask of a state and operands can be met. -/
theorem wit_Bar2ReachesModuleMemory :
    (∃ (s : State) (p : Port) (off len : Nat), s.reached p = true ∧ 0 < len ∧ len ≤ 4 - s.bar2Addr p off % 4 ∧ s.windowPieces (s.bar2Addr p off) len = [] ∧ (∀ i, i < len → s.ownedAt (s.bar2Addr p off + i) = true)) ∧
    (∃ (s : State) (p : Port) (off len : Nat), s.reached p = true ∧ 0 < len ∧ len ≤ 4 - s.bar2Addr p off % 4 ∧ s.windowPieces (s.bar2Addr p off) len = [] ∧ (∀ i, i < len → s.ownedAt (s.bar2Addr p off + i) = false) ∧ 
    let a := s.bar2Addr p off
    s.locOf a = .main ∧ s.sys.initDone = true) ∧
    (∃ (s : State) (p : Port) (off len : Nat), s.reached p = true ∧ 0 < len ∧ len ≤ 4 - s.bar2Addr p off % 4 ∧ s.windowPieces (s.bar2Addr p off) len = [] ∧ (∀ i, i < len → s.ownedAt (s.bar2Addr p off + i) = false) ∧ 
    let a := s.bar2Addr p off
    s.locOf a = .main ∧ s.sys.initDone = false) ∧
    (∃ (s : State) (p : Port) (off len : Nat), s.reached p = true ∧ 0 < len ∧ len ≤ 4 - s.bar2Addr p off % 4 ∧ s.windowPieces (s.bar2Addr p off) len = [] ∧ (∀ i, i < len → s.ownedAt (s.bar2Addr p off + i) = false) ∧ 
    let a := s.bar2Addr p off
    ∃ n o, s.locOf a = .well n o ∧ s.isChecker (clusOfCore n) = true) ∧
    (∃ (s : State) (p : Port) (off len : Nat), s.reached p = true ∧ 0 < len ∧ len ≤ 4 - s.bar2Addr p off % 4 ∧ s.windowPieces (s.bar2Addr p off) len = [] ∧ (∀ i, i < len → s.ownedAt (s.bar2Addr p off + i) = false) ∧ 
    let a := s.bar2Addr p off
    ∃ n o, s.locOf a = .well n o ∧ s.isChecker (clusOfCore n) = false ∧ (s.hw[halfOf n o].st = .on ∨ s.hw[halfOf n o].st = .unfilled)) ∧
    (∃ (s : State) (p : Port) (off len : Nat), s.reached p = true ∧ 0 < len ∧ len ≤ 4 - s.bar2Addr p off % 4 ∧ s.windowPieces (s.bar2Addr p off) len = [] ∧ (∀ i, i < len → s.ownedAt (s.bar2Addr p off + i) = false) ∧ 
    let a := s.bar2Addr p off
    ∃ n o, s.locOf a = .well n o ∧ s.isChecker (clusOfCore n) = false ∧ (¬ (s.hw[halfOf n o].st = .on ∨ s.hw[halfOf n o].st = .unfilled))) ∧
    (∃ (s : State) (p : Port) (off len : Nat), s.reached p = true ∧ 0 < len ∧ len ≤ 4 - s.bar2Addr p off % 4 ∧ s.windowPieces (s.bar2Addr p off) len = [] ∧ (∀ i, i < len → s.ownedAt (s.bar2Addr p off + i) = false) ∧ 
    let a := s.bar2Addr p off
    ∃ c o, s.locOf a = .pool c o ∧ s.isChecker c = true) ∧
    (∃ (s : State) (p : Port) (off len : Nat), s.reached p = true ∧ 0 < len ∧ len ≤ 4 - s.bar2Addr p off % 4 ∧ s.windowPieces (s.bar2Addr p off) len = [] ∧ (∀ i, i < len → s.ownedAt (s.bar2Addr p off + i) = false) ∧ 
    let a := s.bar2Addr p off
    ∃ c o, s.locOf a = .pool c o ∧ s.isChecker c = false ∧ (s.pools[c].st = .on ∨ s.pools[c].st = .unfilled)) ∧
    (∃ (s : State) (p : Port) (off len : Nat), s.reached p = true ∧ 0 < len ∧ len ≤ 4 - s.bar2Addr p off % 4 ∧ s.windowPieces (s.bar2Addr p off) len = [] ∧ (∀ i, i < len → s.ownedAt (s.bar2Addr p off + i) = false) ∧ 
    let a := s.bar2Addr p off
    ∃ c o, s.locOf a = .pool c o ∧ s.isChecker c = false ∧ (¬ (s.pools[c].st = .on ∨ s.pools[c].st = .unfilled))) ∧
    (∃ (s : State) (p : Port) (off len : Nat), s.reached p = true ∧ 0 < len ∧ len ≤ 4 - s.bar2Addr p off % 4 ∧ s.windowPieces (s.bar2Addr p off) len = [] ∧ (∀ i, i < len → s.ownedAt (s.bar2Addr p off + i) = false) ∧ 
    let a := s.bar2Addr p off
    ∃ r, s.locOf a = .cistern r ∧ r.port = p) ∧
    (∃ (s : State) (p : Port) (off len : Nat), s.reached p = true ∧ 0 < len ∧ len ≤ 4 - s.bar2Addr p off % 4 ∧ s.windowPieces (s.bar2Addr p off) len = [] ∧ (∀ i, i < len → s.ownedAt (s.bar2Addr p off + i) = false) ∧ 
    let a := s.bar2Addr p off
    ∃ r, s.locOf a = .cistern r ∧ r.port ≠ p) ∧
    (∃ (s : State) (p : Port) (off len : Nat), s.reached p = true ∧ 0 < len ∧ len ≤ 4 - s.bar2Addr p off % 4 ∧ s.windowPieces (s.bar2Addr p off) len = [] ∧ (∀ i, i < len → s.ownedAt (s.bar2Addr p off + i) = false) ∧ 
    let a := s.bar2Addr p off
    s.locOf a = .unmapped) ∧
    (∃ (s : State) (p : Port) (off len : Nat) (w : Window), s.reached p = true ∧ 0 < len ∧ len ≤ 4 - s.bar2Addr p off % 4 ∧ s.locOf (s.bar2Addr p off) = .window w ∧ (∀ i, i < len → s.ownedAt (s.bar2Addr p off + i) = false) ∧ s.sph.link = 2 ∧ s.sph.txDark = false ∧ s.windowPieces (s.bar2Addr p off) len = [(w, s.bar2Addr p off, len)]) ∧
    (∃ (s : State) (p : Port) (off len : Nat) (w : Window), s.reached p = true ∧ 0 < len ∧ len ≤ 4 - s.bar2Addr p off % 4 ∧ s.locOf (s.bar2Addr p off) = .window w ∧ (∀ i, i < len → s.ownedAt (s.bar2Addr p off + i) = false) ∧ (s.sph.link ≠ 2 ∨ s.sph.txDark = true)) ∧
    (∃ (s : State) (p : Port) (off len : Nat), s.reached p = false) ∧
    (∃ (s : State) (p : Port) (off : Nat) (data : List Byte), s.reached p = true ∧ 0 < data.length ∧ data.length ≤ 4096 - s.bar2Addr p off % 4096 ∧ s.locOf (s.bar2Addr p off) = .main) ∧
    (∃ (s : State) (p : Port) (off : Nat) (data : List Byte) (n : CoreId) (o : Nat), s.reached p = true ∧ 0 < data.length ∧ data.length ≤ 4096 - s.bar2Addr p off % 4096 ∧ s.locOf (s.bar2Addr p off) = .well n o) ∧
    (∃ (s : State) (p : Port) (off : Nat) (data : List Byte) (c : ClusId) (o : Nat), s.reached p = true ∧ 0 < data.length ∧ data.length ≤ 4096 - s.bar2Addr p off % 4096 ∧ s.locOf (s.bar2Addr p off) = .pool c o) ∧
    (∃ (s : State) (p : Port) (off : Nat) (data : List Byte) (r : Region), s.reached p = true ∧ 0 < data.length ∧ data.length ≤ 4096 - s.bar2Addr p off % 4096 ∧ s.locOf (s.bar2Addr p off) = .cistern r) ∧
    (∃ (s : State) (p : Port) (off : Nat) (data : List Byte) (w : Window), s.reached p = true ∧ 0 < data.length ∧ data.length ≤ 4096 - s.bar2Addr p off % 4096 ∧ s.locOf (s.bar2Addr p off) = .window w) ∧
    (∃ (s : State) (p : Port) (off : Nat) (data : List Byte), s.reached p = true ∧ 0 < data.length ∧ data.length ≤ 4096 - s.bar2Addr p off % 4096 ∧ s.locOf (s.bar2Addr p off) = .unmapped) ∧
    (∃ (s : State) (p : Port) (off : Nat) (data : List Byte), s.reached p = false) :=
  ⟨⟨running up { cmdOf .fill 0x22 [] with ranges := [⟨0x1000, 64, true⟩], life := .started }, .a, 0x1000, 4, (by decide +kernel)⟩,
   ⟨up, .a, 0x1000, 4, (by decide +kernel), (by decide +kernel), (by decide +kernel), (by decide +kernel), (by decide +kernel), (by decide +kernel), (by decide +kernel)⟩,
   ⟨{ up with sys := { boot := .booted, fwState := 2 } }, .a, 0x1000, 4, (by decide +kernel), (by decide +kernel), (by decide +kernel), (by decide +kernel), (by decide +kernel), (by decide +kernel), (by decide +kernel)⟩,
   ⟨(barAt (up.setPair 0 { state := .paired }) 32), .a, 0x8000000, 4, (by decide +kernel), (by decide +kernel), (by decide +kernel), (by decide +kernel), (by decide +kernel), 16, 0, by decide +kernel⟩,
   ⟨barAt up 32, .a, 0, 4, (by decide +kernel), (by decide +kernel), (by decide +kernel), (by decide +kernel), (by decide +kernel), 0, 0, by decide +kernel⟩,
   ⟨barAt wellsOff 32, .a, 0, 4, (by decide +kernel), (by decide +kernel), (by decide +kernel), (by decide +kernel), (by decide +kernel), 0, 0, by decide +kernel⟩,
   ⟨(barAt (up.setPair 0 { state := .paired }) 32), .a, 0x14000000, 4, (by decide +kernel), (by decide +kernel), (by decide +kernel), (by decide +kernel), (by decide +kernel), 4, 0, by decide +kernel⟩,
   ⟨barAt up 32, .a, 0x10000000, 4, (by decide +kernel), (by decide +kernel), (by decide +kernel), (by decide +kernel), (by decide +kernel), 0, 0, by decide +kernel⟩,
   ⟨barAt { up with pools := .replicate 8 {} } 32, .a, 0x10000000, 4, (by decide +kernel), (by decide +kernel), (by decide +kernel), (by decide +kernel), (by decide +kernel), 0, 0, by decide +kernel⟩,
   ⟨barAt { up with regions := [region0] } 40, .a, 0xFFFC, 4, (by decide +kernel), (by decide +kernel), (by decide +kernel), (by decide +kernel), (by decide +kernel), region0, by decide +kernel⟩,
   ⟨barAt { up with regions := [region0] } 40, .b, 0xFFFC, 4, (by decide +kernel), (by decide +kernel), (by decide +kernel), (by decide +kernel), (by decide +kernel), region0, by decide +kernel⟩,
   ⟨barAt up 40, .a, 0, 4, (by decide +kernel), (by decide +kernel), (by decide +kernel), (by decide +kernel), (by decide +kernel), (by decide +kernel)⟩,
   ⟨barAt { linked with windows := [window0] } 48, .a, 0xFFFC, 4, window0, (by decide +kernel)⟩,
   ⟨barAt { up with windows := [window0] } 48, .a, 0xFFFC, 4, window0, (by decide +kernel)⟩,
   ⟨State.reset, .a, 0, 4, (by decide +kernel)⟩,
   ⟨up, .a, 0x1FFF, [1], (by decide +kernel)⟩,
   ⟨barAt up 32, .a, 0, [1], 0, 0, (by decide +kernel)⟩,
   ⟨barAt up 32, .a, 0x10000000, [1], 0, 0, (by decide +kernel)⟩,
   ⟨barAt { up with regions := [region0] } 40, .a, 0, [1], region0, (by decide +kernel)⟩,
   ⟨barAt { linked with windows := [window0] } 48, .a, 0, [1], window0, (by decide +kernel)⟩,
   ⟨barAt up 40, .a, 0, [1], (by decide +kernel)⟩,
   ⟨State.reset, .a, 0, [1], (by decide +kernel)⟩⟩

/-- What the clauses of MailboxSlotsFollowTheirRules ask of a state and operands can be met. -/
theorem wit_MailboxSlotsFollowTheirRules :
    (∃ (s : State) (p : Port) (i : SlotId) (off : Nat) (data : List Byte), s.reached p = true ∧ off < 512 ∧ data ≠ [] ∧ (s.slot p i).busy = false) ∧
    (∃ (s : State) (p : Port) (i : SlotId) (off : Nat) (data : List Byte), s.reached p = true ∧ off < 512 ∧ data ≠ [] ∧ (s.slot p i).busy = true) ∧
    (∃ (s : State) (p : Port) (i : SlotId) (off : Nat) (data : List Byte), (512 ≤ off ∨ data = [] ∨ s.reached p = false)) ∧
    (∃ (s : State) (p : Port) (mask : W32), s.reached p = true ∧ s.sys.fwState ≠ 4 ∧ (∀ r ∈ s.reqs, (s.slot r.1 r.2).rowless = false) ∧ (∀ i : SlotId, mask.getLsbD i.val = true → s.slotFree p i = true → (s.slot p i).rowless = false)) ∧
    (∃ (s : State) (p : Port) (i : SlotId), s.reached p = true ∧ s.sys.fwState = 3 ∧ s.answers = true ∧ s.reqs = [] ∧ s.slotFree p i = true ∧ (∀ c ∈ catalogue, c.1 ≠ (s.slot p i).opcode)) ∧
    (∃ (s : State) (p : Port) (mask : W32), s.reached p = true ∧ s.sys.fwState = 4 ∧ (∃ i : SlotId, mask.getLsbD i.val = true)) ∧
    (∃ (s : State) (p : Port) (mask : W32), s.reached p = true) ∧
    (∃ (s : State) (p : Port) (mask : W32), s.reached p = false) :=
  ⟨⟨up, .a, 31, 511, [1, 2], (by decide +kernel)⟩,
   ⟨asking up 1 0xFFFF [], .a, 0, 0, [1], (by decide +kernel)⟩,
   ⟨up, .a, 0, 512, [1], (by decide +kernel)⟩,
   ⟨up.setSlot .a 31 { slotOf 1 0xFFFF [] with busy := false }, .a, 0x80000000, (by decide +kernel)⟩,
   ⟨up.setSlot .a 31 { slotOf 0x77 0xFFFF [] with busy := false }, .a, 31, (by decide +kernel)⟩,
   ⟨{ up with sys := { boot := .booted, fwState := 4 } }, .a, 0x80000000, (by decide +kernel)⟩,
   ⟨up.setSlot .a 31 { slotOf 1 0xFFFF [] with busy := false }, .a, 0x80000000, (by decide +kernel)⟩,
   ⟨State.reset, .a, 1, (by decide +kernel)⟩⟩

/-- What the clauses of HostMessagesAreAnswered ask of a state and operands can be met. -/
theorem wit_HostMessagesAreAnswered :
    (∃ (s : State) (p : Port) (i : SlotId), Asks s p i 1 .any) ∧
    (∃ (s : State) (p : Port) (i : SlotId), Asks s p i 2 .any ∧ nonzeroAt (s.slot p i).req 19 5 = [] ∧ ((s.slot p i).pay 0 2 = 0 ∨ (10 ≤ (s.slot p i).pay 0 2 ∧ (s.slot p i).pay 0 2 ≤ 10000)) ∧ (s.slot p i).pay 2 1 ≤ 1) ∧
    (∃ (s : State) (p : Port) (i : SlotId), Asks s p i 4 .any) ∧
    (∃ (s : State) (p : Port) (i : SlotId), Asks s p i 3 .any) :=
  ⟨⟨asking up 1 0xFFFF ([]), .a, 0, asks_of (by decide +kernel)⟩,
   ⟨asking up 2 0xFFFF (leBytes 2 10 ++ [1] ++ repByte 5 0), .a, 0, asks_of (by decide +kernel), (by decide +kernel)⟩,
   ⟨asking up 4 0xFFFF ([]), .a, 0, asks_of (by decide +kernel)⟩,
   ⟨asking up 3 0xFFFF ([]), .a, 0, asks_of (by decide +kernel)⟩⟩

/-- What the clauses of RefusedRequestsChangeNothing ask of a state and operands can be met. -/
theorem wit_RefusedRequestsChangeNothing :
    (∃ (s : State) (p : Port) (i : SlotId) (c : Instr) (op : Nat) (need : Need), (c, op, need) ∈ [(Instr.getInfo p i, 1, Need.any), (.hostDetach p i, 3, .any), (.heartbeat p i, 4, .any), (.partClose p i, 0x11, .owner), (.partReset p i, 0x12, .owner)] ∧ s.mailRuns p i op = true ∧ (s.slot p i).started = false ∧ (s.slot p i).orphaned = false ∧ ∃ r o, 3 ≤ s.sys.fwState.toNat ∧ s.mailBad p (s.slot p i) need [] = some (r, o)) ∧
    (∃ (s : State) (p : Port) (i : SlotId) (c : Instr) (op : Nat) (need : Need), (c, op, need) ∈ [(Instr.getInfo p i, 1, Need.any), (.hostDetach p i, 3, .any), (.heartbeat p i, 4, .any), (.partClose p i, 0x11, .owner), (.partReset p i, 0x12, .owner)] ∧ s.mailRuns p i op = true ∧ (s.slot p i).started = false ∧ (s.slot p i).orphaned = false ∧ s.sys.fwState.toNat < 3 ∧ op ≠ 1) :=
  ⟨⟨asking up 1 0xFFFF ([1]), .a, 0, .getInfo .a 0, 1, .any, (by decide +kernel), (by decide +kernel), (by decide +kernel), (by decide +kernel), 2, 2, (by decide +kernel)⟩,
   ⟨asking ({ up with sys := { boot := .booted, fwState := 2 } } : State) 4 0xFFFF ([]), .a, 0, .heartbeat .a 0, 4, .any, (by decide +kernel)⟩⟩

/-- What the clauses of ModeSetStoresItsValue ask of a state and operands can be met. -/
theorem wit_ModeSetStoresItsValue :
    (∃ (s : State) (p : Port) (i : SlotId), Asks s p i 6 .any ∧ (s.slot p i).pay 0 1 = 0 ∧ (s.slot p i).modeBad 4 0 = []) ∧
    (∃ (s : State) (p : Port) (i : SlotId) (q : PartId), Asks s p i 6 .any ∧ (s.slot p i).pay 0 1 = 1 ∧ (s.slot p i).modeBad 2 16 = [] ∧ (s.slot p i).pay 2 2 = q.val ∧ s.owns p q = true ∧ (¬ (s.parts[q].relaxed = true ∧ (s.slot p i).pay 1 1 = 0 ∧ s.mayChoose q = true))) ∧
    (∃ (s : State) (p : Port) (i : SlotId) (q : PartId), Asks s p i 6 .any ∧ (s.slot p i).pay 0 1 = 1 ∧ (s.slot p i).modeBad 2 16 = [] ∧ (s.slot p i).pay 2 2 = q.val ∧ s.owns p q = true ∧ s.parts[q].relaxed = true ∧ (s.slot p i).pay 1 1 = 0 ∧ s.mayChoose q = true) ∧
    (∃ (s : State) (p : Port) (i : SlotId) (pl : PipeId), Asks s p i 6 .any ∧ (s.slot p i).pay 0 1 = 4 ∧ (s.slot p i).modeBad 2 16 = [] ∧ (s.slot p i).pay 2 2 = pl.val ∧ (s.pipes[pl].state = .off ∨ s.owns p s.pipes[pl].part = true)) ∧
    (∃ (s : State) (p : Port) (i : SlotId), Asks s p i 6 .any ∧ (s.slot p i).pay 0 1 = 5 ∧ (s.slot p i).modeBad 2 0 = []) ∧
    (∃ (s : State) (p : Port) (i : SlotId), Asks s p i 6 .any ∧ (s.slot p i).pay 0 1 = 6 ∧ (s.slot p i).modeBad 3 0 = []) :=
  ⟨⟨asking up 6 0xFFFF ([0, 3] ++ repByte 6 0), .a, 0, asks_of (by decide +kernel), (by decide +kernel)⟩,
   ⟨asking up 6 0xFFFF ([1, 1, 0, 0] ++ repByte 4 0), .a, 0, 0, asks_of (by decide +kernel), (by decide +kernel)⟩,
   ⟨asking ({ up with parts := (Vector.replicate 16 {}).set 0 { part0 with relaxed := true }, cmds := [{ cmdOf .wait 1 [] with relaxed := true }] } : State) 6 0xFFFF ([1, 0, 0, 0] ++ repByte 4 0), .a, 0, 0, asks_of (by decide +kernel), (by decide +kernel)⟩,
   ⟨asking up 6 0xFFFF ([4, 1, 15, 0] ++ repByte 4 0), .a, 0, 15, asks_of (by decide +kernel), (by decide +kernel)⟩,
   ⟨asking up 6 0xFFFF ([5, 1] ++ repByte 6 0), .a, 0, asks_of (by decide +kernel), (by decide +kernel)⟩,
   ⟨asking up 6 0xFFFF ([6, 2] ++ repByte 6 0), .a, 0, asks_of (by decide +kernel), (by decide +kernel)⟩⟩

/-- What the clauses of HostsComeAndGo ask of a state and operands can be met. -/
theorem wit_HostsComeAndGo :
    (∃ (s : State) (p : Port) (c : Instr), (s.port p).attached = true ∧ (s.port p).link = true ∧ (c = .pcieLinkDown p ∨ c = .pcieHotReset p ∨ c = .d3hotEntry p ∨ c = .perstAssert p ∨ (c = .heartbeatLapse p ∧ (s.port p).hbPeriod ≠ 0 ∧ (s.port p).hbLast + 3 * (s.port p).hbPeriod * 640000 ≤ s.now))) ∧
    (∃ (s : State) (p : Port), 
    let may := s.sys.rails = .on ∧ s.sys.rstN = true ∧ s.sys.clocked = true ∧ (s.port p).perst = false ∧ s.diePresent (dieOfPort p) = true
    may) ∧
    (∃ (s : State) (p : Port), 
    let may := s.sys.rails = .on ∧ s.sys.rstN = true ∧ s.sys.clocked = true ∧ (s.port p).perst = false ∧ s.diePresent (dieOfPort p) = true
    ¬ may) ∧
    (∃ (s : State) (p : Port), (s.port p).link = false) ∧
    (∃ (s : State) (p : Port), (s.port p).attached = false ∧ (s.port p).link = true) ∧
    (∃ (s : State) (p : Port), ((s.port p).hbPeriod = 0 ∨ s.now < (s.port p).hbLast + 3 * (s.port p).hbPeriod * 640000)) ∧
    (∃ (s : State) (p : Port), (s.port p).link = true ∧ s.sys.fwState.toNat < 3) ∧
    (∃ (s : State) (p : Port), s.sys.fwState = 4) ∧
    (∃ (s : State) (p : Port) (n m : Nat) (bs : List Byte) (w : W32) (b : Bool) (i : SlotId) (d : PdId) (e : EthId) (st : StationId) (ax : AxisId) (v : CamId)
      (pl : PipeId) (r : MirId) (q : PartId) (c : Instr), s.reached p = false ∧ c ∈ [Instr.poisonedTlpWrite p, .bar0BadAccess p n m, .bar2Read p n m, .bar2Write p n bs, .mbxSlotWrite p i n bs, .mbxRing p w, .mbxDoneClear p w, .domainOn p d, .domainOff p d, .energyLowRead p, .tbNowRead p, .tbRateOp p, .tbStepOp p b, .netPortEnable p e, .netPortDisable p e, .netTxProducerWrite p e b w, .netRxProducerWrite p e w, .stationLoad p st, .stationDisable p st, .axisLoad p ax, .axisDisable p ax, .axisTrip p ax, .faultLatchClear p, .cameraLoad p v, .cameraDisable p v, .cciTransaction p v w, .bindingLoad p n, .bindingClear p n, .firLoad p n, .pipelineLoad p pl, .pipelineStop p pl, .mirrorEnable p r b, .measurementStart p q n, .stickyClear p n w]) :=
  ⟨⟨up, .a, .pcieHotReset .a, (by decide +kernel)⟩,
   ⟨up, .b, (by dsimp only; decide +kernel)⟩,
   ⟨State.reset, .b, (by dsimp only; decide +kernel)⟩,
   ⟨State.reset, .a, (by decide +kernel)⟩,
   ⟨{ up with ports := .replicate 2 { link := true } }, .a, (by decide +kernel)⟩,
   ⟨{ up with ports := .replicate 2 { link := true } }, .a, (by decide +kernel)⟩,
   ⟨{ up with sys := { up.sys with fwState := 2 } }, .a, (by decide +kernel)⟩,
   ⟨{ up with sys := { up.sys with fwState := 4 } }, .b, (by decide +kernel)⟩,
   ⟨State.reset, .a, 0, 0, [], 0, false, 0, 0, 0, 0, 0, 0, 0, 0, 0, .poisonedTlpWrite .a, by decide +kernel, List.Mem.head _⟩⟩

/-- What the clauses of PartOpenGivesTheResources ask of a state and operands can be met. -/
theorem wit_PartOpenGivesTheResources :
    (∃ (s : State) (p : Port) (i : SlotId) (q : PartId), Asks s p i 0x10 .nothing ∧ (s.slot p i).part = q.val ∧ s.openBad (s.slot p i) = [] ∧ 
    let m := (s.slot p i).openCores
    let fenced := ∃ n : CoreId, m.getLsbD n.val = true ∧ s.clusFenced (clusOfCore n) = true
    fenced) ∧
    (∃ (s : State) (p : Port) (i : SlotId) (q : PartId), Asks s p i 0x10 .nothing ∧ (s.slot p i).part = q.val ∧ s.openBad (s.slot p i) = [] ∧ 
    let m := (s.slot p i).openCores
    let g := (s.slot p i).openGrants
    let borrow := (s.slot p i).pay 21 1 % 2 == 1
    let taken := ∃ o : PartId, o ≠ q ∧ s.parts[o].isOpen = true ∧ ¬ (borrow = true ∧ s.parts[o].state = .saved) ∧ s.parts[o].clashes m g = true
    let fenced := ∃ n : CoreId, m.getLsbD n.val = true ∧ s.clusFenced (clusOfCore n) = true
    let checker := ∃ n : CoreId, m.getLsbD n.val = true ∧ s.isChecker (clusOfCore n) = true
    ¬ fenced ∧ (taken ∨ checker)) ∧
    (∃ (s : State) (p : Port) (i : SlotId) (q : PartId), Asks s p i 0x10 .nothing ∧ (s.slot p i).part = q.val ∧ s.openBad (s.slot p i) = [] ∧ 
    let m := (s.slot p i).openCores
    let g := (s.slot p i).openGrants
    let borrow := (s.slot p i).pay 21 1 % 2 == 1
    let taken := ∃ o : PartId, o ≠ q ∧ s.parts[o].isOpen = true ∧ ¬ (borrow = true ∧ s.parts[o].state = .saved) ∧ s.parts[o].clashes m g = true
    let fenced := ∃ n : CoreId, m.getLsbD n.val = true ∧ s.clusFenced (clusOfCore n) = true
    let checker := ∃ n : CoreId, m.getLsbD n.val = true ∧ s.isChecker (clusOfCore n) = true
    ¬ fenced ∧ ¬ taken ∧ ¬ checker) :=
  ⟨⟨asking ({ up with trb := { fenced := [⟨0, 1⟩] } } : State) 16 1 (leBytes 4 0xF0 ++ repByte 16 0 ++ [4] ++ repByte 11 0), .a, 0, 1, asks_of (by decide +kernel), by decide +kernel, by decide +kernel, 4, by decide +kernel⟩,
   ⟨asking up 16 1 (leBytes 4 0xF1 ++ repByte 16 0 ++ [4] ++ repByte 11 0), .a, 0, 1, asks_of (by decide +kernel), by decide +kernel, by decide +kernel, by dsimp only; decide +kernel⟩,
   ⟨asking up 16 1 (leBytes 4 0xF0 ++ repByte 2 0 ++ [0xFF] ++ repByte 13 0 ++ [8] ++ repByte 11 0), .a, 0, 1, asks_of (by decide +kernel), by decide +kernel, by decide +kernel, by dsimp only; decide +kernel⟩⟩

/-- What the clauses of PartitionsCloseResetAndAreAdopted ask of a state and operands can be met. -/
theorem wit_PartitionsCloseResetAndAreAdopted :
    (∃ (s : State) (p : Port) (i : SlotId) (q : PartId), Asks s p i 0x11 .owner ∧ (s.slot p i).part = q.val ∧ (∀ c ∈ s.cmds, c.part ≠ q) ∧ (∀ k : QueId, (s.queue q k).waiting = []) ∧ (∀ x ∈ s.ops, x.part ≠ q) ∧ (∀ v : CamId, (∀ j ∈ s.cams[v].jobs, j.part ≠ q) ∧ (s.cams[v].part ≠ q ∨ s.cams[v].cur = none)) ∧ (∀ k : PipeId, ∀ j ∈ s.pipes[k].writes, j.part ≠ q)) ∧
    (∃ (s : State) (q : PartId), s.parts[q].state = .orphaned ∧ s.parts[q].policyClose = true ∧ (∀ c ∈ s.cmds, c.part ≠ q) ∧ (∀ k : QueId, (s.queue q k).waiting = []) ∧ (∀ x ∈ s.ops, x.part ≠ q) ∧ (∀ v : CamId, (∀ j ∈ s.cams[v].jobs, j.part ≠ q) ∧ (s.cams[v].part ≠ q ∨ s.cams[v].cur = none)) ∧ (∀ k : PipeId, ∀ j ∈ s.pipes[k].writes, j.part ≠ q)) ∧
    (∃ (s : State) (p : Port) (i : SlotId) (q : PartId), Asks s p i 0x12 .owner ∧ (s.slot p i).part = q.val ∧ (∀ c ∈ s.cmds, c.part ≠ q)) ∧
    (∃ (s : State) (p : Port) (i : SlotId) (q : PartId), Asks s p i 0x13 .adopt ∧ (s.slot p i).part = q.val ∧ s.parts[q].policyClose = false) :=
  ⟨⟨asking up 17 0 ([]), .a, 0, 0, asks_of (by decide +kernel), (by decide +kernel)⟩,
   ⟨({ up with parts := (Vector.replicate 16 {}).set 0 { part0 with state := .orphaned, policyClose := true } } : State), 0, (by decide +kernel)⟩,
   ⟨asking up 18 0 ([]), .a, 0, 0, asks_of (by decide +kernel), (by decide +kernel)⟩,
   ⟨asking ({ up with parts := (Vector.replicate 16 {}).set 0 { part0 with state := .orphaned, policyClose := false } } : State) 19 0 ([]), .a, 0, 0, asks_of (by decide +kernel), (by decide +kernel)⟩⟩

/-- What the clauses of RingsRegister ask of a state and operands can be met. -/
theorem wit_RingsRegister :
    (∃ (s : State) (p : Port) (i : SlotId) (q : PartId) (k : QueId), Asks s p i 0x14 .owner ∧ (s.slot p i).part = q.val ∧ 
    let x := s.slot p i
    let ring : Ring := ⟨x.pay 2 1 == 1, x.pay 4 4, x.pay 8 8⟩
    nonzeroAt x.req 19 1 = [] ∧ nonzeroAt x.req 32 16 = [] ∧ x.pay 0 1 = k.val ∧ x.pay 1 1 ≤ 1 ∧ x.pay 2 1 ≤ 1 ∧ ringSizeOk ring.entries = true ∧ ring.base % 4096 = 0 ∧ (ring.host = true ∨ s.inMain ring.base (ring.entries * (if x.pay 1 1 = 1 then 32 else 64)) = true) ∧ x.pay 1 1 = 0 ∧ ((s.queue q k).cring = none ∨ ∀ c ∈ s.cmds, ¬ (c.part = q ∧ c.que = k ∧ c.life = .waiting))) ∧
    (∃ (s : State) (p : Port) (i : SlotId) (q : PartId) (k : QueId), Asks s p i 0x14 .owner ∧ (s.slot p i).part = q.val ∧ 
    let x := s.slot p i
    let ring : Ring := ⟨x.pay 2 1 == 1, x.pay 4 4, x.pay 8 8⟩
    nonzeroAt x.req 19 1 = [] ∧ nonzeroAt x.req 32 16 = [] ∧ x.pay 0 1 = k.val ∧ x.pay 1 1 ≤ 1 ∧ x.pay 2 1 ≤ 1 ∧ ringSizeOk ring.entries = true ∧ ring.base % 4096 = 0 ∧ (ring.host = true ∨ s.inMain ring.base (ring.entries * (if x.pay 1 1 = 1 then 32 else 64)) = true) ∧ x.pay 1 1 = 1 ∧ ((s.queue q k).rring = none ∨ (s.queue q k).waiting = [])) ∧
    (∃ (s : State) (p : Port) (i : SlotId) (q : PartId) (k : QueId), Asks s p i 0x14 .owner ∧ (s.slot p i).part = q.val ∧ 
    let x := s.slot p i
    let ring : Ring := ⟨x.pay 2 1 == 1, x.pay 4 4, x.pay 8 8⟩
    nonzeroAt x.req 19 1 = [] ∧ nonzeroAt x.req 32 16 = [] ∧ x.pay 0 1 = k.val ∧ x.pay 1 1 ≤ 1 ∧ x.pay 2 1 ≤ 1 ∧ ringSizeOk ring.entries = true ∧ ring.base % 4096 = 0 ∧ (ring.host = true ∨ s.inMain ring.base (ring.entries * (if x.pay 1 1 = 1 then 32 else 64)) = true) ∧ ((x.pay 1 1 = 1 ∧ (s.queue q k).rring ≠ none ∧ (s.queue q k).waiting ≠ []) ∨ (x.pay 1 1 = 0 ∧ (s.queue q k).cring ≠ none ∧ ∃ c ∈ s.cmds, c.part = q ∧ c.que = k ∧ c.life = .waiting))) :=
  ⟨⟨asking up 20 0 ([0, 0, 0, 0] ++ leBytes 4 64 ++ leBytes 8 0x10000 ++ repByte 16 0), .a, 0, 0, 0, asks_of (by decide +kernel), (by dsimp only; decide +kernel)⟩,
   ⟨asking up 20 0 ([0, 1, 0, 0] ++ leBytes 4 65536 ++ leBytes 8 0x10000 ++ repByte 16 0), .a, 0, 0, 0, asks_of (by decide +kernel), (by dsimp only; decide +kernel)⟩,
   ⟨asking (up.setQueue 0 0 { rring := some ⟨false, 64, 0x20000⟩, waiting := [record0] }) 20 0 ([0, 1, 0, 0] ++ leBytes 4 64 ++ leBytes 8 0x10000 ++ repByte 16 0), .a, 0, 0, 0, asks_of (by decide +kernel), (by dsimp only; decide +kernel)⟩⟩

/-- What the clauses of RegionsAndWindowsComeAndGo ask of a state and operands can be met. -/
theorem wit_RegionsAndWindowsComeAndGo :
    (∃ (s : State) (p : Port) (i : SlotId) (id loc : Nat), Asks s p i 0x20 .owner ∧ (s.slot p i).part ≠ 0xFFFF ∧ nonzeroAt (s.slot p i).req 34 6 = [] ∧ (s.slot p i).pay 0 8 % 65536 = 0 ∧ spanBad (s.slot p i) = [] ∧ (s.slot p i).pay 16 1 ≤ 2 ∧ firstId (s.regions.map (·.id)) = some id ∧ (firstFit cisternBase windowBase (s.regions.map fun r => (r.loc, r.len)) ((s.slot p i).pay 8 8) = some loc)) ∧
    (∃ (s : State) (p : Port) (i : SlotId) (id loc : Nat), Asks s p i 0x20 .any ∧ (s.slot p i).part = 0xFFFF ∧ nonzeroAt (s.slot p i).req 34 6 = [] ∧ (s.slot p i).pay 0 8 % 65536 = 0 ∧ spanBad (s.slot p i) = [] ∧ (s.slot p i).pay 16 1 = 0 ∧ firstId (s.regions.map (·.id)) = some id ∧ (firstFit cisternBase windowBase (s.regions.map fun r => (r.loc, r.len)) ((s.slot p i).pay 8 8) = some loc)) ∧
    (∃ (s : State) (p : Port) (i : SlotId) (r : Region), Asks s p i 0x21 .owner ∧ (s.slot p i).part ≠ 0xFFFF ∧ nonzeroAt (s.slot p i).req 18 6 = [] ∧ (s.slot p i).pay 1 1 ≤ 1 ∧ s.regions = [r] ∧ r.id = (s.slot p i).pay 0 1 ∧ r.port = p ∧ r.part = some (s.slot p i).partId ∧ r.draining = false ∧ s.ops = [] ∧ s.cmds = [] ∧ s.spills = [] ∧ s.returns = []) ∧
    (∃ (s : State) (p : Port) (i : SlotId) (r : Region), Asks s p i 0x21 .any ∧ (s.slot p i).part = 0xFFFF ∧ nonzeroAt (s.slot p i).req 18 6 = [] ∧ (s.slot p i).pay 1 1 ≤ 1 ∧ s.regions = [r] ∧ r.id = (s.slot p i).pay 0 1 ∧ r.port = p ∧ r.part = none ∧ r.draining = false ∧ s.ops = [] ∧ s.cmds = [] ∧ s.spills = [] ∧ s.returns = []) ∧
    (∃ (s : State) (p : Port) (i : SlotId) (id loc : Nat), Asks s p i 0x22 .owner ∧ nonzeroAt (s.slot p i).req 21 3 = [] ∧ nonzeroAt (s.slot p i).req 34 14 = [] ∧ (s.slot p i).pay 0 5 % 65536 = 0 ∧ spanBad (s.slot p i) = [] ∧ (s.slot p i).pay 16 1 ≤ 1 ∧ s.sph.link = 2 ∧ s.sph.partnerKnown = true ∧ ((s.sph.role = 0 ∧ s.sph.partnerRole = 1) ∨ (s.sph.role = 2 ∧ s.sph.partnerRole = 2)) ∧ firstId (s.windows.map (·.id)) = some id ∧ (firstFit windowBase 0x10000000000 (s.windows.map fun w => (w.loc, w.len)) ((s.slot p i).pay 8 8) = some loc)) ∧
    (∃ (s : State) (p : Port) (i : SlotId) (maps : Bool), Asks s p i 0x22 .owner ∧ nonzeroAt (s.slot p i).req 21 3 = [] ∧ nonzeroAt (s.slot p i).req 34 14 = [] ∧ (s.slot p i).pay 0 5 % 65536 = 0 ∧ spanBad (s.slot p i) = [] ∧ (s.slot p i).pay 16 1 ≤ 1 ∧ s.sph.link = 2 ∧ (maps = false ∨ ¬ (s.sph.partnerKnown = true ∧ ((s.sph.role = 0 ∧ s.sph.partnerRole = 1) ∨ (s.sph.role = 2 ∧ s.sph.partnerRole = 2))))) ∧
    (∃ (s : State) (p : Port) (i : SlotId) (w : Window), Asks s p i 0x23 .owner ∧ nonzeroAt (s.slot p i).req 18 6 = [] ∧ (s.slot p i).pay 1 1 ≤ 1 ∧ s.windows = [w] ∧ w.id = (s.slot p i).pay 0 1 ∧ w.part = (s.slot p i).partId ∧ w.draining = false ∧ s.ops = [] ∧ s.cmds = []) :=
  ⟨⟨asking up 32 0 (leBytes 8 0x10000 ++ leBytes 8 0x10000 ++ [2, 3] ++ repByte 6 0), .a, 0, 0, cisternBase, asks_of (by decide +kernel), (by decide +kernel)⟩,
   ⟨asking up 32 0xFFFF (leBytes 8 0x10000 ++ leBytes 8 0x10000 ++ [0, 3] ++ repByte 6 0), .a, 0, 0, cisternBase, asks_of (by decide +kernel), (by decide +kernel)⟩,
   ⟨asking ({ up with regions := [region0] } : State) 33 0 ([0, 1] ++ repByte 6 0), .a, 0, region0, asks_of (by decide +kernel), (by decide +kernel)⟩,
   ⟨asking ({ up with regions := [{ region0 with part := none }] } : State) 33 0xFFFF ([0, 1] ++ repByte 6 0), .a, 0, { region0 with part := none }, asks_of (by decide +kernel), (by decide +kernel)⟩,
   ⟨asking ({ up with sph := { link := 2, role := 0, partnerRole := 1, partnerKnown := true } } : State) 34 0 (leBytes 8 0x10000 ++ leBytes 8 0x100000000 ++ [1, 3] ++ repByte 14 0), .a, 0, 0, windowBase, asks_of (by decide +kernel), (by decide +kernel)⟩,
   ⟨asking ({ up with sph := { link := 2, role := 0, partnerRole := 1, partnerKnown := true } } : State) 34 0 (leBytes 8 0x10000 ++ leBytes 8 0x100000000 ++ [1, 3] ++ repByte 14 0), .a, 0, false, asks_of (by decide +kernel), (by decide +kernel)⟩,
   ⟨asking ({ linked with windows := [window0] } : State) 35 0 ([0, 0] ++ repByte 6 0), .a, 0, window0, asks_of (by decide +kernel), (by decide +kernel)⟩⟩

/-- What the clauses of FencingTakesUnitsOut ask of a state and operands can be met. -/
theorem wit_FencingTakesUnitsOut :
    (∃ (s : State) (p : Port) (i : SlotId) (k n : Nat), Asks s p i 0x30 .any ∧ (s.slot p i).unitKind = k ∧ (s.slot p i).unitIndex = n ∧ s.unitBad (s.slot p i) 0x30 = [] ∧ k = 0 ∧ s.isFenced 0 n = false ∧ (s.pairs[pairOfClus (Fin.ofNat 8 n)]).busy = false ∧ (∀ c ∈ s.cmds, ¬ (c.onClus (Fin.ofNat 8 n) = true ∧ (c.life = .issued ∨ c.life = .started)))) ∧
    (∃ (s : State) (p : Port) (i : SlotId) (k n : Nat), Asks s p i 0x30 .any ∧ (s.slot p i).unitKind = k ∧ (s.slot p i).unitIndex = n ∧ s.unitBad (s.slot p i) 0x30 = [] ∧ k = 0 ∧ s.isFenced 0 n = false ∧ (s.pairs[pairOfClus (Fin.ofNat 8 n)]).busy = false ∧ (∃ c ∈ s.cmds, c.onClus (Fin.ofNat 8 n) = true ∧ (c.life = .issued ∨ c.life = .started))) ∧
    (∃ (s : State) (p : Port) (i : SlotId) (k n : Nat), Asks s p i 0x30 .any ∧ (s.slot p i).unitKind = k ∧ (s.slot p i).unitIndex = n ∧ s.unitBad (s.slot p i) 0x30 = [] ∧ k = 0 ∧ s.isFenced 0 n = false ∧ (s.pairs[pairOfClus (Fin.ofNat 8 n)]).busy = true) ∧
    (∃ (s : State) (p : Port) (i : SlotId) (k n : Nat), Asks s p i 0x30 .any ∧ (s.slot p i).unitKind = k ∧ (s.slot p i).unitIndex = n ∧ s.unitBad (s.slot p i) 0x30 = [] ∧ k = 1 ∧ s.fence = none ∧ ({ s with fence := some ⟨Fin.ofNat 16 n, .on, 0⟩ } : State).topBusy = false) ∧
    (∃ (s : State) (p : Port) (i : SlotId) (k n : Nat), Asks s p i 0x30 .any ∧ (s.slot p i).unitKind = k ∧ (s.slot p i).unitIndex = n ∧ s.unitBad (s.slot p i) 0x30 = [] ∧ 2 ≤ k ∧ k ≤ 4 ∧ s.isFenced k n = false) ∧
    (∃ (s : State) (p : Port) (i : SlotId) (k n : Nat), Asks s p i 0x30 .any ∧ (s.slot p i).unitKind = k ∧ (s.slot p i).unitIndex = n ∧ s.unitBad (s.slot p i) 0x30 = [] ∧ k = 5 ∧ s.isFenced 5 n = false ∧ s.loadOf (.fle (Fin.ofNat 2 n)) = 0) ∧
    (∃ (s : State) (p : Port) (i : SlotId) (k n : Nat), Asks s p i 0x30 .any ∧ (s.slot p i).unitKind = k ∧ (s.slot p i).unitIndex = n ∧ s.unitBad (s.slot p i) 0x30 = [] ∧ k = 6 ∧ s.isFenced 6 n = false) ∧
    (∃ (s : State) (p : Port) (i : SlotId) (k n : Nat), Asks s p i 0x30 .any ∧ (s.slot p i).unitKind = k ∧ (s.slot p i).unitIndex = n ∧ s.unitBad (s.slot p i) 0x30 = [] ∧ k = 7 ∧ s.isFenced 7 n = false ∧ (∀ a : AxisId, (dieOfAxis a).val = n → s.axes[a].state = .off ∨ s.axes[a].state = .notReady)) ∧
    (∃ (s : State) (f : PkgFence), s.fence = some f ∧ f.state = .evacuating) ∧
    (∃ (s : State) (f : PkgFence), s.fence = some f ∧ f.state = .restoring) ∧
    (∃ (s : State), (∀ f, s.fence = some f → f.state ≠ .evacuating ∧ f.state ≠ .restoring)) :=
  ⟨⟨asking up 48 0xFFFF ([0, 7] ++ repByte 6 0), .a, 0, 0, 7, asks_of (by decide +kernel), (by decide +kernel)⟩,
   ⟨asking (running up (cmdOf .wait 1 [])) 48 0xFFFF ([0, 0] ++ repByte 6 0), .a, 0, 0, 0, asks_of (by decide +kernel), (by decide +kernel)⟩,
   ⟨asking (up.setPair 1 { state := .testing }) 48 0xFFFF ([0, 1] ++ repByte 6 0), .a, 0, 0, 1, asks_of (by decide +kernel), (by decide +kernel)⟩,
   ⟨asking up 48 0xFFFF ([1, 15] ++ repByte 6 0), .a, 0, 1, 15, asks_of (by decide +kernel), (by decide +kernel)⟩,
   ⟨asking up 48 0xFFFF ([4, 1] ++ repByte 6 0), .a, 0, 4, 1, asks_of (by decide +kernel), (by decide +kernel)⟩,
   ⟨asking up 48 0xFFFF ([5, 1] ++ repByte 6 0), .a, 0, 5, 1, asks_of (by decide +kernel), (by decide +kernel)⟩,
   ⟨asking up 48 0xFFFF ([6, 0] ++ repByte 6 0), .a, 0, 6, 0, asks_of (by decide +kernel), (by decide +kernel)⟩,
   ⟨asking up 48 0xFFFF ([7, 1] ++ repByte 6 0), .a, 0, 7, 1, asks_of (by decide +kernel), (by decide +kernel)⟩,
   ⟨{ up with fence := some ⟨15, .evacuating, 0⟩ }, ⟨15, .evacuating, 0⟩, (by decide +kernel)⟩,
   ⟨{ up with fence := some ⟨15, .restoring, 0⟩ }, ⟨15, .restoring, 0⟩, (by decide +kernel)⟩,
   ⟨up, fun f h => by cases h⟩⟩

/-- What the clauses of UnitsAreTestedReturnedAndReset ask of a state and operands can be met. -/
theorem wit_UnitsAreTestedReturnedAndReset :
    (∃ (s : State) (p : Port) (i : SlotId) (us : Nat), ((s.slot p i).unitKind ≠ 1 ∧ Asks s p i 0x31 .any ∧ s.unitBad (s.slot p i) 0x31 = [] ∨ (s.slot p i).unitKind = 1 ∧ s.mailRuns p i 0x31 = true ∧ (s.slot p i).started = true ∧ (s.slot p i).orphaned = false) ∧ s.mayTest (s.slot p i).unitKind (s.slot p i).unitIndex = true) ∧
    (∃ (s : State) (p : Port) (i : SlotId) (us : Nat) (r : Option (Nat × Nat)) (f : PkgFence), Asks s p i 0x31 .any ∧ s.unitBad (s.slot p i) 0x31 = [] ∧ (s.slot p i).unitKind = 1 ∧ s.fence = some f ∧ f.pkg.val = (s.slot p i).unitIndex ∧ f.state = .fenced) ∧
    (∃ (s : State) (p : Port) (i : SlotId), Asks s p i 0x32 .any ∧ s.unitBad (s.slot p i) 0x32 = [] ∧ (s.slot p i).unitKind ≠ 1 ∧ s.isFenced (s.slot p i).unitKind (s.slot p i).unitIndex = true) ∧
    (∃ (s : State) (p : Port) (i : SlotId) (f : PkgFence), Asks s p i 0x32 .any ∧ s.unitBad (s.slot p i) 0x32 = [] ∧ (s.slot p i).unitKind = 1 ∧ s.fence = some f ∧ f.pkg.val = (s.slot p i).unitIndex ∧ f.state = .fenced) ∧
    (∃ (s : State) (p : Port) (i : SlotId), Asks s p i 0x33 .any ∧ s.engineBad (s.slot p i) = []) :=
  ⟨⟨asking ({ up with trb := { fenced := [⟨0, 1⟩] } } : State) 49 0xFFFF ([0, 1] ++ repByte 6 0), .a, 0, 5, .inl ⟨by decide +kernel, asks_of (by decide +kernel), by decide +kernel⟩, by decide +kernel⟩,
   ⟨asking ({ up with fence := some ⟨15, .fenced, 0⟩, trb := { fenced := [⟨1, 15⟩] } } : State) 49 0xFFFF ([1, 15, 63] ++ repByte 5 0), .a, 0, 5, none, ⟨15, .fenced, 0⟩, asks_of (by decide +kernel), (by decide +kernel)⟩,
   ⟨asking ({ up with trb := { fenced := [⟨2, 5⟩] } } : State) 50 0xFFFF ([2, 5] ++ repByte 6 0), .a, 0, asks_of (by decide +kernel), (by decide +kernel)⟩,
   ⟨asking ({ up with fence := some ⟨15, .fenced, 0⟩, trb := { fenced := [⟨1, 15⟩] } } : State) 50 0xFFFF ([1, 15] ++ repByte 6 0), .a, 0, ⟨15, .fenced, 0⟩, asks_of (by decide +kernel), (by decide +kernel)⟩,
   ⟨asking up 51 0xFFFF ([0, 31] ++ repByte 6 0), .a, 0, asks_of (by decide +kernel), (by decide +kernel)⟩⟩

/-- What the clauses of ImagesAreStagedVerifiedAndWritten ask of a state and operands can be met. -/
theorem wit_ImagesAreStagedVerifiedAndWritten :
    (∃ (s : State) (p : Port) (i : SlotId), Asks s p i 0x40 .any ∧ imageBad (s.slot p i) 2 = [] ∧ s.trb.stagedPort ≠ some p.other) ∧
    (∃ (s : State) (p : Port) (i : SlotId), Asks s p i 0x41 .any ∧ s.trb.stagedPort ≠ some p.other) ∧
    (∃ (s : State) (p : Port) (i : SlotId) (ms : Nat) (b : Bool), Asks s p i 0x42 .any ∧ s.trb.stagedPort ≠ some p.other ∧ s.trb.verified = true ∧ s.flashNewer ((s.trb.staged.image).getD []) = false) ∧
    (∃ (s : State) (p : Port) (i : SlotId) (ms : Nat) (img : List Byte), s.mailRuns p i 0x42 = true ∧ (s.slot p i).started = true ∧ (s.slot p i).orphaned = false ∧ s.trb.commit = some img) ∧
    (∃ (s : State) (p : Port) (i : SlotId), s.mailRuns p i 0x43 = true ∧ (s.slot p i).started = false ∧ (s.slot p i).orphaned = false ∧ s.sys.fwState = 1 ∧ s.mailBad p (s.slot p i) .any (imageBad (s.slot p i) 1) = none ∧ (s.slot p i).pay 6 1 = 0) ∧
    (∃ (s : State) (p : Port) (i : SlotId), s.mailRuns p i 0x43 = true ∧ (s.slot p i).started = false ∧ (s.slot p i).orphaned = false ∧ s.sys.fwState = 1 ∧ s.mailBad p (s.slot p i) .any (imageBad (s.slot p i) 1) = none ∧ (s.slot p i).pay 6 1 = 1) :=
  ⟨⟨asking up 64 0xFFFF (leBytes 4 2096672 ++ leBytes 2 480 ++ [2] ++ repByte 9 0 ++ repByte 480 5), .a, 0, asks_of (by decide +kernel), (by decide +kernel)⟩,
   ⟨asking up 65 0xFFFF ([]), .a, 0, asks_of (by decide +kernel), (by decide +kernel)⟩,
   ⟨asking ({ up with trb := { verified := true, stagedPort := some .a, flash := some [] } } : State) 66 0xFFFF ([]), .a, 0, 5, true, asks_of (by decide +kernel), (by decide +kernel)⟩,
   ⟨{ up.setSlot .a 0 { slotOf 0x42 0xFFFF [] with started := true } with reqs := [(.a, 0)], trb := { commit := some [1], flash := some [] } }, .a, 0, 5, [1], (by decide +kernel)⟩,
   ⟨asking ({ up with sys := { up.sys with fwState := 1 } } : State) 67 0xFFFF (leBytes 4 0 ++ leBytes 2 1 ++ [0] ++ repByte 9 0 ++ repByte 1 5), .a, 0, (by decide +kernel)⟩,
   ⟨asking ({ up with sys := { up.sys with fwState := 1 } } : State) 67 0xFFFF (leBytes 4 0 ++ leBytes 2 1 ++ [1] ++ repByte 9 0 ++ repByte 1 5), .a, 0, (by decide +kernel)⟩⟩

/-- What the clauses of AttestationReportsTheModule ask of a state and operands can be met. -/
theorem wit_AttestationReportsTheModule :
    (∃ (s : State) (p : Port) (i : SlotId), Asks s p i 0x45 .any ∧ nonzeroAt (s.slot p i).req 20 4 = [] ∧ (s.slot p i).pay 0 4 < 3112) ∧
    (∃ (s : State) (p : Port) (i : SlotId) (e : LogEntry) (rest : List LogEntry), Asks s p i 0x46 .any ∧ nonzeroAt (s.slot p i).req 20 4 = [] ∧ s.trb.log.reverse = e :: rest) ∧
    (∃ (s : State) (p : Port) (i : SlotId), Asks s p i 0x44 .any ∧ nonzeroAt (s.slot p i).req 53 3 = [] ∧ (s.slot p i).pay 32 5 % 64 = 0 ∧ s.inMain ((s.slot p i).pay 32 5) 1920 = true ∧ s.trb.identityOk = false) ∧
    (∃ (s : State) (p : Port) (i : SlotId), Asks s p i 0x44 .any ∧ nonzeroAt (s.slot p i).req 53 3 = [] ∧ (s.slot p i).pay 32 5 % 64 = 0 ∧ s.inMain ((s.slot p i).pay 32 5) 1920 = true ∧ s.trb.identityOk = true) ∧
    (∃ (s : State) (p : Port) (q : PartId) (n : Nat), s.reached p = true ∧ s.owns p q = true ∧ s.parts[q].meas.state ≠ 1) ∧
    (∃ (s : State) (p : Port) (q : PartId) (n : Nat), s.owns p q = true ∧ s.parts[q].meas.state = 1) ∧
    (∃ (s : State) (p : Port) (q : PartId) (n : Nat), s.reached p = true ∧ s.owns p q = false) ∧
    (∃ (s : State) (q : PartId), s.parts[q].meas.state ≠ 1) ∧
    (∃ (s : State) (q : PartId), s.parts[q].meas.state = 1) :=
  ⟨⟨asking up 69 0xFFFF (leBytes 4 3111 ++ repByte 4 0), .a, 0, asks_of (by decide +kernel), (by decide +kernel)⟩,
   ⟨asking ({ up with trb := { log := [⟨9, 1, 2, 3, 0, []⟩, ⟨8, 0, 1, 2, 0, []⟩] } } : State) 70 0xFFFF (repByte 8 0), .a, 0, ⟨8, 0, 1, 2, 0, []⟩, [⟨9, 1, 2, 3, 0, []⟩], asks_of (by decide +kernel), (by decide +kernel)⟩,
   ⟨asking up 68 0xFFFF (repByte 32 1 ++ leBytes 8 0x1000), .a, 0, asks_of (by decide +kernel), (by decide +kernel)⟩,
   ⟨asking ({ up with trb := { identityOk := true } } : State) 68 0xFFFF (repByte 32 1 ++ leBytes 8 0x1000), .a, 0, asks_of (by decide +kernel), (by decide +kernel)⟩,
   ⟨up, .a, 0, 4096, (by decide +kernel)⟩,
   ⟨{ up with parts := (Vector.replicate 16 {}).set 0 { part0 with meas := { state := 1 } } }, .a, 0, 1, (by decide +kernel)⟩,
   ⟨up, .b, 0, 1, (by decide +kernel)⟩,
   ⟨up, 0, (by decide +kernel)⟩,
   ⟨{ up with parts := (Vector.replicate 16 {}).set 0 { part0 with meas := { state := 1 } } }, 0, (by decide +kernel)⟩⟩

/-- What the clauses of BootReachesStateThree ask of a state and operands can be met. -/
theorem wit_BootReachesStateThree :
    (∃ (s : State) (fails : List Nat), s.sys.rails = .on ∧ s.sys.rstN = true ∧ s.sys.boot = .held ∧ fails.length ≤ 3 ∧ (∀ x ∈ fails, x = 3 ∨ x = 5)) ∧
    (∃ (s : State), s.sys.rails = .on ∧ s.sys.boot = .aligned) ∧
    (∃ (s : State), s.sys.rails = .on ∧ s.sys.boot = .booted ∧ s.sys.wdRestart = true ∧ s.sys.fwState = 0) ∧
    (∃ (s : State) (pufOk : Bool), s.sys.boot = .booted ∧ s.sys.fwState = 2 ∧ (s.sys.initDone = true ∨ s.sys.wdRestart = true)) ∧
    (∃ (s : State), s.sys.boot = .booted ∧ s.sys.fwState = 4) ∧
    (∃ (s : State), s.sys.rails = .on ∧ s.sys.boot = .booted ∧ 2 ≤ s.sys.fwState.toNat ∧ s.sys.initDone = false) ∧
    (∃ (s : State), ∃ fails : List Nat, (¬ (s.sys.rails = .on ∧ s.sys.rstN = true ∧ s.sys.boot = .held))) ∧
    (∃ (s : State), (¬ (s.sys.rails = .on ∧ (s.sys.boot = .aligned ∨ s.sys.boot = .booted ∧ s.sys.wdRestart = true ∧ s.sys.fwState = 0)))) ∧
    (∃ (s : State), ∃ pufOk : Bool, (¬ (s.sys.boot = .booted ∧ s.sys.fwState = 2 ∧ (s.sys.initDone = true ∨ s.sys.wdRestart = true)))) ∧
    (∃ (s : State), (¬ (s.sys.boot = .booted ∧ s.sys.fwState = 4))) ∧
    (∃ (s : State), (¬ (s.sys.rails = .on ∧ s.sys.boot = .booted ∧ 2 ≤ s.sys.fwState.toNat ∧ s.sys.initDone = false))) :=
  ⟨⟨{ State.reset with sys := { rstN := true } }, [3, 5, 3], (by decide +kernel)⟩,
   ⟨{ State.reset with sys := { rstN := true, clocked := true, boot := .aligned } }, (by decide +kernel)⟩,
   ⟨{ up with sys := { rstN := true, boot := .booted, wdRestart := true, fwState := 0 } }, (by decide +kernel)⟩,
   ⟨{ up with sys := { up.sys with fwState := 2 } }, true, (by decide +kernel)⟩,
   ⟨{ up with sys := { up.sys with fwState := 4 } }, (by decide +kernel)⟩,
   ⟨{ up with sys := { up.sys with fwState := 2, initDone := false } }, (by decide +kernel)⟩,
   ⟨up, [], (by decide +kernel)⟩,
   ⟨up, (by decide +kernel)⟩,
   ⟨up, true, (by decide +kernel)⟩,
   ⟨up, (by decide +kernel)⟩,
   ⟨up, (by decide +kernel)⟩⟩

/-- What the clauses of DeviceResetClearsTheModule ask of a state and operands can be met. -/
theorem wit_DeviceResetClearsTheModule :
    (∃ (s : State) (c : Instr) (p : Port) (i : SlotId), ((c = .deviceReset p i ∧ Asks s p i 5 .any) ∨ (c = .flr p ∧ (s.port p).link = true ∧ s.sys.fwState = 3 ∧ s.sys.boot = .booted) ∨ (c = .watchdogExpiry ∧ s.sys.boot = .booted ∧ 2 ≤ s.sys.fwState.toNat))) ∧
    (∃ (s : State) (p : Port), ((s.port p).link = false ∨ s.sys.fwState = 4)) ∧
    (∃ (s : State), (¬ (s.sys.boot = .booted ∧ 2 ≤ s.sys.fwState.toNat))) ∧
    (∃ (s : State) (p : Port) (i : SlotId), s.mailRuns p i 5 = false) :=
  ⟨⟨asking up 5 0xFFFF ([]), .deviceReset .a 0, .a, 0, .inl ⟨rfl, asks_of (by decide +kernel)⟩⟩,
   ⟨State.reset, .a, (by decide +kernel)⟩,
   ⟨State.reset, (by decide +kernel)⟩,
   ⟨up, .a, 0, (by decide +kernel)⟩⟩

/-- What the clauses of SensorsAndScrubbingReport ask of a state and operands can be met. -/
theorem wit_SensorsAndScrubbingReport :
    (∃ (s : State) (temps : List (Option Int)), s.pmRuns = true ∧ s.tempShutdown temps = false) ∧
    (∃ (s : State) (temps : List (Option Int)), s.pmRuns = true ∧ s.tempShutdown temps = true) ∧
    (∃ (s : State), s.sys.rails = .on) ∧
    (∃ (s : State) (temps : List (Option Int)), s.pmRuns = false) ∧
    (∃ (s : State), s.sys.rails ≠ .on) ∧
    (∃ (s : State) (p : Port), s.reached p = true) ∧
    (∃ (s : State) (p : PartId) (n : Nat) (h : Hint), h ∈ s.pm.hints ∧ h.part = p ∧ h.seq.toNat = n ∧ h.start ≤ s.now + 128000) ∧
    (∃ (s : State) (p : PartId) (n : Nat), (∀ h ∈ s.pm.hints, h.part = p → h.seq.toNat = n → h.active = true ∨ s.now + 128000 < h.start)) ∧
    (∃ (s : State) (p : PartId) (n : Nat), (∃ h ∈ s.pm.hints, h.part = p ∧ h.seq.toNat = n ∧ h.stop ≤ s.now)) ∧
    (∃ (s : State) (p : PartId) (n : Nat), (∀ h ∈ s.pm.hints, h.part = p → h.seq.toNat = n → s.now < h.stop)) ∧
    (∃ (s : State) (w : Nat), s.sys.initDone = true ∧ s.sys.eccOn = true ∧ 8 * w + 8 ≤ s.mainEnd) ∧
    (∃ (s : State) (w : Nat), (¬ (s.sys.initDone = true ∧ s.sys.eccOn = true ∧ 8 * w + 8 ≤ s.mainEnd))) ∧
    (∃ (s : State) (counts : List Nat), s.sys.boot ≠ .booted) ∧
    (∃ (s : State) (counts : List Nat), s.sys.boot = .booted) :=
  ⟨⟨up, List.replicate 24 (some 320), (by decide +kernel)⟩,
   ⟨up, List.replicate 24 (some 2000), (by decide +kernel)⟩,
   ⟨up, (by decide +kernel)⟩,
   ⟨State.reset, [], (by decide +kernel)⟩,
   ⟨{ up with sys := { rails := .off } }, (by decide +kernel)⟩,
   ⟨up, .a, (by decide +kernel)⟩,
   ⟨{ up with pm := { hints := [⟨0, 7, 1, 50, 1128000, 1000000, false⟩] } }, 0, 7, ⟨0, 7, 1, 50, 1128000, 1000000, false⟩, (by decide +kernel)⟩,
   ⟨{ up with pm := { hints := [⟨0, 7, 1, 50, 1128001, 1000001, false⟩] } }, 0, 7, (by decide +kernel)⟩,
   ⟨{ up with pm := { hints := [⟨0, 7, 1, 50, 1128000, 1000000, false⟩] } }, 0, 7, (by decide +kernel)⟩,
   ⟨{ up with pm := { hints := [⟨0, 7, 1, 50, 1128001, 1000001, false⟩] } }, 0, 7, (by decide +kernel)⟩,
   ⟨up, (224 * 2 ^ 30 - 8) / 8, (by decide +kernel)⟩,
   ⟨up, 2 ^ 40, (by decide +kernel)⟩,
   ⟨State.reset, [9], (by decide +kernel)⟩,
   ⟨up, List.replicate 64 9, (by decide +kernel)⟩⟩

/-- What the clauses of ControlStepsHoldTheCap ask of a state and operands can be met. -/
theorem wit_ControlStepsHoldTheCap :
    (∃ (s : State) (volts est : Nat) (m : Option Nat), s.pmRuns = true ∧ s.pm.sCap ≤ 12 ∧ (m = none ∨ ∃ w, m = some w ∧ w ≤ 40000 ∧ s.pm.diverged = false ∧ 5 * (w - est) ≤ capOf s.pm.mode ∧ 5 * (est - w) ≤ capOf s.pm.mode)) ∧
    (∃ (s : State) (i : Instr), s.pmRuns = true ∧ ((∃ m v e, i = .controlStep m v e) ∨ i = .thermalThrottleTick)) ∧
    (∃ (s : State), s.pmRuns = true) ∧
    (∃ (s : State) (volts est : Nat) (m : Option Nat), s.pmRuns = false) :=
  ⟨⟨up, 900, 20000, some 20000, by decide +kernel, by decide +kernel, .inr ⟨20000, by decide +kernel⟩⟩,
   ⟨up, .thermalThrottleTick, by decide +kernel, .inr rfl⟩,
   ⟨up, (by decide +kernel)⟩,
   ⟨State.reset, 5, 5, none, (by decide +kernel)⟩⟩

/-- What the clauses of DescriptorsAreFetchedInOrder ask of a state and operands can be met. -/
theorem wit_DescriptorsAreFetchedInOrder :
    (∃ (s : State) (p : PartId) (q : QueId) (ring : Ring), (s.queue p q).cring = some ring ∧ (s.queue p q).fetched ≠ (s.queue p q).prod ∧ s.parts[p].fetches = true ∧ ((s.cmds.filter fun c => c.part == p && c.que == q).length < 64) ∧ (s.queue p q).hasRoom = true) ∧
    (∃ (s : State) (p : PartId) (q : QueId) (ring : Ring), (s.queue p q).cring = some ring ∧ (s.queue p q).fetched ≠ (s.queue p q).prod ∧ s.parts[p].fetches = true ∧ ((s.cmds.filter fun c => c.part == p && c.que == q).length < 64) ∧ (s.queue p q).hasRoom = true ∧ 
    let n := (s.queue p q).fetched
    let bs := (s.ringRead p ring (64 * (n.toNat % ring.entries)) 64).1
    let desc := BitVec.ofNat 512 (leNat (plain bs))
    queueTakes (dfield desc 0 8) q = false ∧ (∀ m : CoreId, s.coreFenced p m = false)) ∧
    (∃ (s : State) (p : PartId) (q : QueId), ((s.queue p q).cring = none ∨ (s.queue p q).fetched = (s.queue p q).prod ∨ s.parts[p].fetches = false ∨ 64 ≤ (s.cmds.filter fun c => c.part == p && c.que == q).length ∨ (s.queue p q).hasRoom = false)) :=
  ⟨⟨(up.setQueue 0 0 { cring := some ⟨false, 64, 0x10000⟩, prod := 1 }), 0, 0, ⟨false, 64, 0x10000⟩, (by decide +kernel)⟩,
   ⟨holding (up.setQueue 0 0 { cring := some ⟨false, 64, 0x10000⟩, prod := 1 }) 0x10000 [0x22], 0, 0, ⟨false, 64, 0x10000⟩, by decide +kernel, by decide +kernel, by decide +kernel, by decide +kernel, by decide +kernel, by dsimp only; decide +kernel⟩,
   ⟨up, 0, 0, .inl (by decide +kernel)⟩⟩

/-- What the clauses of IssueFollowsDeadlines ask of a state and operands can be met. -/
theorem wit_IssueFollowsDeadlines :
    (∃ (s : State) (p : PartId) (c : Cmd) (u : Except NoUnit Place), s.nextIssue p = some (c, u)) ∧
    (∃ (s : State) (p : PartId) (c : Cmd) (u : Except NoUnit Place), s.nextIssue p = some (c, u) ∧ ∃ x ∈ s.cmds, x.part = p ∧ s.ready x ≠ none) ∧
    (∃ (s : State) (p : PartId) (x : Cmd), x ∈ s.cmds ∧ x.part = p ∧ s.ready x ≠ none) ∧
    (∃ (s : State) (p : PartId), p ∈ s.issuedNow) ∧
    (∃ (s : State) (p : PartId), (s.countHolds p).nextIssue p = none) ∧
    (∃ (s : State) (p : PartId) (c : Cmd) (u : Place), p ∉ s.issuedNow ∧ (s.countHolds p).nextIssue p = some (c, .ok u) ∧ (s.countHolds p).issueConds c u = []) ∧
    (∃ (s : State) (p : PartId) (c : Cmd) (u : Place), p ∉ s.issuedNow ∧ (s.countHolds p).nextIssue p = some (c, .ok u) ∧ (s.countHolds p).issueConds c u ≠ []) ∧
    (∃ (s : State) (p : PartId) (c : Cmd) (st : St) (lost : Bool), p ∉ s.issuedNow ∧ (s.countHolds p).nextIssue p = some (c, .error (st, lost))) :=
  ⟨⟨(running up { cmdOf .signalAdd 0x32 [] with life := .waiting, place := .none }), 0, { cmdOf .signalAdd 0x32 [] with life := .waiting, place := .none }, .ok .none, next_of (by decide +kernel)⟩,
   ⟨(running up { cmdOf .signalAdd 0x32 [] with life := .waiting, place := .none }), 0, { cmdOf .signalAdd 0x32 [] with life := .waiting, place := .none }, .ok .none, next_of (by decide +kernel), { cmdOf .signalAdd 0x32 [] with life := .waiting, place := .none }, by decide +kernel⟩,
   ⟨(running up { cmdOf .signalAdd 0x32 [] with life := .waiting, place := .none }), 0, { cmdOf .signalAdd 0x32 [] with life := .waiting, place := .none }, (by decide +kernel)⟩,
   ⟨{ up with issuedNow := [0] }, 0, (by decide +kernel)⟩,
   ⟨up, 0, (by decide +kernel)⟩,
   ⟨(running up { cmdOf .signalAdd 0x32 [] with life := .waiting, place := .none }), 0, { cmdOf .signalAdd 0x32 [] with life := .waiting, place := .none }, .none, by decide +kernel, next_of (by decide +kernel), by decide +kernel⟩,
   ⟨(running up { cmdF .signalAdd 0x32 [] with desc := BitVec.ofNat 512 (0x32 + 2 ^ 33), life := .waiting, place := .none }), 0, { cmdF .signalAdd 0x32 [] with desc := BitVec.ofNat 512 (0x32 + 2 ^ 33), life := .waiting, place := .none }, .none, by decide +kernel, next_of (by decide +kernel), by decide +kernel⟩,
   ⟨({ running up ({ cmdOf .gemm 1 [] with life := .waiting, place := .none }) with trb := { fenced := [⟨0, 0⟩] } } : State), 0, { cmdOf .gemm 1 [] with life := .waiting, place := .none }, .fenced, false, (by decide +kernel), nextErr_of (by decide +kernel)⟩⟩

/-- What the clauses of CommandsEndWithOneStatus ask of a state and operands can be met. -/
theorem wit_CommandsEndWithOneStatus :
    (∃ (s : State) (p : PartId) (q : QueId) (n d : Nat) (c : Cmd), s.findCmd p q n = some c ∧ s.deadlineOf c = some d ∧ c.life = .waiting ∧ c.lateDrop = true ∧ d < s.now) ∧
    (∃ (s : State) (p : PartId) (q : QueId) (n x : Nat) (c : Cmd), s.findCmd p q n = some c ∧ c.launch = some x ∧ c.life = .issued ∧ c.place ≠ .none ∧ s.mayRun c = true) ∧
    (∃ (s : State) (p : PartId) (q : QueId) (n : Nat) (c : Cmd), s.findCmd p q n = some c ∧ (c.life = .issued ∨ c.life = .started) ∧ s.opsOver c = true ∧ c.stop = some .save) ∧
    (∃ (s : State) (p : PartId) (q : QueId) (n : Nat) (c : Cmd), s.findCmd p q n = some c ∧ (c.life = .issued ∨ c.life = .started) ∧ s.opsOver c = true ∧ c.stop = some .pair) ∧
    (∃ (s : State) (p : PartId) (q : QueId) (n : Nat) (c : Cmd), s.findCmd p q n = some c ∧ (c.life = .issued ∨ c.life = .started) ∧ s.opsOver c = true ∧ c.stop = some .reset) ∧
    (∃ (s : State) (p : PartId) (q : QueId) (n : Nat) (c : Cmd), s.findCmd p q n = some c ∧ (c.life = .issued ∨ c.life = .started) ∧ s.opsOver c = true ∧ c.stop = some .fence) ∧
    (∃ (s : State) (p : PartId) (q : QueId) (n : Nat) (c : Cmd), s.findCmd p q n = some c ∧ c.life = .ran ∧ s.opsOver c = true ∧ c.kind.isStreamCtl = false ∧ c.kind.isStreamStep = false ∧ c.kind.isAttnStep = false) ∧
    (∃ (s : State) (p : PartId) (q : QueId) (n : Nat) (c : Cmd), s.findCmd p q n = some c ∧ c.life = .ran ∧ s.opsOver c = true ∧ (c.kind.isStreamCtl = true ∨ c.kind.isStreamStep = true)) ∧
    (∃ (s : State) (p : PartId) (q : QueId) (n : Nat) (c : Cmd), s.findCmd p q n = some c ∧ c.life = .ran ∧ s.opsOver c = true ∧ c.kind.isAttnStep = true) ∧
    (∃ (s : State) (p : PartId) (q : QueId) (n : Nat), (∀ c, s.findCmd p q n = some c → c.life ≠ .waiting)) ∧
    (∃ (s : State) (p : PartId) (q : QueId) (n : Nat), (∀ c, s.findCmd p q n = some c → c.launch = none ∨ s.mayRun c = false)) ∧
    (∃ (s : State) (p : PartId) (q : QueId) (n : Nat), (∀ c, s.findCmd p q n = some c → c.stop = none ∨ s.opsOver c = false)) ∧
    (∃ (s : State) (p : PartId) (q : QueId) (n : Nat), (∀ c, s.findCmd p q n = some c → c.life ≠ .ran ∨ s.opsOver c = false)) :=
  ⟨⟨running up ({ cmdOf .wait (0x31 + 2 ^ 9) [] with life := .waiting, deadline := some 999999 }), 0, 0, 0, 999999, { cmdOf .wait (0x31 + 2 ^ 9) [] with life := .waiting, deadline := some 999999 }, (by decide +kernel)⟩,
   ⟨running up ({ cmdOf .wait 0x31 [] with launch := some 1000000 }), 0, 0, 0, 1000000, { cmdOf .wait 0x31 [] with launch := some 1000000 }, (by decide +kernel)⟩,
   ⟨running up ({ cmdOf .gemm 1 [] with stop := some .save, life := .started }), 0, 0, 0, { cmdOf .gemm 1 [] with stop := some .save, life := .started }, (by decide +kernel)⟩,
   ⟨running up ({ cmdOf .gemm 1 [] with stop := some .pair, life := .started }), 0, 0, 0, { cmdOf .gemm 1 [] with stop := some .pair, life := .started }, (by decide +kernel)⟩,
   ⟨running up ({ cmdOf .gemm 1 [] with stop := some .reset, life := .started }), 0, 0, 0, { cmdOf .gemm 1 [] with stop := some .reset, life := .started }, (by decide +kernel)⟩,
   ⟨running up ({ cmdOf .gemm 1 [] with stop := some .fence, life := .started }), 0, 0, 0, { cmdOf .gemm 1 [] with stop := some .fence, life := .started }, (by decide +kernel)⟩,
   ⟨running up ({ cmdOf .gemm 1 [] with life := .ran }), 0, 0, 0, { cmdOf .gemm 1 [] with life := .ran }, (by decide +kernel)⟩,
   ⟨running up ({ cmdOf .streamPause 10 [] with life := .ran }), 0, 0, 0, { cmdOf .streamPause 10 [] with life := .ran }, (by decide +kernel)⟩,
   ⟨running up ({ cmdOf .attnFinish 13 [] with life := .ran }), 0, 0, 0, { cmdOf .attnFinish 13 [] with life := .ran }, (by decide +kernel)⟩,
   ⟨up, 0, 0, 0, fun c h => by cases h⟩,
   ⟨up, 0, 0, 0, fun c h => by cases h⟩,
   ⟨up, 0, 0, 0, fun c h => by cases h⟩,
   ⟨up, 0, 0, 0, fun c h => by cases h⟩⟩

/-- What the clauses of FrontEndCommandsAct ask of a state and operands can be met. -/
theorem wit_FrontEndCommandsAct :
    (∃ (s : State) (p : PartId) (q : QueId) (n : Nat) (c : Cmd), Runs s p q n .hint c ∧ s.pm.hints.length < 16 ∧ ofield c.desc 8 16 ≠ 0 ∧ ofield c.desc 72 32 ≠ 0) ∧
    (∃ (s : State) (p : PartId) (q : QueId) (n : Nat) (c : Cmd), Runs s p q n .hint c ∧ 16 ≤ s.pm.hints.length ∧ ofield c.desc 8 16 ≠ 0 ∧ ofield c.desc 72 32 ≠ 0) ∧
    (∃ (s : State) (p : PartId) (q : QueId) (n : Nat) (c : Cmd), Runs s p q n .wait c ∧ s.waitOver c = true) ∧
    (∃ (s : State) (p : PartId) (q : QueId) (n : Nat) (c : Cmd), Runs s p q n .wait c ∧ s.waitOver c = false) ∧
    (∃ (s : State) (p : PartId) (q : QueId) (n : Nat) (c : Cmd), Runs s p q n .fence c ∧ s.fenceOver c = true) ∧
    (∃ (s : State) (p : PartId) (q : QueId) (n : Nat) (c : Cmd), Runs s p q n .fence c ∧ s.fenceOver c = false) ∧
    (∃ (s : State) (p : PartId) (q : QueId) (n : Nat) (c : Cmd), Runs s p q n .signalAdd c ∧ s.parts[c.sigPart].isOpen = true) ∧
    (∃ (s : State) (p : PartId) (q : QueId) (n : Nat) (c : Cmd), Runs s p q n .signalAdd c ∧ s.parts[c.sigPart].isOpen = false) ∧
    (∃ (s : State) (p : PartId) (q : QueId) (n : Nat) (c : Cmd), Runs s p q n .signalRemote c ∧ c.life = .issued ∧ s.sph.link = 2 ∧ s.sph.txDark = false) ∧
    (∃ (s : State) (p : PartId) (q : QueId) (n : Nat) (c : Cmd), Runs s p q n .signalRemote c ∧ c.life = .issued ∧ (s.sph.link ≠ 2 ∨ s.sph.txDark = true)) ∧
    (∃ (s : State) (p : PartId) (q : QueId) (n : Nat) (c : Cmd), Runs s p q n .signalRemote c ∧ c.life = .started) ∧
    (∃ (s : State) (p : PartId) (q : QueId) (n : Nat) (c : Cmd), Runs s p q n .signalWrite c ∧ 
    let a := movedAddr c.moved (ofield c.desc 48 40)
    s.reachMap.mapped a 8 = true ∧ s.mayWrite true c.adm a 8 = true) ∧
    (∃ (s : State) (p : PartId) (q : QueId) (n : Nat) (c : Cmd), Runs s p q n .signalWrite c ∧ 
    let a := movedAddr c.moved (ofield c.desc 48 40)
    a + 8 ≤ s.mainEnd) ∧
    (∃ (s : State) (p : PartId) (q : QueId) (n : Nat) (c : Cmd), Runs s p q n .signalWrite c ∧ 
    let a := movedAddr c.moved (ofield c.desc 48 40)
    (s.reachMap.mapped a 8 = false ∨ s.mayWrite true c.adm a 8 = false)) ∧
    (∃ (s : State) (p : PartId) (q : QueId) (n : Nat), (∀ c, ¬ Runs s p q n .hint c)) ∧
    (∃ (s : State) (p : PartId) (q : QueId) (n : Nat), (∀ c, ¬ Runs s p q n .wait c)) ∧
    (∃ (s : State) (p : PartId) (q : QueId) (n : Nat), (∀ c, ¬ Runs s p q n .fence c)) ∧
    (∃ (s : State) (p : PartId) (q : QueId) (n : Nat), (∀ c, ¬ Runs s p q n .signalAdd c)) ∧
    (∃ (s : State) (p : PartId) (q : QueId) (n : Nat), (∀ c, ¬ Runs s p q n .signalRemote c)) ∧
    (∃ (s : State) (p : PartId) (q : QueId) (n : Nat), (∀ c, ¬ Runs s p q n .signalWrite c)) :=
  ⟨⟨running up (cmdOf .hint 0x40 ([1, 5, 0] ++ leBytes 6 2000000 ++ leBytes 4 100)), 0, 0, 0, cmdOf .hint 0x40 ([1, 5, 0] ++ leBytes 6 2000000 ++ leBytes 4 100), runs_of (by decide +kernel), (by decide +kernel)⟩,
   ⟨running ({ up with pm := { hints := List.replicate 16 ⟨0, 0, 0, 0, 0, 0, false⟩ } } : State) (cmdOf .hint 0x40 ([1, 5, 0] ++ leBytes 6 2000000 ++ leBytes 4 100)), 0, 0, 0, cmdOf .hint 0x40 ([1, 5, 0] ++ leBytes 6 2000000 ++ leBytes 4 100), runs_of (by decide +kernel), (by decide +kernel)⟩,
   ⟨running up (cmdOf .wait 0x31 ([])), 0, 0, 0, cmdOf .wait 0x31 ([]), runs_of (by decide +kernel), (by decide +kernel)⟩,
   ⟨running up (cmdOf .wait 0x31 ([0, 1])), 0, 0, 0, cmdOf .wait 0x31 ([0, 1]), runs_of (by decide +kernel), (by decide +kernel)⟩,
   ⟨running up (cmdOf .fence 0x33 ([0xF])), 0, 0, 0, cmdOf .fence 0x33 ([0xF]), runs_of (by decide +kernel), (by decide +kernel)⟩,
   ⟨({ up with cmds := [cmdOf .gemm 1 [], { cmdOf .fence 0x33 ([0xF]) with adm := 1, seq := 1 }], admitNext := 2 } : State), 0, 0, 1, { cmdOf .fence 0x33 ([0xF]) with adm := 1, seq := 1 }, runs_of (by decide +kernel), (by decide +kernel)⟩,
   ⟨running up (cmdOf .signalAdd 0x32 (leBytes 2 0xFC0 ++ leBytes 4 1)), 0, 0, 0, cmdOf .signalAdd 0x32 (leBytes 2 0xFC0 ++ leBytes 4 1), runs_of (by decide +kernel), (by decide +kernel)⟩,
   ⟨running up (cmdOf .signalAdd 0x32 (leBytes 2 4)), 0, 0, 0, cmdOf .signalAdd 0x32 (leBytes 2 4), runs_of (by decide +kernel), (by decide +kernel)⟩,
   ⟨running linked (cmdOf .signalRemote 0x32 (leBytes 2 4)), 0, 0, 0, cmdOf .signalRemote 0x32 (leBytes 2 4), runs_of (by decide +kernel), (by decide +kernel)⟩,
   ⟨running up (cmdOf .signalRemote 0x32 (leBytes 2 4)), 0, 0, 0, cmdOf .signalRemote 0x32 (leBytes 2 4), runs_of (by decide +kernel), (by decide +kernel)⟩,
   ⟨running up ({ cmdOf .signalRemote 0x32 (leBytes 2 4) with life := .started }), 0, 0, 0, { cmdOf .signalRemote 0x32 (leBytes 2 4) with life := .started }, runs_of (by decide +kernel), (by decide +kernel)⟩,
   ⟨running up (cmdOf .signalWrite 0x32 (repByte 6 0 ++ leBytes 5 0x1000)), 0, 0, 0, cmdOf .signalWrite 0x32 (repByte 6 0 ++ leBytes 5 0x1000), runs_of (by decide +kernel), (by dsimp only; decide +kernel)⟩,
   ⟨running up (cmdOf .signalWrite 0x32 (repByte 6 0 ++ leBytes 5 0x1000)), 0, 0, 0, cmdOf .signalWrite 0x32 (repByte 6 0 ++ leBytes 5 0x1000), runs_of (by decide +kernel), (by dsimp only; decide +kernel)⟩,
   ⟨running up (cmdOf .signalWrite 0x32 (leBytes 6 0 ++ leBytes 5 0x7000000000)), 0, 0, 0, cmdOf .signalWrite 0x32 (leBytes 6 0 ++ leBytes 5 0x7000000000), runs_of (by decide +kernel), .inl (by decide +kernel)⟩,
   ⟨up, 0, 0, 0, fun c => not_runs (by decide +kernel) c⟩,
   ⟨up, 0, 0, 0, fun c => not_runs (by decide +kernel) c⟩,
   ⟨up, 0, 0, 0, fun c => not_runs (by decide +kernel) c⟩,
   ⟨up, 0, 0, 0, fun c => not_runs (by decide +kernel) c⟩,
   ⟨up, 0, 0, 0, fun c => not_runs (by decide +kernel) c⟩,
   ⟨up, 0, 0, 0, fun c => not_runs (by decide +kernel) c⟩⟩

/-- What the clauses of SaveAndLoadMoveThePartition ask of a state and operands can be met. -/
theorem wit_SaveAndLoadMoveThePartition :
    (∃ (s : State) (p : PartId) (q : QueId) (n : Nat) (c : Cmd), Runs s p q n .save c ∧ c.life = .issued ∧ 
    let space := (s.saveSpaces p).foldl (fun k x => k + x.2) 0
    let need := saveBytes (s.liveMasks c).1
    space < need) ∧
    (∃ (s : State) (p : PartId) (q : QueId) (n : Nat) (c : Cmd), Runs s p q n .save c ∧ c.life = .issued ∧ 
    let space := (s.saveSpaces p).foldl (fun k x => k + x.2) 0
    let need := saveBytes (s.liveMasks c).1
    need ≤ space ∧ (∃ x ∈ s.cmds, x.stopsFor c = true)) ∧
    (∃ (s : State) (p : PartId) (q : QueId) (n : Nat) (c : Cmd), Runs s p q n .save c ∧ c.life = .issued ∧ 
    let space := (s.saveSpaces p).foldl (fun k x => k + x.2) 0
    let need := saveBytes (s.liveMasks c).1
    need ≤ space ∧ (∀ x ∈ s.cmds, x.stopsFor c = false) ∧ (∀ x ∈ s.cmds, x.part = p → x.life ≠ .suspended)) ∧
    (∃ (s : State) (p : PartId) (q : QueId) (n : Nat) (c : Cmd), Runs s p q n .save c ∧ c.life = .started ∧ (∃ x ∈ s.cmds, x.stopsFor c = true)) ∧
    (∃ (s : State) (p : PartId) (q : QueId) (n : Nat) (c : Cmd), Runs s p q n .save c ∧ c.life = .started ∧ (∀ x ∈ s.cmds, x.stopsFor c = false) ∧ s.parts[p].under = .saving) ∧
    (∃ (s : State) (p : PartId) (q : QueId) (n : Nat) (c : Cmd), Runs s p q n .load c ∧ c.life = .issued ∧ s.parts[p].under = .saved ∧ s.unlent p = true) ∧
    (∃ (s : State) (p : PartId) (q : QueId) (n : Nat) (c : Cmd), Runs s p q n .load c ∧ c.life = .issued ∧ s.parts[p].under = .saved ∧ s.unlent p = false) ∧
    (∃ (s : State) (p : PartId) (q : QueId) (n : Nat) (c : Cmd), Runs s p q n .load c ∧ c.life = .issued ∧ s.parts[p].under ≠ .saved) ∧
    (∃ (s : State) (p : PartId) (q : QueId) (n : Nat) (c : Cmd) (v : Saved), Runs s p q n .load c ∧ c.life = .started ∧ s.parts[p].under = .loading ∧ s.parts[p].saved = some v ∧ v.lent = false) ∧
    (∃ (s : State) (p : PartId) (q : QueId) (n : Nat), (∀ c, ¬ Runs s p q n .save c)) ∧
    (∃ (s : State) (p : PartId) (q : QueId) (n : Nat), (∀ c, ¬ Runs s p q n .load c)) :=
  ⟨⟨running (up.setPart 0 { part0 with ctxSize := 0 }) (cmdOf .save 0x40 ([])), 0, 0, 0, cmdOf .save 0x40 ([]), runs_of (by decide +kernel), by decide +kernel, by decide +kernel⟩,
   ⟨({ up with cmds := [cmdOf .save 0x40 ([]), { cmdOf .gemm 1 [] with adm := 1, seq := 1 }], admitNext := 2 } : State), 0, 0, 0, cmdOf .save 0x40 ([]), runs_of (by decide +kernel), by decide +kernel, by decide +kernel, by dsimp only; decide +kernel⟩,
   ⟨running up (cmdOf .save 0x40 ([])), 0, 0, 0, cmdOf .save 0x40 ([]), runs_of (by decide +kernel), by decide +kernel, by decide +kernel⟩,
   ⟨({ partIs up .saving with cmds := [{ cmdOf .gemm 1 [] with life := .started, stop := some .save }, { cmdOf .save 0x40 ([]) with adm := 1, seq := 1, life := .started }], admitNext := 2 } : State), 0, 0, 1, { cmdOf .save 0x40 ([]) with adm := 1, seq := 1, life := .started }, runs_of (by decide +kernel), by decide +kernel, { cmdOf .gemm 1 [] with life := .started, stop := some .save }, by decide +kernel⟩,
   ⟨running (partIs up .saving) ({ cmdOf .save 0x40 ([]) with life := .started }), 0, 0, 0, { cmdOf .save 0x40 ([]) with life := .started }, runs_of (by decide +kernel), (by decide +kernel)⟩,
   ⟨running (partIs up .saved) (cmdOf .load 0x41 ([])), 0, 0, 0, cmdOf .load 0x41 ([]), runs_of (by decide +kernel), (by decide +kernel)⟩,
   ⟨running (({ partIs up .saved with parts := (partIs up .saved).parts.set 1 part0 } : State)) (cmdOf .load 0x41 ([])), 0, 0, 0, cmdOf .load 0x41 ([]), runs_of (by decide +kernel), (by decide +kernel)⟩,
   ⟨running up (cmdOf .load 0x41 ([])), 0, 0, 0, cmdOf .load 0x41 ([]), runs_of (by decide +kernel), (by decide +kernel)⟩,
   ⟨running (up.setPart 0 { part0 with state := .loading, saved := some ⟨[], [], false, false⟩ }) ({ cmdOf .load 0x41 ([]) with life := .started }), 0, 0, 0, { cmdOf .load 0x41 ([]) with life := .started }, ⟨[], [], false, false⟩, runs_of (by decide +kernel), (by decide +kernel)⟩,
   ⟨up, 0, 0, 0, fun c => not_runs (by decide +kernel) c⟩,
   ⟨up, 0, 0, 0, fun c => not_runs (by decide +kernel) c⟩⟩

/-- What the clauses of EngineCommandsRunOnTheirUnit ask of a state and operands can be met. -/
theorem wit_EngineCommandsRunOnTheirUnit :
    (∃ (s : State) (p : PartId) (q : QueId) (n : Nat) (flt : UnitFault) (c : Cmd) (k : CmdKind) (i : Instr) (body : Cmd → State → State × List St), (k, i, body) ∈ [(CmdKind.gemm, Instr.gemm p q n flt, State.gemmBody), (.vop, .vop p q n flt, State.vopBody), (.conv, .conv p q n flt, State.convBody), (.pool, .pool p q n flt, State.poolBody), (.crop, .crop p q n flt, State.cropBody), (.s2d, .s2d p q n flt, State.sdCore), (.d2s, .d2s p q n flt, State.sdCore), (.frc, .frc p q n flt, State.frcBody), (.adapt, .adapt p q n flt, State.adaptBody), (.qscan, .qscan p q n, State.qscanBody), (.qconv, .qconv p q n, State.qconvBody)] ∧ ((k = .qscan ∨ k = .qconv) → flt = .none) ∧ ((k = .s2d ∨ k = .d2s) → ∀ d : Die, c.place ≠ .fle d) ∧ Runs s p q n k c ∧ (∃ r ∈ c.writes, s.mayWrite true c.adm r.lo r.len = false)) ∧
    (∃ (s : State) (p : PartId) (q : QueId) (n : Nat) (flt : UnitFault) (c : Cmd) (k : CmdKind) (i : Instr) (body : Cmd → State → State × List St), (k, i, body) ∈ [(CmdKind.gemm, Instr.gemm p q n flt, State.gemmBody), (.vop, .vop p q n flt, State.vopBody), (.conv, .conv p q n flt, State.convBody), (.pool, .pool p q n flt, State.poolBody), (.crop, .crop p q n flt, State.cropBody), (.s2d, .s2d p q n flt, State.sdCore), (.d2s, .d2s p q n flt, State.sdCore), (.frc, .frc p q n flt, State.frcBody), (.adapt, .adapt p q n flt, State.adaptBody), (.qscan, .qscan p q n, State.qscanBody), (.qconv, .qconv p q n, State.qconvBody)] ∧ ((k = .qscan ∨ k = .qconv) → flt = .none) ∧ ((k = .s2d ∨ k = .d2s) → ∀ d : Die, c.place ≠ .fle d) ∧ Runs s p q n k c ∧ (∀ r ∈ c.writes, s.mayWrite true c.adm r.lo r.len = true) ∧ flt ≠ .none) ∧
    (∃ (s : State) (p : PartId) (q : QueId) (n : Nat) (flt : UnitFault) (c : Cmd) (k : CmdKind) (i : Instr) (body : Cmd → State → State × List St), (k, i, body) ∈ [(CmdKind.gemm, Instr.gemm p q n flt, State.gemmBody), (.vop, .vop p q n flt, State.vopBody), (.conv, .conv p q n flt, State.convBody), (.pool, .pool p q n flt, State.poolBody), (.crop, .crop p q n flt, State.cropBody), (.s2d, .s2d p q n flt, State.sdCore), (.d2s, .d2s p q n flt, State.sdCore), (.frc, .frc p q n flt, State.frcBody), (.adapt, .adapt p q n flt, State.adaptBody), (.qscan, .qscan p q n, State.qscanBody), (.qconv, .qconv p q n, State.qconvBody)] ∧ ((k = .qscan ∨ k = .qconv) → flt = .none) ∧ ((k = .s2d ∨ k = .d2s) → ∀ d : Die, c.place ≠ .fle d) ∧ Runs s p q n k c ∧ (∀ r ∈ c.writes, s.mayWrite true c.adm r.lo r.len = true) ∧ flt = .none) ∧
    (∃ (s : State) (p : PartId) (q : QueId) (n : Nat) (flt : UnitFault) (c : Cmd) (d : Die) (k : CmdKind) (i : Instr), (k, i) ∈ [(CmdKind.s2d, Instr.s2d p q n flt), (.d2s, .d2s p q n flt)] ∧ Runs s p q n k c ∧ c.place = .fle d ∧ flt ≠ .none) ∧
    (∃ (s : State) (p : PartId) (q : QueId) (n : Nat) (flt : UnitFault) (c : Cmd) (d : Die) (k : CmdKind) (i : Instr), (k, i) ∈ [(CmdKind.s2d, Instr.s2d p q n flt), (.d2s, .d2s p q n flt)] ∧ Runs s p q n k c ∧ c.place = .fle d ∧ 
    let low := s.lowCore p
    flt = .none ∧ c.nextOp = 0 ∧ 0 < c.sdFetches.length ∧ (∀ x ∈ c.sdFetches, s.gone x.1 x.2 = false) ∧ s.entriesOf low + c.sdFetches.length ≤ 512) ∧
    (∃ (s : State) (p : PartId) (q : QueId) (n : Nat) (flt : UnitFault) (c : Cmd) (d : Die) (k : CmdKind) (i : Instr), (k, i) ∈ [(CmdKind.s2d, Instr.s2d p q n flt), (.d2s, .d2s p q n flt)] ∧ Runs s p q n k c ∧ c.place = .fle d ∧ 
    let low := s.lowCore p
    flt = .none ∧ c.nextOp < c.sdFetches.length ∧ 512 ≤ s.entriesOf low) ∧
    (∃ (s : State) (p : PartId) (q : QueId) (n : Nat) (flt : UnitFault) (c : Cmd) (d : Die) (k : CmdKind) (i : Instr), (k, i) ∈ [(CmdKind.s2d, Instr.s2d p q n flt), (.d2s, .d2s p q n flt)] ∧ Runs s p q n k c ∧ c.place = .fle d ∧ 
    let low := s.lowCore p
    flt = .none ∧ c.nextOp = c.sdFetches.length ∧ s.opsOver c = true ∧ c.conds = [] ∧ (c.sdInput.sdMake c).1.fails = [] ∧ 0 < c.sdWrites.length ∧ (∀ x ∈ c.sdWrites, s.gone x.1 x.2.length = false) ∧ s.entriesOf low + c.sdWrites.length ≤ 512) ∧
    (∃ (s : State) (p : PartId) (q : QueId) (n : Nat) (flt : UnitFault) (c : Cmd) (d : Die) (k : CmdKind) (i : Instr), (k, i) ∈ [(CmdKind.s2d, Instr.s2d p q n flt), (.d2s, .d2s p q n flt)] ∧ Runs s p q n k c ∧ c.place = .fle d ∧ 
    let total := c.sdFetches.length + c.sdWrites.length
    flt = .none ∧ c.sdFetches.length ≤ c.nextOp ∧ total ≤ c.nextOp ∧ s.opsOver c = true ∧ c.conds = [] ∧ (c.sdInput.sdMake c).1.fails = []) ∧
    (∃ (s : State) (p : PartId) (q : QueId) (n : Nat) (flt : UnitFault) (k : CmdKind) (i : Instr), (k, i) ∈ [(CmdKind.gemm, Instr.gemm p q n flt), (.vop, .vop p q n flt), (.conv, .conv p q n flt), (.pool, .pool p q n flt), (.crop, .crop p q n flt), (.s2d, .s2d p q n flt), (.d2s, .d2s p q n flt), (.frc, .frc p q n flt), (.adapt, .adapt p q n flt), (.qscan, .qscan p q n), (.qconv, .qconv p q n)] ∧ (∀ c, ¬ Runs s p q n k c)) :=
  ⟨⟨running wellsOff ({ cmdOf .gemm 1 [] with ranges := [⟨wellAddr 0 0, 64, true⟩] }), 0, 0, 0, .none, { cmdOf .gemm 1 [] with ranges := [⟨wellAddr 0 0, 64, true⟩] }, .gemm, .gemm 0 0 0 .none, State.gemmBody, List.Mem.head _, (fun h => absurd h (by decide)), (fun h => absurd h (by decide)), runs_of (by decide +kernel), by decide +kernel⟩,
   ⟨running up ({ cmdOf .gemm 1 [] with ranges := [⟨wellAddr 0 0, 64, true⟩] }), 0, 0, 0, .microcode, { cmdOf .gemm 1 [] with ranges := [⟨wellAddr 0 0, 64, true⟩] }, .gemm, .gemm 0 0 0 .microcode, State.gemmBody, List.Mem.head _, (fun h => absurd h (by decide)), (fun h => absurd h (by decide)), runs_of (by decide +kernel), by decide +kernel⟩,
   ⟨running up ({ cmdOf .gemm 1 [] with ranges := [⟨wellAddr 0 0, 64, true⟩] }), 0, 0, 0, .none, { cmdOf .gemm 1 [] with ranges := [⟨wellAddr 0 0, 64, true⟩] }, .gemm, .gemm 0 0 0 .none, State.gemmBody, List.Mem.head _, (fun h => absurd h (by decide)), (fun h => absurd h (by decide)), runs_of (by decide +kernel), by decide +kernel⟩,
   ⟨running up ({ cmdF .s2d 0x08 [(120, 1)] with place := .fle 0, ranges := [⟨0x1000, 64, false⟩] }), 0, 0, 0, .vector, { cmdF .s2d 0x08 [(120, 1)] with place := .fle 0, ranges := [⟨0x1000, 64, false⟩] }, 0, .s2d, .s2d 0 0 0 .vector, List.Mem.head _, runs_of (by decide +kernel), by decide +kernel, (by decide +kernel)⟩,
   ⟨running up ({ cmdF .s2d 0x08 [(120, 1)] with place := .fle 0, ranges := [⟨0x1000, 64, false⟩] }), 0, 0, 0, .none, { cmdF .s2d 0x08 [(120, 1)] with place := .fle 0, ranges := [⟨0x1000, 64, false⟩] }, 0, .s2d, .s2d 0 0 0 .none, List.Mem.head _, runs_of (by decide +kernel), by decide +kernel, (by decide +kernel)⟩,
   ⟨({ running up ({ cmdF .s2d 0x08 [(120, 1)] with place := .fle 0, ranges := [⟨0x1000, 64, false⟩] }) with ops := List.replicate 512 { op0 with core := 0 } } : State), 0, 0, 0, .none, { cmdF .s2d 0x08 [(120, 1)] with place := .fle 0, ranges := [⟨0x1000, 64, false⟩] }, 0, .s2d, .s2d 0 0 0 .none, List.Mem.head _, runs_of (by decide +kernel), by decide +kernel, (by decide +kernel)⟩,
   ⟨running up ({ cmdF .s2d 0x08 [(120, 1)] with place := .fle 0, copies := [(0, leBytes 2 1 ++ leBytes 2 1 ++ leBytes 2 1 ++ [0, 0, 1, 0] ++ repByte 38 0), (0, leBytes 5 0x1000 ++ repByte 27 0), (0, leBytes 5 0x2000 ++ repByte 27 0), (0x1000, repByte 128 0)], nextOp := 1, ranges := [⟨0x1000, 64, false⟩] }), 0, 0, 0, .none, { cmdF .s2d 0x08 [(120, 1)] with place := .fle 0, copies := [(0, leBytes 2 1 ++ leBytes 2 1 ++ leBytes 2 1 ++ [0, 0, 1, 0] ++ repByte 38 0), (0, leBytes 5 0x1000 ++ repByte 27 0), (0, leBytes 5 0x2000 ++ repByte 27 0), (0x1000, repByte 128 0)], nextOp := 1, ranges := [⟨0x1000, 64, false⟩] }, 0, .s2d, .s2d 0 0 0 .none, List.Mem.head _, runs_of (by decide +kernel), by decide +kernel, (by decide +kernel)⟩,
   ⟨running up ({ cmdF .s2d 0x08 [(120, 1)] with place := .fle 0, copies := [(0, leBytes 2 1 ++ leBytes 2 1 ++ leBytes 2 1 ++ [0, 0, 1, 0] ++ repByte 38 0), (0, leBytes 5 0x1000 ++ repByte 27 0), (0, leBytes 5 0x2000 ++ repByte 27 0), (0x1000, repByte 128 0)], nextOp := 2, ranges := [⟨0x1000, 64, false⟩] }), 0, 0, 0, .none, { cmdF .s2d 0x08 [(120, 1)] with place := .fle 0, copies := [(0, leBytes 2 1 ++ leBytes 2 1 ++ leBytes 2 1 ++ [0, 0, 1, 0] ++ repByte 38 0), (0, leBytes 5 0x1000 ++ repByte 27 0), (0, leBytes 5 0x2000 ++ repByte 27 0), (0x1000, repByte 128 0)], nextOp := 2, ranges := [⟨0x1000, 64, false⟩] }, 0, .s2d, .s2d 0 0 0 .none, List.Mem.head _, runs_of (by decide +kernel), by decide +kernel, (by decide +kernel)⟩,
   ⟨up, 0, 0, 0, .none, .gemm, .gemm 0 0 0 .none, List.Mem.head _, fun c => not_runs (by decide +kernel) c⟩⟩

/-- What the clauses of VopComputesItsRows ask of a state and operands can be met. -/
theorem wit_VopComputesItsRows :
    ∃ (s : State) (p : PartId) (q : QueId) (n : Nat) (c : Cmd), Runs s p q n .vop c ∧ (∀ r ∈ c.writes, s.mayWrite true c.adm r.lo r.len = true) :=
  ⟨running up ({ cmdF .vop 2 [(0, 1), (39, 64), (85, 0x5FFFF8), (108, 2), (124, 1)] with ranges := [⟨wellAddr 0 0x5FFFF8, 8, true⟩] }), 0, 0, 0, { cmdF .vop 2 [(0, 1), (39, 64), (85, 0x5FFFF8), (108, 2), (124, 1)] with ranges := [⟨wellAddr 0 0x5FFFF8, 8, true⟩] }, runs_of (by decide +kernel), (by decide +kernel)⟩

/-- What the clauses of FillAndCopyMoveBytes ask of a state and operands can be met. -/
theorem wit_FillAndCopyMoveBytes :
    (∃ (s : State) (p : PartId) (q : QueId) (n : Nat) (c : Cmd), Runs s p q n .fill c ∧ s.mayWrite true c.adm c.fDst c.fLen = true) ∧
    (∃ (s : State) (p : PartId) (q : QueId) (n : Nat) (c : Cmd), Runs s p q n .copy c ∧ s.mayWrite true c.adm c.cDst c.cLen = true) ∧
    (∃ (s : State) (p : PartId) (q : QueId) (n : Nat) (c : Cmd), Runs s p q n .fill c ∧ s.mayWrite true c.adm c.fDst c.fLen = false) ∧
    (∃ (s : State) (p : PartId) (q : QueId) (n : Nat) (c : Cmd), Runs s p q n .copy c ∧ s.mayWrite true c.adm c.cDst c.cLen = false) ∧
    (∃ (s : State) (p : PartId) (q : QueId) (n : Nat), (∀ c, ¬ Runs s p q n .fill c)) ∧
    (∃ (s : State) (p : PartId) (q : QueId) (n : Nat), (∀ c, ¬ Runs s p q n .copy c)) :=
  ⟨⟨running ({ up with hw := up.hw.set 0 { st := .unfilled } } : State) (cmdF .fill 0x21 [(0, wellAddr 0 0), (40, 0x300000), (80, 7)]), 0, 0, 0, cmdF .fill 0x21 [(0, wellAddr 0 0), (40, 0x300000), (80, 7)], runs_of (by decide +kernel), (by decide +kernel)⟩,
   ⟨running up (cmdF .copy 0x22 [(0, 0x1000), (40, 0x1800), (80, 4096)]), 0, 0, 0, cmdF .copy 0x22 [(0, 0x1000), (40, 0x1800), (80, 4096)], runs_of (by decide +kernel), (by decide +kernel)⟩,
   ⟨running wellsOff (cmdF .fill 0x21 [(0, wellAddr 0 0), (40, 0x300000), (80, 7)]), 0, 0, 0, cmdF .fill 0x21 [(0, wellAddr 0 0), (40, 0x300000), (80, 7)], runs_of (by decide +kernel), (by decide +kernel)⟩,
   ⟨running wellsOff (cmdF .copy 0x22 [(0, 0x1000), (40, wellAddr 0 0), (80, 4096)]), 0, 0, 0, cmdF .copy 0x22 [(0, 0x1000), (40, wellAddr 0 0), (80, 4096)], runs_of (by decide +kernel), (by decide +kernel)⟩,
   ⟨up, 0, 0, 0, fun c => not_runs (by decide +kernel) c⟩,
   ⟨up, 0, 0, 0, fun c => not_runs (by decide +kernel) c⟩⟩

/-- What the clauses of PumpsMoveTheirBytes ask of a state and operands can be met. -/
theorem wit_PumpsMoveTheirBytes :
    (∃ (s : State) (p : PartId) (q : QueId) (n : Nat) (c : Cmd), Runs s p q n .pump c ∧ c.pMode = 0 ∧ c.nextOp = 0 ∧ 0 < c.pTotal ∧ (∀ o ∈ s.ops, o.owner ≠ .cmd c.adm) ∧ s.entriesOf c.pumpCore + c.pTotal ≤ 512 ∧ 
    let src := fun k => recAddr c.pSrc c.pSrcStride (k / c.pRunOps) + 4096 * (k % c.pRunOps)
    let dst := fun k => recAddr c.pDst c.pDstStride (k / c.pRunOps) + 4096 * (k % c.pRunOps)
    let len := fun k => min 4096 (c.pRunBytes - 4096 * (k % c.pRunOps))
    (∀ k, k < c.pTotal → s.gone (src k) (len k) = false ∧ s.gone (dst k) (len k) = false)) ∧
    (∃ (s : State) (p : PartId) (q : QueId) (n : Nat) (c : Cmd), Runs s p q n .pump c ∧ c.pMode ≠ 0 ∧ c.nextOp = 0 ∧ 0 < c.pIdxOps ∧ s.entriesOf c.pumpCore + c.pIdxOps ≤ 512 ∧ (∀ k, k < c.pIdxOps → s.gone (c.pIdxAddr + 4096 * k) (min 4096 (c.pRuns * c.pIdxSize - 4096 * k)) = false)) ∧
    (∃ (s : State) (p : PartId) (q : QueId) (n : Nat) (c : Cmd), Runs s p q n .pump c ∧ c.nextOp < c.pTotal ∧ 512 ≤ s.entriesOf c.pumpCore) ∧
    (∃ (s : State) (p : PartId) (q : QueId) (n : Nat) (c : Cmd), Runs s p q n .pump c ∧ c.pTotal ≤ c.nextOp ∧ s.opsOver c = true) ∧
    (∃ (s : State) (p : PartId) (q : QueId) (n : Nat), (∀ c, ¬ Runs s p q n .pump c)) ∧
    (∃ (s : State) (id k : Nat) (e : Bool) (o : PumpOp), (s.ops.find? (fun x => x.id = id) = some o) ∧ s.opFree o = true ∧ o.waits = [] ∧ o.kind = .move ∧ o.owner = .cmd k ∧ o.data = none ∧ o.got = [] ∧ InRam s o.src o.len ∧ InRam s o.dst o.len ∧ s.mayWrite false o.id o.dst o.len = true) ∧
    (∃ (s : State) (id k : Nat) (e : Bool) (o : PumpOp) (r : Region), (s.ops.find? (fun x => x.id = id) = some o) ∧ s.opFree o = true ∧ o.waits = [] ∧ o.kind = .move ∧ o.owner = .cmd k ∧ o.data = none ∧ o.got = [] ∧ s.opSilent o = false ∧ (∀ i, i < o.len → s.reach (o.src + i) = .cistern r) ∧ InRam s o.dst o.len ∧ s.mayWrite false o.id o.dst o.len = true) ∧
    (∃ (s : State) (id k : Nat) (e : Bool) (o : PumpOp), (s.ops.find? (fun x => x.id = id) = some o) ∧ s.opFree o = true ∧ o.waits = [] ∧ (o.kind = .move ∨ o.kind = .put) ∧ o.owner = .cmd k ∧ (InRam s o.src o.len ∨ o.data ≠ none) ∧ InRam s o.dst o.len ∧ s.mayWrite false o.id o.dst o.len = false) ∧
    (∃ (s : State) (id : Nat) (e : Bool) (o : PumpOp) (c : Cmd), (s.ops.find? (fun x => x.id = id) = some o) ∧ s.opFree o = true ∧ o.waits = [] ∧ (o.kind = .list ∨ o.kind = .fetch) ∧ o.data = none ∧ o.got = [] ∧ InRam s o.src o.len ∧ o.owner = .cmd c.adm ∧ s.opCmd o = some c) ∧
    (∃ (s : State) (id : Nat) (e : Bool), (∀ o, s.ops.find? (fun x => x.id = id) = some o → s.opFree o = false ∨ o.waits ≠ [] ∨ s.opSilent o = true)) ∧
    (∃ (s : State) (id : Nat) (o : PumpOp), (s.ops.find? (fun x => x.id = id) = some o) ∧ o.far = true ∧ o.farDone = false ∧ o.at_ + 12 ≤ s.now) ∧
    (∃ (s : State) (id : Nat), (∀ o, s.ops.find? (fun x => x.id = id) = some o → o.far = false ∨ o.farDone = true ∨ s.now < o.at_ + 12)) ∧
    (∃ (s : State) (id k : Nat) (o : PumpOp) (d : Die), (s.ops.find? (fun x => x.id = id) = some o) ∧ s.cisternDie o = some d ∧ o.owner = .cmd k ∧ o.at_ + 6400000 ≤ s.now) ∧
    (∃ (s : State) (id : Nat), (∀ o, s.ops.find? (fun x => x.id = id) = some o → s.cisternDie o = none ∨ s.now < o.at_ + 6400000)) :=
  ⟨⟨running up ({ cmdF .pump 0x20 [(0, 0x1000), (40, 0x100000), (80, 4097), (104, 2), (124, 8192), (156, 8192)] with place := .corePump 0 }), 0, 0, 0, { cmdF .pump 0x20 [(0, 0x1000), (40, 0x100000), (80, 4097), (104, 2), (124, 8192), (156, 8192)] with place := .corePump 0 }, runs_of (by decide +kernel), (by dsimp only; decide +kernel)⟩,
   ⟨running up ({ cmdF .pump 0x20 [(0, 0x1000), (40, 0x100000), (80, 64), (104, 2), (188, 1), (190, 0x3000)] with place := .corePump 0 }), 0, 0, 0, { cmdF .pump 0x20 [(0, 0x1000), (40, 0x100000), (80, 64), (104, 2), (188, 1), (190, 0x3000)] with place := .corePump 0 }, runs_of (by decide +kernel), (by decide +kernel)⟩,
   ⟨running ({ up with ops := List.replicate 512 op0 } : State) ({ cmdF .pump 0x20 [(0, 0x1000), (40, 0x100000), (80, 4097), (104, 2), (124, 8192), (156, 8192)] with place := .corePump 0 }), 0, 0, 0, { cmdF .pump 0x20 [(0, 0x1000), (40, 0x100000), (80, 4097), (104, 2), (124, 8192), (156, 8192)] with place := .corePump 0 }, runs_of (by decide +kernel), (by decide +kernel)⟩,
   ⟨running up ({ cmdF .pump 0x20 [(0, 0x1000), (40, 0x100000), (80, 4097), (104, 2), (124, 8192), (156, 8192)] with place := .corePump 0, nextOp := 4, life := .started }), 0, 0, 0, { cmdF .pump 0x20 [(0, 0x1000), (40, 0x100000), (80, 4097), (104, 2), (124, 8192), (156, 8192)] with place := .corePump 0, nextOp := 4, life := .started }, runs_of (by decide +kernel), (by decide +kernel)⟩,
   ⟨up, 0, 0, 0, fun c => not_runs (by decide +kernel) c⟩,
   ⟨{ up with ops := [{ op0 with len := 64, reads := [⟨0x1000, 64, false⟩], writes := [⟨0x2000, 64, true⟩] }] }, 5, 0, false, { op0 with len := 64, reads := [⟨0x1000, 64, false⟩], writes := [⟨0x2000, 64, true⟩] }, (by decide +kernel), (by decide +kernel), (by decide +kernel), (by decide +kernel), (by decide +kernel), (by decide +kernel), (by decide +kernel), inRam_of (by decide +kernel), inRam_of (by decide +kernel), (by decide +kernel)⟩,
   ⟨{ up with regions := [region0], ops := [{ op0 with src := cisternBase + 0xF000, len := 64, reads := [⟨cisternBase + 0xF000, 64, false⟩], writes := [⟨0x2000, 64, true⟩] }] }, 5, 0, true, { op0 with src := cisternBase + 0xF000, len := 64, reads := [⟨cisternBase + 0xF000, 64, false⟩], writes := [⟨0x2000, 64, true⟩] }, region0, (by decide +kernel), (by decide +kernel), (by decide +kernel), (by decide +kernel), (by decide +kernel), (by decide +kernel), (by decide +kernel), (by decide +kernel), (by decide +kernel), inRam_of (by decide +kernel), (by decide +kernel)⟩,
   ⟨{ wellsOff with ops := [{ op0 with dst := wellAddr 0 0, len := 64, reads := [⟨0x1000, 64, false⟩], writes := [⟨wellAddr 0 0, 64, true⟩] }] }, 5, 0, false, { op0 with dst := wellAddr 0 0, len := 64, reads := [⟨0x1000, 64, false⟩], writes := [⟨wellAddr 0 0, 64, true⟩] }, (by decide +kernel), (by decide +kernel), (by decide +kernel), (by decide +kernel), (by decide +kernel), .inl (inRam_of (by decide +kernel)), inRam_of (by decide +kernel), (by decide +kernel)⟩,
   ⟨{ running up ({ cmdF .pump 0x20 [(0, 0x1000), (40, 0x100000), (80, 64), (104, 1)] with place := .corePump 0, life := .started }) with ops := [{ op0 with kind := .list, len := 64, reads := [⟨0x1000, 64, false⟩], writes := [] }] }, 5, false, { op0 with kind := .list, len := 64, reads := [⟨0x1000, 64, false⟩], writes := [] }, { cmdF .pump 0x20 [(0, 0x1000), (40, 0x100000), (80, 64), (104, 1)] with place := .corePump 0, life := .started }, (by decide +kernel), (by decide +kernel), (by decide +kernel), (by decide +kernel), (by decide +kernel), (by decide +kernel), inRam_of (by decide +kernel), (by decide +kernel), (by decide +kernel)⟩,
   ⟨{ up with ops := [{ op0 with far := true }] }, 5, false, (by decide +kernel)⟩,
   ⟨{ up with ops := [{ op0 with src := wellAddr 16 0, far := true, at_ := 0 }] }, 5, { op0 with src := wellAddr 16 0, far := true, at_ := 0 }, (by decide +kernel)⟩,
   ⟨{ up with counter := 6399999, regions := [region0], ops := [{ op0 with src := cisternBase + 0xF000, at_ := 0 }] }, 5, (by decide +kernel)⟩,
   ⟨{ up with counter := 6400000, regions := [region0], ops := [{ op0 with src := cisternBase + 0xF000, at_ := 0 }] }, 5, 0, { op0 with src := cisternBase + 0xF000, at_ := 0 }, 0, (by decide +kernel)⟩,
   ⟨{ up with counter := 6399999, regions := [region0], ops := [{ op0 with src := cisternBase + 0xF000, at_ := 0 }] }, 5, (by decide +kernel)⟩⟩

/-- What the clauses of ArithmeticRoundsOnce ask of a state and operands can be met. -/
theorem wit_ArithmeticRoundsOnce :
    (∃ x y : W32, fpVal x = .nan) ∧
    (∃ x : W32, fpVal x ≠ .nan) :=
  ⟨⟨0x7FC00001, 1, (by decide +kernel)⟩,
   ⟨1, (by decide +kernel)⟩⟩

/-- What the clauses of StreamRowsMoveTheirStreams ask of a state and operands can be met. -/
theorem wit_StreamRowsMoveTheirStreams :
    (∃ (s : State) (p : PartId) (q : QueId) (n : Nat) (c : Cmd), Runs s p q n .streamGroup c ∧ 
    let g := groupOf c.sGroup c.part c.sBlk
    let mine : Bool := match s.group? c.sGroup with
      | some x => x.part == c.part
      | none => true
    mine = true ∧ g.nslots ≠ 0 ∧ s.groupClash g = false) ∧
    (∃ (s : State) (p : PartId) (q : QueId) (n : Nat) (c : Cmd), Runs s p q n .streamGroup c ∧ 
    let g := groupOf c.sGroup c.part c.sBlk
    let mine : Bool := match s.group? c.sGroup with
      | some x => x.part == c.part
      | none => true
    let used := s.streams.any fun x => x.group == c.sGroup && x.state != .close
    mine = true ∧ g.nslots = 0 ∧ used = false) ∧
    (∃ (s : State) (p : PartId) (q : QueId) (n : Nat) (c : Cmd), Runs s p q n .streamGroup c ∧ 
    let mine : Bool := match s.group? c.sGroup with
      | some x => x.part == c.part
      | none => true
    mine = false) ∧
    (∃ (s : State) (p : PartId) (q : QueId) (n : Nat) (c : Cmd), Runs s p q n .streamGroup c ∧ 
    let g := groupOf c.sGroup c.part c.sBlk
    let mine : Bool := match s.group? c.sGroup with
      | some x => x.part == c.part
      | none => true
    let used := s.streams.any fun x => x.group == c.sGroup && x.state != .close
    mine = true ∧ ((g.nslots = 0 ∧ used = true) ∨ (g.nslots ≠ 0 ∧ s.groupClash g = true))) ∧
    (∃ (s : State) (p : PartId) (q : QueId) (n : Nat), (∀ c, ¬ Runs s p q n .streamGroup c)) ∧
    (∃ (s : State) (p : PartId) (q : QueId) (n : Nat) (c : Cmd) (g : Group) (k : CmdKind) (i : Instr), (k, i) ∈ [(CmdKind.streamOpen, Instr.streamOpen p q n), (.streamPause, .streamPause p q n), (.streamResume, .streamResume p q n), (.streamPark, .streamPark p q n), (.streamReset, .streamReset p q n), (.streamExport, .streamExport p q n), (.streamClose, .streamClose p q n)] ∧ Runs s p q n k c ∧ s.group? c.sGroup = some g ∧ (k = .streamExport → c.life = .issued ∧ ∀ j, s.blobFar c g j = false)) ∧
    (∃ (s : State) (p : PartId) (q : QueId) (n : Nat) (k : CmdKind) (i : Instr), (k, i) ∈ [(CmdKind.streamOpen, Instr.streamOpen p q n), (.streamPause, .streamPause p q n), (.streamResume, .streamResume p q n), (.streamPark, .streamPark p q n), (.streamReset, .streamReset p q n), (.streamExport, .streamExport p q n), (.streamClose, .streamClose p q n), (.streamImport, .streamImport p q n)] ∧ (∀ c, ¬ Runs s p q n k c)) ∧
    (∃ (s : State) (p : PartId) (q : QueId) (n : Nat) (k : CmdKind) (i : Instr), (k, i) ∈ [(CmdKind.streamOpen, Instr.streamOpen p q n), (.streamPause, .streamPause p q n), (.streamResume, .streamResume p q n), (.streamPark, .streamPark p q n), (.streamReset, .streamReset p q n), (.streamExport, .streamExport p q n), (.streamClose, .streamClose p q n), (.streamImport, .streamImport p q n)] ∧ ∃ c, Runs s p q n k c ∧ s.group? c.sGroup = none) :=
  ⟨⟨running up (strCmd .streamGroup [(0, 1)] ([0, 1] ++ leBytes 2 2 ++ leBytes 4 0 ++ leBytes 4 2 ++ leBytes 4 0x1000 ++ leBytes 4 0x1000 ++ leBytes 4 0 ++ leBytes 8 0x6000 ++ repByte 32 0) [] []), 0, 0, 0, strCmd .streamGroup [(0, 1)] ([0, 1] ++ leBytes 2 2 ++ leBytes 4 0 ++ leBytes 4 2 ++ leBytes 4 0x1000 ++ leBytes 4 0x1000 ++ leBytes 4 0 ++ leBytes 8 0x6000 ++ repByte 32 0) [] [], runs_of (by decide +kernel), by dsimp only; decide +kernel⟩,
   ⟨running ({ up with groups := [group0] } : State) (strCmd .streamGroup [(0, 1)] ([0, 1] ++ leBytes 2 0 ++ leBytes 4 0 ++ leBytes 4 2 ++ leBytes 4 0x1000 ++ leBytes 4 0x1000 ++ leBytes 4 0 ++ leBytes 8 0x6000 ++ repByte 32 0) [] []), 0, 0, 0, strCmd .streamGroup [(0, 1)] ([0, 1] ++ leBytes 2 0 ++ leBytes 4 0 ++ leBytes 4 2 ++ leBytes 4 0x1000 ++ leBytes 4 0x1000 ++ leBytes 4 0 ++ leBytes 8 0x6000 ++ repByte 32 0) [] [], runs_of (by decide +kernel), by dsimp only; decide +kernel⟩,
   ⟨running ({ up with groups := [{ group0 with part := 5 }] } : State) (strCmd .streamGroup [(0, 1)] ([0, 1] ++ leBytes 2 2 ++ leBytes 4 0 ++ leBytes 4 2 ++ leBytes 4 0x1000 ++ leBytes 4 0x1000 ++ leBytes 4 0 ++ leBytes 8 0x6000 ++ repByte 32 0) [] []), 0, 0, 0, strCmd .streamGroup [(0, 1)] ([0, 1] ++ leBytes 2 2 ++ leBytes 4 0 ++ leBytes 4 2 ++ leBytes 4 0x1000 ++ leBytes 4 0x1000 ++ leBytes 4 0 ++ leBytes 8 0x6000 ++ repByte 32 0) [] [], runs_of (by decide +kernel), by dsimp only; decide +kernel⟩,
   ⟨running ({ up with groups := [{ group0 with num := 1 }] } : State) (strCmd .streamGroup [(0, 1)] ([0, 1] ++ leBytes 2 2 ++ leBytes 4 0 ++ leBytes 4 2 ++ leBytes 4 0x1000 ++ leBytes 4 0x1000 ++ leBytes 4 0 ++ leBytes 8 0x6000 ++ repByte 32 0) [] []), 0, 0, 0, strCmd .streamGroup [(0, 1)] ([0, 1] ++ leBytes 2 2 ++ leBytes 4 0 ++ leBytes 4 2 ++ leBytes 4 0x1000 ++ leBytes 4 0x1000 ++ leBytes 4 0 ++ leBytes 8 0x6000 ++ repByte 32 0) [] [], runs_of (by decide +kernel), by dsimp only; decide +kernel⟩,
   ⟨up, 0, 0, 0, fun c => not_runs (by decide +kernel) c⟩,
   ⟨running ({ up with groups := [group0], streams := [{ num := 3, state := .run, group := 0 }] } : State) (strCmd .streamPause [(0, 3), (136, 1)] [] (leBytes 8 3) [0]), 0, 0, 0, strCmd .streamPause [(0, 3), (136, 1)] [] (leBytes 8 3) [0], group0, .streamPause, .streamPause 0 0 0, by decide, runs_of (by decide +kernel), by decide +kernel, fun h => by cases h⟩,
   ⟨up, 0, 0, 0, .streamOpen, .streamOpen 0 0 0, List.Mem.head _, fun c => not_runs (by decide +kernel) c⟩,
   ⟨running up (strCmd .streamPause [(0, 3), (136, 1)] [] (leBytes 8 3) [0]), 0, 0, 0, .streamPause, .streamPause 0 0 0, by decide, strCmd .streamPause [(0, 3), (136, 1)] [] (leBytes 8 3) [0], runs_of (by decide +kernel), by decide +kernel⟩⟩

/-- What the clauses of ImportTakesAnIntactBlob ask of a state and operands can be met. -/
theorem wit_ImportTakesAnIntactBlob :
    (∃ (s : State) (p : PartId) (q : QueId) (n : Nat) (c : Cmd) (g : Group) (r : SRow), Runs s p q n .streamImport c ∧ s.group? c.sGroup = some g ∧ c.sNrows = 1 ∧ c.sRowList = [r] ∧ c.sCodes = [0] ∧ s.opsOver c = true ∧ s.blobFar c g 0 = false ∧ (∀ x ∈ c.copies.drop 2, ¬ (ocBlob c.sBlk 0 ≤ x.1 ∧ x.1 < ocBlob c.sBlk 0 + (64 + g.recBytes))) ∧ 
    let blob := (s.strLoad (ocBlob c.sBlk 0) (64 + g.recBytes)).1
    let bs := plain blob
    let good := fieldAt bs 0 4 = 0x57A70001 ∧ fieldAt bs 4 4 = g.recBytes ∧ (fieldAt bs 15 1 % 2 == 1) = g.classB ∧
      fieldAt bs 56 4 = crc32c (bs.take 56 ++ (bs.drop 64).take g.recBytes)
    anyPoison blob = false ∧ good) ∧
    (∃ (s : State) (p : PartId) (q : QueId) (n : Nat) (c : Cmd) (g : Group) (r : SRow), Runs s p q n .streamImport c ∧ s.group? c.sGroup = some g ∧ c.sNrows = 1 ∧ c.sRowList = [r] ∧ c.sCodes = [0] ∧ s.opsOver c = true ∧ s.blobFar c g 0 = false ∧ (∀ x ∈ c.copies.drop 2, ¬ (ocBlob c.sBlk 0 ≤ x.1 ∧ x.1 < ocBlob c.sBlk 0 + (64 + g.recBytes))) ∧ 
    let blob := (s.strLoad (ocBlob c.sBlk 0) (64 + g.recBytes)).1
    let bs := plain blob
    let good := fieldAt bs 0 4 = 0x57A70001 ∧ fieldAt bs 4 4 = g.recBytes ∧ (fieldAt bs 15 1 % 2 == 1) = g.classB ∧
      fieldAt bs 56 4 = crc32c (bs.take 56 ++ (bs.drop 64).take g.recBytes)
    (anyPoison blob = true ∨ ¬ good)) ∧
    (∃ (s : State) (p : PartId) (q : QueId) (n : Nat) (c : Cmd) (g : Group) (r : SRow), Runs s p q n .streamImport c ∧ s.group? c.sGroup = some g ∧ c.sNrows = 1 ∧ c.sRowList = [r] ∧ c.sCodes = [0] ∧ c.life = .issued ∧ c.nextOp = 0 ∧ St.windowClosed ∉ c.conds ∧ s.blobFar c g 0 = true) :=
  ⟨⟨running (holding ({ up with groups := [group0] } : State) 0x8000 (leBytes 4 0x57A70001 ++ leBytes 4 128 ++ repByte 7 0 ++ [1] ++ repByte 40 0 ++ leBytes 4 (crc32c (leBytes 4 0x57A70001 ++ leBytes 4 128 ++ repByte 7 0 ++ [1] ++ repByte 40 0 ++ repByte 128 0)))) (strCmd .streamImport [(0, 8), (136, 1)] (repByte 32 0 ++ leBytes 8 0x8000 ++ repByte 24 0) (leBytes 8 3) [0]), 0, 0, 0, strCmd .streamImport [(0, 8), (136, 1)] (repByte 32 0 ++ leBytes 8 0x8000 ++ repByte 24 0) (leBytes 8 3) [0], group0, ⟨3, 0, 0⟩, runs_of (by decide +kernel), by decide +kernel, by decide +kernel, by decide +kernel, by decide +kernel, by decide +kernel, by decide +kernel, by dsimp only; decide +kernel⟩,
   ⟨running ({ up with groups := [group0] } : State) (strCmd .streamImport [(0, 8), (136, 1)] (repByte 32 0 ++ leBytes 8 0x8000 ++ repByte 24 0) (leBytes 8 3) [0]), 0, 0, 0, strCmd .streamImport [(0, 8), (136, 1)] (repByte 32 0 ++ leBytes 8 0x8000 ++ repByte 24 0) (leBytes 8 3) [0], group0, ⟨3, 0, 0⟩, runs_of (by decide +kernel), by decide +kernel, by decide +kernel, by decide +kernel, by decide +kernel, by decide +kernel, by decide +kernel, by dsimp only; decide +kernel⟩,
   ⟨running ({ linked with groups := [group0], windows := [{ window0 with loc := 0xD000000000 }] } : State) (strCmd .streamImport [(0, 8), (136, 1)] (repByte 32 0 ++ leBytes 8 0xD000000000 ++ repByte 24 0) (leBytes 8 3) [0]), 0, 0, 0, strCmd .streamImport [(0, 8), (136, 1)] (repByte 32 0 ++ leBytes 8 0xD000000000 ++ repByte 24 0) (leBytes 8 3) [0], group0, ⟨3, 0, 0⟩, runs_of (by decide +kernel), (by decide +kernel), (by decide +kernel), (by decide +kernel), (by decide +kernel), (by decide +kernel), (by decide +kernel), (by decide +kernel), (by decide +kernel)⟩⟩

/-- What the clauses of StepsTakeTheirRows ask of a state and operands can be met. -/
theorem wit_StepsTakeTheirRows :
    (∃ (s : State) (p : PartId) (q : QueId) (n : Nat) (flt : UnitFault) (c : Cmd) (k : CmdKind) (i : Instr), (k, i) ∈ [(CmdKind.rstep, Instr.rstep p q n flt), (.lstep, .lstep p q n flt), (.feat, .feat p q n flt)] ∧ Runs s p q n k c ∧ (∃ r ∈ c.writes, s.mayWrite true c.adm r.lo r.len = false)) ∧
    (∃ (s : State) (p : PartId) (q : QueId) (n : Nat) (flt : UnitFault) (c : Cmd) (k : CmdKind) (i : Instr), (k, i) ∈ [(CmdKind.rstep, Instr.rstep p q n flt), (.lstep, .lstep p q n flt), (.feat, .feat p q n flt)] ∧ Runs s p q n k c ∧ (∀ r ∈ c.writes, s.mayWrite true c.adm r.lo r.len = true) ∧ flt ≠ .none) ∧
    (∃ (s : State) (p : PartId) (q : QueId) (n : Nat) (flt : UnitFault) (c : Cmd) (k : CmdKind) (i : Instr), (k, i) ∈ [(CmdKind.rstep, Instr.rstep p q n flt), (.lstep, .lstep p q n flt), (.feat, .feat p q n flt)] ∧ Runs s p q n k c ∧ (∀ r ∈ c.writes, s.mayWrite true c.adm r.lo r.len = true) ∧ flt = .none ∧ ∃ g, s.group? c.sGroup = some g) ∧
    (∃ (s : State) (p : PartId) (q : QueId) (n : Nat) (flt : UnitFault) (k : CmdKind) (i : Instr), (k, i) ∈ [(CmdKind.rstep, Instr.rstep p q n flt), (.lstep, .lstep p q n flt), (.feat, .feat p q n flt)] ∧ (∀ c, ¬ Runs s p q n k c)) ∧
    (∃ (s : State) (p : PartId) (q : QueId) (n : Nat) (flt : UnitFault) (k : CmdKind) (i : Instr), (k, i) ∈ [(CmdKind.rstep, Instr.rstep p q n flt), (.lstep, .lstep p q n flt), (.feat, .feat p q n flt)] ∧ ∃ c, Runs s p q n k c ∧ (∀ r ∈ c.writes, s.mayWrite true c.adm r.lo r.len = true) ∧ flt = .none ∧ s.group? c.sGroup = none) :=
  ⟨⟨running wellsOff ({ strCmd .lstep [(136, 1)] [] (leBytes 8 3) [0] with ranges := [⟨wellAddr 0 0, 64, true⟩] }), 0, 0, 0, .none, { strCmd .lstep [(136, 1)] [] (leBytes 8 3) [0] with ranges := [⟨wellAddr 0 0, 64, true⟩] }, .lstep, .lstep 0 0 0 .none, by decide, runs_of (by decide +kernel), by decide +kernel⟩,
   ⟨running up ({ strCmd .lstep [(136, 1)] [] (leBytes 8 3) [0] with ranges := [⟨wellAddr 0 0, 64, true⟩] }), 0, 0, 0, .matrix, { strCmd .lstep [(136, 1)] [] (leBytes 8 3) [0] with ranges := [⟨wellAddr 0 0, 64, true⟩] }, .lstep, .lstep 0 0 0 .matrix, by decide, runs_of (by decide +kernel), by decide +kernel⟩,
   ⟨running ({ up with groups := [group0], streams := [{ num := 3, state := .run, group := 0 }] } : State) ({ strCmd .lstep [(136, 1)] [] (leBytes 8 3) [0] with ranges := [⟨wellAddr 0 0, 64, true⟩] }), 0, 0, 0, .none, { strCmd .lstep [(136, 1)] [] (leBytes 8 3) [0] with ranges := [⟨wellAddr 0 0, 64, true⟩] }, .lstep, .lstep 0 0 0 .none, by decide, runs_of (by decide +kernel), by decide +kernel, rfl, group0, by decide +kernel⟩,
   ⟨up, 0, 0, 0, .none, .lstep, .lstep 0 0 0 .none, by decide, fun c => not_runs (by decide +kernel) c⟩,
   ⟨running up ({ strCmd .lstep [(136, 1)] [] (leBytes 8 3) [0] with ranges := [⟨wellAddr 0 0, 64, true⟩] }), 0, 0, 0, .none, .lstep, .lstep 0 0 0 .none, by decide, { strCmd .lstep [(136, 1)] [] (leBytes 8 3) [0] with ranges := [⟨wellAddr 0 0, 64, true⟩] }, runs_of (by decide +kernel), by decide +kernel, rfl, by decide +kernel⟩⟩

/-- What the clauses of HeapsAndSequencesComeAndGo ask of a state and operands can be met. -/
theorem wit_HeapsAndSequencesComeAndGo :
    (∃ (s : State) (p : PartId) (q : QueId) (n : Nat) (c : Cmd), Runs s p q n .heap c ∧ 
    let b := c.aBlk
    let k := fieldAt b 0 1
    let h : Heap := { num := k, part := c.part, fmt := fieldAt b 1 1, dim := fieldAt b 2 1, nslots := fieldAt b 4 4, base := fieldAt b 8 8, low := fieldAt b 16 4, high := fieldAt b 20 4 }
    let pages := ∃ x ∈ s.placesOf k, (s.desc x.addr).state ≠ pgNone
    let foreign := fun (o : Heap) => o.part ≠ c.part
    let clash := fun (o : Heap) => pages ∧ (h.nslots = 0 ∨ h.fmt ≠ o.fmt ∨ h.dim ≠ o.dim)
    (∀ o, s.heap? k = some o → ¬ foreign o ∧ ¬ clash o)) ∧
    (∃ (s : State) (p : PartId) (q : QueId) (n : Nat) (c : Cmd), Runs s p q n .heap c ∧ 
    let b := c.aBlk
    let k := fieldAt b 0 1
    let h : Heap := { num := k, part := c.part, fmt := fieldAt b 1 1, dim := fieldAt b 2 1, nslots := fieldAt b 4 4, base := fieldAt b 8 8, low := fieldAt b 16 4, high := fieldAt b 20 4 }
    let pages := ∃ x ∈ s.placesOf k, (s.desc x.addr).state ≠ pgNone
    let foreign := fun (o : Heap) => o.part ≠ c.part
    let clash := fun (o : Heap) => pages ∧ (h.nslots = 0 ∨ h.fmt ≠ o.fmt ∨ h.dim ≠ o.dim)
    ∃ o, s.heap? k = some o ∧ (foreign o ∨ clash o)) ∧
    (∃ (s : State) (p : PartId) (q : QueId) (n : Nat), (∀ c, ¬ Runs s p q n .heap c)) ∧
    (∃ (s : State) (p : PartId) (q : QueId) (n : Nat) (c : Cmd), Runs s p q n .seqOpen c ∧ 
    let a := aSeqAddr c.aBlk
    (s.inMain a 64 = false ∨ s.seq? a ≠ none)) ∧
    (∃ (s : State) (p : PartId) (q : QueId) (n : Nat) (c : Cmd), Runs s p q n .seqOpen c ∧ 
    let a := aSeqAddr c.aBlk
    let rec_ := (s.load a 64).1
    s.inMain a 64 = true ∧ s.seq? a = none ∧ anyPoison rec_ = true) ∧
    (∃ (s : State) (p : PartId) (q : QueId) (n : Nat) (c : Cmd), Runs s p q n .seqOpen c ∧ 
    let a := aSeqAddr c.aBlk
    let rec_ := (s.load a 64).1
    let x := seqOf a c.part (plain rec_)
    s.inMain a 64 = true ∧ s.seq? a = none ∧ anyPoison rec_ = false ∧ (∀ h, s.heap? x.heap = some h → h.part ≠ c.part ∨ s.seqFieldsOk x (plain rec_) = false)) ∧
    (∃ (s : State) (p : PartId) (q : QueId) (n : Nat) (c : Cmd), Runs s p q n .seqOpen c ∧ 
    let a := aSeqAddr c.aBlk
    let rec_ := (s.load a 64).1
    let x := seqOf a c.part (plain rec_)
    ∃ h, s.inMain a 64 = true ∧ s.seq? a = none ∧ anyPoison rec_ = false ∧ s.heap? x.heap = some h ∧ h.part = c.part ∧ s.seqFieldsOk x (plain rec_) = true) ∧
    (∃ (s : State) (p : PartId) (q : QueId) (n : Nat) (c : Cmd) (x : Seq), Runs s p q n .seqClose c ∧ s.seq? (aSeqAddr c.aBlk) = some x ∧ x.part = c.part ∧ (∀ y ∈ x.places, (s.desc y.addr).state ≠ pgSpilling ∧ (s.desc y.addr).state ≠ pgReturning) ∧ s.spills = [] ∧ x.table + 16 * (x.maxPages * x.layers * x.kvHeads) ≤ wellBase) ∧
    (∃ (s : State) (p : PartId) (q : QueId) (n : Nat) (c : Cmd) (x : Seq), Runs s p q n .seqClose c ∧ s.seq? (aSeqAddr c.aBlk) = some x ∧ x.part = c.part ∧ (∃ y ∈ x.places, (s.desc y.addr).state = pgSpilling ∨ (s.desc y.addr).state = pgReturning)) ∧
    (∃ (s : State) (p : PartId) (q : QueId) (n : Nat) (c : Cmd), Runs s p q n .seqClose c ∧ (∀ x, s.seq? (aSeqAddr c.aBlk) = some x → x.part ≠ c.part)) ∧
    (∃ (s : State) (p : PartId) (q : QueId) (n : Nat), (∀ c, ¬ Runs s p q n .seqOpen c)) ∧
    (∃ (s : State) (p : PartId) (q : QueId) (n : Nat), (∀ c, ¬ Runs s p q n .seqClose c)) :=
  ⟨⟨running up (atnCmd .heap ([0, 0, 0, 0] ++ leBytes 4 4 ++ leBytes 8 0x100000 ++ leBytes 4 1 ++ leBytes 4 2 ++ repByte 40 0)), 0, 0, 0, atnCmd .heap ([0, 0, 0, 0] ++ leBytes 4 4 ++ leBytes 8 0x100000 ++ leBytes 4 1 ++ leBytes 4 2 ++ repByte 40 0), runs_of (by decide +kernel), fun o h => absurd h (by simp [State.heap?, running, up])⟩,
   ⟨running ({ up with heaps := [{ heap0 with part := 5 }] } : State) (atnCmd .heap ([0, 0, 0, 0] ++ leBytes 4 4 ++ leBytes 8 0x100000 ++ leBytes 4 1 ++ leBytes 4 2 ++ repByte 40 0)), 0, 0, 0, atnCmd .heap ([0, 0, 0, 0] ++ leBytes 4 4 ++ leBytes 8 0x100000 ++ leBytes 4 1 ++ leBytes 4 2 ++ repByte 40 0), runs_of (by decide +kernel), { heap0 with part := 5 }, by decide +kernel⟩,
   ⟨up, 0, 0, 0, fun c => not_runs (by decide +kernel) c⟩,
   ⟨running (paged pgResident) (atnCmd .seqOpen (leBytes 8 0x4000 ++ repByte 8 0)), 0, 0, 0, atnCmd .seqOpen (leBytes 8 0x4000 ++ repByte 8 0), runs_of (by decide +kernel), by dsimp only; decide +kernel⟩,
   ⟨running ({ (holding ({ up with heaps := [heap0] } : State) 0x4000 seqBytes) with poison := [0x4000] } : State) (atnCmd .seqOpen (leBytes 8 0x4000 ++ repByte 8 0)), 0, 0, 0, atnCmd .seqOpen (leBytes 8 0x4000 ++ repByte 8 0), runs_of (by decide +kernel), by decide +kernel⟩,
   ⟨running (holding up 0x4000 seqBytes) (atnCmd .seqOpen (leBytes 8 0x4000 ++ repByte 8 0)), 0, 0, 0, atnCmd .seqOpen (leBytes 8 0x4000 ++ repByte 8 0), runs_of (by decide +kernel), by decide +kernel, by decide +kernel, by decide +kernel, fun h e => by cases e⟩,
   ⟨running (holding ({ up with heaps := [heap0] } : State) 0x4000 seqBytes) (atnCmd .seqOpen (leBytes 8 0x4000 ++ repByte 8 0)), 0, 0, 0, atnCmd .seqOpen (leBytes 8 0x4000 ++ repByte 8 0), runs_of (by decide +kernel), heap0, by decide +kernel⟩,
   ⟨running (paged pgResident) (atnCmd .seqClose (leBytes 8 0x4000 ++ leBytes 4 0 ++ leBytes 4 256)), 0, 0, 0, atnCmd .seqClose (leBytes 8 0x4000 ++ leBytes 4 0 ++ leBytes 4 256), seq0, runs_of (by decide +kernel), (by decide +kernel)⟩,
   ⟨running (paged pgSpilling) (atnCmd .seqClose (leBytes 8 0x4000 ++ leBytes 4 0 ++ leBytes 4 256)), 0, 0, 0, atnCmd .seqClose (leBytes 8 0x4000 ++ leBytes 4 0 ++ leBytes 4 256), seq0, runs_of (by decide +kernel), by decide +kernel, by decide +kernel, ⟨seq0, 0, 0, 0⟩, List.Mem.head _, .inl (by decide +kernel)⟩,
   ⟨running up (atnCmd .seqClose (leBytes 8 0x4000 ++ leBytes 4 0 ++ leBytes 4 256)), 0, 0, 0, atnCmd .seqClose (leBytes 8 0x4000 ++ leBytes 4 0 ++ leBytes 4 256), runs_of (by decide +kernel), fun x h => absurd h (by simp [State.seq?, running, up])⟩,
   ⟨up, 0, 0, 0, fun c => not_runs (by decide +kernel) c⟩,
   ⟨up, 0, 0, 0, fun c => not_runs (by decide +kernel) c⟩⟩

/-- What the clauses of PagesMoveThroughTheirStates ask of a state and operands can be met. -/
theorem wit_PagesMoveThroughTheirStates :
    (∃ (s : State) (p : PartId) (q : QueId) (n : Nat) (c : Cmd) (x : Seq) (on : Bool) (k : CmdKind) (i : Instr), (k, i, on) ∈ [(CmdKind.pin, Instr.pin p q n, true), (.unpin, .unpin p q n, false)] ∧ Runs s p q n k c ∧ s.seq? (aSeqAddr c.aBlk) = some x ∧ x.part = c.part ∧ x.table + 16 * (x.maxPages * x.layers * x.kvHeads) ≤ wellBase) ∧
    (∃ (s : State) (p : PartId) (q : QueId) (n : Nat) (c : Cmd) (x : Seq), Runs s p q n .trim c ∧ s.seq? (aSeqAddr c.aBlk) = some x ∧ x.part = c.part ∧ 
    let below := fun (y : PageAt) => decide (256 * (y.j + 1) ≤ aPosA c.aBlk)
    (∀ y ∈ x.places, below y = true → (s.desc y.addr).state ≠ pgSpilling ∧ (s.desc y.addr).state ≠ pgReturning) ∧ s.spills = [] ∧ x.table + 16 * (x.maxPages * x.layers * x.kvHeads) ≤ wellBase) ∧
    (∃ (s : State) (p : PartId) (q : QueId) (n : Nat) (c : Cmd) (x : Seq), Runs s p q n .trim c ∧ s.seq? (aSeqAddr c.aBlk) = some x ∧ x.part = c.part ∧ 
    let below := fun (y : PageAt) => decide (256 * (y.j + 1) ≤ aPosA c.aBlk)
    (∃ y ∈ x.places, below y = true ∧ ((s.desc y.addr).state = pgSpilling ∨ (s.desc y.addr).state = pgReturning))) ∧
    (∃ (s : State) (p : PartId) (q : QueId) (n : Nat) (c : Cmd) (k : CmdKind) (i : Instr), (k, i) ∈ [(CmdKind.pin, Instr.pin p q n), (.unpin, .unpin p q n), (.trim, .trim p q n)] ∧ Runs s p q n k c ∧ (∀ x, s.seq? (aSeqAddr c.aBlk) = some x → x.part ≠ c.part)) ∧
    (∃ (s : State) (p : PartId) (q : QueId) (n : Nat) (k : CmdKind) (i : Instr), (k, i) ∈ [(CmdKind.pin, Instr.pin p q n), (.unpin, .unpin p q n), (.trim, .trim p q n)] ∧ (∀ c, ¬ Runs s p q n k c)) ∧
    (∃ (s : State) (a : Nat) (x : Spill), (s.spills.find? (fun y => y.desc == a) = some x) ∧ (s.desc a).state = pgSpilling ∧ x.span < 2 ^ 40) ∧
    (∃ (s : State) (a : Nat), (s.spills.find? (fun y => y.desc == a) = none ∨ (s.desc a).state ≠ pgSpilling)) ∧
    (∃ (s : State) (a : Nat) (x : PageReturn) (y : PageAt) (h : Heap), (s.returns.find? (fun z => z.desc == a) = some x) ∧ s.returnWaits x = false ∧ s.placeAt a = some y ∧ s.heap? y.seq.heap = some h ∧ a + 16 ≤ wellBase ∧ ∃ r, s.reach x.span = .cistern r ∧ s.cisternFails r x.span h.pageBytes = false) ∧
    (∃ (s : State) (a : Nat) (x : PageReturn) (y : PageAt) (h : Heap), (s.returns.find? (fun z => z.desc == a) = some x) ∧ s.returnWaits x = false ∧ s.placeAt a = some y ∧ s.heap? y.seq.heap = some h ∧ a + 16 ≤ wellBase ∧ ∃ b, (b = true ∨ (∀ r, s.reach x.span ≠ .cistern r) ∨ ∃ r, s.reach x.span = .cistern r ∧ s.cisternFails r x.span h.pageBytes = true)) ∧
    (∃ (s : State) (a : Nat) (x : PageReturn) (y : PageAt) (h : Heap), (s.returns.find? (fun z => z.desc == a) = some x) ∧ s.returnWaits x = false ∧ s.placeAt a = some y ∧ s.heap? y.seq.heap = some h ∧ a + 16 ≤ wellBase ∧ ∃ o, s.spanPort x.span = some o ∧ x.at_ + 6400000 ≤ s.now) ∧
    (∃ (s : State) (a : Nat) (b : Bool), (∀ x, s.returns.find? (fun z => z.desc == a) = some x → s.returnWaits x = true)) ∧
    (∃ (s : State) (a : Nat), (∀ x, s.returns.find? (fun z => z.desc == a) = some x → s.now < x.at_ + 6400000)) :=
  ⟨⟨running (paged pgResident) (atnCmd .pin (leBytes 8 0x4000 ++ leBytes 4 0 ++ leBytes 4 256)), 0, 0, 0, atnCmd .pin (leBytes 8 0x4000 ++ leBytes 4 0 ++ leBytes 4 256), seq0, true, .pin, .pin 0 0 0, by decide, runs_of (by decide +kernel), by decide +kernel⟩,
   ⟨running (paged pgResident) (atnCmd .trim (leBytes 8 0x4000 ++ leBytes 4 0 ++ leBytes 4 256)), 0, 0, 0, atnCmd .trim (leBytes 8 0x4000 ++ leBytes 4 0 ++ leBytes 4 256), seq0, runs_of (by decide +kernel), (by dsimp only; decide +kernel)⟩,
   ⟨running (paged pgReturning) (atnCmd .trim (leBytes 8 0x4000 ++ leBytes 4 256 ++ leBytes 4 0)), 0, 0, 0, atnCmd .trim (leBytes 8 0x4000 ++ leBytes 4 256 ++ leBytes 4 0), seq0, runs_of (by decide +kernel), (by dsimp only; decide +kernel)⟩,
   ⟨running up (atnCmd .trim (leBytes 8 0x4000 ++ leBytes 4 0 ++ leBytes 4 256)), 0, 0, 0, atnCmd .trim (leBytes 8 0x4000 ++ leBytes 4 0 ++ leBytes 4 256), .trim, .trim 0 0 0, by decide, runs_of (by decide +kernel), fun x h => absurd h (by simp [State.seq?, running, up])⟩,
   ⟨up, 0, 0, 0, .trim, .trim 0 0 0, by decide, fun c => not_runs (by decide +kernel) c⟩,
   ⟨{ paged pgSpilling with spills := [⟨0x5000, 0, 0xA000000000, none, false, none⟩] }, 0x5000, ⟨0x5000, 0, 0xA000000000, none, false, none⟩, (by decide +kernel)⟩,
   ⟨paged pgSpilling, 0x5000, (by decide +kernel)⟩,
   ⟨returning, 0x5000, { desc := 0x5000, span := cisternBase }, ⟨seq0, 0, 0, 0⟩, heap0, by decide +kernel, by decide +kernel, by rfl, by decide +kernel, by decide +kernel, region0, by decide +kernel⟩,
   ⟨returning, 0x5000, { desc := 0x5000, span := cisternBase }, ⟨seq0, 0, 0, 0⟩, heap0, by decide +kernel, by decide +kernel, by rfl, by decide +kernel, by decide +kernel, true, .inl rfl⟩,
   ⟨({ returning with counter := 6400000 } : State), 0x5000, { desc := 0x5000, span := cisternBase }, ⟨seq0, 0, 0, 0⟩, heap0, by decide +kernel, by decide +kernel, by rfl, by decide +kernel, by decide +kernel, .a, by decide +kernel⟩,
   ⟨up, 0x5000, true, (by decide +kernel)⟩,
   ⟨up, 0x5000, (by decide +kernel)⟩⟩

/-- What the clauses of AttentionStepsRunTheirEntries ask of a state and operands can be met. -/
theorem wit_AttentionStepsRunTheirEntries :
    (∃ (s : State) (p : PartId) (q : QueId) (n : Nat) (flt : UnitFault) (c : Cmd) (k : CmdKind) (i : Instr), (k, i) ∈ [(CmdKind.attnFinish, Instr.attnStepFinish p q n flt), (.attnNodes, .attnStepNodes p q n flt), (.attnCombine, .attnStepCombine p q n flt)] ∧ Runs s p q n k c ∧ (∃ r ∈ c.writes, s.mayWrite true c.adm r.lo r.len = false)) ∧
    (∃ (s : State) (p : PartId) (q : QueId) (n : Nat) (flt : UnitFault) (c : Cmd) (k : CmdKind) (i : Instr), (k, i) ∈ [(CmdKind.attnFinish, Instr.attnStepFinish p q n flt), (.attnNodes, .attnStepNodes p q n flt), (.attnCombine, .attnStepCombine p q n flt)] ∧ Runs s p q n k c ∧ (∀ r ∈ c.writes, s.mayWrite true c.adm r.lo r.len = true) ∧ flt ≠ .none) ∧
    (∃ (s : State) (p : PartId) (q : QueId) (n : Nat) (flt : UnitFault) (c : Cmd) (k : CmdKind) (i : Instr), (k, i) ∈ [(CmdKind.attnFinish, Instr.attnStepFinish p q n flt), (.attnNodes, .attnStepNodes p q n flt), (.attnCombine, .attnStepCombine p q n flt)] ∧ Runs s p q n k c ∧ (∀ r ∈ c.writes, s.mayWrite true c.adm r.lo r.len = true) ∧ flt = .none ∧ 
    let w := (s.startCmd c).1.lateAllocs (s.startCmd c).2
    (k = .attnCombine ∨ w.1.outstanding w.2 = [])) ∧
    (∃ (s : State) (p : PartId) (q : QueId) (n : Nat) (flt : UnitFault) (c : Cmd) (k : CmdKind) (i : Instr), (k, i) ∈ [(CmdKind.attnFinish, Instr.attnStepFinish p q n flt), (.attnNodes, .attnStepNodes p q n flt), (.attnCombine, .attnStepCombine p q n flt)] ∧ Runs s p q n k c ∧ (∀ r ∈ c.writes, s.mayWrite true c.adm r.lo r.len = true) ∧ flt = .none ∧ 
    let w := (s.startCmd c).1.lateAllocs (s.startCmd c).2
    k ≠ .attnCombine ∧ w.1.outstanding w.2 ≠ []) ∧
    (∃ (s : State) (p : PartId) (q : QueId) (n : Nat) (flt : UnitFault) (k : CmdKind) (i : Instr), (k, i) ∈ [(CmdKind.attnFinish, Instr.attnStepFinish p q n flt), (.attnNodes, .attnStepNodes p q n flt), (.attnCombine, .attnStepCombine p q n flt)] ∧ (∀ c, ¬ Runs s p q n k c)) :=
  ⟨⟨running wellsOff ({ atnCmd .attnCombine (repByte 64 0) with ranges := [⟨wellAddr 0 0, 64, true⟩] }), 0, 0, 0, .none, { atnCmd .attnCombine (repByte 64 0) with ranges := [⟨wellAddr 0 0, 64, true⟩] }, .attnCombine, .attnStepCombine 0 0 0 .none, by decide, runs_of (by decide +kernel), by decide +kernel⟩,
   ⟨running up ({ atnCmd .attnCombine (repByte 64 0) with ranges := [⟨wellAddr 0 0, 64, true⟩] }), 0, 0, 0, .vector, { atnCmd .attnCombine (repByte 64 0) with ranges := [⟨wellAddr 0 0, 64, true⟩] }, .attnCombine, .attnStepCombine 0 0 0 .vector, by decide, runs_of (by decide +kernel), by decide +kernel⟩,
   ⟨running up ({ atnCmd .attnCombine (repByte 64 0) with ranges := [⟨wellAddr 0 0, 64, true⟩] }), 0, 0, 0, .none, { atnCmd .attnCombine (repByte 64 0) with ranges := [⟨wellAddr 0 0, 64, true⟩] }, .attnCombine, .attnStepCombine 0 0 0 .none, by decide, runs_of (by decide +kernel), by decide +kernel, rfl, .inl rfl⟩,
   ⟨running (paged pgReturning) ({ cmdF .attnFinish 0x0D [(96, 1)] with copies := [(0, repByte 42 0 ++ [1, 1] ++ repByte 20 0), (0, leBytes 5 0x4000 ++ leBytes 3 1 ++ leBytes 4 255 ++ leBytes 2 1 ++ [0, 0])], notes := [0, 0, 0] }), 0, 0, 0, .none, { cmdF .attnFinish 0x0D [(96, 1)] with copies := [(0, repByte 42 0 ++ [1, 1] ++ repByte 20 0), (0, leBytes 5 0x4000 ++ leBytes 3 1 ++ leBytes 4 255 ++ leBytes 2 1 ++ [0, 0])], notes := [0, 0, 0] }, .attnFinish, .attnStepFinish 0 0 0 .none, by decide, runs_of (by decide +kernel), by decide +kernel, rfl, by decide, fun h => absurd (congrArg List.length h) (by decide +kernel)⟩,
   ⟨up, 0, 0, 0, .none, .attnFinish, .attnStepFinish 0 0 0 .none, by decide, fun c => not_runs (by decide +kernel) c⟩⟩

/-- What the clauses of PowerDomainsAreSwitched ask of a state and operands can be met. -/
theorem wit_PowerDomainsAreSwitched :
    (∃ (s : State) (p : Port) (pd : PdId), s.reached p = true ∧ s.ownsPd p pd = false) ∧
    (∃ (s : State) (p : Port) (pd : PdId) (st : St), s.reached p = true ∧ s.ownsPd p pd = true ∧ s.pdAnswer p pd true = some st) ∧
    (∃ (s : State) (p : Port) (pd : PdId) (st : St), s.reached p = true ∧ s.ownsPd p pd = true ∧ s.pdAnswer p pd false = some st) ∧
    (∃ (s : State) (p : Port) (pd : PdId), s.reached p = true ∧ s.ownsPd p pd = true ∧ s.pdAnswer p pd true = none) ∧
    (∃ (s : State) (pd : PdId) (m : PdMove), (s.pdMoves.find? (fun x => x.pd == pd) = some m) ∧ m.since + pdTime pd ≤ s.now) ∧
    (∃ (s : State) (pd : PdId) (m : PdMove), (s.pdMoves.find? (fun x => x.pd == pd) = some m) ∧ s.now < m.since + pdTime pd) ∧
    (∃ (s : State) (pd : PdId), (s.pdMoves.find? (fun x => x.pd == pd) = none)) ∧
    (∃ (s : State) (r : WellPart), (s.wctl r).st = .powering ∧ (s.wctl r).since + 3200 ≤ s.now) ∧
    (∃ (s : State) (r : WellPart), (¬ ((s.wctl r).st = .powering ∧ (s.wctl r).since + 3200 ≤ s.now))) ∧
    (∃ (s : State) (p : Port) (pd : PdId), s.reached p = true ∧ s.ownsPd p pd = true ∧ s.pdAnswer p pd false = none) ∧
    (∃ (s : State) (r : WellPart), (s.wctl r).st = .closing ∧ s.inflightOf r = 0) ∧
    (∃ (s : State) (r : WellPart), (¬ ((s.wctl r).st = .closing ∧ s.inflightOf r = 0))) ∧
    (∃ (s : State) (r : WellPart), (s.wctl r).st = .closing ∧ (s.wctl r).since + 1280 ≤ s.now) ∧
    (∃ (s : State) (r : WellPart), (¬ ((s.wctl r).st = .closing ∧ (s.wctl r).since + 1280 ≤ s.now))) :=
  ⟨⟨({ up with parts := (Vector.replicate 16 {}).set 0 { part0 with owner := .b } } : State), .a, 0, (by decide +kernel)⟩,
   ⟨up, .a, 0, .ok, (by decide +kernel)⟩,
   ⟨up, .a, 123, .badCommand, (by decide +kernel)⟩,
   ⟨({ up with pdOn := 0 } : State), .a, 127, (by decide +kernel)⟩,
   ⟨({ up with pdOn := 0, pdMoves := [⟨127, true, some .a, 0⟩] } : State), 127, ⟨127, true, some .a, 0⟩, (by decide +kernel)⟩,
   ⟨({ up with pdOn := 0, pdMoves := [⟨127, true, some .a, 999999⟩] } : State), 127, ⟨127, true, some .a, 999999⟩, (by decide +kernel)⟩,
   ⟨up, 127, (by decide +kernel)⟩,
   ⟨({ up with hw := up.hw.set 0 { st := .powering } } : State), .half 0, (by decide +kernel)⟩,
   ⟨up, .half 0, (by decide +kernel)⟩,
   ⟨{ up with pdOn := BitVec.allOnes 128 }, .a, 63, (by decide +kernel)⟩,
   ⟨({ up with hw := up.hw.set 0 { st := .closing } } : State), .half 0, (by decide +kernel)⟩,
   ⟨up, .half 0, (by decide +kernel)⟩,
   ⟨({ up with hw := up.hw.set 0 { st := .closing } } : State), .half 0, (by decide +kernel)⟩,
   ⟨up, .half 0, (by decide +kernel)⟩⟩

/-- What the clauses of NetworkTimeFollowsItsOps ask of a state and operands can be met. -/
theorem wit_NetworkTimeFollowsItsOps :
    (∃ (s : State) (p : Port), s.reached p = true) ∧
    (∃ (s : State) (p : Port) (force : Bool), s.reached p = true ∧ s.tbFollows = false) ∧
    (∃ (s : State) (p : Port) (force : Bool), s.reached p = true ∧ s.tbFollows = true) ∧
    (∃ (s : State) (before after : List TbOp) (o : TbOp), s.pending = [] ∧ s.sys.rails = .on ∧ s.sys.clocked = true ∧ s.det.holdNow = false ∧ s.tb.ops = before ++ o :: after ∧ (∀ x ∈ before, x.port = .b) ∧ (o.port = .a ∨ (before = [] ∧ ∀ x ∈ after, x.port = .b))) ∧
    (∃ (s : State), s.tb.pps.getLsbD 0 = true ∧ s.tb.ppsStopped = false ∧ s.tb.ppsLevel = false ∧ s.sys.clocked = true ∧ s.now ≠ 0 ∧ s.tb.second (s.now - 1) ≠ s.tb.second s.now ∧ s.tb.ppsSecond ≠ some (s.tb.second s.now)) ∧
    (∃ (s : State), (s.tb.pps.getLsbD 0 = false ∨ s.tb.ppsStopped = true ∨ s.tb.ppsLevel = true ∨ s.sys.clocked = false ∨ s.now = 0 ∨ s.tb.second (s.now - 1) = s.tb.second s.now ∨ s.tb.ppsSecond = some (s.tb.second s.now))) ∧
    (∃ (s : State), s.tb.ppsLevel = true ∧ s.tb.ppsRose + s.tb.ppsWidth ≤ s.now) ∧
    (∃ (s : State), (¬ (s.tb.ppsLevel = true ∧ s.tb.ppsRose + s.tb.ppsWidth ≤ s.now))) ∧
    (∃ (s : State) (c : W64), s.sys.rails = .on ∧ s.sys.clocked = true) ∧
    (∃ (s : State) (c : W64), (¬ (s.sys.rails = .on ∧ s.sys.clocked = true))) :=
  ⟨⟨up, .a, (by decide +kernel)⟩,
   ⟨up, .a, false, (by decide +kernel)⟩,
   ⟨({ up with sph := { role := 1 } } : State), .a, false, (by decide +kernel)⟩,
   ⟨{ up with tb := { ops := [.rate .a 5] } }, [], [], .rate .a 5, by decide +kernel, by decide +kernel, by decide +kernel, by decide +kernel, by decide +kernel, (fun x h => by cases h), .inl rfl⟩,
   ⟨({ up with counter := 640000000, tb := { pps := 1 } } : State), (by decide +kernel)⟩,
   ⟨up, (by decide +kernel)⟩,
   ⟨({ up with counter := 64000000, tb := { ppsLevel := true } } : State), (by decide +kernel)⟩,
   ⟨up, (by decide +kernel)⟩,
   ⟨up, 5, (by decide +kernel)⟩,
   ⟨State.reset, 5, (by decide +kernel)⟩⟩

/-- What the clauses of EthernetPortsFollowTheirOps ask of a state and operands can be met. -/
theorem wit_EthernetPortsFollowTheirOps :
    (∃ (s : State) (p : Port) (e : EthId) (b : Bool) (v : W32), s.reached p = true ∧ s.diePresent (dieOfEth e) = true ∧ s.mayEth p e = false) ∧
    (∃ (s : State) (p : Port) (e : EthId) (b : Bool) (v : W32), s.diePresent (dieOfEth e) = false) ∧
    (∃ (s : State) (p : Port) (e : EthId), s.reached p = true ∧ s.diePresent (dieOfEth e) = true ∧ s.mayEth p e = true ∧ s.eth[e].state ≠ .off) ∧
    (∃ (s : State) (p : Port) (e : EthId), s.reached p = true ∧ s.diePresent (dieOfEth e) = true ∧ s.mayEth p e = true ∧ (s.eth[e].state = .off ∨ s.eth[e].state = .fenced ∨ s.eth[e].state = .notReady)) ∧
    (∃ (s : State) (p : Port) (e : EthId), s.reached p = true ∧ s.diePresent (dieOfEth e) = true ∧ s.mayEth p e = true ∧ s.eth[e].state = .off) ∧
    (∃ (s : State) (p : Port) (e : EthId), s.reached p = true ∧ s.diePresent (dieOfEth e) = true ∧ s.mayEth p e = true ∧ (s.eth[e].state = .training ∨ s.eth[e].state = .up ∨ s.eth[e].state = .down)) ∧
    (∃ (s : State) (e : EthId) (v : Nat), (s.eth[e].state = .training ∨ s.eth[e].state = .down) ∧ 1 ≤ linkSpeed e s.eth[e].cfg v ∧ linkSpeed e s.eth[e].cfg v ≤ 4) ∧
    (∃ (s : State) (e : EthId) (v : Nat), (¬ ((s.eth[e].state = .training ∨ s.eth[e].state = .down) ∧ 1 ≤ linkSpeed e s.eth[e].cfg v ∧ linkSpeed e s.eth[e].cfg v ≤ 4))) ∧
    (∃ (s : State) (e : EthId), s.eth[e].state = .up) ∧
    (∃ (s : State) (e : EthId), s.eth[e].state ≠ .up) ∧
    (∃ (s : State) (p : Port) (e : EthId) (b : Bool) (v : W32), s.reached p = true ∧ s.diePresent (dieOfEth e) = true ∧ s.mayEth p e = true ∧ (s.eth[e].state = .up ∨ ringOf (if b then s.eth[e].txtBase else s.eth[e].txgBase) = none)) ∧
    (∃ (s : State) (p : Port) (e : EthId) (v : W32), s.reached p = true ∧ s.diePresent (dieOfEth e) = true ∧ s.mayEth p e = true ∧ s.eth[e].state ≠ .up ∧ (ringOf s.eth[e].txtBase).isSome = true ∧ (v - s.eth[e].txtDone).toNat ≤ 4096) ∧
    (∃ (s : State) (p : Port) (e : EthId) (v : W32), s.reached p = true ∧ s.diePresent (dieOfEth e) = true ∧ s.mayEth p e = true ∧ s.eth[e].state ≠ .up ∧ (ringOf s.eth[e].txgBase).isSome = true ∧ (v - s.eth[e].txgDone).toNat ≤ 4096) ∧
    (∃ (s : State) (p : Port) (e : EthId) (v : W32), s.reached p = true ∧ s.diePresent (dieOfEth e) = true ∧ s.mayEth p e = true) :=
  ⟨⟨ethIs { state := .up, speed := 4, cfg := 1, owner := some .b }, .a, 0, true, 0, (by decide +kernel)⟩,
   ⟨({ up with sys := { up.sys with die1 := false } } : State), .a, 3, true, 0, (by decide +kernel)⟩,
   ⟨ethUp, .a, 0, (by decide +kernel)⟩,
   ⟨up, .a, 0, (by decide +kernel)⟩,
   ⟨up, .a, 0, (by decide +kernel)⟩,
   ⟨ethUp, .a, 0, (by decide +kernel)⟩,
   ⟨ethIs { state := .training, cfg := 1 }, 0, 0, (by decide +kernel)⟩,
   ⟨ethUp, 0, 3, (by decide +kernel)⟩,
   ⟨ethUp, 0, (by decide +kernel)⟩,
   ⟨up, 0, (by decide +kernel)⟩,
   ⟨ethUp, .a, 0, true, 5, (by decide +kernel)⟩,
   ⟨ethIs { txtBase := 0x10000 }, .a, 0, 3, (by decide +kernel)⟩,
   ⟨ethIs { txgBase := 0x10000 }, .a, 0, 3, (by decide +kernel)⟩,
   ⟨up, .a, 0, 7, (by decide +kernel)⟩⟩

/-- What the clauses of FramesComeAndGo ask of a state and operands can be met. -/
theorem wit_FramesComeAndGo :
    (∃ (s : State) (e : EthId) (stamp : Nat) (fcs : Bool) (f : List Byte), 
    let x := s.eth[e]
    x.state ≠ .up) ∧
    (∃ (s : State) (e : EthId) (stamp : Nat) (fcs : Bool) (f : List Byte), 
    let x := s.eth[e]
    let bad := fcs = false ∨ f.length < 60 ∨ 1518 < f.length
    x.state = .up ∧ bad) ∧
    (∃ (s : State) (e : EthId) (stamp : Nat) (fcs : Bool) (f : List Byte), 
    let x := s.eth[e]
    let bad := fcs = false ∨ f.length < 60 ∨ 1518 < f.length
    x.state = .up ∧ ¬ bad ∧ x.passes (bytesAt f 0 6) = false) ∧
    (∃ (s : State) (e : EthId) (stamp : Nat) (fcs : Bool) (f : List Byte), 
    let x := s.eth[e]
    let bad := fcs = false ∨ f.length < 60 ∨ 1518 < f.length
    let loop := (etherOf f).2 = 0x88B5 ∧ fieldAt f ((etherOf f).1 + 1) 1 = 2 ∧ s.stationsAt e (bytesAt f 6 6) ≠ []
    x.state = .up ∧ ¬ bad ∧ x.passes (bytesAt f 0 6) = true ∧ loop) ∧
    (∃ (s : State) (e : EthId) (stamp : Nat) (fcs : Bool) (f : List Byte), 
    let x := s.eth[e]
    let bad := fcs = false ∨ f.length < 60 ∨ 1518 < f.length
    let loop := (etherOf f).2 = 0x88B5 ∧ fieldAt f ((etherOf f).1 + 1) 1 = 2 ∧ s.stationsAt e (bytesAt f 6 6) ≠ []
    let audio := ∃ b ∈ s.bindings, b.matches e f = true
    x.state = .up ∧ ¬ bad ∧ x.passes (bytesAt f 0 6) = true ∧ ¬ loop ∧ audio) ∧
    (∃ (s : State) (e : EthId) (stamp : Nat) (fcs : Bool) (f : List Byte), 
    let x := s.eth[e]
    let bad := fcs = false ∨ f.length < 60 ∨ 1518 < f.length
    let loop := (etherOf f).2 = 0x88B5 ∧ fieldAt f ((etherOf f).1 + 1) 1 = 2 ∧ s.stationsAt e (bytesAt f 6 6) ≠ []
    let audio := ∃ b ∈ s.bindings, b.matches e f = true
    x.state = .up ∧ ¬ bad ∧ x.passes (bytesAt f 0 6) = true ∧ ¬ loop ∧ ¬ audio ∧ (ringOf x.rxBase = none ∨ x.rxProd = x.rxDone)) ∧
    (∃ (s : State) (e : EthId) (stamp : Nat) (fcs : Bool) (f : List Byte), 
    let x := s.eth[e]
    let bad := fcs = false ∨ f.length < 60 ∨ 1518 < f.length
    let loop := (etherOf f).2 = 0x88B5 ∧ fieldAt f ((etherOf f).1 + 1) 1 = 2 ∧ s.stationsAt e (bytesAt f 6 6) ≠ []
    let audio := ∃ b ∈ s.bindings, b.matches e f = true
    x.state = .up ∧ ¬ bad ∧ x.passes (bytesAt f 0 6) = true ∧ ¬ loop ∧ ¬ audio ∧ (ringOf x.rxBase).isSome = true ∧ x.rxProd ≠ x.rxDone) ∧
    (∃ (s : State) (e : EthId), s.eth[e].state ≠ .up) ∧
    (∃ (s : State) (e : EthId) (d : List Byte), s.eth[e].state = .up ∧ s.txHead e true = some d ∧ s.txOk true d = false) ∧
    (∃ (s : State) (e : EthId), s.eth[e].state = .up ∧ (∀ d, s.txHead e true = some d → s.txOk true d = true) ∧ (∀ d, s.txHead e false = some d → s.txOk false d = true) ∧ s.now < s.eth[e].busy) ∧
    (∃ (s : State) (e : EthId) (f : DriveFrame), s.eth[e].state = .up ∧ (∀ d, s.txHead e true = some d → s.txOk true d = true) ∧ (∀ d, s.txHead e false = some d → s.txOk false d = true) ∧ s.eth[e].busy ≤ s.now ∧ s.driveNow e = some f) ∧
    (∃ (s : State) (e : EthId) (d : List Byte), s.eth[e].state = .up ∧ s.txHead e true = some d ∧ s.txOk true d = true ∧ (∀ g, s.txHead e false = some g → s.txOk false g = true) ∧ s.eth[e].busy ≤ s.now ∧ s.driveNow e = none ∧ s.txLaunch d = s.now ∧ s.eth[e].lateHead = false ∧ clearUntil (s.nextReserved e s.now) (s.now + wireTime s.eth[e].speed (txLen d) + 16) = true) ∧
    (∃ (s : State) (e : EthId) (d : List Byte), s.eth[e].state = .up ∧ s.txHead e true = none ∧ s.txHead e false = some d ∧ s.txOk false d = true ∧ s.eth[e].busy ≤ s.now ∧ s.driveNow e = none ∧ clearUntil (s.nextReserved e s.now) (s.now + wireTime s.eth[e].speed (txLen d) + 16) = true) ∧
    (∃ (s : State) (e : EthId) (f : DriveFrame), f ∈ s.eth[e].drives ∧ f.launch < s.now) ∧
    (∃ (s : State) (e : EthId) (d : List Byte), s.eth[e].state = .up ∧ s.eth[e].drives = [] ∧ s.txHead e true = some d ∧ s.txOk true d = true ∧ s.txLaunch d < s.now ∧ s.eth[e].lateHead = false) ∧
    (∃ (s : State) (e : EthId), (∀ f ∈ s.eth[e].drives, s.now ≤ f.launch) ∧ (∀ d, s.txHead e true = some d → s.now ≤ s.txLaunch d)) :=
  ⟨⟨up, 0, 0, true, [], (by dsimp only; decide +kernel)⟩,
   ⟨ethUp, 0, 0, false, bcast, (by dsimp only; decide +kernel)⟩,
   ⟨ethUp, 0, 0, true, repByte 60 1, (by dsimp only; decide +kernel)⟩,
   ⟨({ ethUp with stations := up.stations.set 0 { state := .run } } : State), 0, 0, true, repByte 6 0xFF ++ repByte 6 0 ++ [0x88, 0xB5, 0, 2] ++ repByte 44 0, (by dsimp only; decide +kernel)⟩,
   ⟨({ ethUp with bindings := [⟨0, repByte 32 0⟩] } : State), 0, 0, true, repByte 6 0xFF ++ repByte 6 0 ++ [8, 0, 0x45] ++ repByte 8 0 ++ [17] ++ repByte 36 0, (by dsimp only; decide +kernel)⟩,
   ⟨ethUp, 0, 0, true, bcast, (by dsimp only; decide +kernel)⟩,
   ⟨ethIs { state := .up, speed := 4, cfg := 1, owner := some .a, rxBase := 0x10000, rxProd := 1 }, 0, 0, true, bcast, (by dsimp only; decide +kernel)⟩,
   ⟨up, 0, (by decide +kernel)⟩,
   ⟨ethIs { state := .up, speed := 4, cfg := 1, owner := some .a, txtBase := 0x10000, txtProd := 1 }, 0, repByte 32 0, (by decide +kernel)⟩,
   ⟨ethIs { state := .up, speed := 4, cfg := 1, owner := some .a, busy := 2000000 }, 0, by decide +kernel, forall_none (by decide +kernel), forall_none (by decide +kernel), by decide +kernel⟩,
   ⟨ethIs { state := .up, speed := 4, cfg := 1, owner := some .a, drives := [⟨0, 0, 1000000, []⟩] }, 0, ⟨0, 0, 1000000, []⟩, by decide +kernel, forall_none (by decide +kernel), forall_none (by decide +kernel), by decide +kernel⟩,
   ⟨(holding (ethIs { state := .up, speed := 4, cfg := 1, owner := some .a, txtBase := 0x10000, txtProd := 1 }) 0x10000 (leBytes 32 0xf424000083c0000002000)), 0, leBytes 32 0xf424000083c0000002000, by decide +kernel, by decide +kernel, by decide +kernel, forall_none (by decide +kernel), by decide +kernel⟩,
   ⟨(holding (ethIs { state := .up, speed := 4, cfg := 1, owner := some .a, txgBase := 0x10000, txgProd := 1 }) 0x10000 (leBytes 32 0x3c0000020000)), 0, leBytes 32 0x3c0000020000, (by decide +kernel)⟩,
   ⟨ethIs { state := .up, speed := 4, cfg := 1, owner := some .a, drives := [⟨0, 0, 5, []⟩] }, 0, ⟨0, 0, 5, []⟩, (by decide +kernel)⟩,
   ⟨(holding (ethIs { state := .up, speed := 4, cfg := 1, owner := some .a, txtBase := 0x10000, txtProd := 1 }) 0x10000 (leBytes 32 0xf423f00083c0000002000)), 0, leBytes 32 0xf423f00083c0000002000, (by decide +kernel)⟩,
   ⟨up, 0, by decide +kernel, forall_none (by decide +kernel)⟩⟩

/-- What the clauses of StationsAndAxesAreLoadedAndStopped ask of a state and operands can be met. -/
theorem wit_StationsAndAxesAreLoadedAndStopped :
    (∃ (s : State) (p : Port) (k : StationId) (a : AxisId), s.diePresent (dieOfStation k) = false) ∧
    (∃ (s : State) (p : Port) (k : StationId) (a : AxisId), s.diePresent (dieOfAxis a) = false) ∧
    (∃ (s : State) (p : Port) (k : StationId), s.reached p = true ∧ s.diePresent (dieOfStation k) = true ∧ s.mayStation p k = false) ∧
    (∃ (s : State) (p : Port) (a : AxisId), s.reached p = true ∧ s.diePresent (dieOfAxis a) = true ∧ s.mayAxis p a = false) ∧
    (∃ (s : State) (p : Port) (k : StationId), s.reached p = true ∧ s.diePresent (dieOfStation k) = true ∧ s.mayStation p k = true ∧ 
    let b := (s.readBlock s.stations[k].cfgAddr.toNat 64).1.getD []
    let good := (s.readBlock s.stations[k].cfgAddr.toNat 64).1 ≠ none ∧ stationOk k b = true ∧ (s.stations[k].state = .off ∨ s.stations[k].state = .notReady) ∧
      s.lpeUsable (dieOfStation k) = true ∧ s.owns p (Fin.ofNat 16 (fieldAt b 10 1)) = true ∧ s.sph.role ≠ 1 ∧ s.stationReserved k = false
    good) ∧
    (∃ (s : State) (p : Port) (k : StationId), s.reached p = true ∧ s.diePresent (dieOfStation k) = true ∧ s.mayStation p k = true ∧ 
    let b := (s.readBlock s.stations[k].cfgAddr.toNat 64).1.getD []
    let good := (s.readBlock s.stations[k].cfgAddr.toNat 64).1 ≠ none ∧ stationOk k b = true ∧ (s.stations[k].state = .off ∨ s.stations[k].state = .notReady) ∧
      s.lpeUsable (dieOfStation k) = true ∧ s.owns p (Fin.ofNat 16 (fieldAt b 10 1)) = true ∧ s.sph.role ≠ 1 ∧ s.stationReserved k = false
    ¬ good) ∧
    (∃ (s : State) (p : Port) (k : StationId), s.reached p = true ∧ s.diePresent (dieOfStation k) = true ∧ s.mayStation p k = true ∧ s.axesOf k ≠ []) ∧
    (∃ (s : State) (p : Port) (k : StationId), s.reached p = true ∧ s.diePresent (dieOfStation k) = true ∧ s.mayStation p k = true ∧ s.axesOf k = []) ∧
    (∃ (s : State) (p : Port) (a : AxisId) (b : List Byte), s.reached p = true ∧ s.diePresent (dieOfAxis a) = true ∧ s.mayAxis p a = true ∧ (s.readBlock s.axes[a].cfgAddr.toNat 128).1 = some b ∧ axisOk b = true ∧ s.axisFits a b = true ∧ s.axes[a].state ≠ .armed ∧ s.axes[a].state ≠ .run) ∧
    (∃ (s : State) (p : Port) (a : AxisId) (b : List Byte), s.reached p = true ∧ s.diePresent (dieOfAxis a) = true ∧ s.mayAxis p a = true ∧ (s.readBlock s.axes[a].cfgAddr.toNat 128).1 = some b ∧ axisOk b = true ∧ s.axisFits a b = true ∧ (s.axes[a].state = .armed ∨ s.axes[a].state = .run) ∧ b.take 8 = s.axes[a].blk.take 8 ∧ b.drop 60 = s.axes[a].blk.drop 60) ∧
    (∃ (s : State) (p : Port) (a : AxisId), s.reached p = true ∧ s.diePresent (dieOfAxis a) = true ∧ s.mayAxis p a = true ∧ ((s.readBlock s.axes[a].cfgAddr.toNat 128).1 = none ∨ ∃ b, (s.readBlock s.axes[a].cfgAddr.toNat 128).1 = some b ∧ (axisOk b = false ∨ s.axisFits a b = false ∨ ((s.axes[a].state = .armed ∨ s.axes[a].state = .run) ∧ (b.take 8 ≠ s.axes[a].blk.take 8 ∨ b.drop 60 ≠ s.axes[a].blk.drop 60))))) ∧
    (∃ (s : State) (p : Port) (a : AxisId), s.reached p = true ∧ s.diePresent (dieOfAxis a) = true ∧ s.mayAxis p a = true) ∧
    (∃ (s : State) (p : Port) (a : AxisId), s.reached p = true ∧ s.diePresent (dieOfAxis a) = true ∧ s.mayAxis p a = true ∧ (s.axes[a].state = .armed ∨ s.axes[a].state = .run)) ∧
    (∃ (s : State) (p : Port) (a : AxisId), s.reached p = true ∧ s.diePresent (dieOfAxis a) = true ∧ s.mayAxis p a = true ∧ (¬ (s.axes[a].state = .armed ∨ s.axes[a].state = .run))) ∧
    (∃ (s : State) (p : Port), s.reached p = true ∧ s.axisCause = false ∧ s.pairCause = false) ∧
    (∃ (s : State) (p : Port), (s.axisCause = true ∨ s.pairCause = true)) :=
  ⟨⟨({ up with sys := { up.sys with die1 := false } } : State), .a, 16, 0, (by decide +kernel)⟩,
   ⟨({ up with sys := { up.sys with die1 := false } } : State), .a, 0, 64, (by decide +kernel)⟩,
   ⟨({ ({ up with parts := (Vector.replicate 16 {}).set 0 { part0 with owner := .b } } : State) with stations := up.stations.set 0 { state := .run, blk := repByte 64 0 } } : State), .a, 0, (by decide +kernel)⟩,
   ⟨axisIs ({ up with parts := (Vector.replicate 16 {}).set 0 { part0 with owner := .b } } : State) { state := .run, blk := repByte 128 0 }, .a, 0, (by decide +kernel)⟩,
   ⟨holding (statIs { cfgAddr := 0x7000 }) 0x7000 (leBytes 64 0x3e800000280000000000000000000004e200000000000000000ffff0000), .a, 0, (by dsimp only; decide +kernel)⟩,
   ⟨up, .a, 0, (by dsimp only; decide +kernel)⟩,
   ⟨axisIs up { state := .armed }, .a, 0, (by decide +kernel)⟩,
   ⟨up, .a, 0, (by decide +kernel)⟩,
   ⟨holding (axisIs (statIs { state := .run, blk := leBytes 64 0x3e800000280000000000000000000004e200000000000000000ffff0000 }) { cfgAddr := 0x7000 }) 0x7000 (leBytes 128 0x90000000000000000010000000000000800000000000000000013f8000003f8000003f8000003f800000bf800000000000000000000000000000000000000000000000000000000000000001000000000000), .a, 0, leBytes 128 0x90000000000000000010000000000000800000000000000000013f8000003f8000003f8000003f800000bf800000000000000000000000000000000000000000000000000000000000000001000000000000, (by decide +kernel)⟩,
   ⟨holding (axisIs (statIs { state := .run, blk := leBytes 64 0x3e800000280000000000000000000004e200000000000000000ffff0000 }) { cfgAddr := 0x7000, state := .armed, blk := leBytes 128 0x90000000000000000010000000000000800000000000000000013f8000003f8000003f8000003f800000bf800000000000000000000000000000000000000000000000000000000000000001000000000000 }) 0x7000 (leBytes 128 0x90000000000000000010000000000000800000000000000000013f8000003f8000003f8000003f800000bf800000000000000000000000000000000000000000000000000000000000000001000000000000), .a, 0, leBytes 128 0x90000000000000000010000000000000800000000000000000013f8000003f8000003f8000003f800000bf800000000000000000000000000000000000000000000000000000000000000001000000000000, (by decide +kernel)⟩,
   ⟨up, .a, 0, (by decide +kernel), (by decide +kernel), (by decide +kernel), .inr ⟨repByte 128 0, by decide +kernel⟩⟩,
   ⟨up, .a, 0, (by decide +kernel)⟩,
   ⟨axisIs up { state := .armed }, .a, 0, (by decide +kernel)⟩,
   ⟨up, .a, 0, (by decide +kernel)⟩,
   ⟨up, .a, (by decide +kernel)⟩,
   ⟨statIs { state := .halted }, .a, (by decide +kernel)⟩⟩

/-- What the clauses of LoopFramesMoveTheAxes ask of a state and operands can be met. -/
theorem wit_LoopFramesMoveTheAxes :
    (∃ (s : State) (k : StationId) (a : AxisId), s.pending = [] ∧ s.sys.rails = .on ∧ s.sys.clocked = true ∧ s.det.holdNow = false ∧ s.tb.ops = [] ∧ s.pm.pdTwins = [] ∧ s.stations[k].atInst (s.counter + 1).toNat = true ∧ a ∈ s.axesOf k) ∧
    (∃ (s : State) (k : StationId), (s.stations[k].state = .run ∨ s.stations[k].state = .halted) ∧ s.stations[k].updated = none ∧ s.stations[k].inst s.stations[k].next + s.stations[k].fbOff ≤ s.now ∧ s.stFirst k = false) ∧
    (∃ (s : State) (k : StationId), ((s.stations[k].state ≠ .run ∧ s.stations[k].state ≠ .halted) ∨ s.stations[k].updated ≠ none ∨ s.now < s.stations[k].inst s.stations[k].next + s.stations[k].fbOff ∨ s.stFirst k = true)) ∧
    (∃ (s : State) (k : StationId) (n : Nat), s.stations[k].updated = some n ∧ s.stations[k].inst n + s.stations[k].launchOff - leadOf (dieOfEth s.stations[k].port != dieOfStation k) (s.stPaired k) ≤ s.now) ∧
    (∃ (s : State) (k : StationId), (s.stations[k].updated = none ∨ ∃ n, s.stations[k].updated = some n ∧ s.now < s.stations[k].inst n + s.stations[k].launchOff - leadOf (dieOfEth s.stations[k].port != dieOfStation k) (s.stPaired k))) ∧
    (∃ (s : State) (k : StationId) (f : DriveFrame), s.stations[k].held = some f ∧ f.launch - leadOf (dieOfEth s.stations[k].port != dieOfStation k) false ≤ s.now) ∧
    (∃ (s : State) (k : StationId) (b : Bool), (s.stations[k].held = none ∨ ∃ f, s.stations[k].held = some f ∧ s.now < f.launch - leadOf (dieOfEth s.stations[k].port != dieOfStation k) false)) ∧
    (∃ (s : State) (r : PairId) (p0 p1 : Bool), s.pairs[r].axisTest = true) ∧
    (∃ (s : State) (r : PairId) (p0 p1 : Bool), s.pairs[r].axisTest = false) ∧
    (∃ (s : State) (e : EthId), s.eth[e].toLoop = []) ∧
    (∃ (s : State) (e : EthId) (stamp : Nat) (f : List Byte) (rest : List (Nat × List Byte)), s.eth[e].toLoop = (stamp, f) :: rest ∧ s.stationsAt e (bytesAt f 6 6) = []) ∧
    (∃ (s : State) (e : EthId) (stamp : Nat) (f : List Byte) (rest : List (Nat × List Byte)) (k : StationId), s.eth[e].toLoop = (stamp, f) :: rest ∧ (s.stationsAt e (bytesAt f 6 6)) = [k]) :=
  ⟨⟨({ statIs { state := .run, blk := repByte 12 0 ++ leBytes 4 1 ++ repByte 48 0 } with axes := up.axes.set 0 { state := .run, blk := repByte 128 0 } } : State), 0, 0, (by decide +kernel)⟩,
   ⟨statIs { state := .run }, 0, (by decide +kernel)⟩,
   ⟨up, 0, (by decide +kernel)⟩,
   ⟨statIs { state := .run, updated := some 0 }, 0, 0, (by decide +kernel)⟩,
   ⟨up, 0, .inl (by decide +kernel)⟩,
   ⟨statIs { held := some ⟨0, 0, 1000000, []⟩ }, 0, ⟨0, 0, 1000000, []⟩, (by decide +kernel)⟩,
   ⟨up, 0, true, .inl (by decide +kernel)⟩,
   ⟨({ up with pairs := up.pairs.set 0 { axisTest := true } } : State), 0, true, false, (by decide +kernel)⟩,
   ⟨up, 0, true, true, (by decide +kernel)⟩,
   ⟨up, 0, (by decide +kernel)⟩,
   ⟨ethIs { state := .up, speed := 4, cfg := 1, owner := some .a, toLoop := [(0, bcast)] }, 0, 0, bcast, [], (by decide +kernel)⟩,
   ⟨({ ethIs { state := .up, speed := 4, cfg := 1, owner := some .a, toLoop := [(0, bcast)] } with stations := up.stations.set 0 { state := .run } } : State), 0, 0, bcast, [], 0, (by decide +kernel)⟩⟩

/-- What the clauses of CameraPortsFollowTheirOps ask of a state and operands can be met. -/
theorem wit_CameraPortsFollowTheirOps :
    (∃ (s : State) (p : Port) (v : CamId) (w : W32), s.diePresent (dieOfCam v) = false) ∧
    (∃ (s : State) (p : Port) (v : CamId) (w : W32), s.reached p = true ∧ s.diePresent (dieOfCam v) = true ∧ s.mayCam p v = false) ∧
    (∃ (s : State) (p : Port) (v : CamId), s.reached p = true ∧ s.diePresent (dieOfCam v) = true ∧ s.mayCam p v = true ∧ s.cams[v].state = .fenced) ∧
    (∃ (s : State) (p : Port) (v : CamId), s.reached p = true ∧ s.diePresent (dieOfCam v) = true ∧ s.mayCam p v = true ∧ s.cams[v].state ≠ .fenced ∧ s.domainOn (camPd v) = false) ∧
    (∃ (s : State) (p : Port) (v : CamId), s.reached p = true ∧ s.diePresent (dieOfCam v) = true ∧ s.mayCam p v = true ∧ s.cams[v].state ≠ .fenced ∧ s.domainOn (camPd v) = true ∧ 
    let b := (s.readBlock s.cams[v].cfgAddr.toNat 128).1.getD []
    let y : Camera := { blk := b }
    let good := (s.readBlock s.cams[v].cfgAddr.toNat 128).1 ≠ none ∧ cameraOk b = true ∧ s.cams[v].cfgAddr.toNat + 128 ≤ s.mainEnd ∧ s.owns p y.part = true ∧
      y.bufBytes ≤ y.bufStride ∧ (∀ i, i < y.nbuf → s.intakePlace y.part (y.bufBase + i * y.bufStride) y.bufBytes = true) ∧
      s.intakePlace y.part y.recBase (64 * y.nbuf) = true
    good) ∧
    (∃ (s : State) (p : Port) (v : CamId), s.reached p = true ∧ s.diePresent (dieOfCam v) = true ∧ s.mayCam p v = true ∧ s.cams[v].state ≠ .fenced ∧ s.domainOn (camPd v) = true ∧ 
    let b := (s.readBlock s.cams[v].cfgAddr.toNat 128).1.getD []
    let y : Camera := { blk := b }
    let good := (s.readBlock s.cams[v].cfgAddr.toNat 128).1 ≠ none ∧ cameraOk b = true ∧ s.cams[v].cfgAddr.toNat + 128 ≤ s.mainEnd ∧ s.owns p y.part = true ∧
      y.bufBytes ≤ y.bufStride ∧ (∀ i, i < y.nbuf → s.intakePlace y.part (y.bufBase + i * y.bufStride) y.bufBytes = true) ∧
      s.intakePlace y.part y.recBase (64 * y.nbuf) = true
    ¬ good) ∧
    (∃ (s : State) (p : Port) (v : CamId), s.reached p = true ∧ s.diePresent (dieOfCam v) = true ∧ s.mayCam p v = true ∧ (s.cams[v].state = .training ∨ s.cams[v].state = .running)) ∧
    (∃ (s : State) (p : Port) (v : CamId), s.reached p = true ∧ s.diePresent (dieOfCam v) = true ∧ s.mayCam p v = true ∧ (¬ (s.cams[v].state = .training ∨ s.cams[v].state = .running))) ∧
    (∃ (s : State) (v : CamId), s.cams[v].state = .running) ∧
    (∃ (s : State) (v : CamId), s.cams[v].state ≠ .running) ∧
    (∃ (s : State) (p : Port) (v : CamId) (w : W32), s.reached p = true ∧ s.diePresent (dieOfCam v) = true ∧ s.mayCam p v = true ∧ s.cams[v].cciBusy = true) ∧
    (∃ (s : State) (p : Port) (v : CamId) (w : W32), s.reached p = true ∧ s.diePresent (dieOfCam v) = true ∧ s.mayCam p v = true ∧ s.cams[v].cciBusy = false) ∧
    (∃ (s : State) (v : CamId) (ack : Bool) (d : Byte), s.cams[v].cciBusy = true) ∧
    (∃ (s : State) (v : CamId) (ack : Bool) (d : Byte), s.cams[v].cciBusy = false) ∧
    (∃ (s : State) (v : CamId), 
    let start := near48 s.cams[v].enabledAt (fieldAt s.cams[v].blk 112 6)
    let due := (s.cams[v].state = .training ∨ s.cams[v].state = .running) ∧ s.cams[v].trigger = true ∧ start ≤ s.now ∧ s.cams[v].enabledAt < s.now ∧
      (s.now - start) % s.cams[v].trigPeriod = 0
    due) ∧
    (∃ (s : State) (v : CamId), 
    let start := near48 s.cams[v].enabledAt (fieldAt s.cams[v].blk 112 6)
    let due := (s.cams[v].state = .training ∨ s.cams[v].state = .running) ∧ s.cams[v].trigger = true ∧ start ≤ s.now ∧ s.cams[v].enabledAt < s.now ∧
      (s.now - start) % s.cams[v].trigPeriod = 0
    ¬ due) ∧
    (∃ (s : State) (v : CamId), s.cams[v].gpio = true ∧ s.cams[v].gpioRose + 40960 ≤ s.now) ∧
    (∃ (s : State) (v : CamId), (¬ (s.cams[v].gpio = true ∧ s.cams[v].gpioRose + 40960 ≤ s.now))) :=
  ⟨⟨({ up with sys := { up.sys with die1 := false } } : State), .a, 12, 0, (by decide +kernel)⟩,
   ⟨({ ({ up with parts := (Vector.replicate 16 {}).set 0 { part0 with owner := .b } } : State) with cams := up.cams.set 0 { state := .running, blk := repByte 128 0 } } : State), .a, 0, 0, (by decide +kernel)⟩,
   ⟨camIs { state := .fenced, blk := repByte 128 0 }, .a, 0, (by decide +kernel)⟩,
   ⟨({ up with pdOn := 0 } : State), .a, 0, (by decide +kernel)⟩,
   ⟨holding (camIs { cfgAddr := 0x7000 }) 0x7000 (leBytes 128 0x2000000000000000004000000000000010000000000010000000000000000000000000000000000000000000000000000000000000000000000000000000000000000000000000000000000000000000000000000000000000000000000000000010100020040002a0001), .a, 0, (by dsimp only; decide +kernel)⟩,
   ⟨up, .a, 0, (by decide +kernel), (by decide +kernel), (by decide +kernel), (by decide +kernel), (by decide +kernel), (by decide +kernel)⟩,
   ⟨camIs { state := .running, blk := repByte 128 0 }, .a, 0, (by decide +kernel)⟩,
   ⟨up, .a, 0, (by decide +kernel)⟩,
   ⟨camIs { state := .running }, 0, (by decide +kernel)⟩,
   ⟨up, 0, (by decide +kernel)⟩,
   ⟨camIs { cciBusy := true }, .a, 0, 5, (by decide +kernel)⟩,
   ⟨up, .a, 0, 5, (by decide +kernel)⟩,
   ⟨camIs { cciBusy := true }, 0, true, 7, (by decide +kernel)⟩,
   ⟨up, 0, true, 7, (by decide +kernel)⟩,
   ⟨({ camIs { state := .running, blk := leBytes 128 0x9c40000000000000000000000000000000000000000000000000000000000000000010000000000000000000000000000000000000000000000000000000000000000000000000000000000000000000000000000000000000000000000000000000000000000000000000000000000000000000000000000 } with counter := 1280000 } : State), 0, (by dsimp only; decide +kernel)⟩,
   ⟨up, 0, (by decide +kernel)⟩,
   ⟨camIs { gpio := true }, 0, (by decide +kernel)⟩,
   ⟨up, 0, (by decide +kernel)⟩⟩

/-- What the clauses of CameraFramesAreTakenAndRecorded ask of a state and operands can be met. -/
theorem wit_CameraFramesAreTakenAndRecorded :
    (∃ (s : State) (v : CamId) (vc number stamp : Nat), s.camTakes v vc = true) ∧
    (∃ (s : State) (v : CamId) (vc number stamp : Nat), s.camTakes v vc = false) ∧
    (∃ (s : State) (v : CamId) (vc stamp : Nat) (f : CamFrame), s.camTakes v vc = true ∧ s.cams[v].cur = some f) ∧
    (∃ (s : State) (v : CamId) (vc stamp : Nat), s.camTakes v vc = true ∧ s.cams[v].cur = none) ∧
    (∃ (s : State) (v : CamId) (vc ty : Nat) (crc full : Bool) (pl : List Byte), s.cams[v].state = .running) ∧
    (∃ (s : State) (v : CamId) (vc ty : Nat) (crc full : Bool) (pl : List Byte), (s.cams[v].state ≠ .running ∨ vc ≠ s.cams[v].vc ∨ ty ≠ s.cams[v].dtype ∨ s.cams[v].cur = none ∨ (∃ f, s.cams[v].cur = some f ∧ s.cams[v].height ≤ f.lines.length))) ∧
    (∃ (s : State) (v : CamId) (vc ty : Nat) (h crc full : Bool) (pl : List Byte), s.cams[v].state ≠ .running) ∧
    (∃ (s : State) (v : CamId) (crc full : Bool) (pl : List Byte) (f : CamFrame), s.cams[v].state = .running ∧ s.cams[v].cur = some f ∧ f.lines.length < s.cams[v].height) ∧
    (∃ (s : State) (v : CamId) (q : PartId) (k a : Nat) (bs : List PByte) (rest : List IoJob), s.cams[v].jobs = .record q k a bs :: rest ∧ s.ioBusy (.cam v) = false ∧ s.ioFull q = false) ∧
    (∃ (s : State) (v : CamId) (q : PartId) (k a : Nat) (bs : List PByte) (rest : List IoJob), s.cams[v].jobs = .record q k a bs :: rest ∧ (s.ioBusy (.cam v) = true ∨ s.ioFull q = true)) ∧
    (∃ (s : State) (v : CamId) (q : PartId) (k : SemId), s.cams[v].jobs = [.signal q k.val] ∧ s.ioBusy (.cam v) = false) ∧
    (∃ (s : State) (v : CamId) (q : PartId) (k : SemId), s.cams[v].jobs = [.signal q k.val] ∧ s.ioBusy (.cam v) = true) ∧
    (∃ (s : State) (v : CamId), s.cams[v].jobs = []) :=
  ⟨⟨camIs { state := .running }, 0, 0, 1, 2, (by decide +kernel)⟩,
   ⟨up, 0, 0, 1, 2, (by decide +kernel)⟩,
   ⟨camIs { state := .running, cur := some { f := 0, csi := 0, sof := 0 } }, 0, 0, 5, { f := 0, csi := 0, sof := 0 }, (by decide +kernel)⟩,
   ⟨camIs { state := .running }, 0, 0, 5, (by decide +kernel)⟩,
   ⟨camIs { state := .running }, 0, 0, 0x2A, true, true, [], (by decide +kernel)⟩,
   ⟨up, 0, 0, 0x2A, true, true, [], (by decide +kernel)⟩,
   ⟨up, 0, 0, 0x2A, true, true, true, [], (by decide +kernel)⟩,
   ⟨camIs { state := .running, blk := leBytes 128 0x2000000000000000004000000000000010000000000010000000000000000000000000000000000000000000000000000000000000000000000000000000000000000000000000000000000000000000000000000000000000000000000000000000010100020040002a0001, cur := some { f := 0, csi := 0, sof := 0 } }, 0, true, true, [1, 2], { f := 0, csi := 0, sof := 0 }, (by decide +kernel)⟩,
   ⟨camIs { jobs := [.record 0 0 0x1000 []] }, 0, 0, 0, 0x1000, [], [], (by decide +kernel)⟩,
   ⟨{ camIs { jobs := [.record 0 0 0x1000 []] } with ops := [{ op0 with owner := .io (.cam 0) }] }, 0, 0, 0, 0x1000, [], [], by decide +kernel, .inl (by decide +kernel)⟩,
   ⟨camIs { jobs := [.signal 0 63] }, 0, 0, 63, (by decide +kernel)⟩,
   ⟨{ camIs { jobs := [.signal 0 63] } with ops := [{ op0 with owner := .io (.cam 0) }] }, 0, 0, 63, (by decide +kernel)⟩,
   ⟨up, 0, (by decide +kernel)⟩⟩

/-- What the clauses of AudioReachesItsStreams ask of a state and operands can be met. -/
theorem wit_AudioReachesItsStreams :
    (∃ (s : State) (p : Port) (i : Nat), s.reached p = true ∧ 
    let r := (s.readBlock (s.audTable.toNat + 32 * (i % 4096)) 32).1
    let b : Binding := { index := i % 4096, entry := r.getD [] }
    let good := r ≠ none ∧ s.audTable.toNat + 32 * (i % 4096) + 32 ≤ s.mainEnd ∧ s.owns p b.part = true ∧ bindingOk b = true ∧
      s.diePresent b.die = true ∧ sessionsOf (putBinding b s.bindings) ≤ 2048 ∧ ∃ x, s.stream? b.stream = some x ∧ x.state ≠ .close ∧ x.part = b.part
    good) ∧
    (∃ (s : State) (p : Port) (i : Nat), s.reached p = true ∧ 
    let r := (s.readBlock (s.audTable.toNat + 32 * (i % 4096)) 32).1
    let b : Binding := { index := i % 4096, entry := r.getD [] }
    let good := r ≠ none ∧ s.audTable.toNat + 32 * (i % 4096) + 32 ≤ s.mainEnd ∧ s.owns p b.part = true ∧ bindingOk b = true ∧
      s.diePresent b.die = true ∧ sessionsOf (putBinding b s.bindings) ≤ 2048 ∧ ∃ x, s.stream? b.stream = some x ∧ x.state ≠ .close ∧ x.part = b.part
    ¬ good) ∧
    (∃ (s : State) (p : Port) (i : Nat), s.reached p = true ∧ (∃ b ∈ s.bindings, b.index = i % 4096)) ∧
    (∃ (s : State) (p : Port) (i : Nat), (∀ b ∈ s.bindings, b.index ≠ i % 4096)) ∧
    (∃ (s : State) (p : Port) (a : Nat), s.reached p = true ∧ ∃ bs, (({ s with audFir := BitVec.ofNat 40 a } : State).readBlock (a % 2 ^ 40) 288).1 = some bs) ∧
    (∃ (s : State) (p : Port) (a : Nat), s.reached p = true ∧ (({ s with audFir := BitVec.ofNat 40 a } : State).readBlock (a % 2 ^ 40) 288).1 = none) ∧
    (∃ (s : State) (e : EthId), s.eth[e].toAudio = []) ∧
    (∃ (s : State) (e : EthId) (k : Nat) (f : List Byte) (rest : List (Nat × List Byte)), s.eth[e].toAudio = (k, f) :: rest ∧ (rtpOf f = none ∨ udpSound f = false ∨ ∃ ts pl, rtpOf f = some (ts, pl) ∧ ∃ b ∈ s.bindings, b.matches e f = true ∧ b.samplesIn pl = none)) ∧
    (∃ (s : State) (e : EthId) (k : Nat) (f : List Byte) (rest : List (Nat × List Byte)) (ts : Nat) (pl : List Byte) (b : Binding) (r : AudioRun) (n : Nat), s.eth[e].toAudio = (k, f) :: rest ∧ rtpOf f = some (ts, pl) ∧ udpSound f = true ∧ (s.bindings.filter (fun y => y.matches e f) = [b]) ∧ b.samplesIn pl = some n ∧ (s.audio.find? (fun y => y.stream == b.stream) = some r)) ∧
    (∃ (s : State) (q : TdmId) (sl : List Nat), (¬ ((s.tdm[q]).enable = true ∧ s.domainOn 127 = true ∧ s.diePresent 1 = true))) ∧
    (∃ (s : State) (q : TdmId) (sl : List Nat), (s.tdm[q]).enable = true ∧ s.domainOn 127 = true ∧ s.diePresent 1 = true) ∧
    (∃ (s : State) (n : Nat), (s.bindingOf n = none ∨ s.stream? n = none ∨ (∀ r ∈ s.audio, r.stream ≠ n) ∨ ∃ x, s.stream? n = some x ∧ x.state.fed = false)) ∧
    (∃ (s : State) (n : Nat) (b : Binding) (x : Stream) (r : AudioRun), s.bindingOf n = some b ∧ s.stream? n = some x ∧ (s.audio.find? (fun y => y.stream == n) = some r) ∧ x.state.fed = true ∧ s.isSlave b = false ∧ 
    let q := 160 * x.frames * s.srcR b
    let fin := cdiv ((r.next + q) * (65536 * 1000000000)) (s.srcFs b) + b.delay * 1000 * 65536
    let due := fin ≤ s.tb.time s.now
    ¬ due) ∧
    (∃ (s : State) (n : Nat) (b : Binding) (x : Stream) (r : AudioRun), s.bindingOf n = some b ∧ s.stream? n = some x ∧ (s.audio.find? (fun y => y.stream == n) = some r) ∧ x.state.fed = true ∧ s.isSlave b = false ∧ 
    let q := 160 * x.frames * s.srcR b
    let fin := cdiv ((r.next + q) * (65536 * 1000000000)) (s.srcFs b) + b.delay * 1000 * 65536
    let due := fin ≤ s.tb.time s.now
    due) ∧
    (∃ (s : State) (n : Nat) (b : Binding) (x : Stream) (r : AudioRun), s.bindingOf n = some b ∧ s.stream? n = some x ∧ (s.audio.find? (fun y => y.stream == n) = some r) ∧ x.state.fed = true ∧ s.isSlave b = true ∧ 
    let at_ := (if x.arrived = 0 then (s.tdm[b.tdmPort]).last else near48 s.now x.lastStamp) + chunkCounts x.chunk20
    let due := (s.tdm[b.tdmPort]).lost = true ∧ at_ ≤ s.now
    ¬ due) ∧
    (∃ (s : State) (n : Nat) (b : Binding) (x : Stream) (r : AudioRun), s.bindingOf n = some b ∧ s.stream? n = some x ∧ (s.audio.find? (fun y => y.stream == n) = some r) ∧ x.state.fed = true ∧ s.isSlave b = true ∧ 
    let at_ := (if x.arrived = 0 then (s.tdm[b.tdmPort]).last else near48 s.now x.lastStamp) + chunkCounts x.chunk20
    let due := (s.tdm[b.tdmPort]).lost = true ∧ at_ ≤ s.now
    due) :=
  ⟨⟨holding ({ up with audTable := 0x7000, streams := [{ num := 3, state := .run, group := 0 }] } : State) 0x7000 (leBytes 32 0x1000000000000000000000000000003), .a, 0, (by decide +kernel), (by decide +kernel), (by decide +kernel), (by decide +kernel), (by decide +kernel), (by decide +kernel), (by decide +kernel), { num := 3, state := .run, group := 0 }, by decide +kernel⟩,
   ⟨up, .a, 0, (by decide +kernel), fun h => absurd h.2.2.2.1 (by decide +kernel)⟩,
   ⟨({ up with bindings := [⟨0, repByte 32 0⟩] } : State), .a, 0, (by decide +kernel)⟩,
   ⟨up, .a, 0, (by decide +kernel)⟩,
   ⟨up, .a, 0x1000, by decide +kernel, repByte 288 0, by decide +kernel⟩,
   ⟨up, .a, 0x7000000000, (by decide +kernel)⟩,
   ⟨up, 0, (by decide +kernel)⟩,
   ⟨ethIs { state := .up, speed := 4, cfg := 1, owner := some .a, toAudio := [(0, bcast)] }, 0, 0, bcast, [], by decide +kernel, .inl (by decide +kernel)⟩,
   ⟨({ ethIs { state := .up, speed := 4, cfg := 1, owner := some .a, toAudio := [(0, repByte 6 0xFF ++ repByte 6 0 ++ [8, 0, 0x45] ++ repByte 8 0 ++ [17] ++ repByte 15 0 ++ [32] ++ repByte 2 0 ++ [0x80] ++ repByte 23 0)] } with bindings := [⟨0, leBytes 32 0x1000000000000000000000000000000⟩], audio := [⟨0, 0, 0, []⟩] } : State), 0, 0, repByte 6 0xFF ++ repByte 6 0 ++ [8, 0, 0x45] ++ repByte 8 0 ++ [17] ++ repByte 15 0 ++ [32] ++ repByte 2 0 ++ [0x80] ++ repByte 23 0, [], 0, repByte 12 0, ⟨0, leBytes 32 0x1000000000000000000000000000000⟩, ⟨0, 0, 0, []⟩, 6, (by decide +kernel)⟩,
   ⟨up, 0, [], (by decide +kernel)⟩,
   ⟨({ up with tdm := up.tdm.set 0 { cfg := 1 } } : State), 0, [1], (by decide +kernel)⟩,
   ⟨up, 3, .inl (by decide +kernel)⟩,
   ⟨({ up with bindings := [⟨0, leBytes 32 0x1000000000000000000000000000003⟩], streams := [{ num := 3, state := .run, group := 0 }], audio := [⟨3, 1000000000, 0, []⟩] } : State), 3, ⟨0, leBytes 32 0x1000000000000000000000000000003⟩, { num := 3, state := .run, group := 0 }, ⟨3, 1000000000, 0, []⟩, (by dsimp only; decide +kernel)⟩,
   ⟨({ up with bindings := [⟨0, leBytes 32 0x1000000000000000000000000000003⟩], streams := [{ num := 3, state := .run, group := 0 }], audio := [⟨3, 0, 0, []⟩], counter := 10000000 } : State), 3, ⟨0, leBytes 32 0x1000000000000000000000000000003⟩, { num := 3, state := .run, group := 0 }, ⟨3, 0, 0, []⟩, (by dsimp only; decide +kernel)⟩,
   ⟨({ up with bindings := [⟨0, leBytes 32 0x1000000000000000000000000400003⟩], streams := [{ num := 3, state := .run, group := 0 }], audio := [⟨3, 0, 0, []⟩] } : State), 3, ⟨0, leBytes 32 0x1000000000000000000000000400003⟩, { num := 3, state := .run, group := 0 }, ⟨3, 0, 0, []⟩, (by dsimp only; decide +kernel)⟩,
   ⟨({ up with bindings := [⟨0, leBytes 32 0x1000000000000000000000000400003⟩], streams := [{ num := 3, state := .run, group := 0 }], audio := [⟨3, 0, 0, []⟩], counter := 100000000, tdm := up.tdm.set 0 { cfg := 1, lost := true } } : State), 3, ⟨0, leBytes 32 0x1000000000000000000000000400003⟩, { num := 3, state := .run, group := 0 }, ⟨3, 0, 0, []⟩, (by dsimp only; decide +kernel)⟩⟩

/-- What the clauses of PipelinesRunTheirJobs ask of a state and operands can be met. -/
theorem wit_PipelinesRunTheirJobs :
    (∃ (s : State) (p : Port) (i : PipeId), s.reached p = true ∧ s.mayPipe p i = false) ∧
    (∃ (s : State) (p : Port) (i : PipeId), s.mayPipe p i = true ∧ s.pipes[i].state = .fenced) ∧
    (∃ (s : State) (p : Port) (i : PipeId), s.reached p = true ∧ s.mayPipe p i = true ∧ s.pipes[i].state ≠ .fenced ∧ 
    let r := (s.readBlock s.pipes[i].cfgAddr.toNat 160).1
    let b := r.getD []
    let y : Pipe := { blk := b }
    let good := r ≠ none ∧ pipeOk b = true ∧ s.owns p y.part = true ∧ y.outBytes ≤ y.slotStride ∧
      s.pipePlace y.part y.slotBase ((y.nslots - 1) * y.slotStride + y.outBytes) = true ∧ s.pipePlace y.part y.reportBase (64 * y.nslots) = true ∧
      (y.labelBase = 0 ∨ s.pipePlace y.part y.labelBase (256 * y.nslots) = true) ∧ s.pipePlace y.part y.ringBase (32 * y.ringEntries) = true ∧
      s.diePresent (loadDie b) = true
    good) ∧
    (∃ (s : State) (p : Port) (i : PipeId), s.reached p = true ∧ s.mayPipe p i = true ∧ s.pipes[i].state ≠ .fenced ∧ 
    let r := (s.readBlock s.pipes[i].cfgAddr.toNat 160).1
    let b := r.getD []
    let y : Pipe := { blk := b }
    let good := r ≠ none ∧ pipeOk b = true ∧ s.owns p y.part = true ∧ y.outBytes ≤ y.slotStride ∧
      s.pipePlace y.part y.slotBase ((y.nslots - 1) * y.slotStride + y.outBytes) = true ∧ s.pipePlace y.part y.reportBase (64 * y.nslots) = true ∧
      (y.labelBase = 0 ∨ s.pipePlace y.part y.labelBase (256 * y.nslots) = true) ∧ s.pipePlace y.part y.ringBase (32 * y.ringEntries) = true ∧
      s.diePresent (loadDie b) = true
    ¬ good) ∧
    (∃ (s : State) (p : Port) (i : PipeId), s.reached p = true ∧ s.mayPipe p i = true ∧ s.pipes[i].state ≠ .fenced) ∧
    (∃ (s : State) (i : PipeId), (s.pipes[i].state ≠ .idle ∨ s.pipes[i].prod = s.pipes[i].jobs)) ∧
    (∃ (s : State) (i : PipeId), s.pipes[i].state = .idle ∧ s.pipes[i].prod ≠ s.pipes[i].jobs ∧ 
    let x := s.pipes[i]
    let e := (s.devLoad (x.ringBase + 32 * (x.jobs.toNat % x.ringEntries)) 32).1
    let b := plain (e.getD [])
    let sound := e ≠ none ∧ anyPoison (e.getD []) = false ∧ fieldAt b 0 8 < 2 ^ 40 ∧ fieldAt b 20 8 = 0 ∧ fieldAt b 28 4 = 0 ∧ fieldAt b 12 4 ≠ 0 ∧
      s.mapped (fieldAt b 0 8 + 4 * fieldAt b 8 4) (4 * fieldAt b 12 4) = true
    sound) ∧
    (∃ (s : State) (i : PipeId), s.pipes[i].state = .idle ∧ s.pipes[i].prod ≠ s.pipes[i].jobs ∧ 
    let x := s.pipes[i]
    let e := (s.devLoad (x.ringBase + 32 * (x.jobs.toNat % x.ringEntries)) 32).1
    let b := plain (e.getD [])
    let sound := e ≠ none ∧ anyPoison (e.getD []) = false ∧ fieldAt b 0 8 < 2 ^ 40 ∧ fieldAt b 20 8 = 0 ∧ fieldAt b 28 4 = 0 ∧ fieldAt b 12 4 ≠ 0 ∧
      s.mapped (fieldAt b 0 8 + 4 * fieldAt b 8 4) (4 * fieldAt b 12 4) = true
    ¬ sound) ∧
    (∃ (s : State) (i : PipeId) (j : Job), s.pipes[i].job = some j ∧ 
    let free := s.pipes[i].state = .running ∧ j.next < j.first + j.count ∧ j.next < s.pipes[i].cons.toNat + s.pipes[i].nslots ∧ s.lanes s.pipes[i].die < 4 ∧
      s.pipeTurn i = true
    free) ∧
    (∃ (s : State) (i : PipeId) (j : Job), s.pipes[i].job = some j ∧ 
    let free := s.pipes[i].state = .running ∧ j.next < j.first + j.count ∧ j.next < s.pipes[i].cons.toNat + s.pipes[i].nslots ∧ s.lanes s.pipes[i].die < 4 ∧
      s.pipeTurn i = true
    ¬ free) ∧
    (∃ (s : State) (i : PipeId), s.pipes[i].job = none) ∧
    (∃ (s : State) (i : PipeId) (j : Job), s.pipes[i].job = some j ∧ (j.runs = [] ∨ ∃ r rest, j.runs = r :: rest ∧ r.report = none)) ∧
    (∃ (s : State) (i : PipeId) (j : Job) (r : SampleRun) (rest : List SampleRun) (rep : List Byte), s.pipes[i].job = some j ∧ j.runs = r :: rest ∧ r.report = some rep) ∧
    (∃ (s : State) (i : PipeId) (pos cyc : Nat), (∀ j, s.pipes[i].job = some j → ∀ r ∈ j.runs, r.pos = pos → r.through = true)) ∧
    (∃ (s : State) (i : PipeId) (pos cyc : Nat), (∀ j, s.pipes[i].job = some j → ∀ r ∈ j.runs, r.pos = pos → r.relaxed = false ∨ cyc ≤ r.budget)) ∧
    (∃ (s : State) (i : PipeId) (pos cyc : Nat) (j : Job) (r : SampleRun), s.pipes[i].job = some j ∧ j.runs = [r] ∧ r.pos = pos ∧ r.through = false ∧ r.report = none ∧ r.relaxed = false) ∧
    (∃ (s : State) (i : PipeId) (pos cyc : Nat) (j : Job) (r : SampleRun) (c : Instr), s.pipes[i].job = some j ∧ j.runs = [r] ∧ r.pos = pos ∧ r.through = false ∧ r.report = none ∧ r.relaxed = true ∧ (c = .sampleDone i pos cyc ∨ (c = .budgetExceeded i pos cyc ∧ r.budget < cyc))) :=
  ⟨⟨({ ({ up with parts := (Vector.replicate 16 {}).set 0 { part0 with owner := .b } } : State) with pipes := up.pipes.set 0 { state := .running, blk := repByte 160 0 } } : State), .a, 0, (by decide +kernel)⟩,
   ⟨pipeIs { state := .fenced, blk := repByte 160 0 }, .a, 0, (by decide +kernel)⟩,
   ⟨holding (pipeIs { cfgAddr := 0x7000 }) 0x7000 (leBytes 160 0x100000000000030000000000000000000000000000000000000000000000000000000000000000000000000000000000000000000000000000000000000000000000000000000000000000000000000000000000000000000000000000000000000000000000000000000000000002000000000400000000000001000000000002000000010008000800000000), .a, 0, (by dsimp only; decide +kernel)⟩,
   ⟨up, .a, 0, (by decide +kernel), (by decide +kernel), (by decide +kernel), (by decide +kernel)⟩,
   ⟨up, .a, 0, (by decide +kernel)⟩,
   ⟨up, 0, .inl (by decide +kernel)⟩,
   ⟨holding (pipeIs { state := .idle, prod := 1 }) 12 [1], 0, (by dsimp only; decide +kernel)⟩,
   ⟨pipeIs { state := .idle, prod := 1 }, 0, (by dsimp only; decide +kernel)⟩,
   ⟨pipeIs { state := .running, blk := leBytes 160 0x100000000000030000000000000000000000000000000000000000000000000000000000000000000000000000000000000000000000000000000000000000000000000000000000000000000000000000000000000000000000000000000000000000000000000000000000000002000000000400000000000001000000000002000000010008000800000000, job := some { list := 0, first := 0, count := 1, host := false, next := 0, runs := [] } }, 0, { list := 0, first := 0, count := 1, host := false, next := 0, runs := [] }, (by dsimp only; decide +kernel)⟩,
   ⟨pipeIs { state := .idle, blk := leBytes 160 0x100000000000030000000000000000000000000000000000000000000000000000000000000000000000000000000000000000000000000000000000000000000000000000000000000000000000000000000000000000000000000000000000000000000000000000000000000002000000000400000000000001000000000002000000010008000800000000, job := some { list := 0, first := 0, count := 1, host := false, next := 0, runs := [] } }, 0, { list := 0, first := 0, count := 1, host := false, next := 0, runs := [] }, (by dsimp only; decide +kernel)⟩,
   ⟨up, 0, (by decide +kernel)⟩,
   ⟨pipeIs { state := .running, blk := leBytes 160 0x100000000000030000000000000000000000000000000000000000000000000000000000000000000000000000000000000000000000000000000000000000000000000000000000000000000000000000000000000000000000000000000000000000000000000000000000000002000000000400000000000001000000000002000000010008000800000000, job := some { list := 0, first := 0, count := 1, host := false, next := 0, runs := [] } }, 0, { list := 0, first := 0, count := 1, host := false, next := 0, runs := [] }, by decide +kernel, .inl (by decide +kernel)⟩,
   ⟨pipeIs { state := .running, blk := leBytes 160 0x100000000000030000000000000000000000000000000000000000000000000000000000000000000000000000000000000000000000000000000000000000000000000000000000000000000000000000000000000000000000000000000000000000000000000000000000000002000000000400000000000001000000000002000000010008000800000000, job := some { list := 0, first := 0, count := 1, host := false, next := 0, runs := [{ pos := 0, report := some [] }] } }, 0, { list := 0, first := 0, count := 1, host := false, next := 0, runs := [{ pos := 0, report := some [] }] }, { pos := 0, report := some [] }, [], [], (by decide +kernel)⟩,
   ⟨up, 0, 0, 0, forall_none (by decide +kernel)⟩,
   ⟨up, 0, 0, 0, forall_none (by decide +kernel)⟩,
   ⟨pipeIs { state := .running, blk := leBytes 160 0x100000000000030000000000000000000000000000000000000000000000000000000000000000000000000000000000000000000000000000000000000000000000000000000000000000000000000000000000000000000000000000000000000000000000000000000000000002000000000400000000000001000000000002000000010008000800000000, job := some { list := 0, first := 0, count := 1, host := false, next := 0, runs := [{ pos := 0 }] } }, 0, 0, 5, { list := 0, first := 0, count := 1, host := false, next := 0, runs := [{ pos := 0 }] }, { pos := 0 }, (by decide +kernel)⟩,
   ⟨pipeIs { state := .running, blk := repByte 160 0, job := some { list := 0, first := 0, count := 1, host := false, next := 0, runs := [{ pos := 0, relaxed := true }] } }, 0, 0, 5, { list := 0, first := 0, count := 1, host := false, next := 0, runs := [{ pos := 0, relaxed := true }] }, { pos := 0, relaxed := true }, .sampleDone 0 0 5, (by decide +kernel), (by decide +kernel), (by decide +kernel), (by decide +kernel), (by decide +kernel), (by decide +kernel), .inl rfl⟩⟩

/-- What the clauses of AlignmentFollowsItsRules ask of a state and operands can be met. -/
theorem wit_AlignmentFollowsItsRules :
    (∃ (s : State), 
    let due := s.det.state = .waiting ∧ s.det.loads = true ∧ s.det.retryAt ≠ 0 ∧ s.det.retryAt ≤ s.now
    due) ∧
    (∃ (s : State), 
    let due := s.det.state = .waiting ∧ s.det.loads = true ∧ s.det.retryAt ≠ 0 ∧ s.det.retryAt ≤ s.now
    ¬ due) ∧
    (∃ (s : State), s.det.loadAt ≠ some s.now) ∧
    (∃ (s : State), s.det.loadAt = some s.now ∧ s.quiet = false) ∧
    (∃ (s : State), s.det.loadAt = some s.now ∧ s.quiet = true) ∧
    (∃ (s : State) (os : List Int), (s.sph.link ≠ 2 ∨ os = [])) ∧
    (∃ (s : State) (os : List Int), s.sph.link = 2 ∧ os ≠ [] ∧ 
    let o := median os
    (s.det.state = .aligned ∨ s.det.state = .slewing) ∧ 16 < o.natAbs) ∧
    (∃ (s : State) (os : List Int), s.sph.link = 2 ∧ os ≠ [] ∧ 
    let o := median os
    s.det.state = .slewing ∧ o.natAbs ≤ 2) ∧
    (∃ (s : State) (os : List Int), s.sph.link = 2 ∧ os ≠ [] ∧ 
    let o := median os
    s.det.state = .slewing ∧ 2 < o.natAbs ∧ o.natAbs ≤ 16) ∧
    (∃ (s : State) (os : List Int), s.sph.link = 2 ∧ os ≠ [] ∧ 
    let o := median os
    s.det.state = .aligned ∧ o.natAbs ≤ 16) ∧
    (∃ (s : State) (os : List Int), s.sph.link = 2 ∧ os ≠ [] ∧ 
    let o := median os
    s.det.state = .measuring ∧ s.det.loads = false ∧ o.natAbs ≤ 2) ∧
    (∃ (s : State) (os : List Int), s.sph.link = 2 ∧ os ≠ [] ∧ 
    let o := median os
    s.det.state = .measuring ∧ s.det.loads = false ∧ s.det.relink = true ∧ 2 < o.natAbs ∧ o.natAbs ≤ 65536) ∧
    (∃ (s : State) (os : List Int), s.sph.link = 2 ∧ os ≠ [] ∧ 
    let o := median os
    s.det.state = .measuring ∧ (s.det.loads = true ∨ (2 < o.natAbs ∧ (s.det.relink = false ∨ 65536 < o.natAbs)))) ∧
    (∃ (s : State) (os : List Int), s.sph.link = 2 ∧ os ≠ [] ∧ (s.det.state = .none ∨ s.det.state = .waiting ∨ s.det.state = .failed ∨ s.det.state = .lost)) :=
  ⟨⟨({ up with det := { state := .waiting, loads := true, retryAt := 1 } } : State), (by dsimp only; decide +kernel)⟩,
   ⟨up, (by dsimp only; decide +kernel)⟩,
   ⟨up, (by decide +kernel)⟩,
   ⟨axisIs ({ up with det := { loadAt := some 1000000 } } : State) { state := .run }, (by decide +kernel)⟩,
   ⟨({ up with det := { loadAt := some 1000000 } } : State), (by decide +kernel)⟩,
   ⟨up, [], (by decide +kernel)⟩,
   ⟨({ linked with det := { state := .aligned } } : State), [17], (by dsimp only; decide +kernel)⟩,
   ⟨({ linked with det := { state := .slewing } } : State), [0], (by dsimp only; decide +kernel)⟩,
   ⟨({ linked with det := { state := .slewing } } : State), [10], (by dsimp only; decide +kernel)⟩,
   ⟨({ linked with det := { state := .aligned } } : State), [10], (by decide +kernel)⟩,
   ⟨({ linked with det := { state := .measuring } } : State), [1], (by dsimp only; decide +kernel)⟩,
   ⟨({ linked with det := { state := .measuring, relink := true } } : State), [10], (by decide +kernel)⟩,
   ⟨({ linked with det := { state := .measuring, loads := true } } : State), [0], (by decide +kernel)⟩,
   ⟨linked, [0], (by decide +kernel)⟩⟩

/-- What the clauses of TheSiphonLinkFollowsItsPartner ask of a state and operands can be met. -/
theorem wit_TheSiphonLinkFollowsItsPartner :
    (∃ (s : State) (n k : W64) (role : Nat), 
    let up := s.sys.rails = .on ∧ s.sys.clocked = true ∧ s.domainOn 122 = true ∧ s.sph.link.toNat ≤ 1 ∧ s.sph.txDark = false
    up) ∧
    (∃ (s : State) (n k : W64) (role : Nat), 
    let up := s.sys.rails = .on ∧ s.sys.clocked = true ∧ s.domainOn 122 = true ∧ s.sph.link.toNat ≤ 1 ∧ s.sph.txDark = false
    ¬ up) ∧
    (∃ (s : State), s.sph.link ≠ 2) ∧
    (∃ (s : State), s.sph.link = 2 ∧ (s.sph.mayTakeOver && s.sph.dark && !s.sph.fenceNotice) = false) ∧
    (∃ (s : State), s.sph.link = 2 ∧ s.sph.mayTakeOver = true ∧ s.sph.dark = true ∧ s.sph.fenceNotice = false) ∧
    (∃ (s : State) (m : SentMsg) (rest : List SentMsg), s.sph.replay = m :: rest ∧ s.sph.link = 2 ∧ m.sentAt + 5120 ≤ s.now ∧ s.sph.resends < 8) ∧
    (∃ (s : State) (m : SentMsg) (rest : List SentMsg), s.sph.replay = m :: rest ∧ s.sph.link = 2 ∧ m.sentAt + 5120 ≤ s.now ∧ 8 ≤ s.sph.resends) ∧
    (∃ (s : State), (s.sph.replay = [] ∨ ∃ m rest, s.sph.replay = m :: rest ∧ s.now < m.sentAt + 5120)) ∧
    (∃ (s : State), s.now < s.sph.beatAt + 64000) ∧
    (∃ (s : State), s.sph.link = 2 ∧ s.sph.txDark = false ∧ s.sph.beatAt + 64000 ≤ s.now) ∧
    (∃ (s : State), s.sph.link = 2 ∧ s.sph.alive = true ∧ s.sph.lastHeard + s.sph.silence ≤ s.now ∧ (s.sph.mayTakeOver && s.sph.silent) = false) ∧
    (∃ (s : State), s.sph.link = 2 ∧ s.sph.alive = true ∧ s.sph.lastHeard + s.sph.silence ≤ s.now ∧ s.sph.mayTakeOver = true ∧ s.sph.silent = true) ∧
    (∃ (s : State), (s.sph.alive = false ∨ s.now < s.sph.lastHeard + s.sph.silence)) :=
  ⟨⟨up, 5, 5, 1, (by dsimp only; decide +kernel)⟩,
   ⟨linked, 5, 5, 1, (by dsimp only; decide +kernel)⟩,
   ⟨up, (by decide +kernel)⟩,
   ⟨linked, (by decide +kernel)⟩,
   ⟨({ up with sph := { link := 2, role := 1, partnerKnown := true, dark := true } } : State), (by decide +kernel)⟩,
   ⟨({ up with sph := { link := 2, replay := [⟨0x18, ⟨0, 0, 0, 0, 0, 0, 0, 0, 0, 0, true, []⟩, 0⟩] } } : State), ⟨0x18, ⟨0, 0, 0, 0, 0, 0, 0, 0, 0, 0, true, []⟩, 0⟩, [], (by decide +kernel)⟩,
   ⟨({ up with sph := { link := 2, replay := [⟨0x18, ⟨0, 0, 0, 0, 0, 0, 0, 0, 0, 0, true, []⟩, 0⟩], resends := 8 } } : State), ⟨0x18, ⟨0, 0, 0, 0, 0, 0, 0, 0, 0, 0, true, []⟩, 0⟩, [], (by decide +kernel)⟩,
   ⟨up, .inl (by decide +kernel)⟩,
   ⟨({ up with sph := { link := 2, beatAt := 1000000 } } : State), (by decide +kernel)⟩,
   ⟨linked, (by decide +kernel)⟩,
   ⟨({ up with counter := 1000000000, sph := { link := 2, alive := true } } : State), (by decide +kernel)⟩,
   ⟨({ up with counter := 1000000000, sph := { link := 2, alive := true, role := 1, partnerKnown := true } } : State), (by decide +kernel)⟩,
   ⟨up, (by decide +kernel)⟩⟩

/-- What the clauses of SiphonDataMessagesAct ask of a state and operands can be met. -/
theorem wit_SiphonDataMessagesAct :
    (∃ (s : State) (m : Msg), s.sph.link ≠ 2) ∧
    (∃ (s : State) (m : Msg), s.sph.link = 2 ∧ headerOk 0x01 m = false) ∧
    (∃ (s : State) (m : Msg), s.sph.link = 2 ∧ headerOk 0x02 m = false) ∧
    (∃ (s : State) (m : Msg), s.sph.link = 2 ∧ headerOk 0x03 m = false) ∧
    (∃ (s : State) (m : Msg), s.sph.link = 2 ∧ headerOk 0x04 m = false) ∧
    (∃ (s : State) (m : Msg), s.sph.link = 2 ∧ headerOk 0x05 m = false) ∧
    (∃ (s : State) (m : Msg), s.sph.link = 2 ∧ headerOk 0x06 m = false) ∧
    (∃ (s : State) (m : Msg), s.sph.link = 2 ∧ headerOk 0x08 m = false) ∧
    (∃ (s : State) (m : Msg), s.sph.link = 2 ∧ headerOk 0x09 m = false) ∧
    (∃ (s : State) (m : Msg), InTurn s 0x01 m ∧ s.sph.txDark = false ∧ m.payload ≠ [] ∧ 
    let a := m.addr.toNat
    let n := m.payload.length
    let late := ∃ k ∈ s.regsOf a n, k ∈ s.sph.lateRegs
    late) ∧
    (∃ (s : State) (m : Msg), InTurn s 0x01 m ∧ s.sph.txDark = false ∧ m.payload ≠ [] ∧ 
    let a := m.addr.toNat
    let n := m.payload.length
    let late := ∃ k ∈ s.regsOf a n, k ∈ s.sph.lateRegs
    let fits := s.mapped a n = true ∧ a + n ≤ windowBase ∧
      ∀ r ∈ touched a n, (s.wctl r).shut = false ∨ ((s.wctl r).st = .closing ∧ ∃ k ∈ s.regsOf a n, k ∈ (s.wctl r).regs)
    ¬ late ∧ fits) ∧
    (∃ (s : State) (m : Msg), InTurn s 0x01 m ∧ s.sph.txDark = false ∧ m.payload ≠ [] ∧ 
    let a := m.addr.toNat
    let n := m.payload.length
    let late := ∃ k ∈ s.regsOf a n, k ∈ s.sph.lateRegs
    let fits := s.mapped a n = true ∧ a + n ≤ windowBase ∧
      ∀ r ∈ touched a n, (s.wctl r).shut = false ∨ ((s.wctl r).st = .closing ∧ ∃ k ∈ s.regsOf a n, k ∈ (s.wctl r).regs)
    ¬ late ∧ ¬ fits) ∧
    (∃ (s : State) (m : Msg), InTurn s 0x02 m ∧ s.sph.txDark = false) ∧
    (∃ (s : State) (m : Msg), InTurn s 0x03 m ∧ 
    let n := m.arg.toNat
    let asks := s.ops.find? fun o => o.asked && !o.sent && (waitOf o.waits n).isSome
    ∃ o, asks = some o) ∧
    (∃ (s : State) (m : Msg), InTurn s 0x03 m ∧ 
    let n := m.arg.toNat
    let asks := s.ops.find? fun o => o.asked && !o.sent && (waitOf o.waits n).isSome
    ∃ b : Bar2Read, asks = none ∧ (s.bar2Reads.find? (fun b => (waitOf b.waits n).isSome) = some b)) ∧
    (∃ (s : State) (m : Msg), InTurn s 0x03 m ∧ 
    let n := m.arg.toNat
    let asks := s.ops.find? fun o => o.asked && !o.sent && (waitOf o.waits n).isSome
    asks = none ∧ (s.bar2Reads.find? (fun b => (waitOf b.waits n).isSome) = none)) ∧
    (∃ (s : State) (m : Msg), InTurn s 0x04 m ∧ s.sph.txDark = false) ∧
    (∃ (s : State) (m : Msg), InTurn s 0x05 m) ∧
    (∃ (s : State) (m : Msg), InTurn s 0x06 m) ∧
    (∃ (s : State) (m : Msg), InTurn s 0x08 m ∧ s.sph.txDark = false) ∧
    (∃ (s : State) (m : Msg) (q : PartId) (n : W32), InTurn s 0x09 m ∧ n = BitVec.ofNat 32 (m.arg.toNat / 2 ^ 32) ∧ (s.sph.sigOut.find? (fun x => x.1 == n) = some (n, q)) ∧ 
    let mine := fun (c : Cmd) => c.kind == .signalRemote && c.life == .started && c.notes == [n.toNat]
    s.cmds.any mine = true) ∧
    (∃ (s : State) (m : Msg) (q : PartId) (n : W32), InTurn s 0x09 m ∧ n = BitVec.ofNat 32 (m.arg.toNat / 2 ^ 32) ∧ (s.sph.sigOut.find? (fun x => x.1 == n) = some (n, q)) ∧ 
    let mine := fun (c : Cmd) => c.kind == .signalRemote && c.life == .started && c.notes == [n.toNat]
    s.cmds.any mine = false) ∧
    (∃ (s : State) (m : Msg) (n : W32), InTurn s 0x09 m ∧ n = BitVec.ofNat 32 (m.arg.toNat / 2 ^ 32) ∧ (s.sph.sigOut.find? (fun x => x.1 == n) = none) ∧ 
    let waits := s.ops.find? fun o => o.sent && (waitOf o.waits n.toNat).isSome
    waits = none) ∧
    (∃ (s : State) (m : Msg) (n : W32), InTurn s 0x09 m ∧ n = BitVec.ofNat 32 (m.arg.toNat / 2 ^ 32) ∧ (s.sph.sigOut.find? (fun x => x.1 == n) = none) ∧ 
    let st := ackStatus (m.arg.toNat % 65536)
    let waits := s.ops.find? fun o => o.sent && (waitOf o.waits n.toNat).isSome
    ∃ o, waits = some o ∧ st = .ok) ∧
    (∃ (s : State) (m : Msg) (n : W32), InTurn s 0x09 m ∧ n = BitVec.ofNat 32 (m.arg.toNat / 2 ^ 32) ∧ (s.sph.sigOut.find? (fun x => x.1 == n) = none) ∧ 
    let st := ackStatus (m.arg.toNat % 65536)
    let waits := s.ops.find? fun o => o.sent && (waitOf o.waits n.toNat).isSome
    ∃ o c, waits = some o ∧ st ≠ .ok ∧ s.opCmd o = some c) :=
  ⟨⟨up, ⟨0, 0, 0, 0, 0, 0, 0, 0, 0, 0, true, []⟩, (by decide +kernel)⟩,
   ⟨linked, ⟨0, 0, 0, 0, 0, 0, 0, 0, 0, 0, false, []⟩, (by decide +kernel)⟩,
   ⟨linked, ⟨0, 0, 0, 0, 0, 0, 0, 0, 0, 0, false, []⟩, (by decide +kernel)⟩,
   ⟨linked, ⟨0, 0, 0, 0, 0, 0, 0, 0, 0, 0, false, []⟩, (by decide +kernel)⟩,
   ⟨linked, ⟨0, 0, 0, 0, 0, 0, 0, 0, 0, 0, false, []⟩, (by decide +kernel)⟩,
   ⟨linked, ⟨0, 0, 0, 0, 0, 0, 0, 0, 0, 0, false, []⟩, (by decide +kernel)⟩,
   ⟨linked, ⟨0, 0, 0, 0, 0, 0, 0, 0, 0, 0, false, []⟩, (by decide +kernel)⟩,
   ⟨linked, ⟨0, 0, 0, 0, 0, 0, 0, 0, 0, 0, false, []⟩, (by decide +kernel)⟩,
   ⟨linked, ⟨0, 0, 0, 0, 0, 0, 0, 0, 0, 0, false, []⟩, (by decide +kernel)⟩,
   ⟨({ linked with sph := { link := 2, remoteRegs := [(5, ⟨0x1000, 64, true⟩)], lateRegs := [5] } } : State), ⟨0, 1, 0, 0x1000, 0, 0, 0, 0, 0, 0, true, [7]⟩, ⟨by decide +kernel, by decide +kernel, by decide +kernel, by decide +kernel⟩, (by decide +kernel), (by decide +kernel), 5, (by decide +kernel), (by decide +kernel)⟩,
   ⟨linked, ⟨0, 1, 0, 0x1000, 0, 0, 0, 0, 0, 0, true, [7]⟩, ⟨by decide +kernel, by decide +kernel, by decide +kernel, by decide +kernel⟩, (by decide +kernel), (by decide +kernel), (fun ⟨k, h, _⟩ => by simp [linked, State.regsOf] at h), (by decide +kernel), (by decide +kernel), (fun r h => absurd (List.length_pos_of_mem h) (by decide +kernel))⟩,
   ⟨linked, ⟨0, 1, 0, 0xFFFFFFFFFF, 0, 0, 0, 0, 0, 0, true, [7]⟩, ⟨by decide +kernel, by decide +kernel, by decide +kernel, by decide +kernel⟩, (by decide +kernel), (by decide +kernel), (fun ⟨k, h, _⟩ => by simp [linked, State.regsOf] at h), (fun h => absurd h.2.1 (by decide +kernel))⟩,
   ⟨linked, ⟨0, 0, 0, 0, 0, 0, 0, 0, 4, 0, true, []⟩, ⟨by decide +kernel, by decide +kernel, by decide +kernel, by decide +kernel⟩, by decide +kernel⟩,
   ⟨({ linked with ops := [{ op0 with asked := true, waits := [(0, 0)] }] } : State), ⟨0, 1, 0, 0, 0, 0, 0, 0, 0, 0, true, [7]⟩, ⟨by decide +kernel, by decide +kernel, by decide +kernel, by decide +kernel⟩, { op0 with asked := true, waits := [(0, 0)] }, (by decide +kernel)⟩,
   ⟨({ linked with bar2Reads := [({ port := .a, data := [], owned := [], waits := [(0, 0)] } : Bar2Read)] } : State), ⟨0, 1, 0, 0, 0, 0, 0, 0, 0, 0, true, [7]⟩, ⟨by decide +kernel, by decide +kernel, by decide +kernel, by decide +kernel⟩, ({ port := .a, data := [], owned := [], waits := [(0, 0)] } : Bar2Read), (by decide +kernel)⟩,
   ⟨linked, ⟨0, 1, 0, 0, 0, 0, 0, 0, 0, 0, true, [7]⟩, ⟨by decide +kernel, by decide +kernel, by decide +kernel, by decide +kernel⟩, (by decide +kernel), (by decide +kernel)⟩,
   ⟨linked, ⟨1, 0, 0, 0, 0, 0, 0, 0, 64, 0, true, []⟩, ⟨by decide +kernel, by decide +kernel, by decide +kernel, by decide +kernel⟩, by decide +kernel⟩,
   ⟨linked, ⟨0, 0, 0, 0, 0, 0, 0, 0, 3, 0, true, []⟩, ⟨by decide +kernel, by decide +kernel, by decide +kernel, by decide +kernel⟩⟩,
   ⟨linked, ⟨0, 0, 0, 0, 0, 0, 0, 0, 3, 0, true, []⟩, ⟨by decide +kernel, by decide +kernel, by decide +kernel, by decide +kernel⟩⟩,
   ⟨linked, ⟨0, 0, 0, 0, 0, 0, 0, 0, 2, 0, true, []⟩, ⟨by decide +kernel, by decide +kernel, by decide +kernel, by decide +kernel⟩, by decide +kernel⟩,
   ⟨({ linked with sph := { link := 2, sigOut := [(0, 1)] }, cmds := [{ cmdOf .signalRemote 0x32 [] with life := .started, notes := [0] }] } : State), ⟨0, 0, 0, 0, 0, 0, 0, 0, 0, 0, true, []⟩, 1, 0, ⟨by decide +kernel, by decide +kernel, by decide +kernel, by decide +kernel⟩, by decide +kernel, by decide +kernel, by dsimp only; decide +kernel⟩,
   ⟨({ linked with sph := { link := 2, sigOut := [(0, 1)] } } : State), ⟨0, 0, 0, 0, 0, 0, 0, 0, 0, 0, true, []⟩, 1, 0, ⟨by decide +kernel, by decide +kernel, by decide +kernel, by decide +kernel⟩, by decide +kernel, by decide +kernel, by dsimp only; decide +kernel⟩,
   ⟨linked, ⟨0, 0, 0, 0, 0, 0, 0, 0, 0, 0, true, []⟩, 0, ⟨by decide +kernel, by decide +kernel, by decide +kernel, by decide +kernel⟩, (by decide +kernel), (by decide +kernel), (by decide +kernel)⟩,
   ⟨({ linked with ops := [{ op0 with sent := true, waits := [(0, 0)] }] } : State), ⟨0, 0, 0, 0, 0, 0, 0, 0, 0, 0, true, []⟩, 0, ⟨by decide +kernel, by decide +kernel, by decide +kernel, by decide +kernel⟩, (by decide +kernel), (by decide +kernel), { op0 with sent := true, waits := [(0, 0)] }, (by decide +kernel)⟩,
   ⟨running ({ linked with ops := [{ op0 with sent := true, waits := [(0, 0)] }] } : State) (cmdOf .pump 0x20 []), ⟨0, 0, 0, 0, 0, 0, 0, 0, 1, 0, true, []⟩, 0, ⟨by decide +kernel, by decide +kernel, by decide +kernel, by decide +kernel⟩, (by decide +kernel), (by decide +kernel), { op0 with sent := true, waits := [(0, 0)] }, cmdOf .pump 0x20 [], (by decide +kernel)⟩⟩

/-- What the clauses of SiphonPairMessagesAct ask of a state and operands can be met. -/
theorem wit_SiphonPairMessagesAct :
    (∃ (s : State) (m : Msg) (k : Nat) (d : Int), s.sph.link ≠ 2) ∧
    (∃ (s : State) (m : Msg) (k : Nat) (d : Int), s.sph.link = 2 ∧ headerOk 0x10 m = false) ∧
    (∃ (s : State) (m : Msg) (k : Nat) (d : Int), s.sph.link = 2 ∧ headerOk 0x11 m = false) ∧
    (∃ (s : State) (m : Msg) (k : Nat) (d : Int), s.sph.link = 2 ∧ headerOk 0x18 m = false) ∧
    (∃ (s : State) (m : Msg) (k : Nat) (d : Int), s.sph.link = 2 ∧ headerOk 0x19 m = false) ∧
    (∃ (s : State) (m : Msg) (k : Nat) (d : Int), s.sph.link = 2 ∧ headerOk 0x1A m = false) ∧
    (∃ (s : State) (m : Msg) (k : Nat) (d : Int), InTurn s 0x10 m ∧ s.sph.txDark = false ∧ s.det.collects = false) ∧
    (∃ (s : State) (m : Msg) (k : Nat) (d : Int), InTurn s 0x10 m ∧ s.sph.txDark = false ∧ s.det.collects = true ∧ s.det.samples.length + 1 < 16) ∧
    (∃ (s : State) (m : Msg), InTurn s 0x11 m) ∧
    (∃ (s : State) (m : Msg), InTurn s 0x18 m) ∧
    (∃ (s : State) (m : Msg), InTurn s 0x19 m ∧ 
    let mine := s.sph.role = 1 ∧ s.sph.partnerRole = 0 ∧ s.inMain m.addr.toNat m.payload.length = true
    mine) ∧
    (∃ (s : State) (m : Msg), InTurn s 0x19 m ∧ 
    let mine := s.sph.role = 1 ∧ s.sph.partnerRole = 0 ∧ s.inMain m.addr.toNat m.payload.length = true
    ¬ mine) ∧
    (∃ (s : State) (m : Msg), InTurn s 0x1A m ∧ m.arg.getLsbD 8 = false) ∧
    (∃ (s : State) (m : Msg), InTurn s 0x1A m ∧ m.arg.getLsbD 8 = true) ∧
    (∃ (s : State) (p : Port) (r : MirId) (maps : Bool), (s.reached p = false ∨ s.mirrors[r].enable = true)) ∧
    (∃ (s : State) (p : Port) (r : MirId) (maps : Bool), s.reached p = true ∧ s.mirrors[r].enable = false ∧ 
    let m := s.mirrors[r]
    let n := m.len.toNat * 65536
    let good := m.base.toNat % 65536 = 0 ∧ 0 < n ∧ s.inMain m.base.toNat n = true ∧ maps = true ∧ s.sph.link = 2 ∧ s.sph.role = 0 ∧
      s.sph.partnerKnown = true ∧ s.sph.partnerRole = 1
    good) ∧
    (∃ (s : State) (p : Port) (r : MirId) (maps : Bool), s.reached p = true ∧ s.mirrors[r].enable = false ∧ 
    let m := s.mirrors[r]
    let n := m.len.toNat * 65536
    let good := m.base.toNat % 65536 = 0 ∧ 0 < n ∧ s.inMain m.base.toNat n = true ∧ maps = true ∧ s.sph.link = 2 ∧ s.sph.role = 0 ∧
      s.sph.partnerKnown = true ∧ s.sph.partnerRole = 1
    ¬ good) ∧
    (∃ (s : State) (r : MirId), 
    let m := s.mirrors[r]
    let ready := m.enable = true ∧ m.state = .syncing ∧ s.sph.link = 2 ∧
      ∀ x ∈ s.sph.replay, x.type = 0x19 → overlap x.msg.addr.toNat x.msg.payload.length m.base.toNat (m.len.toNat * 65536) = false
    ready) ∧
    (∃ (s : State) (r : MirId), 
    let m := s.mirrors[r]
    let ready := m.enable = true ∧ m.state = .syncing ∧ s.sph.link = 2 ∧
      ∀ x ∈ s.sph.replay, x.type = 0x19 → overlap x.msg.addr.toNat x.msg.payload.length m.base.toNat (m.len.toNat * 65536) = false
    ¬ ready) :=
  ⟨⟨up, ⟨0, 0, 0, 0, 0, 0, 0, 0, 0, 0, true, []⟩, 0, 0, (by decide +kernel)⟩,
   ⟨linked, ⟨0, 0, 0, 0, 0, 0, 0, 0, 0, 0, false, []⟩, 0, 0, (by decide +kernel)⟩,
   ⟨linked, ⟨0, 0, 0, 0, 0, 0, 0, 0, 0, 0, false, []⟩, 0, 0, (by decide +kernel)⟩,
   ⟨linked, ⟨0, 0, 0, 0, 0, 0, 0, 0, 0, 0, false, []⟩, 0, 0, (by decide +kernel)⟩,
   ⟨linked, ⟨0, 0, 0, 0, 0, 0, 0, 0, 0, 0, false, []⟩, 0, 0, (by decide +kernel)⟩,
   ⟨linked, ⟨0, 0, 0, 0, 0, 0, 0, 0, 0, 0, false, []⟩, 0, 0, (by decide +kernel)⟩,
   ⟨linked, ⟨0, 0, 0, 0, 0, 0, 0, 0, 0, 0, true, []⟩, 0, 0, ⟨by decide +kernel, by decide +kernel, by decide +kernel, by decide +kernel⟩, by decide +kernel, by decide +kernel⟩,
   ⟨({ linked with det := { loads := true, state := .measuring } } : State), ⟨0, 0, 0, 0, 0, 0, 0, 0, 0, 0, true, []⟩, 0, 0, ⟨by decide +kernel, by decide +kernel, by decide +kernel, by decide +kernel⟩, by decide +kernel, by decide +kernel, by decide +kernel⟩,
   ⟨linked, ⟨0, 32, 0, 0, 0, 0, 0, 0, 0, 0, true, repByte 32 0⟩, ⟨by decide +kernel, by decide +kernel, by decide +kernel, by decide +kernel⟩⟩,
   ⟨linked, ⟨0, 32, 0, 0, 0, 0, 0, 0, 0, 0, true, repByte 32 0⟩, ⟨by decide +kernel, by decide +kernel, by decide +kernel, by decide +kernel⟩⟩,
   ⟨({ up with sph := { link := 2, role := 1 } } : State), ⟨0, 1, 0, 0x1000, 0, 0, 0, 0, 0, 0, true, [7]⟩, ⟨by decide +kernel, by decide +kernel, by decide +kernel, by decide +kernel⟩, by decide +kernel⟩,
   ⟨linked, ⟨0, 1, 0, 0x1000, 0, 0, 0, 0, 0, 0, true, [7]⟩, ⟨by decide +kernel, by decide +kernel, by decide +kernel, by decide +kernel⟩, by decide +kernel⟩,
   ⟨linked, ⟨0, 0, 0, 0, 0, 0, 0, 0, 1, 0, true, []⟩, ⟨by decide +kernel, by decide +kernel, by decide +kernel, by decide +kernel⟩, by decide +kernel⟩,
   ⟨linked, ⟨0, 0, 0, 0, 0, 0, 0, 0, 256, 0, true, []⟩, ⟨by decide +kernel, by decide +kernel, by decide +kernel, by decide +kernel⟩, by decide +kernel⟩,
   ⟨State.reset, .a, 0, true, (by decide +kernel)⟩,
   ⟨({ up with mirrors := up.mirrors.set 0 { base := 0x10000, len := 1 }, sph := { link := 2, partnerKnown := true, partnerRole := 1 } } : State), .a, 0, true, (by dsimp only; decide +kernel)⟩,
   ⟨up, .a, 0, true, (by dsimp only; decide +kernel)⟩,
   ⟨({ linked with mirrors := up.mirrors.set 0 { enable := true, state := .syncing } } : State), 0, (by dsimp only; decide +kernel)⟩,
   ⟨up, 0, (by dsimp only; decide +kernel)⟩⟩

/-- What the clauses of PairsJoinAndPart ask of a state and operands can be met. -/
theorem wit_PairsJoinAndPart :
    (∃ (s : State) (p : Port) (i : SlotId) (r : PairId) (testOk : Bool), Asks s p i 6 .any ∧ (s.slot p i).pay 0 1 = 2 ∧ (s.slot p i).pay 1 1 = 0 ∧ (s.slot p i).modeBad 2 4 = [] ∧ (s.slot p i).pay 2 2 = r.val ∧ (s.pairs[r].state = .paired ∨ s.pairs[r].state = .leaving)) ∧
    (∃ (s : State) (p : Port) (i : SlotId) (r : PairId) (testOk : Bool), Asks s p i 6 .any ∧ (s.slot p i).pay 0 1 = 2 ∧ (s.slot p i).pay 1 1 = 0 ∧ (s.slot p i).modeBad 2 4 = [] ∧ (s.slot p i).pay 2 2 = r.val ∧ 
    let rest := s.pairs[r].state = .split ∨ s.pairs[r].state = .degraded
    (s.pairs[r].state = .testing ∨ s.pairs[r].state = .resync ∨ s.pairs[r].state = .entering ∨ (rest ∧ s.sys.die1 = false))) ∧
    (∃ (s : State) (p : Port) (i : SlotId) (r : PairId) (testOk : Bool), Asks s p i 6 .any ∧ (s.slot p i).pay 0 1 = 2 ∧ (s.slot p i).pay 1 1 = 0 ∧ (s.slot p i).modeBad 2 4 = [] ∧ (s.slot p i).pay 2 2 = r.val ∧ 
    let y := { s.pairs[r] with mainDie := if s.pairs[r].main then 1 else 0 }
    let main := y.mainClus r
    let chk := y.checker r
    let rest := s.pairs[r].state = .split ∨ s.pairs[r].state = .degraded
    rest ∧ s.sys.die1 = true ∧ (s.clusFenced main = true ∨ s.clusFenced chk = true)) ∧
    (∃ (s : State) (p : Port) (i : SlotId) (r : PairId) (testOk : Bool), Asks s p i 6 .any ∧ (s.slot p i).pay 0 1 = 2 ∧ (s.slot p i).pay 1 1 = 0 ∧ (s.slot p i).modeBad 2 4 = [] ∧ (s.slot p i).pay 2 2 = r.val ∧ 
    let y := { s.pairs[r] with mainDie := if s.pairs[r].main then 1 else 0 }
    let main := y.mainClus r
    let chk := y.checker r
    let rest := s.pairs[r].state = .split ∨ s.pairs[r].state = .degraded
    rest ∧ s.sys.die1 = true ∧ s.clusFenced main = false ∧ s.clusFenced chk = false ∧ (s.clusOwned chk = true ∨ s.saveAreaOk s.pairs[r] = false)) ∧
    (∃ (s : State) (p : Port) (i : SlotId) (r : PairId) (testOk : Bool), Asks s p i 6 .any ∧ (s.slot p i).pay 0 1 = 2 ∧ (s.slot p i).pay 1 1 = 0 ∧ (s.slot p i).modeBad 2 4 = [] ∧ (s.slot p i).pay 2 2 = r.val ∧ 
    let y := { s.pairs[r] with mainDie := if s.pairs[r].main then 1 else 0 }
    let main := y.mainClus r
    let chk := y.checker r
    let rest := s.pairs[r].state = .split ∨ s.pairs[r].state = .degraded
    let quiet := (∀ o ∈ s.ops, clusOfCore o.core ≠ main) ∧ (∀ c ∈ s.cmds, c.runsOn main = false) ∧
      ∀ w ∈ partsOfClus main, (s.wctl w).st ≠ .closing ∧ (s.wctl w).st ≠ .powering
    rest ∧ s.sys.die1 = true ∧ s.clusFenced main = false ∧ s.clusFenced chk = false ∧ s.clusOwned chk = false ∧ s.saveAreaOk s.pairs[r] = true ∧ ¬ quiet) ∧
    (∃ (s : State) (p : Port) (i : SlotId) (r : PairId) (testOk : Bool), Asks s p i 6 .any ∧ (s.slot p i).pay 0 1 = 2 ∧ (s.slot p i).pay 1 1 = 0 ∧ (s.slot p i).modeBad 2 4 = [] ∧ (s.slot p i).pay 2 2 = r.val ∧ 
    let y := { s.pairs[r] with mainDie := if s.pairs[r].main then 1 else 0 }
    let main := y.mainClus r
    let chk := y.checker r
    let rest := s.pairs[r].state = .split ∨ s.pairs[r].state = .degraded
    let quiet := (∀ o ∈ s.ops, clusOfCore o.core ≠ main) ∧ (∀ c ∈ s.cmds, c.runsOn main = false) ∧
      ∀ w ∈ partsOfClus main, (s.wctl w).st ≠ .closing ∧ (s.wctl w).st ≠ .powering
    rest ∧ s.sys.die1 = true ∧ s.clusFenced main = false ∧ s.clusFenced chk = false ∧ s.clusOwned chk = false ∧ s.saveAreaOk s.pairs[r] = true ∧ quiet ∧ testOk = true) ∧
    (∃ (s : State) (p : Port) (i : SlotId) (r : PairId) (testOk : Bool), Asks s p i 6 .any ∧ (s.slot p i).pay 0 1 = 2 ∧ (s.slot p i).pay 1 1 = 0 ∧ (s.slot p i).modeBad 2 4 = [] ∧ (s.slot p i).pay 2 2 = r.val ∧ 
    let y := { s.pairs[r] with mainDie := if s.pairs[r].main then 1 else 0 }
    let main := y.mainClus r
    let chk := y.checker r
    let rest := s.pairs[r].state = .split ∨ s.pairs[r].state = .degraded
    let quiet := (∀ o ∈ s.ops, clusOfCore o.core ≠ main) ∧ (∀ c ∈ s.cmds, c.runsOn main = false) ∧
      ∀ w ∈ partsOfClus main, (s.wctl w).st ≠ .closing ∧ (s.wctl w).st ≠ .powering
    rest ∧ s.sys.die1 = true ∧ s.clusFenced main = false ∧ s.clusFenced chk = false ∧ s.clusOwned chk = false ∧ s.saveAreaOk s.pairs[r] = true ∧ quiet ∧ testOk = false) ∧
    (∃ (s : State) (p : Port) (i : SlotId) (r : PairId), s.mailRuns p i 6 = true ∧ (s.slot p i).started = true ∧ (s.slot p i).orphaned = false ∧ (s.slot p i).pay 0 1 = 2 ∧ (s.slot p i).pay 1 1 = 0 ∧ (s.slot p i).pay 2 2 = r.val ∧ s.pairs[r].state = .entering ∧ s.clusQuiet (s.pairs[r].mainClus r) = true) ∧
    (∃ (s : State) (p : Port) (i : SlotId) (r : PairId), s.mailRuns p i 6 = true ∧ (s.slot p i).started = true ∧ (s.slot p i).orphaned = false ∧ (s.slot p i).pay 0 1 = 2 ∧ (s.slot p i).pay 1 1 = 0 ∧ (s.slot p i).pay 2 2 = r.val ∧ s.pairs[r].state = .entering ∧ s.clusQuiet (s.pairs[r].mainClus r) = false ∧ ∃ b : Bool, True) ∧
    (∃ (s : State) (p : Port) (i : SlotId) (r : PairId), Asks s p i 6 .any ∧ (s.slot p i).pay 0 1 = 2 ∧ (s.slot p i).pay 1 1 = 1 ∧ (s.slot p i).modeBad 2 4 = [] ∧ (s.slot p i).pay 2 2 = r.val ∧ s.pairs[r].state = .paired) ∧
    (∃ (s : State) (p : Port) (i : SlotId) (r : PairId), Asks s p i 6 .any ∧ (s.slot p i).pay 0 1 = 2 ∧ (s.slot p i).pay 1 1 = 1 ∧ (s.slot p i).modeBad 2 4 = [] ∧ (s.slot p i).pay 2 2 = r.val ∧ (s.pairs[r].state = .testing ∨ s.pairs[r].state = .resync)) ∧
    (∃ (s : State) (p : Port) (i : SlotId) (r : PairId), Asks s p i 6 .any ∧ (s.slot p i).pay 0 1 = 2 ∧ (s.slot p i).pay 1 1 = 1 ∧ (s.slot p i).modeBad 2 4 = [] ∧ (s.slot p i).pay 2 2 = r.val ∧ (s.pairs[r].state = .split ∨ s.pairs[r].state = .degraded)) ∧
    (∃ (s : State) (p : Port) (i : SlotId) (r : PairId), s.mailRuns p i 6 = true ∧ (s.slot p i).started = true ∧ (s.slot p i).orphaned = false ∧ (s.slot p i).pay 0 1 = 2 ∧ (s.slot p i).pay 1 1 = 1 ∧ (s.slot p i).pay 2 2 = r.val ∧ s.pairs[r].state = .leaving) :=
  ⟨⟨asking ({ up with pairs := up.pairs.set 0 { state := .paired } } : State) 6 0xFFFF ([2, 0, 0, 0] ++ repByte 4 0), .a, 0, 0, true, asks_of (by decide +kernel), (by decide +kernel)⟩,
   ⟨asking ({ up with pairs := up.pairs.set 0 { state := .testing } } : State) 6 0xFFFF ([2, 0, 0, 0] ++ repByte 4 0), .a, 0, 0, true, asks_of (by decide +kernel), (by dsimp only; decide +kernel)⟩,
   ⟨asking ({ up with pairs := up.pairs.set 0 { state := .split }, trb := { fenced := [⟨0, 0⟩] } } : State) 6 0xFFFF ([2, 0, 0, 0] ++ repByte 4 0), .a, 0, 0, true, asks_of (by decide +kernel), (by dsimp only; decide +kernel)⟩,
   ⟨asking ({ up with pairs := up.pairs.set 0 { main := true } } : State) 6 0xFFFF ([2, 0, 0, 0] ++ repByte 4 0), .a, 0, 0, true, asks_of (by decide +kernel), (by dsimp only; decide +kernel)⟩,
   ⟨asking ({ up with ops := [op0] } : State) 6 0xFFFF ([2, 0, 0, 0] ++ repByte 4 0), .a, 0, 0, true, asks_of (by decide +kernel), (by dsimp only; decide +kernel)⟩,
   ⟨asking up 6 0xFFFF ([2, 0, 0, 0] ++ repByte 4 0), .a, 0, 0, true, asks_of (by decide +kernel), (by dsimp only; decide +kernel)⟩,
   ⟨asking up 6 0xFFFF ([2, 0, 0, 0] ++ repByte 4 0), .a, 0, 0, false, asks_of (by decide +kernel), (by dsimp only; decide +kernel)⟩,
   ⟨{ ({ up with pairs := up.pairs.set 0 { state := .entering } } : State).setSlot .a 0 { slotOf 6 0xFFFF ([2, 0, 0, 0] ++ repByte 4 0) with started := true } with reqs := [(.a, 0)] }, .a, 0, 0, (by decide +kernel)⟩,
   ⟨{ ({ up with pairs := up.pairs.set 0 { state := .entering }, ops := [op0] } : State).setSlot .a 0 { slotOf 6 0xFFFF ([2, 0, 0, 0] ++ repByte 4 0) with started := true } with reqs := [(.a, 0)] }, .a, 0, 0, (by decide +kernel), (by decide +kernel), (by decide +kernel), (by decide +kernel), (by decide +kernel), (by decide +kernel), (by decide +kernel), (by decide +kernel), true, trivial⟩,
   ⟨asking ({ up with pairs := up.pairs.set 0 { state := .paired } } : State) 6 0xFFFF ([2, 1, 0, 0] ++ repByte 4 0), .a, 0, 0, asks_of (by decide +kernel), (by decide +kernel)⟩,
   ⟨asking ({ up with pairs := up.pairs.set 0 { state := .testing } } : State) 6 0xFFFF ([2, 1, 0, 0] ++ repByte 4 0), .a, 0, 0, asks_of (by decide +kernel), (by decide +kernel)⟩,
   ⟨asking up 6 0xFFFF ([2, 1, 0, 0] ++ repByte 4 0), .a, 0, 0, asks_of (by decide +kernel), (by decide +kernel)⟩,
   ⟨{ (({ up with pairs := up.pairs.set 0 { state := .leaving } } : State)).setSlot .a 0 { slotOf 6 0xFFFF ([2, 1, 0, 0] ++ repByte 4 0) with started := true } with reqs := [(.a, 0)] }, .a, 0, 0, (by decide +kernel)⟩⟩

/-- What the clauses of MismatchesEndInATest ask of a state and operands can be met. -/
theorem wit_MismatchesEndInATest :
    (∃ (s : State) (r : PairId) (k : Nat) (xs ys : List Nat), ((s.pairs[r].state ≠ .paired ∧ s.pairs[r].state ≠ .leaving) ∨ signature xs = signature ys)) ∧
    (∃ (s : State) (r : PairId) (k : Nat) (xs ys : List Nat), (s.pairs[r].state = .paired ∨ s.pairs[r].state = .leaving) ∧ signature xs ≠ signature ys) ∧
    (∃ (s : State) (r : PairId) (a b q : Bool), s.pairs[r].state ≠ .testing) ∧
    (∃ (s : State) (r : PairId), s.pairs[r].state = .testing ∧ s.pairs[r].splitWaits = none) ∧
    (∃ (s : State) (r : PairId) (a b q : Bool), s.pairs[r].state = .testing ∧ s.pairs[r].splitWaits = none ∧ (a && b) = false) ∧
    (∃ (s : State) (c : ClusId) (x : DebugAct), s.isChecker c = true) ∧
    (∃ (s : State) (c : ClusId) (x : DebugAct), s.isChecker c = false ∧ s.diePresent (dieOfClus c) = false) ∧
    (∃ (s : State) (c : ClusId) (x : DebugAct), s.isChecker c = false ∧ s.diePresent (dieOfClus c) = true) :=
  ⟨⟨({ up with pairs := up.pairs.set 0 { state := .paired } } : State), 0, 1, [5], [5], .inr rfl⟩,
   ⟨({ up with pairs := up.pairs.set 0 { state := .paired } } : State), 0, 1, [0, 0, 0, 0, 0, 1], [], .inl rfl, signature_last⟩,
   ⟨up, 0, true, true, true, (by decide +kernel)⟩,
   ⟨({ up with pairs := up.pairs.set 0 { state := .testing } } : State), 0, (by decide +kernel)⟩,
   ⟨({ up with pairs := up.pairs.set 0 { state := .testing } } : State), 0, false, true, true, (by decide +kernel)⟩,
   ⟨({ up with pairs := up.pairs.set 0 { state := .paired } } : State), 4, .resume, (by decide +kernel)⟩,
   ⟨({ up with sys := { up.sys with die1 := false } } : State), 4, .resume, (by decide +kernel)⟩,
   ⟨up, 0, .resume, (by decide +kernel)⟩⟩

/-- What the clauses of RegistersAreWrittenAndCleared ask of a state and operands can be met. -/
theorem wit_RegistersAreWrittenAndCleared :
    (∃ (s : State) (p : Port) (off : Nat) (v : W32), s.reached p = false) ∧
    (∃ (s : State) (p : Port) (off : Nat) (v : W32), s.reached p = false ∧ off < 0x1000000) ∧
    (∃ (s : State) (p : Port) (off : Nat) (v : W32), ((off % 4 ≠ 0 ∧ off < 0x1000000) ∨ off < 0x104 ∨ (0x108 ≤ off ∧ off < 0x1800C) ∨ (0x1000000 ≤ off ∧ (s.port p).link = false))) ∧
    (∃ (s : State) (p : Port) (v : W32), s.reached p = true) ∧
    (∃ (s : State) (p : Port) (v : W32), s.reached p = true ∧ s.diePresent 1 = false ∧ ∃ off, ((0x57180 ≤ off ∧ off < 0x57300) ∨ (0x57420 ≤ off ∧ off < 0x57430))) ∧
    (∃ (s : State) (p : Port) (q : PartId) (k : SemId) (v : W32), s.reached p = true) ∧
    (∃ (s : State) (p : Port) (q : PartId) (k : QueId) (v : W32), s.reached p = true) ∧
    (∃ (s : State) (p : Port) (n : Fin 64) (v : W32), s.reached p = true) ∧
    (∃ (s : State) (p : Port) (n : Fin 64) (v : W32), s.reached p = true ∧ (s.port p).msix[n].pending = true ∧ v.getLsbD 0 = false) ∧
    (∃ (s : State) (p : Port) (r : PairId) (v : W32), s.reached p = true) ∧
    (∃ (s : State) (p : Port) (v : W32), (s.port p).link = true) ∧
    (∃ (s : State) (p : Port) (v : W32), (s.port p).link = true ∧ ∃ n, 14 ≤ n ∧ n ≤ 18 ∧ v.toNat / 256 % 64 = n) ∧
    (∃ (s : State) (p : Port) (k : Sticky) (v : W32), s.reached p = true ∧ s.diePresent k.die = true) ∧
    (∃ (s : State) (p : Port) (k : Sticky) (v : W32), s.diePresent k.die = false) ∧
    (∃ (s : State) (p : Port) (n : CoreId) (v : W32), s.reached p = true) ∧
    (∃ (s : State) (off : Nat), s.sys.rails = .on ∧ s.sys.rstN = true ∧ smbusServes off = true) ∧
    (∃ (s : State) (off : Nat), (s.sys.rails ≠ .on ∨ s.sys.rstN = false ∨ smbusServes off = false)) :=
  ⟨⟨State.reset, .a, 5, 1, (by decide +kernel)⟩,
   ⟨State.reset, .a, 2, 0, (by decide +kernel)⟩,
   ⟨up, .a, 2, 0, (by decide +kernel)⟩,
   ⟨up, .a, 5, (by decide +kernel)⟩,
   ⟨{ up with sys := { rstN := true, clocked := true, boot := .booted, fwState := 3 } }, .a, 5, (by decide +kernel), (by decide +kernel), 0x57180, (by decide +kernel)⟩,
   ⟨up, .a, 0, 0, 7, (by decide +kernel)⟩,
   ⟨up, .a, 0, 0, 7, (by decide +kernel)⟩,
   ⟨({ up with ports := .replicate 2 { attached := true, link := true, msix := .replicate 64 { masked := false } } } : State), .a, 0, 7, (by decide +kernel)⟩,
   ⟨({ up with ports := .replicate 2 { attached := true, link := true, msix := .replicate 64 { pending := true } } } : State), .a, 0, 6, (by decide +kernel)⟩,
   ⟨up, .a, 0, 7, (by decide +kernel)⟩,
   ⟨up, .a, 0, (by decide +kernel)⟩,
   ⟨up, .a, 0xE00, (by decide +kernel), 14, (by decide +kernel)⟩,
   ⟨up, .a, .sph, 1, (by decide +kernel)⟩,
   ⟨State.reset, .a, .net 1, 1, (by decide +kernel)⟩,
   ⟨up, .a, 0, 0, (by decide +kernel)⟩,
   ⟨up, 0, (by decide +kernel)⟩,
   ⟨State.reset, 0, (by decide +kernel)⟩⟩

/-- What the clauses of AnEmptyQueueLetsACyclePass ask of a state and operands can be met. -/
theorem wit_AnEmptyQueueLetsACyclePass :
    (∃ (s : State), s.pending = [] ∧ (s.sys.rails ≠ .on ∨ s.sys.clocked = false)) ∧
    (∃ (s : State), s.pending = [] ∧ s.sys.rails = .on ∧ s.sys.clocked = true) :=
  ⟨⟨State.reset, (by decide +kernel)⟩,
   ⟨up, (by decide +kernel)⟩⟩

/-- What the clauses of StepKeepsMemoryCanonical ask of a state and operands can be met. -/
theorem wit_StepKeepsMemoryCanonical :
    ∃ s t : State, MemInv s ∧ step s = .next t :=
  ⟨({ holding up 0x1000 [5] with pending := [.pcieHotReset .a] } : State), _, ⟨by decide +kernel, fun p => by cases p <;> decide +kernel⟩, rfl⟩

/-! ## Well-formedness: an ill-formed term of each check is refused -/

theorem test_wf_die_alignment : Instr.wf (.dieAlignment [3, 3, 5, 3]) = false ∧ Instr.wf (.dieAlignment [4]) = false := by decide
theorem test_wf_bar0 : Instr.wf (.bar0BadAccess .a 8 4) = false ∧ Instr.wf (.bar0BadAccess .a 4 8) = true := by decide
theorem test_wf_bar2 : Instr.wf (.bar2Read .a 0 0) = false ∧ Instr.wf (.bar2Read .a 274877906943 2) = false ∧ Instr.wf (.bar2Write .a 0 []) = false := by decide
theorem test_wf_slot : Instr.wf (.mbxSlotWrite .a 0 1023 [0, 0]) = false ∧ Instr.wf (.mbxSlotWrite .a 0 0 []) = false := by decide
theorem test_wf_unit_test : Instr.wf (.unitTest .a 0 4294967296 none) = false ∧ Instr.wf (.unitTest .a 0 0 (some (18446744073709551616, 0))) = false ∧
    Instr.wf (.unitTest .a 0 0 (some (0, 18446744073709551616))) = false := by decide
theorem test_wf_fw_commit : Instr.wf (.fwCommit .a 0 4294967296 true) = false := by decide
theorem test_wf_sem_acquire : Instr.wf (.semAcquire 0 none none) = false := by decide
theorem test_wf_seq_front : ([.deadlineMiss 0 0 4294967296, .launchAt 0 0 4294967296, .preemptionStop 0 0 4294967296, .commandCompletion 0 0 4294967296,
    .hint 0 0 4294967296, .wait 0 0 4294967296, .signalAdd 0 0 4294967296, .signalRemote 0 0 4294967296, .signalWrite 0 0 4294967296,
    .fence 0 0 4294967296, .save 0 0 4294967296, .load 0 0 4294967296, .hintActivate 0 4294967296, .hintExpire 0 4294967296].all fun c => !Instr.wf c) = true := by
  decide
theorem test_wf_seq_engine : ([.gemm 0 0 4294967296 .none, .vop 0 0 4294967296 .none, .conv 0 0 4294967296 .none, .pool 0 0 4294967296 .none,
    .crop 0 0 4294967296 .none, .s2d 0 0 4294967296 .none, .d2s 0 0 4294967296 .none, .frc 0 0 4294967296 .none, .qscan 0 0 4294967296,
    .qconv 0 0 4294967296, .adapt 0 0 4294967296 .none, .pump 0 0 4294967296, .fill 0 0 4294967296, .copy 0 0 4294967296].all fun c => !Instr.wf c) = true := by
  decide
theorem test_wf_seq_stream : ([.rstep 0 0 4294967296 .none, .lstep 0 0 4294967296 .none, .feat 0 0 4294967296 .none, .streamGroup 0 0 4294967296,
    .streamOpen 0 0 4294967296, .streamPause 0 0 4294967296, .streamResume 0 0 4294967296, .streamPark 0 0 4294967296, .streamReset 0 0 4294967296,
    .streamExport 0 0 4294967296, .streamImport 0 0 4294967296, .streamClose 0 0 4294967296].all fun c => !Instr.wf c) = true := by decide
theorem test_wf_seq_attention : ([.attnStepFinish 0 0 4294967296 .none, .attnStepNodes 0 0 4294967296 .none, .attnStepCombine 0 0 4294967296 .none,
    .heap 0 0 4294967296, .seqOpen 0 0 4294967296, .seqClose 0 0 4294967296, .pin 0 0 4294967296, .unpin 0 0 4294967296,
    .trim 0 0 4294967296].all fun c => !Instr.wf c) = true := by decide
theorem test_wf_addresses : Instr.wf (.spillAcknowledged 1099511627776) = false ∧ Instr.wf (.returnLanded 1099511627776 false) = false ∧
    Instr.wf (.patrolScrub 137438953472) = false ∧ Instr.wf (.firLoad .a 1099511627776) = false ∧
    Instr.wf (.debugAction 0 (.write 1099511627776 [0])) = false ∧ Instr.wf (.debugAction 0 (.write 0 [])) = false := by decide
theorem test_wf_counts : Instr.wf (.ondieEccPoll []) = false ∧ Instr.wf (.tempSensorRead []) = false ∧ Instr.wf (.tdmFrame 0 []) = false ∧
    Instr.wf (.pairOffsetMeasure [0]) = false := by decide
theorem test_wf_ethernet : Instr.wf (.ethLinkUp 0 0) = false ∧ Instr.wf (.ethLinkUp 0 5) = false ∧
    Instr.wf (.ethFrameReceive 0 18446744073709551616 true []) = false := by decide
theorem test_wf_camera : Instr.wf (.frameStart 0 16 0 0) = false ∧ Instr.wf (.frameStart 0 0 65536 0) = false ∧
    Instr.wf (.frameStart 0 0 0 281474976710656) = false ∧ Instr.wf (.frameEnd 0 16 0) = false ∧ Instr.wf (.frameEnd 0 0 281474976710656) = false ∧
    Instr.wf (.csiLinePacket 0 16 0 true true ⟨false, []⟩) = false ∧ Instr.wf (.csiLinePacket 0 0 64 true true ⟨false, []⟩) = false := by decide
theorem test_wf_audio : Instr.wf (.bindingLoad .a 4096) = false ∧ Instr.wf (.bindingClear .a 4096) = false ∧ Instr.wf (.audioChunkDue 262144) = false := by decide
/-- A message whose length field is not that of its payload. -/
def msgBad : Msg := ⟨0, 1, 0, 0, 0, 0, 0, 0, 0, 0, true, []⟩
def msgGood : Msg := ⟨0, 0, 0, 0, 0, 0, 0, 0, 0, 0, true, []⟩
theorem test_wf_messages : ([.siphonWrite msgBad, .siphonReadReq msgBad, .siphonReadData msgBad, .siphonRegister msgBad, .siphonRegDone msgBad,
    .siphonRelease msgBad, .siphonSignal msgBad, .siphonAck msgBad, .siphonTime msgBad 0 0, .siphonTime msgGood 18446744073709551616 0,
    .siphonTimebase msgBad, .siphonHeartbeat msgBad, .siphonMirror msgBad, .siphonRole msgBad, .siphonLinkUp 0 0 3].all fun c => !Instr.wf c) = true := by decide
theorem test_wf_registers : Instr.wf (.smbusRead 2) = false ∧ Instr.wf (.stickyClear .a 16777216 0) = false ∧ Instr.wf (.registerWrite .a 1 0) = false ∧
    Instr.wf (.measurementStart .a 0 8192) = false ∧ Instr.wf (.pairMismatch 0 0 ⟨[0], [0, 0, 0, 0, 0, 0]⟩) = false ∧
    Instr.wf (.pairMismatch 0 18446744073709551616 ⟨[0, 0, 0, 0, 0, 0], [0, 0, 0, 0, 0, 0]⟩) = false := by decide

/-! ## Arithmetic that the spec's tables and examples fix -/

/-- The two vectors of Table DET-3. -/
theorem test_steep_vector_zero : steep 0 0 0 = 0x7FD4EBA6E5E46B48 := by decide +kernel
theorem test_steep_vector_two : steep 0x0000000200000001 3 4 = 0xA168CBEB57D41F0D := by decide +kernel
/-- Table NUM-7: the tree for S = 5, with concatenation of bits for the addition. -/
theorem test_tree_of_five : tree (fun x y => x * 16 + y) [1, 2, 3, 4, 5] = ((1 * 16 + 2) * 16 + (3 * 16 + 4)) * 16 + 5 := by decide +kernel
/-- Table NUM-1: the largest values of the narrow formats, 448, 57,344, 7.5, 28, 6, 127 and 7, in FP32. -/
theorem test_narrow_maxima : [(3, 0x7E), (4, 0x7B), (5, 0x1F), (6, 0x1F), (7, 0x7), (8, 0x7F), (9, 0x7)].map (fun x => roundFp (narrowVal x.1 x.2)) =
    [0x43E00000, 0x47600000, 0x40F00000, 0x41E00000, 0x40C00000, 0x42FE0000, 0x40E00000] := by decide +kernel
/-- Table NUM-1: the least subnormals 2^-9, 2^-16, 0.125, 0.0625 and 0.5. -/
theorem test_narrow_minima : [3, 4, 5, 6, 7].map (fun f => roundFp (narrowVal f 1)) = [0x3B000000, 0x37800000, 0x3E000000, 0x3D800000, 0x3F000000] := by
  decide +kernel
/-- R64: the scale code c has the value 2^(c - 127), and 0xFF means NaN. -/
theorem test_block_scale : roundFp (scaled 130 (narrowVal 7 2)) = 0x41000000 ∧ fIsNaN (roundFp (scaled 255 (narrowVal 7 2))) = true := by decide +kernel
/-- R63: a NaN produced is the canonical one; a subnormal is honoured. -/
theorem test_nan_and_subnormal : fadd 0xFF800001 0x3F800000 = 0x7FC00000 ∧ fadd 0x00000001 0 = 0x00000001 ∧ fmul 0x00800000 0x3F000000 = 0x00400000 := by
  decide +kernel
/-- Round to nearest with ties to even: 1 + 2^-24 is 1, and 1 + 2^-23 + 2^-24 rounds up to the even neighbour. -/
theorem test_ties_to_even : fadd 0x3F800000 0x33800000 = 0x3F800000 ∧ fadd 0x3F800001 0x33800000 = 0x3F800002 := by decide +kernel
/-- One rounding of a multiply-add: (1 + 2^-12)^2 - 1 keeps its last bit 2^-24. -/
theorem test_fma_rounds_once : ffma 0x3F800800 0x3F800800 0xBF800000 = 0x3A000400 := by decide +kernel
/-- Chapter CNV's example of reflect mode: taps -502, 10 and 522 of 60 rows, and -507, 5 and 517 of 80 columns. -/
theorem test_reflect_example : [-502, 10, 522].map (reflect 60) = [30, 10, 50] ∧ [-507, 5, 517].map (reflect 80) = [33, 5, 43] := by decide
/-- Chapter SCO's example under R11: a scale skew and a pair mismatch give ST_PAIR_MISMATCH. -/
theorem test_status_precedence : St.choose [.scaleSkew, .pairMismatch] = .pairMismatch := by decide
/-- R171: a 48-bit count lies within 2^47 of the counter, on either side of a wrap. -/
theorem test_near48_wraps : near48 (2 ^ 48 - 5) 3 = 2 ^ 48 + 3 ∧ near48 (2 ^ 48 + 5) (2 ^ 48 - 3) = 2 ^ 48 - 3 := by decide
/-- R391 at rate 0: one count is 1.5625 ns, so 640 counts are 1,000 ns. -/
theorem test_time_of_640_counts : ({} : Tb).time 640 = 1000 * 65536 := by decide +kernel
/-- R336: at 1 s of network time the media index of a 48 kHz source is 48,000. -/
theorem test_media_index : up.mediaAt 48000 640000000 = 48000 := by decide +kernel

/-- The check value of CRC-8 with polynomial 0x07 over "123456789" (R476, log entry 50). -/
theorem test_smbus_pec_check_value : smbusPec [0x31, 0x32, 0x33, 0x34, 0x35, 0x36, 0x37, 0x38, 0x39] = 0xF4 := by decide +kernel

/-- The check value of CRC-64 (ECMA-182), which R404 names: that of the nine digits "123456789" (PRESUMED, the standard's own). -/
theorem test_crc64_check_value : crc64 [0x31, 0x32, 0x33, 0x34, 0x35, 0x36, 0x37, 0x38, 0x39] = 0x6C40DF5F0B497347 := by decide +kernel

/-! ## Single steps -/

/-- The state after a command, or the state itself when it does not go on. -/
def after (c : Instr) (s : State) : State :=
  match exec c s with
  | .next t => t
  | .fault _ => s
  | .refused _ => s

/-- R480: PWR_EN low for its filter time turns the converters off and nothing is kept. -/
theorem test_power_off_loses_memory : let t := after (.pwrEnFall 100) (holding up 0x1000 [7]); t.sys.rails = .off ∧ t.mem = [] := by decide +kernel
/-- R479: a reset restarts the counter. -/
theorem test_rst_n_restarts_counter : (after (.rstNAssert 1000) up).counter = 0 ∧ (after (.rstNAssert 1000) up).sys.fwState = 0 := by decide +kernel
/-- R54: a tie of two acquires goes to one port, the tag is its own, and the next tie favours the other port. -/
theorem test_semaphore_tie : let t := after (.semAcquire 3 (some 7) (some 9)) up
    (t.sems[(3 : SemId)].held, t.sems[(3 : SemId)].owner, t.sems[(3 : SemId)].tag, t.sems[(3 : SemId)].favours) = (true, .a, 7, .b) := by decide +kernel
/-- R42, R44: the rung slots become BUSY and wait in ascending order. -/
theorem test_ring_makes_busy : let q := { slotOf 1 0xFFFF [] with busy := false }
    let t := after (.mbxRing .a 0x80000001) ((up.setSlot .a 0 q).setSlot .a 31 q)
    (t.slot .a 0).busy = true ∧ (t.slot .a 31).busy = true ∧ (t.slot .a 1).busy = false ∧ t.reqs = [(.a, 0), (.a, 31)] := by decide +kernel
/-- R47: a request that names a partition that is not open is refused and changes nothing. -/
theorem test_part_close_needs_open : let t := after (.partClose .a 0) (asking up 0x11 5 []); t.parts = up.parts ∧ (t.slot .a 0).done = true := by decide +kernel
/-- R55: a hot reset detaches the port; the other port stays attached. -/
theorem test_hot_reset_detaches : ((after (.pcieHotReset .a) up).port .a).attached = false ∧ ((after (.pcieHotReset .a) up).port .b).attached = true := by
  decide +kernel
/-- R58: a doorbell moves the producer at most the ring's size ahead of the consumer. -/
theorem test_doorbell_moves : let s := up.setQueue 0 0 { cring := some ⟨false, 64, 0x10000⟩ }
    ((after (.queueDoorbell .a 0 0 64) s).queue 0 0).prod = 64 ∧ ((after (.queueDoorbell .a 0 0 65) s).queue 0 0).prod = 0 := by decide +kernel
/-- R182: counters are 32-bit, so SIGNAL adds modulo 2^32. -/
theorem test_signal_wraps : let p := { part0 with sigs := part0.sigs.set 0 0xFFFFFFFF }
    let s := running (up.setPart 0 p) (cmdOf .signalAdd 0x32 (leBytes 2 0 ++ leBytes 4 3))
    (after (.signalAdd 0 0 0) s).parts[(0 : PartId)].sigs[(0 : SemId)] = 2 := by decide +kernel
/-- FILL (R115) writes its 64-bit pattern over a range of a well. -/
theorem test_fill_repeats : let c := cmdF .fill 0x21 [(0, wellAddr 0 0), (40, 16), (80, 0x0807060504030201)]
    (after (.fill 0 0 0) (running up c)).bytes (wellAddr 0 0) 17 = [1, 2, 3, 4, 5, 6, 7, 8, 1, 2, 3, 4, 5, 6, 7, 8, 0] := by decide +kernel
/-- R116: COPY gives the result of reading the whole source before it writes, the ranges overlapping. -/
theorem test_copy_overlaps : let c := cmdF .copy 0x22 [(0, wellAddr 0 0), (40, wellAddr 0 8), (80, 16)]
    (after (.copy 0 0 0) (running (holding up (wellAddr 0 0) [1, 2, 3, 4, 5, 6, 7, 8, 9]) c)).bytes (wellAddr 0 8) 16 =
      [1, 2, 3, 4, 5, 6, 7, 8, 9, 0, 0, 0, 0, 0, 0, 0] := by decide +kernel
/-- R393: a step of one nanosecond moves network time by one nanosecond. -/
theorem test_tb_step_one_ns : let s := { up with ports := up.ports.map fun (h : HostPort) => { h with tbAdj := 65536 } }
    (after (.tbStepOp .a false) s).cycle.tb.time 2000000 = up.tb.time 2000000 + 65536 := by decide +kernel
/-- R396: PPS_OUT rises at the first count of a new second. -/
theorem test_pps_at_second : (after .ppsOutRise { up with counter := 640000000, tb := { pps := 1 } }).tb.ppsLevel = true ∧
    (after .ppsOutRise { up with counter := 640000001, tb := { pps := 1 } }).tb.ppsLevel = false := by decide +kernel
/-- R384: a frame shorter than 60 bytes without FCS is counted and goes nowhere. -/
theorem test_runt_frame : let t := after (.ethFrameReceive 0 0 true (repByte 59 0xFF)) ethUp; (t.eth[(0 : EthId)].rxBad, t.eth[(0 : EthId)].rxNoDesc) = (1, 0) := by
  decide +kernel
/-- R388: w(64) = ceil(84 × 5.12 ÷ 10) = 44 at 10 Gb/s. -/
theorem test_wire_time : wireTime 4 60 = 44 := by decide +kernel
/-- R361, R374: a software trip gives FAULT with cause 8, the lowest listed. -/
theorem test_axis_trip : let t := after (.axisTrip .a 0) (axisIs up { state := .run }); (t.axes[(0 : AxisId)].state, t.axes[(0 : AxisId)].cause) = (.fault, 8) := by
  decide +kernel
/-- R331: the trigger pulse ends 64 µs, 40,960 counts, after it rose and not before. -/
theorem test_trigger_width : (after (.triggerEnd 0) (camIs { gpio := true, gpioRose := 959040 })).cams[(0 : CamId)].gpio = false ∧
    (after (.triggerEnd 0) (camIs { gpio := true, gpioRose := 959041 })).cams[(0 : CamId)].gpio = true := by decide +kernel
/-- R329: a frame that cannot start is dropped, and its number is still taken. -/
theorem test_camera_drop : let t := after (.frameStart 0 0 1 2) (camIs { state := .running }); (t.cams[(0 : CamId)].frames, t.cams[(0 : CamId)].dropped) = (1, 1) := by
  decide +kernel
/-- R443: a domain that is on already answers at once. -/
theorem test_domain_already_on : ((after (.domainOn .a 127) up).port .a).pdDone = true ∧ ((after (.domainOn .a 127) up).port .a).pdDomain = 127 := by decide +kernel
/-- R416: a message whose CRC fails is counted and dropped. -/
theorem test_siphon_bad_crc : let t := after (.siphonWrite { msgGood with crcOk := false }) linked; (t.sph.bad, t.sph.rxSeq, t.mem) = (1, 0, linked.mem) := by
  decide +kernel
/-- R318: a module that is ahead and owes a hold holds at a count whose low 16 bits are 0xFFFF. -/
theorem test_counter_hold : let s := { linked with counter := 0x1FFFF, det := { state := .aligned, owes := true, offset := -1 } }
    (after .counterHold s).det.holdNow = true ∧ (after .counterHold { s with counter := 0x1FFFE }).det.holdNow = false := by decide +kernel
/-- MBX_IDENT names vendor 0x1F3B (Table MBX-3). -/
theorem test_ident_vendor : (up.reg .a 0) % 65536 = 0x1F3B := by decide +kernel
/-- R6: a 1 clears a sticky bit and a 0 leaves it. -/
theorem test_sticky_write_one_clears : let s := ((up.flag .sph 2).flag .sph 3).cycle
    (after (.stickyClear .a (Sticky.off .sph) 4) s).err .sph = 8 := by decide +kernel
/-- R7: a bit that hardware sets in the cycle in which a 1 is written to it stays set. -/
theorem test_sticky_set_wins : (after (.stickyClear .a (Sticky.off .sph) 4) (up.flag .sph 2)).err .sph = 4 := by decide +kernel
/-- A step takes the command at the front and leaves the rest of the queue. -/
theorem test_step_takes_the_front : (match step { up with pending := [.pcieHotReset .a, .pcieHotReset .b] } with
    | .next t => decide (t.pending = [.pcieHotReset .b] ∧ (t.port .a).attached = false ∧ (t.port .b).attached = true)
    | .fault _ => false
    | .refused _ => false) = true := by decide +kernel
/-- The table gives no word bits, so none is put in front of the queue. -/
theorem test_no_word_spells_a_command : up.withFetchWord 32 5 = up ∧ decodeTableWord 32 5 = none := by decide +kernel

end Sys2Proof.Tests
end

section
/-! The hardware semaphores (R52, R54), and the host accesses that are refused: poisoned writes and badly sized BAR0 accesses (R36). -/
namespace Sys2Proof.Machine

open Sys2Proof.Safety

/-! ## An access through a port (log entry 211) -/

@[simp] theorem State.hostRow_of_reached {s : State} {p : Port} (h : s.reached p = true) (body : State) : s.hostRow p body = body := if_pos h

@[simp] theorem State.hostRow_of_not_reached {s : State} {p : Port} (h : s.reached p = false) (body : State) : s.hostRow p body = s := by
  simp [State.hostRow, h]

/-- A command whose own effect leaves the state gives that state. -/
theorem gives_self {c : Instr} {s : State} (h : exec c s = done s s) : Gives c s s := gives_done h rfl

/-- A host's access through a port that no access reaches gives the state it found. -/
theorem gives_self_of_not_reached {c : Instr} {s body : State} {p : Port} (hp : s.reached p = false) (h : exec c s = done s (s.hostRow p body)) :
    Gives c s s :=
  gives_self (by rw [h, State.hostRow_of_not_reached hp])

/-! ## Semaphores (R52, R54) -/

theorem Sem.acquire_of_held {x : Sem} (h : x.held = true) (a b : Option W16) : x.acquire a b = x := if_pos h

@[simp] theorem Sem.acquire_none_none (x : Sem) : x.acquire none none = x := ite_self x

theorem Sem.acquire_a_of_free {x : Sem} (h : x.held = false) (t : W16) : x.acquire (some t) none = x.give .a t := by
  simp [Sem.acquire, h]

theorem Sem.acquire_b_of_free {x : Sem} (h : x.held = false) (t : W16) : x.acquire none (some t) = x.give .b t := by
  simp [Sem.acquire, h]

/-- Of two acquires of a free semaphore in one cycle the favoured port's wins, and the priority flips (R54). -/
theorem Sem.acquire_both_of_free {x : Sem} (h : x.held = false) (t u : W16) :
    x.acquire (some t) (some u) = { x.give x.favours (if x.favours = .a then t else u) with favours := x.favours.other } := by
  simp [Sem.acquire, h]

/-- The tag of an acquire that the module hears: that of one through a port that an access reaches. -/
def State.heardTag (s : State) (p : Port) (t : Option W16) : Option W16 := if s.reached p then t else none

@[simp] theorem State.heardTag_none (s : State) (p : Port) : s.heardTag p none = none := ite_self none

theorem State.heardTag_of_reached {s : State} {p : Port} (h : s.reached p = true) (t : Option W16) : s.heardTag p t = t := if_pos h

theorem State.heardTag_of_not_reached {s : State} {p : Port} (h : s.reached p = false) (t : Option W16) : s.heardTag p t = none := by
  simp [State.heardTag, h]

theorem exec_semAcquire (s : State) (k : SemId) (a b : Option W16) :
    exec (.semAcquire k a b) s = done s { s with sems := s.sems.set k (s.sems[k].acquire (s.heardTag .a a) (s.heardTag .b b)) } := rfl

/-- SEM_ACQUIRE puts the semaphore that its heard acquires make in place of the old one, and changes nothing else. -/
theorem gives_semAcquire {s : State} {k : SemId} {a b : Option W16} {x : Sem} (h : s.sems[k].acquire (s.heardTag .a a) (s.heardTag .b b) = x) :
    Gives (.semAcquire k a b) s { s with sems := s.sems.set k x } :=
  gives_done (exec_semAcquire s k a b) (by rw [h])

/-- SEM_ACQUIRE changes nothing where its heard acquires leave the semaphore. -/
theorem gives_semAcquire_self {s : State} {k : SemId} {a b : Option W16}
    (h : s.sems[k].acquire (s.heardTag .a a) (s.heardTag .b b) = s.sems[k]) : Gives (.semAcquire k a b) s s := by
  have g := gives_semAcquire h
  rwa [Fin.getElem_fin, Vector.set_getElem_self] at g

theorem exec_semRelease (s : State) (p : Port) (k : SemId) (t : W16) : exec (.semRelease p k t) s = done s (s.hostRow p (s.semFree p k t)) := rfl

theorem State.semFree_of_holder {s : State} {p : Port} {k : SemId} {t : W16} (h : s.sems[k].held = true ∧ s.sems[k].owner = p ∧ s.sems[k].tag = t) :
    s.semFree p k t = { s with sems := s.sems.set k { s.sems[k] with held := false, broken := false } } :=
  if_pos (by simpa [and_assoc] using h)

theorem State.semFree_of_misuse {s : State} {p : Port} {k : SemId} {t : W16}
    (h : ¬ (s.sems[k].held = true ∧ s.sems[k].owner = p ∧ s.sems[k].tag = t)) : s.semFree p k t = s.flag .mbx 2 :=
  if_neg (by simpa [and_assoc] using h)

/-- Settles O2, from what the acquires that are heard make of a semaphore, and from the two outcomes of a release. -/
theorem semaphoresFollowTheirRules : Obligations.SemaphoresFollowTheirRules := by
  refine ⟨fun s k t free => ⟨fun ra => ?acquireA, fun rb => ?acquireB⟩, fun s k t u free ra rb => ?acquireBoth, fun s k a b held => ?acquireHeld,
    fun s k a b => ⟨fun ra => ?deafToA, fun rb => ?deafToB, ?acquireNone⟩, fun s p k t rp held owner tag => ?releaseByHolder,
    fun s p k t rp misuse => ?releaseMisused, fun s p k t rp => ?releaseNotHeard⟩
  case acquireA =>
    exact gives_semAcquire (by rw [State.heardTag_of_reached ra, State.heardTag_none, Sem.acquire_a_of_free free]; rfl)
  case acquireB =>
    exact gives_semAcquire (by rw [State.heardTag_of_reached rb, State.heardTag_none, Sem.acquire_b_of_free free]; rfl)
  case acquireBoth =>
    exact gives_semAcquire (by rw [State.heardTag_of_reached ra, State.heardTag_of_reached rb, Sem.acquire_both_of_free free]; rfl)
  case acquireHeld => exact gives_semAcquire_self (Sem.acquire_of_held held _ _)
  case deafToA => rw [exec_semAcquire, exec_semAcquire, State.heardTag_of_not_reached ra, State.heardTag_none]
  case deafToB => rw [exec_semAcquire, exec_semAcquire, State.heardTag_of_not_reached rb, State.heardTag_none]
  case acquireNone => exact gives_semAcquire_self (by simp)
  case releaseByHolder =>
    exact gives_done (exec_semRelease s p k t) (by rw [State.hostRow_of_reached rp, State.semFree_of_holder ⟨held, owner, tag⟩])
  case releaseMisused =>
    exact gives_done (exec_semRelease s p k t) (by rw [State.hostRow_of_reached rp, State.semFree_of_misuse misuse])
  case releaseNotHeard => exact gives_self_of_not_reached rp (exec_semRelease s p k t)

/-! ## What follows a command that touches no sticky register (R41, R458, R460) -/

theorem State.err_congr {s t : State} (h : t.errs = s.errs) (k : Sticky) : t.err k = s.err k := by rw [State.err, State.err, h]

/-- Where no sticky register changed, none became nonzero, and no event is logged. -/
theorem logSticky_of_errs_eq {b a : State} (h : a.errs = b.errs) : logSticky b a = a := by
  refine List.foldlRecOn (motive := (· = a)) Sticky.all _ rfl fun t unlogged k _ => (if_neg ?_).trans unlogged
  rw [State.err_congr h]
  simp only [Bool.and_eq_true, decide_eq_true_eq, bne_iff_ne]
  exact fun ⟨zero, nonzero⟩ => nonzero zero

/-- Where no summary bit is newly set and ALERT_N is not newly asserted, vector 1 is not raised. -/
theorem alertVector_of_summary_eq {b a : State} (hs : a.summary = b.summary) (ha : a.alert = b.alert) : alertVector b a = a :=
  if_neg (by simp [hs, ha])

/-- The summary is made of the sticky registers of the dies that are there. -/
theorem State.summary_congr {s t : State} (he : t.errs = s.errs) (hs : t.sys = s.sys) : t.summary = s.summary := by
  have there : ∀ d, t.diePresent d = s.diePresent d := fun d => by rw [State.diePresent, State.diePresent, hs]
  exact List.foldl_rel (r := Eq) rfl fun k _ m n same => by rw [same, there, State.err_congr he]

/-- Nothing follows a command that leaves the sticky registers and what the summary and ALERT_N are made of. -/
theorem settle_of_errs_eq {b a : State} (he : a.errs = b.errs) (hs : a.sys = b.sys) (ht : a.trb = b.trb) (hp : a.pm = b.pm) : settle b a = a := by
  have sum : a.summary = b.summary := State.summary_congr he hs
  have al : a.alert = b.alert := by simp only [State.alert, sum, ht, hp]
  rw [settle, logSticky_of_errs_eq he, alertVector_of_summary_eq sum al]

/-! ## TLPs and BAR0 accesses that are refused (R36) -/

theorem exec_poisonedTlpWrite (s : State) (p : Port) :
    exec (.poisonedTlpWrite p) s = done s (s.hostRow p (s.aerError p .poisonedTlp)) := rfl

/-- An access of 4 or 8 bytes, naturally aligned, is none that BAR0 refuses. -/
theorem exec_bar0BadAccess_of_aligned {s : State} {p : Port} {off size : Nat} (h : (size = 4 ∨ size = 8) ∧ off % size = 0) :
    exec (.bar0BadAccess p off size) s = done s s :=
  if_pos (by simpa using h)

/-- Every other access completes as an unsupported request, which AER reports. -/
theorem exec_bar0BadAccess_of_bad {s : State} {p : Port} {off size : Nat} (h : ¬ ((size = 4 ∨ size = 8) ∧ off % size = 0)) :
    exec (.bar0BadAccess p off size) s = done s (s.hostRow p ((s.emit (.unsupported p)).aerError p .unsupportedRequest)) :=
  if_neg (by simpa using h)

/-- The report of an error to AER is all that follows from it. -/
theorem settle_aerError (b s : State) (p : Port) (e : AerError) (he : s.errs = b.errs) (hs : s.sys = b.sys) (ht : s.trb = b.trb) (hp : s.pm = b.pm) :
    settle b (s.aerError p e) = s.aerError p e :=
  settle_of_errs_eq he hs ht hp

/-- Settles O4: AER's report touches no sticky register, so nothing else follows it. -/
theorem badTlpsChangeNothing : Obligations.BadTlpsChangeNothing := by
  refine ⟨fun s p rp => ?poisoned, fun s p off size rp bad => ?badAccess, fun s p rp => ⟨?poisonedNotHeard, fun off size => ?accessNotHeard⟩⟩
  case poisoned =>
    refine leads_done (exec_poisonedTlpWrite s p) ?_
    rw [State.hostRow_of_reached rp, settle_aerError s s p _ rfl rfl rfl rfl]
    rfl
  case badAccess =>
    refine leads_done (exec_bar0BadAccess_of_bad bad) ?_
    rw [State.hostRow_of_reached rp, settle_aerError s (s.emit _) p _ rfl rfl rfl rfl]
    rfl
  case poisonedNotHeard => exact gives_self_of_not_reached rp (exec_poisonedTlpWrite s p)
  case accessNotHeard =>
    by_cases aligned : (size = 4 ∨ size = 8) ∧ off % size = 0
    · exact gives_self (exec_bar0BadAccess_of_aligned aligned)
    · exact gives_self_of_not_reached rp (exec_bar0BadAccess_of_bad aligned)

end Sys2Proof.Machine
end
